-- ==== Sys2Proof/Word.lean ====
section
/-! DEFINITION. The word types of the module and the plainest arithmetic on them. -/

namespace Sys2Proof

/-- A byte. -/
abbrev Byte := BitVec 8

/-- A setup-register word (R808). -/
abbrev Word := BitVec 32

/-- A 64-bit word. -/
abbrev Word64 := BitVec 64

/-- The largest value of a 32-bit counter (R102). -/
def countMax : Nat := 0xFFFFFFFF

/-- A saturating 32-bit counter raised by `n` (R102). -/
def satAdd (c n : Nat) : Nat := min (c + n) countMax

/-- Clamp an integer to a closed range. -/
def clampInt (lo hi v : Int) : Int := max lo (min hi v)

end Sys2Proof
end

