-- ==== Sys2Proof/Machine/PixTypes.lean ====
section
/-! DEFINITION. The records of the pixel path: accepted lines, parameter banks, the running state of a
context's front end, geometry stage and back end, and the parts of the seam merge unit. -/

namespace Sys2Proof.Machine

/-- A value with its mark: CLIPPED before the mosaic stage (R147), SAT after it (R177). -/
abbrev Px := Int × Bool

/-- A run of camera lines missing for one gap cause of R318, by unwrapped line number. -/
structure Gap where
  first : Nat
  last : Nat
  cause : Nat
  deriving DecidableEq, Repr

/-- An accepted, stamped line as it stands in an ingress FIFO or strip buffer (R69, R114). -/
structure CamLine where
  idx : Nat
  abs : Nat
  tag : Nat
  time : Nat
  pos : Int
  replaced : Bool
  triggered : Bool
  strip : Nat
  off : Nat
  depth : Nat
  gaps : List Gap
  mismatch : Bool
  suspect : Bool
  illegal : Bool
  lastOfStrip : Bool
  poisoned : Bool
  rows : List (List Nat)
  deriving DecidableEq, Repr

/-- Dark-tracking parameters (R152). -/
structure DarkCfg where
  start0 : Nat
  start1 : Nat
  p0 : Nat
  p1 : Nat
  range1 : Bool
  rowMask : Nat
  kt : Nat
  tl : Nat
  ti : Int
  resetOnCommit : Bool
  deriving DecidableEq, Repr

/-- A defect list entry (R156). -/
structure Defect where
  row : Nat
  col : Nat
  dir : Nat
  deriving DecidableEq, Repr

/-- The stage enables of R149. -/
structure Enables where
  black : Bool
  track : Bool
  defect : Bool
  outlier : Bool
  shade : Bool
  mosaic : Bool
  matrix : Bool
  stat : Bool
  deriving DecidableEq, Repr

/-- The front-end part of a parameter bank (R149). Tables are row-major lists; a position a list does not
reach has the table's default. -/
structure FrontBank where
  en : Enables
  clip : Nat
  bc : List Int
  br : List Int
  dark : DarkCfg
  defects : List Defect
  outlier : Nat
  gain : List Nat
  offs : List Int
  mosRows : Nat
  mosCols : Nat
  cells : List Nat
  dist : List Nat
  delta : List Nat
  planes : List Nat
  kernels : List (List Int)
  matrix : List (List Int)
  channels : Nat
  statFirst : Nat
  statLast : Nat
  colbin : Nat
  deriving DecidableEq, Repr

/-- A cross-web mapping entry (R199). -/
structure MapEntry where
  src : Nat
  ph : Nat
  w : Nat
  set : Nat
  deriving DecidableEq, Repr

/-- The geometry part of a parameter bank: generation, mapping entries of the span, kernel sets (R199 to R202, R216). -/
structure GeoBank where
  gen : Nat
  entries : List MapEntry
  sets : List (List Int)
  deriving DecidableEq, Repr

/-- A detection layer (R246, R255). -/
structure Layer where
  plane : Nat
  polarity : Nat
  ts : Nat
  tg : Nat
  os : Nat
  og : Nat
  freeze : Bool
  deriving DecidableEq, Repr

/-- The back-end part of a parameter bank (R246). -/
structure SegBank where
  planes : Nat
  weights : List (List Int)
  rate : List Nat
  d0 : List Nat
  warmup : Nat
  hold : Nat
  resetModel : Bool
  layers : List Layer
  streamExp : Nat
  lists : List (List Int)
  nodes : List (BitVec 64)
  actions : List (BitVec 32)
  deriving DecidableEq, Repr

/-- A parameter bank. -/
structure Bank where
  front : FrontBank
  geo : GeoBank
  seg : SegBank
  deriving DecidableEq, Repr

/-- What lies beyond an edge of a context's owned columns (R277). -/
inductive Nbr where
  | none | ctx (c : Nat) | fabric (addr : Nat)
  deriving DecidableEq, Repr

/-- A blend band of a context: its columns and its partner (R208). -/
structure Band where
  first : Nat
  last : Nat
  partner : Nat
  owner : Bool
  right : Bool
  deadline : Nat
  deriving DecidableEq, Repr

/-- What the live plan fixes for one context. -/
structure CtxPlan where
  service : Nat
  slice : Nat
  lines : Nat
  flushMs : Nat
  rows : Nat
  width : Nat
  depth : Nat
  encTrig : Bool
  refRow : Nat
  look : Nat
  mount : Int
  gLo : Nat
  gHi : Nat
  oLo : Nat
  oHi : Nat
  dwMode : Nat
  bands : List Band
  left : Nbr
  right : Nbr
  share : Nat
  engine : Nat
  maxLinePeriod : Nat
  boundNs : Nat
  granules : List Nat
  deriving DecidableEq, Repr

/-- A line of the registration history: the x3 values of every sensor row (R169, R172). -/
structure HistLine where
  abs : Nat
  idx : Nat
  tag : Nat
  time : Nat
  pos : Int
  y : Int
  replaced : Bool
  strip : Nat
  off : Nat
  mismatch : Bool
  suspect : Bool
  illegal : Bool
  lastOfStrip : Bool
  trk : List Int
  limited : Bool
  outliers : Nat
  rows : List (List Px)
  deriving DecidableEq, Repr

/-- Statistics of one channel under accumulation (R182, R183). -/
structure ChanStat where
  sum : Int
  hist : List Nat
  clipped : Nat
  overs : Nat
  bins : List Int
  deriving DecidableEq, Repr

/-- A statistics record under accumulation (R132, R185). -/
structure StatAcc where
  strip : Nat
  base : Nat
  tag : Nat
  time : Nat
  idx : Nat
  off : Nat
  lines : Nat
  replaced : Bool
  gap : Bool
  mismatch : Bool
  trackLimit : Bool
  regClamped : Bool
  outliers : Nat
  trk : List Int
  chans : List ChanStat
  deriving DecidableEq, Repr

/-- The running state of a context's front end. -/
structure FeSt where
  hist : List HistLine
  gaps : List Gap
  start : Nat
  linkStart : Bool
  nextReg : Option Nat
  t28 : List Int
  prevX2 : List (List Px)
  lastDelta : List (Option Nat)
  stats : List StatAcc
  statOverflow : Bool
  bankStrip : Option Nat
  deriving DecidableEq, Repr

/-- A registered line after the colour matrix (R164, R178), a missing one (R171), or one that an inspection
start does not produce (R830). -/
structure RegLine where
  src : HistLine
  missing : Nat
  skip : Bool
  clamped : Bool
  chans : List (List Px)
  deriving DecidableEq, Repr

/-- A registered, colour-corrected line mapped onto the span columns (R201), or a missing one. -/
structure GeoLine where
  abs : Nat
  pos : Int
  y : Int
  time : Nat
  missing : Nat
  replaced : Bool
  suspect : Bool
  uncertain : Bool
  strip : Nat
  gen : Nat
  vals : List (List Px)
  deriving DecidableEq, Repr

/-- A blend contribution word (R210). -/
structure Contrib where
  v : Int
  w : Nat
  sat : Bool
  valid : Bool
  deriving DecidableEq, Repr

/-- A partner's line record in a band's blend memory (R210). -/
structure BandLine where
  partner : Nat
  m : Int
  gen : Nat
  words : List (List Contrib)
  deriving DecidableEq, Repr

/-- A maximal range of uninspected columns of one output line with its gap cause (R243, R319). -/
structure ColGap where
  first : Int
  last : Int
  cause : Nat
  deriving DecidableEq, Repr

/-- An output line: channels of the span columns, its time and quality, and the arrival of the last camera line it
uses (R224, R227, R229, R327). -/
structure OutLine where
  m : Int
  time : Nat
  missing : Nat
  strip : Option Nat
  arrive : Nat
  gen : Nat
  replaced : Bool
  suspect : Bool
  uncertain : Bool
  colGaps : List ColGap
  vals : List (List Px)
  deriving DecidableEq, Repr

/-- The running state of a context's geometry stage. -/
structure GeoSt where
  lines : List GeoLine
  gaps : List Gap
  start : Nat
  linkStart : Bool
  nextM : Option Int
  maxY : Option Int
  reversing : Bool
  waiting : List OutLine
  contrib : List BandLine
  gave : List Nat
  deriving DecidableEq, Repr

/-- The background model of one column (R248). -/
structure ColModel where
  m : List Int
  d : List Int
  freeze : Nat
  warmEnd : Option Int
  deriving DecidableEq, Repr

/-- The accumulators of R265; coordinates are absolute, sums relative to (xRef, yRef). -/
structure Acc where
  a : Nat
  mFirst : Int
  mLast : Int
  gMin : Int
  gMax : Int
  xRef : Int
  yRef : Int
  sx : Int
  sy : Int
  sxx : Int
  syy : Int
  sxy : Int
  sc : Int
  scq : List Int
  peak : Int
  peakG : Int
  peakM : Int
  runs : Nat
  crack : Nat
  deriving DecidableEq, Repr

/-- A finished segment or blob waiting to be handed over (R270). -/
structure Piece where
  acc : Acc
  attr : Nat
  seed : Bool
  suspect : Bool
  uncertain : Bool
  deriving DecidableEq, Repr

/-- An open blob of a context (R259, R260, R270). -/
structure Blob where
  id : Nat
  firstM : Int
  firstG : Int
  segFirst : Int
  lastM : Int
  acc : Option Acc
  attr : Nat
  seed : Bool
  streamer : Bool
  edge : Bool
  cutSent : Bool
  held : List Piece
  suspect : Bool
  uncertain : Bool
  label : Nat
  edgeLo : List (Int × Int)
  edgeHi : List (Int × Int)
  deriving DecidableEq, Repr

/-- A run of one line and the blob it belongs to (R258). -/
structure Run where
  a : Int
  b : Int
  blob : Nat
  deriving DecidableEq, Repr

/-- A gap pennant under formation (R319). -/
structure GapRun where
  first : Int
  last : Int
  cause : Nat
  gLo : Int
  gHi : Int
  time : Nat
  suspect : Bool
  uncertain : Bool
  replaced : Bool
  deriving DecidableEq, Repr

/-- Grow-mask pixels counted in one storm tile of the present strip (R275). -/
structure Tile where
  col : Int
  row : Int
  count : Nat
  deriving DecidableEq, Repr

/-- What the back end remembers of a labelled output line: time, strip, whether it was missing, its quality. -/
structure LineInfo where
  m : Int
  time : Nat
  arrive : Nat
  strip : Option Nat
  missing : Bool
  replaced : Bool
  suspect : Bool
  uncertain : Bool
  deriving DecidableEq, Repr

/-- The running state of a context's back end. -/
structure SegSt where
  model : List ColModel
  blobs : List Blob
  prev : List Run
  prevGaps : List ColGap
  prevM : Option Int
  prevMissing : Bool
  strip : Option Nat
  stripFirst : Option Int
  storm : Bool
  tiles : List Tile
  gaps : List GapRun
  nextId : Nat
  lastProgress : Option Int
  lines : List LineInfo
  banks : List (Int × SegBank)
  deriving DecidableEq, Repr

/-- A bunting record of R279 with, for PART, its body (R280). -/
structure Bunt where
  kind : Nat
  edge : Nat
  ctx : Nat
  addr : Nat
  label : Nat
  first : Int
  last : Int
  attr : Nat
  seed : Bool
  streamer : Bool
  suspect : Bool
  uncertain : Bool
  body : Option Acc
  deriving DecidableEq, Repr

/-- An edge run held by the seam merge unit (R280, R281). -/
structure EdgeRun where
  addr : Nat
  ctx : Nat
  label : Nat
  edge : Nat
  first : Int
  last : Int
  cut : Bool
  gone : Bool
  deriving DecidableEq, Repr

/-- A part held by the seam merge unit (R277, R281). -/
structure Part where
  addr : Nat
  ctx : Nat
  label : Nat
  acc : Acc
  attr : Nat
  seed : Bool
  strip : Nat
  mustSplit : Bool
  suspect : Bool
  uncertain : Bool
  edges : List (Nat × Nbr)
  deriving DecidableEq, Repr

/-- Coverage of one edge by PROGRESS, MISSING and STORM records (R282). -/
structure Cover where
  addr : Nat
  ctx : Nat
  edge : Nat
  upTo : Int
  ranges : List (Int × Int)
  deriving DecidableEq, Repr

/-- The seam merge unit. -/
structure SeamSt where
  inq : List Bunt
  parts : List Part
  runs : List EdgeRun
  cover : List Cover
  deriving DecidableEq, Repr

/-- A pennant in the queue, before its CRC is formed (R302); the latency bound instant is kept beside it. -/
structure Pennant where
  seq : Nat
  time : Nat
  y : Int
  x : Int
  len : Nat
  wid : Nat
  area : Nat
  cls : Nat
  addr : Nat
  ctxByte : Nat
  kind : Nat
  flags : Nat
  peak : Int
  mean : Int
  low : Nat
  due : Nat
  deriving DecidableEq, Repr

end Sys2Proof.Machine
end

