-- ==== Sys2Proof/Machine/Table.lean ====
section
/-! DEFINITION. A finite table with a default: a list of (key, value) pairs in one canonical form, keys
strictly rising and no entry equal to what an unlisted key reads as. All indexed state of the block (ports,
contexts, sessions, channels, bursts of module memory, the setup registers) is held in this form. -/

namespace Sys2Proof.Machine

/-- A table of values of type `α` keyed by natural numbers. -/
abbrev Tbl (α : Type) := List (Nat × α)

/-- The value at key `k`, `d` where the key is not listed. -/
def tblGet {α : Type} (t : Tbl α) (d : α) (k : Nat) : α :=
  match t with
  | [] => d
  | (j, v) :: r => if j = k then v else tblGet r d k

/-- Put an entry in front of the first larger key. -/
def tblInsert {α : Type} (k : Nat) (v : α) : Tbl α → Tbl α
  | [] => [(k, v)]
  | (j, w) :: r => if k < j then (k, v) :: (j, w) :: r else (j, w) :: tblInsert k v r

/-- Drop every entry of key `k`. -/
def tblErase {α : Type} (k : Nat) (t : Tbl α) : Tbl α := t.filter (fun e => e.1 ≠ k)

/-- Store `v` at key `k`; storing the default removes the entry. -/
def tblSet {α : Type} [DecidableEq α] (t : Tbl α) (d : α) (k : Nat) (v : α) : Tbl α :=
  if v = d then tblErase k t else tblInsert k v (tblErase k t)

/-- The canonical form: keys strictly rising, no entry equal to the default `d k` of its key. -/
def tblWf {α : Type} [DecidableEq α] (d : Nat → α) : Tbl α → Bool
  | [] => true
  | [(k, v)] => decide (v ≠ d k)
  | (k, v) :: (j, w) :: r => decide (v ≠ d k) && decide (k < j) && tblWf d ((j, w) :: r)

/-- Replace element `i` of a list; the list is unchanged where it has no such element. -/
def listSet {α : Type} (l : List α) (i : Nat) (v : α) : List α := l.set i v

/-- Change element `i` of a list by `f`. -/
def listModify {α : Type} (l : List α) (i : Nat) (f : α → α) : List α :=
  match l, i with
  | [], _ => []
  | a :: r, 0 => f a :: r
  | a :: r, i + 1 => a :: listModify r i f

end Sys2Proof.Machine
end

