-- ==== Sys2Proof/Machine/PlanTypes.lean ====
section
/-! DEFINITION. What a compiled plan fixes for the module (R27): grid, contexts, banks, slot plan, overview,
buffers. -/

namespace Sys2Proof.Machine

/-- The overview's parameters (R230 to R232, R241). -/
structure OvwPlan where
  hx : Nat
  hy : Nat
  width : Nat
  ratioX : Nat
  ratioY : Nat
  pitch : Nat
  chans : List Nat
  gains : List Nat
  offs : List Int
  blockExp : Nat
  deriving DecidableEq, Repr

/-- An export profile (R379). -/
structure Profile where
  format : Nat
  chans : Nat
  marginX : Nat
  marginY : Nat
  gain : Nat
  offs : Int
  ring : Nat
  slots : Nat
  slotSize : Nat
  deriving DecidableEq, Repr

/-- What the recipe says of a camera beyond its context plan (R393). -/
structure CamPlan where
  serial : Nat
  lanes : Nat
  trigSource : Nat
  trigPath : Nat
  maxLineRate : Nat
  divider : Nat
  writes : List (Nat × Nat)
  record : List Byte
  mosaic : List Byte
  deriving DecidableEq, Repr

/-- An ENCODER record (R396). -/
structure EncPlan where
  mode : Nat
  filter : Nat
  invert : Bool
  nominal : Nat
  tol : Nat
  rezero : Bool
  window : Nat
  wake : Nat
  deriving DecidableEq, Repr

/-- A MARKER record (R396). -/
structure AxisPlan where
  offset : Int
  scale : Nat
  lo : Int
  hi : Int
  vel : Nat
  acc : Nat
  dec : Nat
  run : Nat
  hold : Nat
  feedback : Nat
  lowRamped : Bool
  highRamped : Bool
  drop : Bool
  tout : Nat
  width : Nat
  deriving DecidableEq, Repr

/-- A TOUT record (R396); function 0 is off. -/
structure ToutPlan where
  func : Nat
  port : Nat
  period : Nat
  width : Nat
  phase : Nat
  low : Bool
  deriving DecidableEq, Repr

/-- An event channel entry of the EVENTS record (R396, R700). -/
structure ChanPlan where
  source : Nat
  consumer : Nat
  owner : Nat
  secure : Bool
  deriving DecidableEq, Repr

/-- A logic-cell entry of the EVENTS record (R396, R708, R709). -/
structure CellPlan where
  modes : List Nat
  pins : List Nat
  table : Nat
  ff : Bool
  filter : Nat
  secure : Bool
  deriving DecidableEq, Repr

/-- What a plan takes from its FABRIC record (R396, R606): topology, fabric hash, grid channels of the seam strips. -/
structure FabPlan where
  topology : Nat
  hash : List Byte
  chans : Nat
  deriving DecidableEq, Repr

/-- What a plan lays down outside the pixel path: feedback channels, axes, outputs, events, fabric, reports; and the code
table each context starts from, with DYNAMIC clear where the recipe makes it static (R349); the ranks,
as R415 numbers them, that hold the two journal copies (R404). -/
structure PlanOuts where
  encs : Tbl EncPlan
  axes : Tbl AxisPlan
  touts : Tbl ToutPlan
  chans : List ChanPlan
  cells : List CellPlan
  fab : Option FabPlan
  delivery : Bool
  blockExp : Nat
  snapJ : List Nat
  bgCap : Nat
  fifoShort : List Nat
  tables : List (Nat × Bool × List (List Nat))
  spares : List Nat
  allocated : Tbl Nat
  journal : List Nat
  latencyUs : Nat
  limitUs : Nat
  store : Bool
  deriving DecidableEq, Repr

/-- A plan: the grid, the contexts and their first banks, the slot plan, buffers and rings it names. -/
structure Plan where
  id : Nat
  hash : List Byte
  recipeHash : List Byte
  pitchX : Nat
  pitchY : Nat
  originX : Int
  columns : Nat
  scale : Nat
  refEnc : Nat
  redEnc : Option Nat
  startSpeed : Nat
  minSpeed : Nat
  ctxs : Tbl CtxPlan
  cams : Tbl CamPlan
  banks : Tbl Bank
  chunks : Nat
  statBuf : Tbl (Nat × Nat)
  profiles : Tbl Profile
  ovw : OvwPlan
  penHost : List Byte
  penPort : Nat
  minDepth : Nat
  minRatio : Nat
  outs : PlanOuts
  deriving DecidableEq, Repr

end Sys2Proof.Machine
end

