-- ==== Sys2Proof/Syntax.lean ====
section
/-! DEFINITION. The commands of the block (spec/opcode_table.json), one constructor per row, with what each
brings from outside: packets, records, register values, timer and pin events. -/

namespace Sys2Proof

/-- A camera port, P0 to P11. -/
abbrev PortId := Fin 12
/-- A context, named by its port (R104). -/
abbrev CtxId := Fin 12
/-- A lane of a camera link; lanes 4 to 7 of a bonded pair are in the upper cage (R35). -/
abbrev LaneId := Fin 8
/-- A pipeline slice, S0 to S3. -/
abbrev SliceId := Fin 4
/-- A host session, 0 to 3. -/
abbrev SessId := Fin 4
/-- An Ethernet port: 0 is A, 1 is B. -/
abbrev EthId := Fin 2
/-- A DRAM channel, MC0 to MC15. -/
abbrev ChanId := Fin 16
/-- A cage: 0 to 11 are the camera ports, 12 is port A, 13 is port B. -/
abbrev Cage := Fin 14
/-- A feedback channel, E0 to E3. -/
abbrev EncId := Fin 4
/-- A marker axis, AX0 or AX1. -/
abbrev AxisId := Fin 2
/-- A timed output, TOUT0 to TOUT15. -/
abbrev ToutId := Fin 16
/-- An event channel, EVC0 to EVC63. -/
abbrev EvcId := Fin 64
/-- A logic cell, LC0 to LC31. -/
abbrev CellId := Fin 32
/-- A check-value unit. -/
abbrev UnitId := Fin 8
/-- A compression engine. -/
abbrev EngineId := Fin 2

/-- The medium a QSFP28 module declares (R507). -/
inductive Media where
  | sr4 | lr4 | cr4 | other
  deriving DecidableEq, Repr

/-- A measured eye: width in 1/65 536 UI and height in microvolts at a bit error ratio of 10^-12 (R42). -/
structure Eye where
  width : Nat
  height : Nat
  deriving DecidableEq, Repr

/-- A framed ZLP packet as received (R58, R59): the SOP and EOP blocks' eight bytes, the body with its pad,
the body offset of the first invalid or unused block, and whether another SOP cut it short. -/
structure Pkt where
  sop : List Byte
  body : List Byte
  eop : List Byte
  badAt : Option Nat
  cut : Bool
  deriving DecidableEq, Repr

/-- A management frame as received at a port (R516, R517): arrival port, hop limit, source and destination
addresses (16 bytes, IPv4 mapped), source UDP port, and the frame's bytes. -/
structure MgmtFrame where
  port : EthId
  hop : Nat
  src : List Byte
  srcPort : Nat
  dst : List Byte
  bytes : List Byte
  deriving DecidableEq, Repr

/-- A status of R413 with the record type, instance and offset it names. -/
structure PlanStatus where
  status : Nat
  type : Nat
  inst : Nat
  off : Nat
  deriving DecidableEq, Repr

/-- What the Planner hands over at the end of a compile: time, plan, image of both variants, report, and a
refusal it found (R397, R413, R422, R423). -/
structure Compiled where
  ms : Nat
  plan : Machine.Plan
  image : List Byte
  report : List Byte
  refuse : Option PlanStatus
  deriving DecidableEq, Repr

/-- The tables the Planner compiles from bank-class records (R399, R400), by context, and a refusal it found. -/
structure BankSet where
  banks : List (Nat × Machine.Bank)
  refuse : Option PlanStatus
  deriving DecidableEq, Repr

/-- The record a DRAM read serves (R436). -/
inductive MemUse where
  | strip (c : CtxId) (strip idx : Nat)
  | ring (c : CtxId) (strip idx : Nat)
  | journal (n : Nat)
  | image (n : Nat)
  | tables
  | free
  deriving DecidableEq, Repr

/-- A PTP event or follow-up message: source port identity, sequence, two-step flag, origin or receive
timestamp and correctionField in 1/65 536 ns, requesting port identity, and the arrival's 0.4 ns part. -/
structure PtpMsg where
  src : Nat
  seq : Nat
  twoStep : Bool
  origin : Int
  corr : Int
  req : Nat
  sub : Fin 4
  deriving DecidableEq, Repr

/-- A PTP Announce: source port identity and the data set that the best master clock algorithm compares. -/
structure AnnMsg where
  src : Nat
  prio1 : Nat
  cls : Nat
  acc : Nat
  var : Nat
  prio2 : Nat
  gm : Nat
  steps : Nat
  ptp : Bool
  deriving DecidableEq, Repr

/-- The Pdelay messages. -/
inductive PdKind where
  | req | resp | respFollowUp
  deriving DecidableEq, Repr

/-- The PTP messages that the transparent clock forwards (R579). -/
inductive TransitKind where
  | sync | followUp | delayReq | delayResp
  deriving DecidableEq, Repr

/-- The header of a fabric message (R615), and whether its CRC holds. -/
structure FabHead where
  src : Nat
  dest : Nat
  hops : Nat
  flags : Nat
  seq : Nat
  ref : Nat
  crcOk : Bool
  deriving DecidableEq, Repr

/-- The body of an ASSIGN (R617). -/
structure AssignBody where
  addr : Nat
  h : Nat
  hash : List Byte
  cutLow : Int
  cutHigh : Int
  x0 : Int
  wLow : Nat
  wHigh : Nat
  deriving DecidableEq, Repr

/-- What a start step found (R757, R759): whether its check passed, the image used and its identity, the channels
that failed the verify, and those of them that passed it at 0 UI offset. -/
structure StepResult where
  ok : Bool
  imageB : Bool
  fwVersion : Nat
  fwHash : List Byte
  verifyFail : List Nat
  zeroOk : List Nat
  deriving DecidableEq, Repr

/-- The commands of the block, one constructor per row of the table of operations and events. -/
inductive Instr where
  /-- A QSFP28 module fitted in a cage is read over SFF-8636 and either admitted or held in low-power mode and reported as not present (R32). -/
  | qsfpModuleInserted (cage : Cage) (powerMw : Nat) (media : Media)
  /-- Signal detect on a camera port starts bring-up in DISCOVER on lane 0 at rate code 0 (R44). -/
  | signalDetect (p : PortId)
  /-- The 1 µs timer expires and the module sends its next DSC ordered set on lane 0 (R44). -/
  | dscInterval (p : PortId)
  /-- A received DSC ordered set is checked, and after 3 consecutive valid DSC with the peer's role the port leaves DISCOVER (R44). -/
  | dsc (p : PortId) (role seq : Byte)
  /-- A received camera capability record has its CRC checked, and the module answers ACK or NAK and sends SELECT (R39). -/
  | capabilityRecord (p : PortId) (ty seq : Byte) (bytes : List Byte)
  /-- A received ACK ordered set acknowledges a record, such as SELECT, and advances bring-up (R44). -/
  | ack (p : PortId) (ty seq : Byte)
  /-- A received NAK ordered set refuses a record, and the module sends that record again or, after 8 sends, returns to step 1 (R44). -/
  | nak (p : PortId) (ty seq : Byte)
  /-- No answer to a record has come within 1 ms, so the record is sent again, or after 8 sends the port returns to DISCOVER (R44). -/
  | recordTimeout (p : PortId)
  /-- A camera's STEP_ACK on a lane starts the 10 µs wait before that lane switches to the next rate (R45). -/
  | stepAck (p : PortId) (rate lane : Byte)
  /-- 10 µs after STEP_ACK, lane L switches to the new rate and sends TRAIN (R45). -/
  | laneRateSwitch (p : PortId) (lane : LaneId)
  /-- A receiver's adaptation of at most 2 ms ends, and it sends RESULT with its FoM (R45). -/
  | adaptationDone (p : PortId) (lane : LaneId) (eye : Eye)
  /-- A received RESULT is compared with 96, and the rate step is kept or the lane returns to its previous rate (R45). -/
  | result (p : PortId) (fom lane : Byte)
  /-- No RESULT has arrived 3 ms after STEP_ACK, so lane L returns to its previous rate and adaptation (R45). -/
  | resultTimeout (p : PortId) (lane : LaneId)
  /-- The camera's echo of SWITCH starts the 10 µs wait before all active lanes change to 64b/66b (R44). -/
  | switch (p : PortId) (rate lanes : Byte)
  /-- 10 µs after the SWITCH echo, both ends switch every active lane to 64b/66b and enter LOCK (R44). -/
  | lineCodeSwitch (p : PortId)
  /-- Block and alignment lock have not come within 1 ms of LOCK, so the port returns to DISCOVER (R44). -/
  | lockTimeout (p : PortId)
  /-- The count of 64 consecutive valid sync headers is reached and the lane declares block lock (R53). -/
  | blockLock (p : PortId) (lane : LaneId) (headers : List (BitVec 2))
  /-- 16 of 64 sync headers are invalid, so the lane loses block lock (R53). -/
  | blockLockLost (p : PortId) (lane : LaneId) (headers : List (BitVec 2))
  /-- A received ALIGN marker block is deskewed against the other lanes and counts toward alignment lock or its loss (R57). -/
  | align (p : PortId) (lane : LaneId) (block : Option (List Byte)) (arrivalPs : Nat)
  /-- A received STATUS block records the camera's FoM for the lane in ZLP_CAM_FOM (R54). -/
  | status (p : PortId) (lane : LaneId) (block : List Byte)
  /-- Bring-up has not reached LINKED within 32 ms of signal detect, so the failure is counted and a 100 ms wait starts (R50). -/
  | bringupTimeout (p : PortId)
  /-- The 100 ms wait after a failed bring-up expires and the port returns to DISCOVER (R50). -/
  | discoverRetry (p : PortId)
  /-- A received LINE packet is checked, handled by the index rule, stamped, mapped onto a strip and placed in the ingress FIFO (R67). -/
  | line (p : PortId) (pkt : Pkt)
  /-- A received CTRL acknowledgement completes the outstanding CTRL request with its status and data (R84). -/
  | ctrlAcknowledgement (p : PortId) (pkt : Pkt)
  /-- A received camera event is acted on by its code: it completes or fails a settings request, counts an overrun, or is forwarded as notice 0x8004 (R89). -/
  | cevt (p : PortId) (pkt : Pkt)
  /-- No answer to an APPLY has come in time, so it is sent again, or after 3 sends NOTICE cause 5 is set and the request fails (R83). -/
  | applyTimeout (p : PortId)
  /-- No CTRL acknowledgement has come within 1 ms, so the request is sent again, or after 3 sends NOTICE cause 2 is set (R85). -/
  | ctrlTimeout (p : PortId)
  /-- No trigger has fallen due for 10 ms on an encoder-triggered port, so the module sends SLEEP and powers down the port PHY (R743). -/
  | phyIdleTimeout (p : PortId)
  /-- A wake request powers the port PHY and resumes the downlink, with lock taken at the first ALIGN received (R91). -/
  | phyWake (p : PortId)
  /-- Alignment lock or a STATUS has not come within 150 µs of the wake request, so the port rediscovers from step 1 (R93). -/
  | phyWakeTimeout (p : PortId)
  /-- The 200 µs of adaptation in a warm-start port resume ends, and the FoM values are compared with 96 (R93). -/
  | warmResumeAdaptDone (p : PortId) (eyes : List Eye)
  /-- No STATUS has arrived within 20 ms of a warm-start resume, so the port rediscovers from step 1 (R93). -/
  | warmStatusTimeout (p : PortId)
  /-- A lane's FoM has stayed below 64 for 10 ms, so the FOM_LOW source fires (R103). -/
  | fomLow (p : PortId)
  /-- A write of ZLP_CTRL.REDISCOVER restarts bring-up from DISCOVER (R98). -/
  | rediscover (p : PortId)
  /-- A write of ZLP_CTRL.ADAPT re-runs full adaptation of step 4 at the present rate, in MORNING and MIDNIGHT only (R98). -/
  | adapt (p : PortId)
  /-- The context has accepted no line for FLUSH_MS, so the flush timer expires and the context rebases (R111). -/
  | flushTimer (c : CtxId)
  /-- At a granule boundary the slice saves and restores context state and switches to the granule's owning context (R120). -/
  | granuleBoundary (sl : SliceId)
  /-- Firmware finishes copying the newly active bank into the shadow after the retired bank's last strip, and BANK_WRITABLE is set (R126). -/
  | bankCopyDone (c : CtxId)
  /-- Every context of a slice has been idle for 1 ms, so the slice may sleep with its state banks retained (R135). -/
  | sliceIdleTimeout (sl : SliceId)
  /-- A sleeping slice wakes on its cause and processes the waiting data within 20 µs (R136). -/
  | sliceWake (sl : SliceId)
  /-- The front end processes one camera line through black level, defects, shading, mosaic, matrix and statistics (R148). -/
  | frontEndLine (c : CtxId)
  /-- The down-web stage emits output line m once every camera line it needs has arrived (R224). -/
  | outputLine (c : CtxId)
  /-- The owner's band deadline expires without the partner's line m, so the owner uses its own values and counts the line missing (R214). -/
  | bandDeadline (c partner : CtxId)
  /-- The overview unit writes a decimated overview line record to the overview ring, or drops it when the ring is full (R233). -/
  | overviewLine
  /-- The overview line rate has passed 20 000 lines/s for 10 ms, so the unit fires OVW_RATE_LIMIT and skips lines (R241). -/
  | ovwRateLimit
  /-- The back end models, detects and labels one output line into runs and blobs, closing blobs that it ends (R261). -/
  | labelLine (c : CtxId)
  /-- The seam merge unit takes a bunting record and joins parts by union-find (R281). -/
  | buntingRecord
  /-- Pennants from the queue head are gathered into one RDMA WRITE of up to 64 to the pennant ring, or sent as datagrams (R323). -/
  | pennantWrite
  /-- A pennant has been held 2 µs while gathering, so the gathered RDMA WRITE is sent (R323). -/
  | gatherTimeout
  /-- A compression engine codes an accepted line and appends its line record to the context's open chunk of the look-back ring (R357). -/
  | lineCompress (c : CtxId) (carried : Bool)
  /-- Firmware delivers a dynamic code table built from strip N, which applies from strip N+2 or is discarded as late (R351). -/
  | tableDelivery (c : CtxId) (strip : Nat) (lens : List (List Nat))
  /-- Once per millisecond firmware updates CMP_DEPTH and sets DEPTH_LOW when it falls below the minimum depth (R364). -/
  | depthUpdate
  /-- Once per second firmware updates CMP_RATIO and fires RATIO_LOW when it falls below the minimum ratio (R365). -/
  | ratioUpdate
  /-- A background job advances one 4 KB unit of output and keeps its restart point at the unit boundary (R476). -/
  | jobUnit (job : Nat)
  /-- A job that has not regained its resources within one frame, or meets a switch or rotation, is pre-empted to its last unit boundary (R478). -/
  | jobPreempt (job : Nat)
  /-- The Planner finishes compiling a main plan and completes the compile descriptor with the hashes and status (R397). -/
  | compileDone (res : Compiled)
  /-- A committed plan goes live at a frame boundary: every context rebases, blobs close, the model restarts and FALLBACKS_READY clears (R398). -/
  | planGoLive
  /-- The Planner finishes compiling a fallback plan and marks it ready, setting FALLBACKS_READY when all 80 are ready (R417). -/
  | fallbackCompiled (n : Fin 80) (plan : Machine.Plan) (tenMs : Nat)
  /-- Firmware finishes loading a fallback image into the inactive schedule and table banks (R418). -/
  | fallbackLoadDone
  /-- The module switches to the loaded fallback plan at the frame boundary and enters AFTERNOON (R418). -/
  | fallbackSwitch
  /-- A refresh interval opens its all-bank refresh slot on a channel (R437). -/
  | refresh (m : ChanId)
  /-- A periodic retrain slot measures the DQS oscillator and corrects the channel's delays by at most ±2/64 UI (R448). -/
  | retrain (m : ChanId) (corrections : List Int) (errors : Bool)
  /-- At a frame boundary the module switches between the normal and the hot variant of the live plan (R408). -/
  | refreshVariantSwitch
  /-- A DRAM burst is decoded as RS(80,64), corrected, found uncorrectable or found poisoned (R430). -/
  | codewordRead (m : ChanId) (rank : Fin 4) (burst : Nat) (word : List Byte) (use : MemUse)
  /-- A device reports a command/address parity error and its rank is taken out of service (R449). -/
  | commandAddressParity (m : ChanId) (rank : Fin 4)
  /-- Once per millisecond firmware reads every DRAM die temperature and switches to hot refresh at 83 °C (R438). -/
  | dramTemperatureRead (dies : List (List Int))
  /-- Every reading has stayed at or below 78 °C for 1 s, so the module returns to normal refresh at a frame boundary (R438). -/
  | hotExitTimer
  /-- Migration copies the next allocated burst of a failed rank to the spare, or writes it as poisoned (R450). -/
  | migrationBurst (m : ChanId) (word : List Byte)
  /-- Full training of a channel ends and its result is checked for plausibility and kept or refused (R446). -/
  | dramTrainingDone (m : ChanId) (width height : Nat) (vref : Int)
  /-- A write of MC_RETIRED.CLEAR in MIDNIGHT clears every retirement and FAILED mark of the channel (R458). -/
  | retiredClear (m : ChanId) (v : Word)
  /-- A journal entry becomes durable once both copies hold it, releasing work that waits on it (R483). -/
  | journalDurable (n : Nat)
  /-- The rebuild of a lost journal copy on another channel completes and SINGLE clears (R489). -/
  | journalRebuildDone
  /-- Every replayed entry has been written and no context catches up, so REPLAY_DONE fires (R496). -/
  | replayDone
  /-- A catching-up context's backlog falls below one strip and it returns to the fallback plan's service at the next strip boundary (R497). -/
  | catchupReturn (c : CtxId)
  /-- The last outstanding RDMA operation to a fenced window is acknowledged and the fence completes within 1 ms (R470). -/
  | fenceDone (s : SessId) (win : Nat)
  /-- An RDMA READ of descriptors completes, and each descriptor is checked and accepted or fetched again (R552). -/
  | descriptorFetch (s : SessId) (descs : List (List Byte))
  /-- The 2 µs wait after a descriptor fails its CRC or alive check expires and it is fetched again (R552). -/
  | descriptorRefetch (s : SessId) (desc : List Byte)
  /-- A RoCEv2 acknowledgement completes outstanding RDMA operations of a queue pair (R529). -/
  | rdmaAcknowledgement (s : SessId) (psn : Nat)
  /-- The local ACK timeout expires, so the queue pair retries, or after 7 retries the session is lost (R533). -/
  | ackTimeout (s : SessId)
  /-- An invalid-request NAK is received and the session is lost (R533). -/
  | invalidRequestNak (s : SessId)
  /-- A session's port has had no link for 50 ms and the session is lost (R533). -/
  | sessionNoLink (s : SessId)
  /-- An Ethernet port's link comes up with RS-FEC lock (R566). -/
  | linkUp (e : EthId)
  /-- An Ethernet port's link goes down (R566). -/
  | linkDown (e : EthId)
  /-- A CE-marked RoCEv2 packet arrives and the module returns a congestion notification packet (R515). -/
  | ceMarkedPacket (s : SessId)
  /-- A congestion notification packet arrives and the queue pair's send rate is halved (R515). -/
  | cnp (s : SessId)
  /-- 55 µs pass without a further notification and the send rate rises by 5 % of the port rate (R515). -/
  | rateRecovery (s : SessId)
  /-- A received priority-4 PFC pause is honoured (R514). -/
  | pfcPause (e : EthId) (paused : Bool)
  /-- An IPv6 neighbour solicitation is answered by the port (R509). -/
  | neighbourSolicitation (e : EthId) (target : List Byte)
  /-- An IPv4 ARP request is answered by the port (R509). -/
  | arpRequest (e : EthId) (target : List Byte)
  /-- A HELLO management request returns the module's identity, mode and session state (R522). -/
  | hello (f : MgmtFrame)
  /-- A READ management request returns register words in rising address order (R524). -/
  | read (f : MgmtFrame)
  /-- A WRITE management request writes register words in rising address order, for every register without a row of its own (R524). -/
  | write (f : MgmtFrame)
  /-- An OPEN request sets up a session's queue pair and rings, or with RESUME resumes a lost or held session and replays (R532). -/
  | openSession (f : MgmtFrame)
  /-- A CLOSE request releases the session or holds it for resume (R535). -/
  | closeSession (f : MgmtFrame)
  /-- A DOORBELL management request carries a doorbell record that passes the checks of an RDMA doorbell (R549). -/
  | doorbell (f : MgmtFrame)
  /-- A RESTART_RINGS request resumes descriptor fetch and ring writes after a translation fault (R544). -/
  | restartRings (f : MgmtFrame)
  /-- A PROVISION request sets session 0's key on an unprovisioned module under the stated conditions (R526). -/
  | provision (f : MgmtFrame)
  /-- A KEY_SET request unwraps and sets a target session's new key (R527). -/
  | keySet (f : MgmtFrame)
  /-- A KEY_CLEAR request in MIDNIGHT clears the keys of the target sessions (R528). -/
  | keyClear (f : MgmtFrame)
  /-- A management request of an unused type is answered with status 3 (R522). -/
  | mgmtUnusedType (f : MgmtFrame)
  /-- The 1 s lockout after 16 authentication failures on a session ends (R518). -/
  | authLockoutEnd (s : SessId)
  /-- An RDMA WRITE into the doorbell page is checked and moves a ring index, journalling RETIRE or ACK where it passes entries (R548). -/
  | rdmaDoorbell (s : SessId) (key addr : Nat) (bytes : List Byte)
  /-- The NOP descriptor does nothing and completes (R555). -/
  | nop (s : SessId) (idx : Nat)
  /-- The WINDOW_DEFINE descriptor defines a host window, mapped linearly or left invalid (R466). -/
  | windowDefine (s : SessId) (idx : Nat)
  /-- The MAP_INLINE descriptor maps page entries carried in the descriptor and ends a fence (R466). -/
  | mapInline (s : SessId) (idx : Nat)
  /-- The MAP_TABLE descriptor maps page entries read by RDMA READ and ends a fence (R466). -/
  | mapTable (s : SessId) (idx : Nat)
  /-- The FENCE descriptor stops new transfers to a window and waits for outstanding ones (R470). -/
  | fence (s : SessId) (idx : Nat)
  /-- The RELEASE descriptor frees a fenced window (R555). -/
  | release (s : SessId) (idx : Nat)
  /-- The COMPILE descriptor submits a recipe for the Planner to compile (R397). -/
  | compile (s : SessId) (idx : Nat)
  /-- The COMMIT descriptor commits a compiled plan to go live at a frame boundary, or is refused (R398). -/
  | commit (s : SessId) (idx : Nat)
  /-- The BANK_UPDATE descriptor compiles bank-class records into shadow banks and commits them as a group (R399). -/
  | bankUpdate (s : SessId) (idx : Nat) (set : BankSet)
  /-- The SLOT_LOAD descriptor loads bank-class records into a reprocess bank slot (R400). -/
  | slotLoad (s : SessId) (idx : Nat) (set : BankSet)
  /-- The START descriptor orders an inspection start now, at a time or at a web position, locally or globally (R555). -/
  | start (s : SessId) (idx : Nat)
  /-- An inspection start takes effect at its frame boundary: contexts rebase, slices ungate and the module enters NOON (R113). -/
  | inspectionStart
  /-- The STOP descriptor orders the pipelines gated at a frame boundary (R555). -/
  | stop (s : SessId) (idx : Nat)
  /-- At the frame boundary the pipelines are gated, contexts rebase, open blobs close and the module returns to MORNING (R555). -/
  | stopEffect
  /-- The SET_ZERO descriptor orders E_zero latched at a frame boundary (R555). -/
  | setZero (s : SessId) (idx : Nat)
  /-- E_zero is latched at its frame boundary, with blob closure, rebase, divider realignment and compare moves (R829). -/
  | zeroLatch
  /-- The SETTINGS descriptor names an apply-at line and sends an APPLY to the camera (R127). -/
  | settings (s : SessId) (idx : Nat)
  /-- The CAMERA_CTRL descriptor sends a CTRL read or write request to a camera (R84). -/
  | cameraCtrl (s : SessId) (idx : Nat)
  /-- The EXPORT descriptor starts a crop export job (R368). -/
  | exportJob (s : SessId) (idx : Nat)
  /-- The REPROCESS descriptor starts a reprocess job into a reprocess pennant ring (R373). -/
  | reprocess (s : SessId) (idx : Nat)
  /-- The RESUME descriptor resumes a suspended job with a new buffer (R377). -/
  | resume (s : SessId) (idx : Nat)
  /-- The CANCEL descriptor cancels a job and writes END with status 1 when room remains (R378). -/
  | cancel (s : SessId) (idx : Nat)
  /-- The AXIS_MOVE descriptor plans a firmware-generated trapezoidal move to a target (R678). -/
  | axisMove (s : SessId) (idx : Nat)
  /-- The AXIS_LIMITS descriptor changes an axis's limits and replans a running move (R681). -/
  | axisLimits (s : SessId) (idx : Nat)
  /-- The AXIS_TABLE descriptor loads and runs a raw segment table (R677). -/
  | axisTable (s : SessId) (idx : Nat)
  /-- The AXIS_STOP descriptor stops an axis hard or ramped, and clears a ceased fault (R684). -/
  | axisStop (s : SessId) (idx : Nat)
  /-- The COMPARE_ARM descriptor arms a web or axis compare on a free unit (R691). -/
  | compareArm (s : SessId) (idx : Nat)
  /-- The SINE_LOAD descriptor checks and loads an axis's sine table (R666). -/
  | sineLoad (s : SessId) (idx : Nat)
  /-- The TOUT_ARM descriptor places a one-off or periodic pulse on a TOUT (R587). -/
  | toutArm (s : SessId) (idx : Nat)
  /-- The FRAME_LAUNCH descriptor queues an Ethernet frame for launch at a set time (R590). -/
  | frameLaunch (s : SessId) (idx : Nat)
  /-- The CHECK_RUN descriptor runs a check-value unit over host data as a background job (R717). -/
  | checkRun (s : SessId) (idx : Nat)
  /-- The ENCODER_CLEAR descriptor clears ENCODER_SUSPECT on a channel (R653). -/
  | encoderClear (s : SessId) (idx : Nat)
  /-- The SNAPSHOT descriptor orders a consistent snapshot of counters, locally or globally (R627). -/
  | snapshot (s : SessId) (idx : Nat)
  /-- At the snapshot's frame boundary every counter register is latched and the block is written or sent (R627). -/
  | snapshotLatch
  /-- The MODE descriptor changes the mode as its target and the present mode lay down (R749). -/
  | mode (s : SessId) (idx : Nat)
  /-- The CALIBRATE descriptor starts a calibration of the named kind on its target (R727). -/
  | calibrate (s : SessId) (idx : Nat)
  /-- The FABRIC descriptor names the coordinator or orders rediscovery (R607). -/
  | fabric (s : SessId) (idx : Nat)
  /-- A descriptor with an unused opcode completes with status 3 (R555). -/
  | unusedOpcode (s : SessId) (idx : Nat)
  /-- A PTP Sync on the slave port updates the servo offset, its state and rate, and may step the clock (R575). -/
  | sync (e : EthId) (m : PtpMsg)
  /-- A PTP Follow_Up supplies the precise origin time of a two-step Sync (R575). -/
  | followUp (e : EthId) (m : PtpMsg)
  /-- A PTP Delay_Resp updates the mean path delay in E2E (R575). -/
  | delayResp (e : EthId) (m : PtpMsg)
  /-- A PTP Pdelay message is terminated on the port and updates the peer link delay in P2P (R579). -/
  | pdelay (e : EthId) (kind : PdKind) (m : PtpMsg)
  /-- A PTP Announce enters the best master clock algorithm (R570). -/
  | announce (e : EthId) (m : AnnMsg)
  /-- The Announce receipt timeout of 3 intervals expires and master selection is re-run (R570). -/
  | announceTimeout
  /-- No Sync has come for 4 sync intervals, so the servo enters HOLDOVER (R577). -/
  | syncTimeout
  /-- As master the module sends the next Sync at its sync interval (R571). -/
  | syncInterval (e : EthId)
  /-- A PTP event message is forwarded between A and B with the residence time added to its correction (R579). -/
  | ptpTransit (e : EthId) (m : PtpMsg) (kind : TransitKind) (dwell : Nat)
  /-- A programmed rising edge of a TOUT falls due and starts a pulse, or merges with a high one (R585). -/
  | toutEdge (t : ToutId)
  /-- A TOUT pulse reaches its recorded width and ends (R588). -/
  | toutPulseEnd (t : ToutId)
  /-- A queued frame's launch time arrives and the frame leaves the cage, or late (R591). -/
  | frameLaunchTime (e : EthId) (q : Fin 8)
  /-- The 16 s measurement of the always-on clock against disciplined time ends and TIM_AO_TRIM is stored (R594). -/
  | aoTrimMeasure (trim : Int)
  /-- TAI time passes a whole second and the SECOND source fires (R598). -/
  | taiSecond
  /-- The ensign timer of 10 ms or 1 s expires and the module originates an ensign on each port with link (R604). -/
  | ensignInterval
  /-- A received ensign is recorded, forwarded in a chain, or detects a ring (R604). -/
  | ensign (e : EthId) (bytes : List Byte)
  /-- A coordinator claimant has heard no lower serial or naming for 100 ms and takes the role (R607). -/
  | coordinatorSettle
  /-- The coordinator has heard no new serial for 100 ms and assigns fabric addresses and sends ASSIGN (R608). -/
  | addressAssignment
  /-- A received ASSIGN gives the module its address and fabric plan and is acknowledged (R617). -/
  | assign (e : EthId) (h : FabHead) (body : AssignBody)
  /-- A received ASSIGN_ACK counts toward completing discovery (R608). -/
  | assignAck (e : EthId) (bytes : List Byte)
  /-- A received ORDER schedules a global operation at T, or executes it at once when late, and is acknowledged (R625). -/
  | order (e : EthId) (bytes : List Byte)
  /-- A received ORDER_ACK records a module's acceptance of a global operation (R625). -/
  | orderAck (e : EthId) (bytes : List Byte)
  /-- A global operation takes effect on the module at T or at the first frame boundary at or after T (R625). -/
  | globalOperation
  /-- At T + 1 ms the coordinator lacks an ORDER_ACK, fires GLOBAL_INCOMPLETE and completes with status 6 (R625). -/
  | orderAckDeadline
  /-- A received BUNTING message passes its records to seam merge and is acknowledged (R617). -/
  | bunting (e : EthId) (bytes : List Byte)
  /-- A received BUNTING_ACK acknowledges cumulatively the forwarded bunting and parts (R619). -/
  | buntingAck (e : EthId) (bytes : List Byte)
  /-- A received seam strip is kept for seam alignment, with gaps in its sequence counted (R623). -/
  | seamStrip (e : EthId) (bytes : List Byte)
  /-- A received PLAN_READY lets the coordinator issue PLAN_SWITCH once every module has reported equal hashes (R624). -/
  | planReady (e : EthId) (bytes : List Byte)
  /-- A received snapshot block is collected by the coordinator into the descriptor's output (R627). -/
  | snapshotData (e : EthId) (bytes : List Byte)
  /-- A received HEARTBEAT keeps a neighbour from being declared lost (R629). -/
  | heartbeat (e : EthId) (bytes : List Byte)
  /-- A fabric message for another destination is sent on out the other port with hops left lowered (R616). -/
  | fabricMessageForward (e : EthId) (bytes : List Byte)
  /-- An unacknowledged fabric message's wait expires and it is sent again with RETRANSMIT (R619). -/
  | fabricRetransmit (dest : Fin 32) (type : Nat) (seq : Nat)
  /-- 100 µs pass without a message to a neighbour and a HEARTBEAT is sent (R629). -/
  | heartbeatInterval (dest : Fin 32)
  /-- 1 ms passes without a message from a neighbour, so it is declared lost and its seam parts and web are reported (R630). -/
  | neighbourLost (addr : Fin 32)
  /-- No ensign of a non-neighbour module has been heard for 3 s and it is taken as lost (R629). -/
  | ensignAbsence (serial : Nat)
  /-- No ensign carrying the module's own serial has arrived for 3 s, so forwarding on port B resumes (R602). -/
  | ringClear
  /-- An accepted edge of a feedback channel counts, drives trigger dividers and web compares, and wakes the module in NIGHT (R636). -/
  | encoderEdge (k : EncId) (a b z : Bool)
  /-- An index pulse checks the counts per index, sets mismatch or suspect flags and may re-zero the count (R650). -/
  | indexPulse (k : EncId)
  /-- Firmware reads each enabled ENC_COUNT at least once per 10 ms and extends it to the 64-bit position (R645). -/
  | extensionRead (k : EncId)
  /-- A speed window ends and ENC_SPEED is written (R649). -/
  | speedWindow (k : EncId)
  /-- Re-qualification of a channel with the index check off ends after 1 ms (R643). -/
  | requalificationEnd (k : EncId)
  /-- 1 ms after the handover from the always-on count, the two counters are compared and a difference sets ENCODER_SUSPECT (R659). -/
  | handoverCompare (k : EncId)
  /-- A 10 µs motion tick applies accepted moves, targets and limits, replans, and serves the mark queue (R678). -/
  | motionTick (x : AxisId)
  /-- Every 200 ns the step generator evaluates the segment curve and sets the commanded position (R675). -/
  | stepEvaluation (x : AxisId)
  /-- 100 ms after motion ends the coil current falls to the hold current (R665). -/
  | holdCurrentTimer (x : AxisId)
  /-- The adaptive chopper offset is updated from the measured mean current, or CHOP_LIMIT is set (R669). -/
  | chopperOffsetUpdate (x : AxisId) (phaseB : Bool) (mean : Int)
  /-- A limit switch activation is accepted and stops or homes the axis (R685). -/
  | limitSwitch (x : AxisId) (high : Bool)
  /-- An axis fault is detected, step generation stops, compares are discarded and the bridges may turn off (R687). -/
  | axisFault (x : AxisId) (cause : Fin 8)
  /-- A marker output carries more than 1.2 A for 50 µs and turns off for the rest of the pulse (R794). -/
  | markerOverload (x : AxisId)
  /-- An enabled channel delivers its source's event to its consumer 2 cycles later, or drops it at hop count 15 (R701). -/
  | eventDelivery (v : EvcId)
  /-- A busy consumer ceases to be busy and acts on its pending event (R706). -/
  | pendingEvent (v : EvcId)
  /-- A change at an EIN input of J2 reaches a logic cell through the synchroniser and is timestamped (R708). -/
  | einEdge (p : Fin 4) (level : Bool)
  /-- A logic cell's filtered output rises after holding for F cycles and the cell fires its source (R710). -/
  | logicCellFire (l : CellId)
  /-- A write of CRC_LOAD with LOAD commits the staged running value, or is ignored as a repeat or while busy (R720). -/
  | crcLoad (u : UnitId) (v : Word)
  /-- A seam shift estimate over 4 096 lines completes and a plausible one is applied as a geometry bank update (R731):
  `peak` in 1/1 000, `shift` in 1/64 column. -/
  | seamEstimate (c : CtxId) (fabricSeam : Bool) (peak : Nat) (shift : Int)
  /-- A flat-field acquisition over S strips ends, new gains are computed and a GAINMAP record is written when it passes (R736). -/
  | flatFieldDone (c : CtxId)
  /-- A rising edge at WAKE held for 1 ms wakes the module from NIGHT (R751). -/
  | wakeInput
  /-- The always-on wake timer reaches 0 and wakes the module from NIGHT (R751). -/
  | wakeTimer
  /-- Signal detect at port A in NIGHT wakes the module (R751). -/
  | nightSignalDetect
  /-- A sleeping power domain finishes waking, and a wake beyond its bound is counted late (R744). -/
  | domainWake (d : Fin 48) (ns : Nat)
  /-- Once per millisecond firmware compares every temperature sensor with its warning and critical limits (R755). -/
  | temperatureRead (die : List Int) (dram stage bridge : Int)
  /-- Every sensor has stayed below its warning limit for 60 s and WAKE is heeded again (R756). -/
  | criticalCooldown
  /-- Input current reaches 40 A and firmware starts lowering axis currents (R754). -/
  | currentLimit (current : Nat)
  /-- Each millisecond at the limit both axes' currents are lowered by 10 % until the input is below 38 A (R754). -/
  | currentReduction (current : Nat)
  /-- Once per millisecond firmware evaluates I_max from the input voltage and sets or clears DERATED (R787). -/
  | deratingEvaluation (mv : Nat)
  /-- PRESENT has been asserted steadily for 50 ms and the supply is enabled (R763). -/
  | presentAsserted
  /-- The input is qualified and DAWN begins (R764). -/
  | inputQualified (mv : Nat)
  /-- A step of DAWN ends, and the next begins, DAWN completes, or a failure leads to NIGHT (R757). -/
  | dawnStep (r : StepResult)
  /-- A step of SUNRISE ends, and the next begins, SUNRISE completes, or a failure is counted and retried (R759). -/
  | sunriseStep (n : Fin 16) (r : StepResult)
  /-- 1 s after a failed SUNRISE it is tried again, or after the third failure DAWN starts (R760). -/
  | warmFailRetry
  /-- PRESENT opens or the input falls below 8.2 V, and the hold-up actions run into NIGHT with DRAM retained (R765). -/
  | holdUp (undervoltage : Bool)
  /-- The input passes the overvoltage lockout and the supply is disabled without hold-up actions (R764). -/
  | overvoltage
  /-- The input returns above 8.8 V with PRESENT asserted before the hold-up store is exhausted, and SUNRISE starts (R766). -/
  | inputReturn
  /-- The hold-up store is exhausted and all volatile state is lost (R766). -/
  | holdupExhausted
  /-- A PLL loses lock outside NIGHT and the module starts SUNRISE (R742). -/
  | pllLockLoss (pll : Fin 4)
  /-- A control core serves its always-on watchdog (R778). -/
  | watchdogService (core : Fin 4)
  /-- A watchdog not served for 100 ms starts SUNRISE (R778). -/
  | watchdogExpiry (core : Fin 4)
  /-- The drain of strips and pennants ends and DUSK proceeds through jobs, axes, cameras and flash into its target (R761). -/
  | duskDrainEnd
  /-- DRAIN_MS expires during DUSK and the remaining pennants stay in the journal for replay (R761). -/
  | drainTimeout
  /-- A slice is lost on a parity error, a granule without progress or a power fault (R776). -/
  | sliceLoss (sl : SliceId)
  /-- A compression engine is lost, its claims on lines are released and its ports skip the ring (R777). -/
  | engineLoss (g : EngineId)
  /-- FRESET held active for 5 s in DAWN step 2 clears every session key and sequence mark (R798). -/
  | fresetHold (ms : Nat)
  /-- A confirmed write of PWR_RESTART acts as a MODE descriptor of warm or cold start through DUSK (R822). -/
  | pwrRestart (v : Word)
  /-- A write of HST_NET_COMMIT puts the staged network address set in force, or takes no effect (R825). -/
  | hstNetCommit (e : EthId) (v : Word)
  /-- A write of PWR_START_FAIL.CLEAR sets the start-failure record and its time to 0 in the register and flash (R819). -/
  | startFailClear (v : Word)
  /-- A read of a LO register loads that reader's latch with its HI register's value (R810). -/
  | latchingLoRead (reader : Option SessId) (addr : Nat)
  /-- A write of CTX_FIFO.PEAK_CLEAR sets PEAK to the present LEVEL (R140). -/
  | fifoPeakClear (c : CtxId) (v : Word)
  /-- A write of the seam merge PEAK_CLEAR sets PARTS_PEAK to PARTS (R300). -/
  | partsPeakClear (v : Word)
  /-- A write of PEN_QUEUE_PEAK.PEAK_CLEAR sets PEAK to the queue LEVEL (R335). -/
  | queuePeakClear (v : Word)
  /-- A periodic time trigger of a camera with trigger source 1 falls due, latches time and position and places a TRIG block toward the camera (R73). -/
  | timeTrigger (p : PortId)
  /-- A QSFP28 module is removed from a cage or reports a fault, so the cage is no longer present and CAGE_FAULT fires (R799). -/
  | qsfpModuleRemoved (cage : Cage)
  /-- In a chain, an ordinary frame received on one port is forwarded out the other port with its PCP kept (R601). -/
  | bridgedFrame (e : EthId) (pcp : Nat) (bytes : List Byte)
  /-- The background copy of image B over image A ends and PWR_STATUS.IMAGE_B clears (R757). -/
  | imageARestored
  /-- Every 10 min the seam corrections are written to flash with the plan (R739). -/
  | seamCorrectionSave
  /-- A PTP Delay_Req received while the module is master is timestamped and answered with Delay_Resp (R570). -/
  | delayReq (e : EthId) (m : PtpMsg)
  /-- As slave the module sends its next Delay_Req (E2E) or Pdelay_Req (P2P) to measure the path delay (R575). -/
  | delayReqInterval (e : EthId)
  /-- As master the module sends its next Announce at the 1 s interval (R571). -/
  | announceInterval (e : EthId)
  /-- Priority 4 has stayed paused by the link partner for more than 10 ms and PFC_LONG fires (R566). -/
  | pfcLong (e : EthId)
  /-- The host answers an RDMA operation with a remote access error, a translation fault of cause 5, and the requester stops or suspends (R471). -/
  | remoteAccessError (s : SessId)
  /-- The response to a module RDMA READ other than a descriptor fetch arrives, delivering recipe, page-table, table, frame or job input data (R529). -/
  | rdmaReadResponse (s : SessId) (bytes : List Byte)
  /-- A limit switch input returns inactive after 1 µs of steady level, clearing LOW_ACTIVE or HIGH_ACTIVE and allowing moves toward it again (R685). -/
  | limitSwitchRelease (x : AxisId) (high : Bool)
  deriving DecidableEq, Repr

end Sys2Proof
end

