-- ==== Sys2Proof/Decode.lean ====
section
/-! DEFINITION. Commands that a word spells. spec/opcode_table.json gives no row any bits: a command is an
operation of a link, a pin, a timer or a ring, and no word of fixed bits spells it. -/

namespace Sys2Proof

/-- The command that a word of `nbits` bits spells by the table's bits: none, as the table gives none. -/
def decodeTableWord (nbits w : Nat) : Option Instr :=
  match nbits, w with
  | _, _ => none

end Sys2Proof
end

