-- ==== Sys2Proof/Config.lean ====
section
/-! DEFINITION. The values that the manual leaves open and the machine goes on with. Each is an uninterpreted
constant: nothing can be proved of the value, only what holds whatever it is (assumption 3). -/

namespace Sys2Proof.Config

/-- The n-th value that the manual leaves open in a run: an initial packet sequence number, a queue pair
number, a doorbell key and page address, an ordering that firmware is free to choose. DESIGN CHOICE: assumption 3. -/
opaque freeNat : Nat → Nat

/-- The data bytes of a burst stored as poisoned, which R436 leaves open ("any data"). DESIGN CHOICE: assumption 42. -/
opaque poisonData : Nat → List Byte

/-- The correction of the always-on clock by its die temperature, in 2^-32 (R594 gives no law).
DESIGN CHOICE: assumption 110. -/
opaque aoTemperature : Nat → Int

/-- A mapping entry that a seam correction moves beyond the camera's columns, by its position in 1/64 column (R731).
DEDUCED: assumption 102. -/
opaque seamEntry : Int → Nat

end Sys2Proof.Config
end

