-- ==== Sys2Proof/Machine/Arith.lean ====
section
/-! DEFINITION. The integer arithmetic of the pixel path and the byte-order helpers of records: rounding,
saturation, little- and big-endian fields, CRC-8 and CRC-32C. -/

namespace Sys2Proof.Machine

/-- `v / 2^s` rounded to nearest, ties to the even result (R144). -/
def rnd (v : Int) (s : Nat) : Int :=
  if s = 0 then v else
    let q := v / (2 ^ s : Nat)
    let r := v % (2 ^ s : Nat)
    let half : Int := (2 ^ (s - 1) : Nat)
    if half < r ∨ (r = half ∧ q % 2 = 1) then q + 1 else q

/-- `a / b` for `b > 0` rounded to nearest, ties to the even result (R268). -/
def rdiv (a b : Int) : Int :=
  let q := a / b
  let r := 2 * (a % b)
  if b < r ∨ (r = b ∧ q % 2 = 1) then q + 1 else q

/-- Full scale, 262 140 quarter-codes (R143). -/
def fullScale : Int := 262140

/-- Saturation to the signed working range of 20 bits (R143, R145). -/
def sat (v : Int) : Int := clampInt (-524288) 524287 v

/-- Saturation to a signed field of `w` bits. -/
def satS (w : Nat) (v : Int) : Int := clampInt (-(2 ^ (w - 1) : Nat)) ((2 ^ (w - 1) : Nat) - 1) v

/-- Saturation to an unsigned field of `w` bits. -/
def satU (w : Nat) (v : Int) : Nat := (clampInt 0 ((2 ^ w : Nat) - 1) v).toNat

/-- The value an unsigned field of `w` bits holds when read as two's complement. -/
def toSigned (w v : Nat) : Int := if v % 2 ^ w < 2 ^ (w - 1) then (v % 2 ^ w : Nat) else ((v % 2 ^ w : Nat) : Int) - (2 ^ w : Nat)

/-- The `w`-bit two's complement code of an integer. -/
def ofSigned (w : Nat) (v : Int) : Nat := (v % (2 ^ w : Nat)).toNat

/-- Bit `i` of a natural number. -/
def bitAt (v i : Nat) : Bool := v >>> i % 2 = 1

/-- Bits `[lo + w - 1 : lo]` of a natural number. -/
def bitsAt (v lo w : Nat) : Nat := v >>> lo % 2 ^ w

/-- 1 for true, 0 for false. -/
def b2n (b : Bool) : Nat := if b then 1 else 0

/-- The bytes of `v`, least significant first, `n` of them (R7). -/
def leBytes : Nat → Nat → List Byte
  | 0, _ => []
  | n + 1, v => BitVec.ofNat 8 v :: leBytes n (v / 256)

/-- The bytes of `v` in network order, `n` of them (R7). -/
def beBytes (n v : Nat) : List Byte := (leBytes n v).reverse

/-- The value of little-endian bytes. -/
def leVal : List Byte → Nat
  | [] => 0
  | b :: r => b.toNat + 256 * leVal r

/-- The value of big-endian bytes. -/
def beVal (l : List Byte) : Nat := l.foldl (fun a b => a * 256 + b.toNat) 0

/-- `n` bytes from offset `o`; bytes past the end read 0. -/
def slice (l : List Byte) (o n : Nat) : List Byte :=
  let p := (l.drop o).take n
  p ++ List.replicate (n - p.length) 0

/-- A little-endian field of `n` bytes at offset `o`. -/
def leAt (l : List Byte) (o n : Nat) : Nat := leVal (slice l o n)

/-- A big-endian field of `n` bytes at offset `o`. -/
def beAt (l : List Byte) (o n : Nat) : Nat := beVal (slice l o n)

/-- Pad with zero bytes to a multiple of `n`. -/
def padTo (n : Nat) (l : List Byte) : List Byte := l ++ List.replicate ((n - l.length % n) % n) 0

/-- One step of the reflected CRC-32C division (R38). -/
def crc32cBit (c : BitVec 32) : BitVec 32 := if c.getLsbD 0 then (c >>> 1) ^^^ 0x82F63B78#32 else c >>> 1

/-- CRC-32C over one more byte (R38). -/
def crc32cByte (c : BitVec 32) (b : Byte) : BitVec 32 := Nat.repeat crc32cBit 8 (c ^^^ b.setWidth 32)

/-- CRC-32C (R38): polynomial 0x1EDC_6F41 reflected, initial value and final XOR 0xFFFF_FFFF. -/
def crc32c (l : List Byte) : BitVec 32 := (l.foldl crc32cByte 0xFFFFFFFF#32) ^^^ 0xFFFFFFFF#32

/-- One step of the CRC-8 division (R38). -/
def crc8Bit (c : BitVec 8) : BitVec 8 := if c.getLsbD 7 then (c <<< 1) ^^^ 0x07#8 else c <<< 1

/-- CRC-8 (R38): polynomial 0x07, initial value 0, not reflected. -/
def crc8 (l : List Byte) : BitVec 8 := l.foldl (fun c b => Nat.repeat crc8Bit 8 (c ^^^ b)) 0#8

/-- The entry of a list of integers, 0 past its end. -/
def intAt (l : List Int) (i : Nat) : Int := l.getD i 0

/-- The entry of a list of naturals, 0 past its end. -/
def natAt (l : List Nat) (i : Nat) : Nat := l.getD i 0

/-- Sum of a list of integers. -/
def sumInt (l : List Int) : Int := l.foldl (· + ·) 0

/-- Lowest non-zero value of a list, 0 when there is none. -/
def lowestCause (l : List Nat) : Nat :=
  l.foldl (fun a c => if c = 0 then a else if a = 0 then c else min a c) 0

end Sys2Proof.Machine
end

