-- ==== Sys2Proof/Machine/Real.lean ====
section
/-! DEFINITION. Binary64 arithmetic (R203, R221, R395) on exact dyadic values: every operation is formed
exactly and rounded to 53 significant bits, to nearest with ties to even. The sine is formed to 300
fractional bits and rounded once. -/

namespace Sys2Proof.Machine

/-- A finite binary64 value: `m × 2^e`. -/
structure F64 where
  m : Int
  e : Int
  deriving DecidableEq, Repr

/-- `2^k` for a signed exponent as a numerator and denominator pair. -/
def pow2Pair (k : Int) : Nat × Nat := if 0 ≤ k then (2 ^ k.toNat, 1) else (1, 2 ^ (-k).toNat)

/-- The binary64 value nearest `n / d` (`d > 0`), ties to even; subnormals keep the smallest exponent. -/
def f64OfRat (n : Int) (d : Nat) : F64 :=
  if n = 0 then ⟨0, 0⟩ else
    let lg : Int := (n.natAbs.log2 : Int) - (d.log2 : Int)
    let e0 : Int := max (lg - 53) (-1074)
    let p := pow2Pair e0
    let q := rdiv (n * p.2) (d * p.1)
    if q.natAbs < 2 ^ 53 then ⟨q, e0⟩
    else
      let e1 := max (lg - 52) (-1074)
      let p1 := pow2Pair e1
      let q1 := rdiv (n * p1.2) (d * p1.1)
      if q1.natAbs ≤ 2 ^ 53 then ⟨q1, e1⟩
      else let p2 := pow2Pair (e1 + 1); ⟨rdiv (n * p2.2) (d * p2.1), e1 + 1⟩

/-- Numerator and denominator of a binary64 value. -/
def F64.rat (x : F64) : Int × Nat := let p := pow2Pair x.e; (x.m * p.1, p.2)

/-- Binary64 value of an integer. -/
def f64OfInt (n : Int) : F64 := f64OfRat n 1

/-- Binary64 addition. -/
def F64.add (x y : F64) : F64 :=
  let a := x.rat; let b := y.rat; f64OfRat (a.1 * b.2 + b.1 * a.2) (a.2 * b.2)

/-- Binary64 subtraction. -/
def F64.sub (x y : F64) : F64 := x.add ⟨-y.m, y.e⟩

/-- Binary64 multiplication. -/
def F64.mul (x y : F64) : F64 :=
  let a := x.rat; let b := y.rat; f64OfRat (a.1 * b.1) (a.2 * b.2)

/-- Binary64 division; a zero divisor answers 0 and is never formed by the formulas of the manual. -/
def F64.div (x y : F64) : F64 :=
  let a := x.rat; let b := y.rat
  if b.1 = 0 then ⟨0, 0⟩
  else f64OfRat (a.1 * b.2 * (if b.1 < 0 then -1 else 1)) (a.2 * b.1.natAbs)

/-- Exact comparison. -/
def F64.lt (x y : F64) : Bool := let a := x.rat; let b := y.rat; decide (a.1 * b.2 < b.1 * a.2)

/-- Largest integer at or below the value. -/
def F64.floor (x : F64) : Int := let a := x.rat; a.1 / a.2

/-- Nearest integer, ties to even. -/
def F64.round (x : F64) : Int := let a := x.rat; rdiv a.1 a.2

/-- Magnitude. -/
def F64.abs (x : F64) : F64 := ⟨x.m.natAbs, x.e⟩

/-- The binary64 value of a 64-bit pattern (infinities and NaNs read as their finite continuation). -/
def f64OfBits (b : Nat) : F64 :=
  let s := bitAt b 63
  let ex := bitsAt b 52 11
  let fr := bitsAt b 0 52
  let m : Int := if ex = 0 then fr else fr + 2 ^ 52
  ⟨if s then -m else m, if ex = 0 then -1074 else (ex : Int) - 1075⟩

/-- A binary64 pattern that is neither infinite nor NaN. -/
def f64Finite (b : Nat) : Bool := bitsAt b 52 11 ≠ 2047

/-- The binary64 value nearest π (R221). -/
def piF64 : F64 := f64OfBits 0x400921FB54442D18

/-- Fractional bits of the fixed-point sine. -/
def sinBits : Nat := 300

/-- The Taylor terms of the sine at fixed point `x` (scaled by `2^sinBits`), from term `t` of order `k`. -/
def sinTerms : Nat → Int → Int → Nat → Int
  | 0, _, _, _ => 0
  | f + 1, x2, t, k =>
    let t' := -(t * x2 / (2 ^ sinBits : Nat)) / ((k + 1) * (k + 2) : Nat)
    t + sinTerms f x2 t' (k + 2)

/-- The binary64 value nearest the sine of a binary64 argument of magnitude at most 16. -/
def sinF64 (x : F64) : F64 :=
  let a := x.rat
  let fx : Int := a.1 * (2 ^ sinBits : Nat) / a.2
  f64OfRat (sinTerms 120 (fx * fx / (2 ^ sinBits : Nat)) fx 1) (2 ^ sinBits)

/-- `sinc(x) = sin(π × x) / (π × x)`, 1 at 0 (R221). -/
def sincF64 (x : F64) : F64 :=
  if x.m = 0 then f64OfInt 1 else let p := piF64.mul x; (sinF64 p).div p

end Sys2Proof.Machine
end

