-- ==== Sys2Proof/Machine/Regs.lean ====
section
/-! DEFINITION. The setup registers as the manual's field tables give them: every field's place, its
access code (R14), its cold and warm column (R17) and the values its encoding admits (R9). The register
space is word-addressed by byte address (R808); an unlisted address reads as its cold value. -/

namespace Sys2Proof.Machine

/-- A register field: the byte address of its word, its lowest bit and its width. -/
structure Fld where
  addr : Nat
  lo : Nat
  width : Nat
  deriving DecidableEq, Repr

/-- The access codes of R14. No register of the manual has the code RWL. -/
inductive Access where
  | ro | rw | w1c | wo | rwp | rwl
  deriving DecidableEq, Repr

/-- An entry of a Cold or Warm column (R17). -/
inductive ResetCol where
  | num (v : Nat) | kept | fuse | plan | trained
  deriving DecidableEq, Repr

/-- One row of a register field table: bits, access, the value the field holds in `State.reset`, the Cold
and Warm column, and the ranges of values that its encoding lists as used (empty: every value). -/
structure RegField where
  lo : Nat
  width : Nat
  access : Access
  coldVal : Nat
  cold : ResetCol
  warm : ResetCol
  legal : List (Nat × Nat)
  deriving DecidableEq, Repr

/-- Address of SYS_ID (R814). -/
abbrev sysId : Nat := 0x0
/-- SYS_ID.PART, bits [15:0] (R814). -/
abbrev sysIdPart : Fld := ⟨sysId, 0, 16⟩
/-- SYS_ID.BUILD, bits [23:16] (R814). -/
abbrev sysIdBuild : Fld := ⟨sysId, 16, 8⟩
/-- Address of SYS_REV (R814). -/
abbrev sysRev : Nat := 0x4
/-- SYS_REV.DIE, bits [7:0] (R814). -/
abbrev sysRevDie : Fld := ⟨sysRev, 0, 8⟩
/-- SYS_REV.BOARD, bits [15:8] (R814). -/
abbrev sysRevBoard : Fld := ⟨sysRev, 8, 8⟩
/-- Address of SYS_SERIAL_LO (R814). -/
abbrev sysSerialLo : Nat := 0x8
/-- SYS_SERIAL_LO.VALUE, bits [31:0] (R814). -/
abbrev sysSerialLoF : Fld := ⟨sysSerialLo, 0, 32⟩
/-- Address of SYS_SERIAL_HI (R814). -/
abbrev sysSerialHi : Nat := 0xC
/-- SYS_SERIAL_HI.VALUE, bits [31:0] (R814). -/
abbrev sysSerialHiF : Fld := ⟨sysSerialHi, 0, 32⟩
/-- Address of SYS_MAC_A_LO (R814). -/
abbrev sysMacALo : Nat := 0x10
/-- SYS_MAC_A_LO.VALUE, bits [31:0] (R814). -/
abbrev sysMacALoF : Fld := ⟨sysMacALo, 0, 32⟩
/-- Address of SYS_MAC_A_HI (R814). -/
abbrev sysMacAHi : Nat := 0x14
/-- SYS_MAC_A_HI.VALUE, bits [15:0] (R814). -/
abbrev sysMacAHiF : Fld := ⟨sysMacAHi, 0, 16⟩
/-- Address of SYS_MAC_B_LO (R814). -/
abbrev sysMacBLo : Nat := 0x18
/-- SYS_MAC_B_LO.VALUE, bits [31:0] (R814). -/
abbrev sysMacBLoF : Fld := ⟨sysMacBLo, 0, 32⟩
/-- Address of SYS_MAC_B_HI (R814). -/
abbrev sysMacBHi : Nat := 0x1C
/-- SYS_MAC_B_HI.VALUE, bits [15:0] (R814). -/
abbrev sysMacBHiF : Fld := ⟨sysMacBHi, 0, 16⟩
/-- Address of SYS_FW (R814). -/
abbrev sysFw : Nat := 0x20
/-- SYS_FW.PATCH, bits [7:0] (R814). -/
abbrev sysFwPatch : Fld := ⟨sysFw, 0, 8⟩
/-- SYS_FW.MINOR, bits [15:8] (R814). -/
abbrev sysFwMinor : Fld := ⟨sysFw, 8, 8⟩
/-- SYS_FW.MAJOR, bits [23:16] (R814). -/
abbrev sysFwMajor : Fld := ⟨sysFw, 16, 8⟩
/-- Address of SYS_FW_HASH (R814). -/
abbrev sysFwHash (i : Nat) : Nat := 0x40 + 4 * i
/-- SYS_FW_HASH.HASH, bits [31:0] (R814). -/
abbrev sysFwHashF (i : Nat) : Fld := ⟨sysFwHash i, 0, 32⟩
/-- Address of PWR_MODE (R816). -/
abbrev pwrMode : Nat := 0x1000
/-- PWR_MODE.MODE, bits [2:0] (R816). -/
abbrev pwrModeMode : Fld := ⟨pwrMode, 0, 3⟩
/-- PWR_MODE.PREVIOUS, bits [5:3] (R816). -/
abbrev pwrModePrevious : Fld := ⟨pwrMode, 3, 3⟩
/-- PWR_MODE.TARGET, bits [8:6] (R816). -/
abbrev pwrModeTarget : Fld := ⟨pwrMode, 6, 3⟩
/-- PWR_MODE.BEFORE_START, bits [11:9] (R816). -/
abbrev pwrModeBeforeStart : Fld := ⟨pwrMode, 9, 3⟩
/-- Address of PWR_CTRL (R816). -/
abbrev pwrCtrl : Nat := 0x1004
/-- PWR_CTRL.WAKE_EN, bits [3:0] (R816). -/
abbrev pwrCtrlWakeEn : Fld := ⟨pwrCtrl, 0, 4⟩
/-- PWR_CTRL.AUTO_RESUME, bits [4:4] (R816). -/
abbrev pwrCtrlAutoResume : Fld := ⟨pwrCtrl, 4, 1⟩
/-- PWR_CTRL.DRAIN_MS, bits [18:5] (R816). -/
abbrev pwrCtrlDrainMs : Fld := ⟨pwrCtrl, 5, 14⟩
/-- Address of PWR_STATUS (R817). -/
abbrev pwrStatus : Nat := 0x1008
/-- PWR_STATUS.THERMAL_WARN, bits [0:0] (R817). -/
abbrev pwrStatusThermalWarn : Fld := ⟨pwrStatus, 0, 1⟩
/-- PWR_STATUS.IMAGE_B, bits [1:1] (R817). -/
abbrev pwrStatusImageB : Fld := ⟨pwrStatus, 1, 1⟩
/-- PWR_STATUS.REMOVE_READY, bits [2:2] (R817). -/
abbrev pwrStatusRemoveReady : Fld := ⟨pwrStatus, 2, 1⟩
/-- PWR_STATUS.DERATED, bits [3:3] (R817). -/
abbrev pwrStatusDerated : Fld := ⟨pwrStatus, 3, 1⟩
/-- PWR_STATUS.HOLDUP_CHARGED, bits [4:4] (R817). -/
abbrev pwrStatusHoldupCharged : Fld := ⟨pwrStatus, 4, 1⟩
/-- PWR_STATUS.CURRENT_LIMIT, bits [5:5] (R817). -/
abbrev pwrStatusCurrentLimit : Fld := ⟨pwrStatus, 5, 1⟩
/-- Address of PWR_INPUT (R818). -/
abbrev pwrInput : Nat := 0x100C
/-- PWR_INPUT.VIN, bits [15:0] (R818). -/
abbrev pwrInputVin : Fld := ⟨pwrInput, 0, 16⟩
/-- PWR_INPUT.IIN, bits [31:16] (R818). -/
abbrev pwrInputIin : Fld := ⟨pwrInput, 16, 16⟩
/-- Address of PWR_TEMP (R818). -/
abbrev pwrTemp : Nat := 0x1010
/-- PWR_TEMP.DIE, bits [7:0] (R818). -/
abbrev pwrTempDie : Fld := ⟨pwrTemp, 0, 8⟩
/-- PWR_TEMP.DRAM, bits [15:8] (R818). -/
abbrev pwrTempDram : Fld := ⟨pwrTemp, 8, 8⟩
/-- PWR_TEMP.STAGE, bits [23:16] (R818). -/
abbrev pwrTempStage : Fld := ⟨pwrTemp, 16, 8⟩
/-- PWR_TEMP.BRIDGE, bits [31:24] (R818). -/
abbrev pwrTempBridge : Fld := ⟨pwrTemp, 24, 8⟩
/-- Address of PWR_WAKE_TIMER (R818). -/
abbrev pwrWakeTimer : Nat := 0x1014
/-- PWR_WAKE_TIMER.SECONDS, bits [31:0] (R818). -/
abbrev pwrWakeTimerF : Fld := ⟨pwrWakeTimer, 0, 32⟩
/-- Address of PWR_DOMAINS_LO (R818). -/
abbrev pwrDomainsLo : Nat := 0x1018
/-- PWR_DOMAINS_LO.ON, bits [31:0] (R818). -/
abbrev pwrDomainsLoF : Fld := ⟨pwrDomainsLo, 0, 32⟩
/-- Address of PWR_DOMAINS_HI (R818). -/
abbrev pwrDomainsHi : Nat := 0x101C
/-- PWR_DOMAINS_HI.ON, bits [15:0] (R818). -/
abbrev pwrDomainsHiF : Fld := ⟨pwrDomainsHi, 0, 16⟩
/-- Address of PWR_START_FAIL (R819). -/
abbrev pwrStartFail : Nat := 0x1020
/-- PWR_START_FAIL.MODE, bits [2:0] (R819). -/
abbrev pwrStartFailMode : Fld := ⟨pwrStartFail, 0, 3⟩
/-- PWR_START_FAIL.STEP, bits [6:3] (R819). -/
abbrev pwrStartFailStep : Fld := ⟨pwrStartFail, 3, 4⟩
/-- PWR_START_FAIL.CAUSE, bits [14:7] (R819). -/
abbrev pwrStartFailCause : Fld := ⟨pwrStartFail, 7, 8⟩
/-- PWR_START_FAIL.LAST_LOSS, bits [18:16] (R819). -/
abbrev pwrStartFailLastLoss : Fld := ⟨pwrStartFail, 16, 3⟩
/-- PWR_START_FAIL.HOLDUP_DONE, bits [19:19] (R819). -/
abbrev pwrStartFailHoldupDone : Fld := ⟨pwrStartFail, 19, 1⟩
/-- PWR_START_FAIL.CLEAR, bits [20:20] (R819). -/
abbrev pwrStartFailClear : Fld := ⟨pwrStartFail, 20, 1⟩
/-- Address of PWR_START_FAIL_TIME_LO (R819). -/
abbrev pwrStartFailTimeLo : Nat := 0x1024
/-- PWR_START_FAIL_TIME_LO.VALUE, bits [31:0] (R819). -/
abbrev pwrStartFailTimeLoF : Fld := ⟨pwrStartFailTimeLo, 0, 32⟩
/-- Address of PWR_START_FAIL_TIME_HI (R819). -/
abbrev pwrStartFailTimeHi : Nat := 0x1028
/-- PWR_START_FAIL_TIME_HI.VALUE, bits [31:0] (R819). -/
abbrev pwrStartFailTimeHiF : Fld := ⟨pwrStartFailTimeHi, 0, 32⟩
/-- Address of PWR_CNT_WAKE_LATE (R818). -/
abbrev pwrCntWakeLate : Nat := 0x102C
/-- PWR_CNT_WAKE_LATE.COUNT, bits [31:0] (R818). -/
abbrev pwrCntWakeLateF : Fld := ⟨pwrCntWakeLate, 0, 32⟩
/-- Address of PWR_CNT_WARM_FAIL (R818). -/
abbrev pwrCntWarmFail : Nat := 0x1030
/-- PWR_CNT_WARM_FAIL.COUNT, bits [31:0] (R818). -/
abbrev pwrCntWarmFailF : Fld := ⟨pwrCntWarmFail, 0, 32⟩
/-- Address of PWR_EVENTS (R818). -/
abbrev pwrEvents : Nat := 0x1034
/-- PWR_EVENTS.EVENTS, bits [11:0] (R818). -/
abbrev pwrEventsF : Fld := ⟨pwrEvents, 0, 12⟩
/-- Address of PWR_RESTART (R821). -/
abbrev pwrRestart : Nat := 0x1038
/-- PWR_RESTART.TARGET, bits [2:0] (R821). -/
abbrev pwrRestartTarget : Fld := ⟨pwrRestart, 0, 3⟩
/-- PWR_RESTART.CONFIRM, bits [31:16] (R821). -/
abbrev pwrRestartConfirm : Fld := ⟨pwrRestart, 16, 16⟩
/-- Address of HST_SESSION (R561). -/
abbrev hssSession (n : Nat) : Nat := 0x2000 + 0x40 * n
/-- HST_SESSION.STATE, bits [1:0] (R561). -/
abbrev hssSessionState (n : Nat) : Fld := ⟨hssSession n, 0, 2⟩
/-- HST_SESSION.PORT, bits [2:2] (R561). -/
abbrev hssSessionPort (n : Nat) : Fld := ⟨hssSession n, 2, 1⟩
/-- HST_SESSION.PENNANTS, bits [3:3] (R561). -/
abbrev hssSessionPennants (n : Nat) : Fld := ⟨hssSession n, 3, 1⟩
/-- HST_SESSION.OVERVIEW, bits [4:4] (R561). -/
abbrev hssSessionOverview (n : Nat) : Fld := ⟨hssSession n, 4, 1⟩
/-- HST_SESSION.RESUMABLE, bits [5:5] (R561). -/
abbrev hssSessionResumable (n : Nat) : Fld := ⟨hssSession n, 5, 1⟩
/-- HST_SESSION.STOPPED, bits [8:6] (R561). -/
abbrev hssSessionStopped (n : Nat) : Fld := ⟨hssSession n, 6, 3⟩
/-- Address of HST_CMD_CONS (R562). -/
abbrev hssCmdCons (n : Nat) : Nat := 0x2004 + 0x40 * n
/-- HST_CMD_CONS.CMD_CONS, bits [31:0] (R562). -/
abbrev hssCmdConsF (n : Nat) : Fld := ⟨hssCmdCons n, 0, 32⟩
/-- Address of HST_CPL_PROD (R562). -/
abbrev hssCplProd (n : Nat) : Nat := 0x2008 + 0x40 * n
/-- HST_CPL_PROD.CPL_PROD, bits [31:0] (R562). -/
abbrev hssCplProdF (n : Nat) : Fld := ⟨hssCplProd n, 0, 32⟩
/-- Address of HST_OUTSTANDING (R562). -/
abbrev hssOutstanding (n : Nat) : Nat := 0x200C + 0x40 * n
/-- HST_OUTSTANDING.OUTSTANDING, bits [8:0] (R562). -/
abbrev hssOutstandingF (n : Nat) : Fld := ⟨hssOutstanding n, 0, 9⟩
/-- Address of HST_CNT_STALE (R562). -/
abbrev hssCntStale (n : Nat) : Nat := 0x2010 + 0x40 * n
/-- HST_CNT_STALE.COUNT, bits [31:0] (R562). -/
abbrev hssCntStaleF (n : Nat) : Fld := ⟨hssCntStale n, 0, 32⟩
/-- Address of HST_CNT_BAD_DESC (R562). -/
abbrev hssCntBadDesc (n : Nat) : Nat := 0x2014 + 0x40 * n
/-- HST_CNT_BAD_DESC.COUNT, bits [31:0] (R562). -/
abbrev hssCntBadDescF (n : Nat) : Fld := ⟨hssCntBadDesc n, 0, 32⟩
/-- Address of HST_CNT_BAD_DOORBELL (R562). -/
abbrev hssCntBadDoorbell (n : Nat) : Nat := 0x2018 + 0x40 * n
/-- HST_CNT_BAD_DOORBELL.COUNT, bits [31:0] (R562). -/
abbrev hssCntBadDoorbellF (n : Nat) : Fld := ⟨hssCntBadDoorbell n, 0, 32⟩
/-- Address of HST_CNT_REPEAT_DOORBELL (R562). -/
abbrev hssCntRepeatDoorbell (n : Nat) : Nat := 0x201C + 0x40 * n
/-- HST_CNT_REPEAT_DOORBELL.COUNT, bits [31:0] (R562). -/
abbrev hssCntRepeatDoorbellF (n : Nat) : Fld := ⟨hssCntRepeatDoorbell n, 0, 32⟩
/-- Address of HST_CNT_AUTH_FAIL (R562). -/
abbrev hssCntAuthFail (n : Nat) : Nat := 0x2020 + 0x40 * n
/-- HST_CNT_AUTH_FAIL.COUNT, bits [31:0] (R562). -/
abbrev hssCntAuthFailF (n : Nat) : Fld := ⟨hssCntAuthFail n, 0, 32⟩
/-- Address of HST_CNT_EVENT_DROPPED (R562). -/
abbrev hssCntEventDropped (n : Nat) : Nat := 0x2024 + 0x40 * n
/-- HST_CNT_EVENT_DROPPED.COUNT, bits [31:0] (R562). -/
abbrev hssCntEventDroppedF (n : Nat) : Fld := ⟨hssCntEventDropped n, 0, 32⟩
/-- Address of HST_SEQ_LO (R562). -/
abbrev hssSeqLo (n : Nat) : Nat := 0x2028 + 0x40 * n
/-- HST_SEQ_LO.SEQ, bits [31:0] (R562). -/
abbrev hssSeqLoF (n : Nat) : Fld := ⟨hssSeqLo n, 0, 32⟩
/-- Address of HST_SEQ_HI (R562). -/
abbrev hssSeqHi (n : Nat) : Nat := 0x202C + 0x40 * n
/-- HST_SEQ_HI.SEQ, bits [31:0] (R562). -/
abbrev hssSeqHiF (n : Nat) : Fld := ⟨hssSeqHi n, 0, 32⟩
/-- Address of HST_PORT (R563). -/
abbrev hspPort (e : Nat) : Nat := 0x2100 + 0x40 * e
/-- HST_PORT.LINK, bits [0:0] (R563). -/
abbrev hspPortLink (e : Nat) : Fld := ⟨hspPort e, 0, 1⟩
/-- HST_PORT.MEDIA, bits [2:1] (R563). -/
abbrev hspPortMedia (e : Nat) : Fld := ⟨hspPort e, 1, 2⟩
/-- HST_PORT.PRESENT, bits [3:3] (R563). -/
abbrev hspPortPresent (e : Nat) : Fld := ⟨hspPort e, 3, 1⟩
/-- HST_PORT.PFC_EN, bits [4:4] (R563). -/
abbrev hspPortPfcEn (e : Nat) : Fld := ⟨hspPort e, 4, 1⟩
/-- HST_PORT.RATE_REDUCED, bits [5:5] (R563). -/
abbrev hspPortRateReduced (e : Nat) : Fld := ⟨hspPort e, 5, 1⟩
/-- Address of HST_PORT_EVENTS (R563). -/
abbrev hspPortEvents (e : Nat) : Nat := 0x2104 + 0x40 * e
/-- HST_PORT_EVENTS.EVENTS, bits [7:0] (R563). -/
abbrev hspPortEventsF (e : Nat) : Fld := ⟨hspPortEvents e, 0, 8⟩
/-- Address of HST_CNT_FEC_CORRECTED (R563). -/
abbrev hspCntFecCorrected (e : Nat) : Nat := 0x2108 + 0x40 * e
/-- HST_CNT_FEC_CORRECTED.COUNT, bits [31:0] (R563). -/
abbrev hspCntFecCorrectedF (e : Nat) : Fld := ⟨hspCntFecCorrected e, 0, 32⟩
/-- Address of HST_CNT_FEC_UNCORRECTED (R563). -/
abbrev hspCntFecUncorrected (e : Nat) : Nat := 0x210C + 0x40 * e
/-- HST_CNT_FEC_UNCORRECTED.COUNT, bits [31:0] (R563). -/
abbrev hspCntFecUncorrectedF (e : Nat) : Fld := ⟨hspCntFecUncorrected e, 0, 32⟩
/-- Address of HST_CNT_RX_DROPPED (R563). -/
abbrev hspCntRxDropped (e : Nat) : Nat := 0x2110 + 0x40 * e
/-- HST_CNT_RX_DROPPED.COUNT, bits [31:0] (R563). -/
abbrev hspCntRxDroppedF (e : Nat) : Fld := ⟨hspCntRxDropped e, 0, 32⟩
/-- Address of HST_CNT_CNP (R563). -/
abbrev hspCntCnp (e : Nat) : Nat := 0x2114 + 0x40 * e
/-- HST_CNT_CNP.COUNT, bits [31:0] (R563). -/
abbrev hspCntCnpF (e : Nat) : Fld := ⟨hspCntCnp e, 0, 32⟩
/-- Address of HST_CNT_PFC_RECEIVED (R563). -/
abbrev hspCntPfcReceived (e : Nat) : Nat := 0x2118 + 0x40 * e
/-- HST_CNT_PFC_RECEIVED.COUNT, bits [31:0] (R563). -/
abbrev hspCntPfcReceivedF (e : Nat) : Fld := ⟨hspCntPfcReceived e, 0, 32⟩
/-- Address of HST_EVENTS (R564). -/
abbrev hstEvents : Nat := 0x2180
/-- HST_EVENTS.EVENTS, bits [7:0] (R564). -/
abbrev hstEventsF : Fld := ⟨hstEvents, 0, 8⟩
/-- Address of HST_NET_CTRL (R823). -/
abbrev hstNetCtrl : Nat := 0x2200
/-- HST_NET_CTRL.MGMT_PORT, bits [15:0] (R823). -/
abbrev hstNetCtrlMgmtPort : Fld := ⟨hstNetCtrl, 0, 16⟩
/-- HST_NET_CTRL.VLAN_ID, bits [27:16] (R823). -/
abbrev hstNetCtrlVlanId : Fld := ⟨hstNetCtrl, 16, 12⟩
/-- Address of HST_KEYS (R826). -/
abbrev hstKeys : Nat := 0x2300
/-- HST_KEYS.PROVISIONED, bits [3:0] (R826). -/
abbrev hstKeysProvisioned : Fld := ⟨hstKeys, 0, 4⟩
/-- HST_KEYS.LOCKED_OUT, bits [7:4] (R826). -/
abbrev hstKeysLockedOut : Fld := ⟨hstKeys, 4, 4⟩
/-- HST_KEYS.PROVISION_OPEN, bits [8:8] (R826). -/
abbrev hstKeysProvisionOpen : Fld := ⟨hstKeys, 8, 1⟩
/-- Address of HST_KEY_GEN (R827). -/
abbrev hstKeyGen (n : Nat) : Nat := 0x2304 + 4 * n
/-- HST_KEY_GEN.GEN, bits [15:0] (R827). -/
abbrev hstKeyGenF (n : Nat) : Fld := ⟨hstKeyGen n, 0, 16⟩
/-- Address of HST_NET_IP6 (R824). -/
abbrev hsnNetIp6 (e i : Nat) : Nat := 0x2210 + 0x40 * e + 4 * i
/-- HST_NET_IP6.ADDR, bits [31:0] (R824). -/
abbrev hsnNetIp6F (e i : Nat) : Fld := ⟨hsnNetIp6 e i, 0, 32⟩
/-- Address of HST_NET_IP6_PREFIX (R824). -/
abbrev hsnNetIp6Prefix (e : Nat) : Nat := 0x2220 + 0x40 * e
/-- HST_NET_IP6_PREFIX.LEN, bits [7:0] (R824). -/
abbrev hsnNetIp6PrefixF (e : Nat) : Fld := ⟨hsnNetIp6Prefix e, 0, 8⟩
/-- Address of HST_NET_IP4 (R824). -/
abbrev hsnNetIp4 (e : Nat) : Nat := 0x2224 + 0x40 * e
/-- HST_NET_IP4.ADDR, bits [31:0] (R824). -/
abbrev hsnNetIp4F (e : Nat) : Fld := ⟨hsnNetIp4 e, 0, 32⟩
/-- Address of HST_NET_IP4_PREFIX (R824). -/
abbrev hsnNetIp4Prefix (e : Nat) : Nat := 0x2228 + 0x40 * e
/-- HST_NET_IP4_PREFIX.LEN, bits [5:0] (R824). -/
abbrev hsnNetIp4PrefixF (e : Nat) : Fld := ⟨hsnNetIp4Prefix e, 0, 6⟩
/-- Address of HST_NET_IP4_GW (R824). -/
abbrev hsnNetIp4Gw (e : Nat) : Nat := 0x222C + 0x40 * e
/-- HST_NET_IP4_GW.ADDR, bits [31:0] (R824). -/
abbrev hsnNetIp4GwF (e : Nat) : Fld := ⟨hsnNetIp4Gw e, 0, 32⟩
/-- Address of HST_NET_IP6_GW (R824). -/
abbrev hsnNetIp6Gw (e i : Nat) : Nat := 0x2230 + 0x40 * e + 4 * i
/-- HST_NET_IP6_GW.ADDR, bits [31:0] (R824). -/
abbrev hsnNetIp6GwF (e i : Nat) : Fld := ⟨hsnNetIp6Gw e i, 0, 32⟩
/-- Address of HST_NET_COMMIT (R824). -/
abbrev hsnNetCommit (e : Nat) : Nat := 0x2240 + 0x40 * e
/-- HST_NET_COMMIT.COMMIT, bits [0:0] (R824). -/
abbrev hsnNetCommitCommit (e : Nat) : Fld := ⟨hsnNetCommit e, 0, 1⟩
/-- HST_NET_COMMIT.APPLIED, bits [1:1] (R824). -/
abbrev hsnNetCommitApplied (e : Nat) : Fld := ⟨hsnNetCommit e, 1, 1⟩
/-- Address of HST_RB_WIN_BASE_LO (R828). -/
abbrev hrbWinBaseLo (n : Nat) : Nat := 0x2400 + 0x80 * n
/-- HST_RB_WIN_BASE_LO.VALUE, bits [31:0] (R828). -/
abbrev hrbWinBaseLoF (n : Nat) : Fld := ⟨hrbWinBaseLo n, 0, 32⟩
/-- Address of HST_RB_WIN_BASE_HI (R828). -/
abbrev hrbWinBaseHi (n : Nat) : Nat := 0x2404 + 0x80 * n
/-- HST_RB_WIN_BASE_HI.VALUE, bits [31:0] (R828). -/
abbrev hrbWinBaseHiF (n : Nat) : Fld := ⟨hrbWinBaseHi n, 0, 32⟩
/-- Address of HST_RB_WIN_LEN_LO (R828). -/
abbrev hrbWinLenLo (n : Nat) : Nat := 0x2408 + 0x80 * n
/-- HST_RB_WIN_LEN_LO.VALUE, bits [31:0] (R828). -/
abbrev hrbWinLenLoF (n : Nat) : Fld := ⟨hrbWinLenLo n, 0, 32⟩
/-- Address of HST_RB_WIN_LEN_HI (R828). -/
abbrev hrbWinLenHi (n : Nat) : Nat := 0x240C + 0x80 * n
/-- HST_RB_WIN_LEN_HI.VALUE, bits [31:0] (R828). -/
abbrev hrbWinLenHiF (n : Nat) : Fld := ⟨hrbWinLenHi n, 0, 32⟩
/-- Address of HST_RB_WIN_KEY (R828). -/
abbrev hrbWinKey (n : Nat) : Nat := 0x2410 + 0x80 * n
/-- HST_RB_WIN_KEY.KEY, bits [31:0] (R828). -/
abbrev hrbWinKeyF (n : Nat) : Fld := ⟨hrbWinKey n, 0, 32⟩
/-- Address of HST_RB_INDEX_OFF (R828). -/
abbrev hrbIndexOff (n : Nat) : Nat := 0x2414 + 0x80 * n
/-- HST_RB_INDEX_OFF.OFFSET, bits [31:0] (R828). -/
abbrev hrbIndexOffF (n : Nat) : Fld := ⟨hrbIndexOff n, 0, 32⟩
/-- Address of HST_RB_CMD_OFF (R828). -/
abbrev hrbCmdOff (n : Nat) : Nat := 0x2418 + 0x80 * n
/-- HST_RB_CMD_OFF.OFFSET, bits [31:0] (R828). -/
abbrev hrbCmdOffF (n : Nat) : Fld := ⟨hrbCmdOff n, 0, 32⟩
/-- Address of HST_RB_CPL_OFF (R828). -/
abbrev hrbCplOff (n : Nat) : Nat := 0x241C + 0x80 * n
/-- HST_RB_CPL_OFF.OFFSET, bits [31:0] (R828). -/
abbrev hrbCplOffF (n : Nat) : Fld := ⟨hrbCplOff n, 0, 32⟩
/-- Address of HST_RB_EVT_OFF (R828). -/
abbrev hrbEvtOff (n : Nat) : Nat := 0x2420 + 0x80 * n
/-- HST_RB_EVT_OFF.OFFSET, bits [31:0] (R828). -/
abbrev hrbEvtOffF (n : Nat) : Fld := ⟨hrbEvtOff n, 0, 32⟩
/-- Address of HST_RB_PEN_OFF (R828). -/
abbrev hrbPenOff (n : Nat) : Nat := 0x2424 + 0x80 * n
/-- HST_RB_PEN_OFF.OFFSET, bits [31:0] (R828). -/
abbrev hrbPenOffF (n : Nat) : Fld := ⟨hrbPenOff n, 0, 32⟩
/-- Address of HST_RB_OVW_OFF (R828). -/
abbrev hrbOvwOff (n : Nat) : Nat := 0x2428 + 0x80 * n
/-- HST_RB_OVW_OFF.OFFSET, bits [31:0] (R828). -/
abbrev hrbOvwOffF (n : Nat) : Fld := ⟨hrbOvwOff n, 0, 32⟩
/-- Address of HST_RB_SIZES (R828). -/
abbrev hrbSizes (n : Nat) : Nat := 0x242C + 0x80 * n
/-- HST_RB_SIZES.CMD, bits [4:0] (R828). -/
abbrev hrbSizesCmd (n : Nat) : Fld := ⟨hrbSizes n, 0, 5⟩
/-- HST_RB_SIZES.CPL, bits [9:5] (R828). -/
abbrev hrbSizesCpl (n : Nat) : Fld := ⟨hrbSizes n, 5, 5⟩
/-- HST_RB_SIZES.EVT, bits [14:10] (R828). -/
abbrev hrbSizesEvt (n : Nat) : Fld := ⟨hrbSizes n, 10, 5⟩
/-- HST_RB_SIZES.PEN, bits [19:15] (R828). -/
abbrev hrbSizesPen (n : Nat) : Fld := ⟨hrbSizes n, 15, 5⟩
/-- HST_RB_SIZES.OVW, bits [24:20] (R828). -/
abbrev hrbSizesOvw (n : Nat) : Fld := ⟨hrbSizes n, 20, 5⟩
/-- Address of HST_RB_OVW_SLOT (R828). -/
abbrev hrbOvwSlot (n : Nat) : Nat := 0x2430 + 0x80 * n
/-- HST_RB_OVW_SLOT.BYTES, bits [15:0] (R828). -/
abbrev hrbOvwSlotF (n : Nat) : Fld := ⟨hrbOvwSlot n, 0, 16⟩
/-- Address of HST_RB_HOST_QPN (R828). -/
abbrev hrbHostQpn (n : Nat) : Nat := 0x2434 + 0x80 * n
/-- HST_RB_HOST_QPN.QPN, bits [23:0] (R828). -/
abbrev hrbHostQpnF (n : Nat) : Fld := ⟨hrbHostQpn n, 0, 24⟩
/-- Address of HST_RB_MODULE_QPN (R828). -/
abbrev hrbModuleQpn (n : Nat) : Nat := 0x2438 + 0x80 * n
/-- HST_RB_MODULE_QPN.QPN, bits [23:0] (R828). -/
abbrev hrbModuleQpnF (n : Nat) : Fld := ⟨hrbModuleQpn n, 0, 24⟩
/-- Address of HST_RB_DB_KEY (R828). -/
abbrev hrbDbKey (n : Nat) : Nat := 0x243C + 0x80 * n
/-- HST_RB_DB_KEY.KEY, bits [31:0] (R828). -/
abbrev hrbDbKeyF (n : Nat) : Fld := ⟨hrbDbKey n, 0, 32⟩
/-- Address of HST_RB_DB_ADDR_LO (R828). -/
abbrev hrbDbAddrLo (n : Nat) : Nat := 0x2440 + 0x80 * n
/-- HST_RB_DB_ADDR_LO.VALUE, bits [31:0] (R828). -/
abbrev hrbDbAddrLoF (n : Nat) : Fld := ⟨hrbDbAddrLo n, 0, 32⟩
/-- Address of HST_RB_DB_ADDR_HI (R828). -/
abbrev hrbDbAddrHi (n : Nat) : Nat := 0x2444 + 0x80 * n
/-- HST_RB_DB_ADDR_HI.VALUE, bits [31:0] (R828). -/
abbrev hrbDbAddrHiF (n : Nat) : Fld := ⟨hrbDbAddrHi n, 0, 32⟩
/-- Address of PLN_STATUS (R424). -/
abbrev plnStatus : Nat := 0x3000
/-- PLN_STATUS.STATE, bits [2:0] (R424). -/
abbrev plnStatusState : Fld := ⟨plnStatus, 0, 3⟩
/-- PLN_STATUS.FALLBACKS_READY, bits [3:3] (R424). -/
abbrev plnStatusFallbacksReady : Fld := ⟨plnStatus, 3, 1⟩
/-- PLN_STATUS.ON_FALLBACK, bits [4:4] (R424). -/
abbrev plnStatusOnFallback : Fld := ⟨plnStatus, 4, 1⟩
/-- PLN_STATUS.HOT, bits [5:5] (R424). -/
abbrev plnStatusHot : Fld := ⟨plnStatus, 5, 1⟩
/-- PLN_STATUS.BG_CAPPED, bits [6:6] (R424). -/
abbrev plnStatusBgCapped : Fld := ⟨plnStatus, 6, 1⟩
/-- PLN_STATUS.FIFO_SHORT, bits [7:7] (R424). -/
abbrev plnStatusFifoShort : Fld := ⟨plnStatus, 7, 1⟩
/-- PLN_STATUS.STORED_VALID, bits [8:8] (R424). -/
abbrev plnStatusStoredValid : Fld := ⟨plnStatus, 8, 1⟩
/-- PLN_STATUS.LAST_STATUS, bits [23:16] (R424). -/
abbrev plnStatusLastStatus : Fld := ⟨plnStatus, 16, 8⟩
/-- Address of PLN_ACTIVE (R425). -/
abbrev plnActive : Nat := 0x3004
/-- PLN_ACTIVE.FALLBACK, bits [6:0] (R425). -/
abbrev plnActiveF : Fld := ⟨plnActive, 0, 7⟩
/-- Address of PLN_FB_READY (R425). -/
abbrev plnFbReady (i : Nat) : Nat := 0x3008 + 4 * i
/-- PLN_FB_READY.READY, bits [31:0] (R425). -/
abbrev plnFbReadyF (i : Nat) : Fld := ⟨plnFbReady i, 0, 32⟩
/-- Address of PLN_PLAN_ID (R425). -/
abbrev plnPlanId : Nat := 0x3014
/-- PLN_PLAN_ID.ID, bits [31:0] (R425). -/
abbrev plnPlanIdF : Fld := ⟨plnPlanId, 0, 32⟩
/-- Address of PLN_CAP (R425). -/
abbrev plnCap : Nat := 0x3018
/-- PLN_CAP.CAP, bits [7:0] (R425). -/
abbrev plnCapF : Fld := ⟨plnCap, 0, 8⟩
/-- Address of PLN_COMPILE (R425). -/
abbrev plnCompile : Nat := 0x301C
/-- PLN_COMPILE.MAIN_MS, bits [15:0] (R425). -/
abbrev plnCompileMainMs : Fld := ⟨plnCompile, 0, 16⟩
/-- PLN_COMPILE.FALLBACK_10MS, bits [31:16] (R425). -/
abbrev plnCompileFallback10ms : Fld := ⟨plnCompile, 16, 16⟩
/-- Address of PLN_FRAME_LO (R425). -/
abbrev plnFrameLo : Nat := 0x3020
/-- PLN_FRAME_LO.VALUE, bits [31:0] (R425). -/
abbrev plnFrameLoF : Fld := ⟨plnFrameLo, 0, 32⟩
/-- Address of PLN_FRAME_HI (R425). -/
abbrev plnFrameHi : Nat := 0x3024
/-- PLN_FRAME_HI.VALUE, bits [31:0] (R425). -/
abbrev plnFrameHiF : Fld := ⟨plnFrameHi, 0, 32⟩
/-- Address of PLN_CNT_SWITCHES (R425). -/
abbrev plnCntSwitches : Nat := 0x3028
/-- PLN_CNT_SWITCHES.COUNT, bits [31:0] (R425). -/
abbrev plnCntSwitchesF : Fld := ⟨plnCntSwitches, 0, 32⟩
/-- Address of PLN_CNT_REFUSED (R425). -/
abbrev plnCntRefused : Nat := 0x302C
/-- PLN_CNT_REFUSED.COUNT, bits [31:0] (R425). -/
abbrev plnCntRefusedF : Fld := ⟨plnCntRefused, 0, 32⟩
/-- Address of PLN_PLAN_HASH (R425). -/
abbrev plnPlanHash (i : Nat) : Nat := 0x3040 + 4 * i
/-- PLN_PLAN_HASH.HASH, bits [31:0] (R425). -/
abbrev plnPlanHashF (i : Nat) : Fld := ⟨plnPlanHash i, 0, 32⟩
/-- Address of PLN_RECIPE_HASH (R425). -/
abbrev plnRecipeHash (i : Nat) : Nat := 0x3060 + 4 * i
/-- PLN_RECIPE_HASH.HASH, bits [31:0] (R425). -/
abbrev plnRecipeHashF (i : Nat) : Fld := ⟨plnRecipeHash i, 0, 32⟩
/-- Address of ZLP_CTRL (R98). -/
abbrev zlpCtrl (p : Nat) : Nat := 0x4000 + 0x100 * p
/-- ZLP_CTRL.PORT_EN, bits [0:0] (R98). -/
abbrev zlpCtrlPortEn (p : Nat) : Fld := ⟨zlpCtrl p, 0, 1⟩
/-- ZLP_CTRL.BOND, bits [1:1] (R98). -/
abbrev zlpCtrlBond (p : Nat) : Fld := ⟨zlpCtrl p, 1, 1⟩
/-- ZLP_CTRL.LOOP, bits [4:2] (R98). -/
abbrev zlpCtrlLoop (p : Nat) : Fld := ⟨zlpCtrl p, 2, 3⟩
/-- ZLP_CTRL.PRBS_EN, bits [5:5] (R98). -/
abbrev zlpCtrlPrbsEn (p : Nat) : Fld := ⟨zlpCtrl p, 5, 1⟩
/-- ZLP_CTRL.REDISCOVER, bits [6:6] (R98). -/
abbrev zlpCtrlRediscover (p : Nat) : Fld := ⟨zlpCtrl p, 6, 1⟩
/-- ZLP_CTRL.ADAPT, bits [7:7] (R98). -/
abbrev zlpCtrlAdapt (p : Nat) : Fld := ⟨zlpCtrl p, 7, 1⟩
/-- ZLP_CTRL.MAX_RATE, bits [11:8] (R98). -/
abbrev zlpCtrlMaxRate (p : Nat) : Fld := ⟨zlpCtrl p, 8, 4⟩
/-- Address of ZLP_STATUS (R99). -/
abbrev zlpStatus (p : Nat) : Nat := 0x4004 + 0x100 * p
/-- ZLP_STATUS.STATE, bits [3:0] (R99). -/
abbrev zlpStatusState (p : Nat) : Fld := ⟨zlpStatus p, 0, 4⟩
/-- ZLP_STATUS.RATE, bits [7:4] (R99). -/
abbrev zlpStatusRate (p : Nat) : Fld := ⟨zlpStatus p, 4, 4⟩
/-- ZLP_STATUS.LANES, bits [11:8] (R99). -/
abbrev zlpStatusLanes (p : Nat) : Fld := ⟨zlpStatus p, 8, 4⟩
/-- ZLP_STATUS.DEGRADED, bits [12:12] (R99). -/
abbrev zlpStatusDegraded (p : Nat) : Fld := ⟨zlpStatus p, 12, 1⟩
/-- ZLP_STATUS.PRESENT, bits [13:13] (R99). -/
abbrev zlpStatusPresent (p : Nat) : Fld := ⟨zlpStatus p, 13, 1⟩
/-- ZLP_STATUS.CAMERA_CHANGED, bits [14:14] (R99). -/
abbrev zlpStatusCameraChanged (p : Nat) : Fld := ⟨zlpStatus p, 14, 1⟩
/-- ZLP_STATUS.NOTICE, bits [17:15] (R99). -/
abbrev zlpStatusNotice (p : Nat) : Fld := ⟨zlpStatus p, 15, 3⟩
/-- Address of ZLP_FOM (R100). -/
abbrev zlpFom (p : Nat) : Nat := 0x4008 + 0x100 * p
/-- ZLP_FOM.LANE0, bits [7:0] (R100). -/
abbrev zlpFomLane0 (p : Nat) : Fld := ⟨zlpFom p, 0, 8⟩
/-- ZLP_FOM.LANE1, bits [15:8] (R100). -/
abbrev zlpFomLane1 (p : Nat) : Fld := ⟨zlpFom p, 8, 8⟩
/-- ZLP_FOM.LANE2, bits [23:16] (R100). -/
abbrev zlpFomLane2 (p : Nat) : Fld := ⟨zlpFom p, 16, 8⟩
/-- ZLP_FOM.LANE3, bits [31:24] (R100). -/
abbrev zlpFomLane3 (p : Nat) : Fld := ⟨zlpFom p, 24, 8⟩
/-- Address of ZLP_CAM_FOM (R100). -/
abbrev zlpCamFom (p : Nat) : Nat := 0x400C + 0x100 * p
/-- ZLP_CAM_FOM.LANE0, bits [7:0] (R100). -/
abbrev zlpCamFomLane0 (p : Nat) : Fld := ⟨zlpCamFom p, 0, 8⟩
/-- ZLP_CAM_FOM.LANE1, bits [15:8] (R100). -/
abbrev zlpCamFomLane1 (p : Nat) : Fld := ⟨zlpCamFom p, 8, 8⟩
/-- ZLP_CAM_FOM.LANE2, bits [23:16] (R100). -/
abbrev zlpCamFomLane2 (p : Nat) : Fld := ⟨zlpCamFom p, 16, 8⟩
/-- ZLP_CAM_FOM.LANE3, bits [31:24] (R100). -/
abbrev zlpCamFomLane3 (p : Nat) : Fld := ⟨zlpCamFom p, 24, 8⟩
/-- Address of ZLP_EVENTS (R101). -/
abbrev zlpEvents (p : Nat) : Nat := 0x4010 + 0x100 * p
/-- ZLP_EVENTS.EVENTS, bits [7:0] (R101). -/
abbrev zlpEventsF (p : Nat) : Fld := ⟨zlpEvents p, 0, 8⟩
/-- Address of ZLP_CNT_REPLACED (R102). -/
abbrev zlpCntReplaced (p : Nat) : Nat := 0x4014 + 0x100 * p
/-- ZLP_CNT_REPLACED.COUNT, bits [31:0] (R102). -/
abbrev zlpCntReplacedF (p : Nat) : Fld := ⟨zlpCntReplaced p, 0, 32⟩
/-- Address of ZLP_CNT_LOST (R102). -/
abbrev zlpCntLost (p : Nat) : Nat := 0x4018 + 0x100 * p
/-- ZLP_CNT_LOST.COUNT, bits [31:0] (R102). -/
abbrev zlpCntLostF (p : Nat) : Fld := ⟨zlpCntLost p, 0, 32⟩
/-- Address of ZLP_CNT_DUPLICATE (R102). -/
abbrev zlpCntDuplicate (p : Nat) : Nat := 0x401C + 0x100 * p
/-- ZLP_CNT_DUPLICATE.COUNT, bits [31:0] (R102). -/
abbrev zlpCntDuplicateF (p : Nat) : Fld := ⟨zlpCntDuplicate p, 0, 32⟩
/-- Address of ZLP_CNT_BADPKT (R102). -/
abbrev zlpCntBadpkt (p : Nat) : Nat := 0x4020 + 0x100 * p
/-- ZLP_CNT_BADPKT.COUNT, bits [31:0] (R102). -/
abbrev zlpCntBadpktF (p : Nat) : Fld := ⟨zlpCntBadpkt p, 0, 32⟩
/-- Address of ZLP_CNT_UNMATCHED (R102). -/
abbrev zlpCntUnmatched (p : Nat) : Nat := 0x4024 + 0x100 * p
/-- ZLP_CNT_UNMATCHED.COUNT, bits [31:0] (R102). -/
abbrev zlpCntUnmatchedF (p : Nat) : Fld := ⟨zlpCntUnmatched p, 0, 32⟩
/-- Address of ZLP_CNT_BRINGUP (R102). -/
abbrev zlpCntBringup (p : Nat) : Nat := 0x4028 + 0x100 * p
/-- ZLP_CNT_BRINGUP.COUNT, bits [31:0] (R102). -/
abbrev zlpCntBringupF (p : Nat) : Fld := ⟨zlpCntBringup p, 0, 32⟩
/-- Address of ZLP_CNT_TRIG_OVERRUN (R102). -/
abbrev zlpCntTrigOverrun (p : Nat) : Nat := 0x402C + 0x100 * p
/-- ZLP_CNT_TRIG_OVERRUN.COUNT, bits [31:0] (R102). -/
abbrev zlpCntTrigOverrunF (p : Nat) : Fld := ⟨zlpCntTrigOverrun p, 0, 32⟩
/-- Address of ZLP_PRBS_ERR (R102). -/
abbrev zlpPrbsErr (p i : Nat) : Nat := 0x4030 + 0x100 * p + 4 * i
/-- ZLP_PRBS_ERR.COUNT, bits [31:0] (R102). -/
abbrev zlpPrbsErrF (p i : Nat) : Fld := ⟨zlpPrbsErr p i, 0, 32⟩
/-- Address of ZLP_CAPABILITY (R102). -/
abbrev zlpCapability (p i : Nat) : Nat := 0x4040 + 0x100 * p + 4 * i
/-- ZLP_CAPABILITY.VALUE, bits [31:0] (R102). -/
abbrev zlpCapabilityF (p i : Nat) : Fld := ⟨zlpCapability p i, 0, 32⟩
/-- Address of CTX_CTRL (R137). -/
abbrev ctxCtrl (c : Nat) : Nat := 0x5000 + 0x40 * c
/-- CTX_CTRL.SERVICE, bits [1:0] (R137). -/
abbrev ctxCtrlService (c : Nat) : Fld := ⟨ctxCtrl c, 0, 2⟩
/-- CTX_CTRL.SLICE, bits [3:2] (R137). -/
abbrev ctxCtrlSlice (c : Nat) : Fld := ⟨ctxCtrl c, 2, 2⟩
/-- CTX_CTRL.STRIP_LINES, bits [6:4] (R137). -/
abbrev ctxCtrlStripLines (c : Nat) : Fld := ⟨ctxCtrl c, 4, 3⟩
/-- CTX_CTRL.FLUSH_MS, bits [14:7] (R137). -/
abbrev ctxCtrlFlushMs (c : Nat) : Fld := ⟨ctxCtrl c, 7, 8⟩
/-- CTX_CTRL.GATED, bits [15:15] (R137). -/
abbrev ctxCtrlGated (c : Nat) : Fld := ⟨ctxCtrl c, 15, 1⟩
/-- Address of CTX_STATUS (R138). -/
abbrev ctxStatus (c : Nat) : Nat := 0x5004 + 0x40 * c
/-- CTX_STATUS.ACTIVE_BANK, bits [0:0] (R138). -/
abbrev ctxStatusActiveBank (c : Nat) : Fld := ⟨ctxStatus c, 0, 1⟩
/-- CTX_STATUS.BANK_PENDING, bits [1:1] (R138). -/
abbrev ctxStatusBankPending (c : Nat) : Fld := ⟨ctxStatus c, 1, 1⟩
/-- CTX_STATUS.BANK_WRITABLE, bits [2:2] (R138). -/
abbrev ctxStatusBankWritable (c : Nat) : Fld := ⟨ctxStatus c, 2, 1⟩
/-- CTX_STATUS.TAG, bits [10:3] (R138). -/
abbrev ctxStatusTag (c : Nat) : Fld := ⟨ctxStatus c, 3, 8⟩
/-- CTX_STATUS.APPLY_PENDING, bits [12:11] (R138). -/
abbrev ctxStatusApplyPending (c : Nat) : Fld := ⟨ctxStatus c, 11, 2⟩
/-- CTX_STATUS.ALERT, bits [15:13] (R138). -/
abbrev ctxStatusAlert (c : Nat) : Fld := ⟨ctxStatus c, 13, 3⟩
/-- Address of CTX_STRIP_LO (R139). -/
abbrev ctxStripLo (c : Nat) : Nat := 0x5008 + 0x40 * c
/-- CTX_STRIP_LO.VALUE, bits [31:0] (R139). -/
abbrev ctxStripLoF (c : Nat) : Fld := ⟨ctxStripLo c, 0, 32⟩
/-- Address of CTX_STRIP_HI (R139). -/
abbrev ctxStripHi (c : Nat) : Nat := 0x500C + 0x40 * c
/-- CTX_STRIP_HI.VALUE, bits [31:0] (R139). -/
abbrev ctxStripHiF (c : Nat) : Fld := ⟨ctxStripHi c, 0, 32⟩
/-- Address of CTX_BASE (R139). -/
abbrev ctxBase (c : Nat) : Nat := 0x5010 + 0x40 * c
/-- CTX_BASE.VALUE, bits [31:0] (R139). -/
abbrev ctxBaseF (c : Nat) : Fld := ⟨ctxBase c, 0, 32⟩
/-- Address of CTX_FIFO (R140). -/
abbrev ctxFifo (c : Nat) : Nat := 0x5014 + 0x40 * c
/-- CTX_FIFO.LEVEL, bits [14:0] (R140). -/
abbrev ctxFifoLevel (c : Nat) : Fld := ⟨ctxFifo c, 0, 15⟩
/-- CTX_FIFO.PEAK, bits [30:16] (R140). -/
abbrev ctxFifoPeak (c : Nat) : Fld := ⟨ctxFifo c, 16, 15⟩
/-- CTX_FIFO.PEAK_CLEAR, bits [31:31] (R140). -/
abbrev ctxFifoPeakClear (c : Nat) : Fld := ⟨ctxFifo c, 31, 1⟩
/-- Address of CTX_EVENTS (R141). -/
abbrev ctxEvents (c : Nat) : Nat := 0x5018 + 0x40 * c
/-- CTX_EVENTS.EVENTS, bits [3:0] (R141). -/
abbrev ctxEventsF (c : Nat) : Fld := ⟨ctxEvents c, 0, 4⟩
/-- Address of CTX_CNT_OVERFLOW (R141). -/
abbrev ctxCntOverflow (c : Nat) : Nat := 0x501C + 0x40 * c
/-- CTX_CNT_OVERFLOW.COUNT, bits [31:0] (R141). -/
abbrev ctxCntOverflowF (c : Nat) : Fld := ⟨ctxCntOverflow c, 0, 32⟩
/-- Address of CTX_CNT_SHORT (R141). -/
abbrev ctxCntShort (c : Nat) : Nat := 0x5020 + 0x40 * c
/-- CTX_CNT_SHORT.COUNT, bits [31:0] (R141). -/
abbrev ctxCntShortF (c : Nat) : Fld := ⟨ctxCntShort c, 0, 32⟩
/-- Address of CTX_CNT_TAG_MISMATCH (R141). -/
abbrev ctxCntTagMismatch (c : Nat) : Nat := 0x5024 + 0x40 * c
/-- CTX_CNT_TAG_MISMATCH.COUNT, bits [31:0] (R141). -/
abbrev ctxCntTagMismatchF (c : Nat) : Fld := ⟨ctxCntTagMismatch c, 0, 32⟩
/-- Address of COR_STATUS (R191). -/
abbrev corStatus (c : Nat) : Nat := 0x6000 + 0x40 * c
/-- COR_STATUS.BLACK_ON, bits [0:0] (R191). -/
abbrev corStatusBlackOn (c : Nat) : Fld := ⟨corStatus c, 0, 1⟩
/-- COR_STATUS.TRACK_ON, bits [1:1] (R191). -/
abbrev corStatusTrackOn (c : Nat) : Fld := ⟨corStatus c, 1, 1⟩
/-- COR_STATUS.DEFECT_ON, bits [2:2] (R191). -/
abbrev corStatusDefectOn (c : Nat) : Fld := ⟨corStatus c, 2, 1⟩
/-- COR_STATUS.OUTLIER_ON, bits [3:3] (R191). -/
abbrev corStatusOutlierOn (c : Nat) : Fld := ⟨corStatus c, 3, 1⟩
/-- COR_STATUS.SHADE_ON, bits [4:4] (R191). -/
abbrev corStatusShadeOn (c : Nat) : Fld := ⟨corStatus c, 4, 1⟩
/-- COR_STATUS.MOSAIC_ON, bits [5:5] (R191). -/
abbrev corStatusMosaicOn (c : Nat) : Fld := ⟨corStatus c, 5, 1⟩
/-- COR_STATUS.MATRIX_ON, bits [6:6] (R191). -/
abbrev corStatusMatrixOn (c : Nat) : Fld := ⟨corStatus c, 6, 1⟩
/-- COR_STATUS.STAT_ON, bits [7:7] (R191). -/
abbrev corStatusStatOn (c : Nat) : Fld := ⟨corStatus c, 7, 1⟩
/-- COR_STATUS.PLANES, bits [10:8] (R191). -/
abbrev corStatusPlanes (c : Nat) : Fld := ⟨corStatus c, 8, 3⟩
/-- COR_STATUS.CHANNELS, bits [13:11] (R191). -/
abbrev corStatusChannels (c : Nat) : Fld := ⟨corStatus c, 11, 3⟩
/-- COR_STATUS.REF_ROW, bits [15:14] (R191). -/
abbrev corStatusRefRow (c : Nat) : Fld := ⟨corStatus c, 14, 2⟩
/-- COR_STATUS.LOOKAHEAD, bits [17:16] (R191). -/
abbrev corStatusLookahead (c : Nat) : Fld := ⟨corStatus c, 16, 2⟩
/-- COR_STATUS.TRACK_LIMIT, bits [18:18] (R191). -/
abbrev corStatusTrackLimit (c : Nat) : Fld := ⟨corStatus c, 18, 1⟩
/-- COR_STATUS.REG_CLAMPED, bits [19:19] (R191). -/
abbrev corStatusRegClamped (c : Nat) : Fld := ⟨corStatus c, 19, 1⟩
/-- Address of COR_TRACK (R192). -/
abbrev corTrack (c r : Nat) : Nat := 0x6004 + 0x40 * c + 4 * r
/-- COR_TRACK.T, bits [31:0] (R192). -/
abbrev corTrackF (c r : Nat) : Fld := ⟨corTrack c r, 0, 32⟩
/-- Address of COR_CNT_OUTLIER (R193). -/
abbrev corCntOutlier (c : Nat) : Nat := 0x6014 + 0x40 * c
/-- COR_CNT_OUTLIER.COUNT, bits [31:0] (R193). -/
abbrev corCntOutlierF (c : Nat) : Fld := ⟨corCntOutlier c, 0, 32⟩
/-- Address of COR_CNT_CLIPPED (R193). -/
abbrev corCntClipped (c : Nat) : Nat := 0x6018 + 0x40 * c
/-- COR_CNT_CLIPPED.COUNT, bits [31:0] (R193). -/
abbrev corCntClippedF (c : Nat) : Fld := ⟨corCntClipped c, 0, 32⟩
/-- Address of COR_CNT_OVER (R193). -/
abbrev corCntOver (c : Nat) : Nat := 0x601C + 0x40 * c
/-- COR_CNT_OVER.COUNT, bits [31:0] (R193). -/
abbrev corCntOverF (c : Nat) : Fld := ⟨corCntOver c, 0, 32⟩
/-- Address of GEO_STATUS (R236). -/
abbrev geoStatus (c : Nat) : Nat := 0x7000 + 0x40 * c
/-- GEO_STATUS.DW_MODE, bits [1:0] (R236). -/
abbrev geoStatusDwMode (c : Nat) : Fld := ⟨geoStatus c, 0, 2⟩
/-- GEO_STATUS.GEN, bits [9:2] (R236). -/
abbrev geoStatusGen (c : Nat) : Fld := ⟨geoStatus c, 2, 8⟩
/-- GEO_STATUS.BAND_MIXED, bits [10:10] (R236). -/
abbrev geoStatusBandMixed (c : Nat) : Fld := ⟨geoStatus c, 10, 1⟩
/-- GEO_STATUS.BAND_MISSING, bits [11:11] (R236). -/
abbrev geoStatusBandMissing (c : Nat) : Fld := ⟨geoStatus c, 11, 1⟩
/-- GEO_STATUS.PHASE_ERR, bits [12:12] (R236). -/
abbrev geoStatusPhaseErr (c : Nat) : Fld := ⟨geoStatus c, 12, 1⟩
/-- GEO_STATUS.DW_REVERSE, bits [13:13] (R236). -/
abbrev geoStatusDwReverse (c : Nat) : Fld := ⟨geoStatus c, 13, 1⟩
/-- Address of GEO_OWNED_FIRST (R237). -/
abbrev geoOwnedFirst (c : Nat) : Nat := 0x7004 + 0x40 * c
/-- GEO_OWNED_FIRST.COLUMN, bits [18:0] (R237). -/
abbrev geoOwnedFirstF (c : Nat) : Fld := ⟨geoOwnedFirst c, 0, 19⟩
/-- Address of GEO_OWNED_LAST (R237). -/
abbrev geoOwnedLast (c : Nat) : Nat := 0x7008 + 0x40 * c
/-- GEO_OWNED_LAST.COLUMN, bits [18:0] (R237). -/
abbrev geoOwnedLastF (c : Nat) : Fld := ⟨geoOwnedLast c, 0, 19⟩
/-- Address of GEO_DELAY (R237). -/
abbrev geoDelay (c : Nat) : Nat := 0x700C + 0x40 * c
/-- GEO_DELAY.DELAY, bits [10:0] (R237). -/
abbrev geoDelayF (c : Nat) : Fld := ⟨geoDelay c, 0, 11⟩
/-- Address of GEO_LINE_LO (R238). -/
abbrev geoLineLo (c : Nat) : Nat := 0x7010 + 0x40 * c
/-- GEO_LINE_LO.VALUE, bits [31:0] (R238). -/
abbrev geoLineLoF (c : Nat) : Fld := ⟨geoLineLo c, 0, 32⟩
/-- Address of GEO_LINE_HI (R238). -/
abbrev geoLineHi (c : Nat) : Nat := 0x7014 + 0x40 * c
/-- GEO_LINE_HI.VALUE, bits [31:0] (R238). -/
abbrev geoLineHiF (c : Nat) : Fld := ⟨geoLineHi c, 0, 32⟩
/-- Address of GEO_CNT_MIXED (R238). -/
abbrev geoCntMixed (c : Nat) : Nat := 0x7018 + 0x40 * c
/-- GEO_CNT_MIXED.COUNT, bits [31:0] (R238). -/
abbrev geoCntMixedF (c : Nat) : Fld := ⟨geoCntMixed c, 0, 32⟩
/-- Address of GEO_CNT_MISSING (R238). -/
abbrev geoCntMissing (c : Nat) : Nat := 0x701C + 0x40 * c
/-- GEO_CNT_MISSING.COUNT, bits [31:0] (R238). -/
abbrev geoCntMissingF (c : Nat) : Fld := ⟨geoCntMissing c, 0, 32⟩
/-- Address of GEO_CNT_PHASE (R238). -/
abbrev geoCntPhase (c : Nat) : Nat := 0x7020 + 0x40 * c
/-- GEO_CNT_PHASE.COUNT, bits [31:0] (R238). -/
abbrev geoCntPhaseF (c : Nat) : Fld := ⟨geoCntPhase c, 0, 32⟩
/-- Address of GEO_CNT_REVERSE (R238). -/
abbrev geoCntReverse (c : Nat) : Nat := 0x7024 + 0x40 * c
/-- GEO_CNT_REVERSE.COUNT, bits [31:0] (R238). -/
abbrev geoCntReverseF (c : Nat) : Fld := ⟨geoCntReverse c, 0, 32⟩
/-- Address of GEO_DELAY_TIME (R237). -/
abbrev geoDelayTime (c : Nat) : Nat := 0x7028 + 0x40 * c
/-- GEO_DELAY_TIME.DELAY_NS, bits [31:0] (R237). -/
abbrev geoDelayTimeF (c : Nat) : Fld := ⟨geoDelayTime c, 0, 32⟩
/-- Address of GEO_PITCH_X (R239). -/
abbrev gegPitchX : Nat := 0x7300
/-- GEO_PITCH_X.PITCH, bits [19:0] (R239). -/
abbrev gegPitchXF : Fld := ⟨gegPitchX, 0, 20⟩
/-- Address of GEO_PITCH_Y (R239). -/
abbrev gegPitchY : Nat := 0x7304
/-- GEO_PITCH_Y.PITCH, bits [19:0] (R239). -/
abbrev gegPitchYF : Fld := ⟨gegPitchY, 0, 20⟩
/-- Address of GEO_COLUMNS (R239). -/
abbrev gegColumns : Nat := 0x7308
/-- GEO_COLUMNS.COUNT, bits [18:0] (R239). -/
abbrev gegColumnsF : Fld := ⟨gegColumns, 0, 19⟩
/-- Address of GEO_ORIGIN_LO (R239). -/
abbrev gegOriginLo : Nat := 0x730C
/-- GEO_ORIGIN_LO.VALUE, bits [31:0] (R239). -/
abbrev gegOriginLoF : Fld := ⟨gegOriginLo, 0, 32⟩
/-- Address of GEO_ORIGIN_HI (R239). -/
abbrev gegOriginHi : Nat := 0x7310
/-- GEO_ORIGIN_HI.VALUE, bits [31:0] (R239). -/
abbrev gegOriginHiF : Fld := ⟨gegOriginHi, 0, 32⟩
/-- Address of GEO_ZERO_LO (R239). -/
abbrev gegZeroLo : Nat := 0x7314
/-- GEO_ZERO_LO.VALUE, bits [31:0] (R239). -/
abbrev gegZeroLoF : Fld := ⟨gegZeroLo, 0, 32⟩
/-- Address of GEO_ZERO_HI (R239). -/
abbrev gegZeroHi : Nat := 0x7318
/-- GEO_ZERO_HI.VALUE, bits [31:0] (R239). -/
abbrev gegZeroHiF : Fld := ⟨gegZeroHi, 0, 32⟩
/-- Address of OVW_STATUS (R240). -/
abbrev ovwStatus : Nat := 0x8000
/-- OVW_STATUS.RUNNING, bits [0:0] (R240). -/
abbrev ovwStatusRunning : Fld := ⟨ovwStatus, 0, 1⟩
/-- OVW_STATUS.CHANNELS, bits [3:1] (R240). -/
abbrev ovwStatusChannels : Fld := ⟨ovwStatus, 1, 3⟩
/-- OVW_STATUS.HX, bits [6:4] (R240). -/
abbrev ovwStatusHx : Fld := ⟨ovwStatus, 4, 3⟩
/-- OVW_STATUS.HY, bits [10:7] (R240). -/
abbrev ovwStatusHy : Fld := ⟨ovwStatus, 7, 4⟩
/-- Address of OVW_WIDTH (R240). -/
abbrev ovwWidth : Nat := 0x8004
/-- OVW_WIDTH.WIDTH, bits [13:0] (R240). -/
abbrev ovwWidthF : Fld := ⟨ovwWidth, 0, 14⟩
/-- Address of OVW_PITCH (R240). -/
abbrev ovwPitch : Nat := 0x8008
/-- OVW_PITCH.PITCH, bits [31:0] (R240). -/
abbrev ovwPitchF : Fld := ⟨ovwPitch, 0, 32⟩
/-- Address of OVW_EVENTS (R240). -/
abbrev ovwEvents : Nat := 0x800C
/-- OVW_EVENTS.EVENTS, bits [7:0] (R240). -/
abbrev ovwEventsF : Fld := ⟨ovwEvents, 0, 8⟩
/-- Address of OVW_CNT_LINES (R240). -/
abbrev ovwCntLines : Nat := 0x8010
/-- OVW_CNT_LINES.COUNT, bits [31:0] (R240). -/
abbrev ovwCntLinesF : Fld := ⟨ovwCntLines, 0, 32⟩
/-- Address of OVW_CNT_DROPPED (R240). -/
abbrev ovwCntDropped : Nat := 0x8014
/-- OVW_CNT_DROPPED.COUNT, bits [31:0] (R240). -/
abbrev ovwCntDroppedF : Fld := ⟨ovwCntDropped, 0, 32⟩
/-- Address of OVW_CNT_GAP (R240). -/
abbrev ovwCntGap : Nat := 0x8018
/-- OVW_CNT_GAP.COUNT, bits [31:0] (R240). -/
abbrev ovwCntGapF : Fld := ⟨ovwCntGap, 0, 32⟩
/-- Address of SEG_STATUS (R298). -/
abbrev segStatus (c : Nat) : Nat := 0x9000 + 0x40 * c
/-- SEG_STATUS.LAYERS, bits [3:0] (R298). -/
abbrev segStatusLayers (c : Nat) : Fld := ⟨segStatus c, 0, 4⟩
/-- SEG_STATUS.PLANES, bits [6:4] (R298). -/
abbrev segStatusPlanes (c : Nat) : Fld := ⟨segStatus c, 4, 3⟩
/-- SEG_STATUS.STORM, bits [7:7] (R298). -/
abbrev segStatusStorm (c : Nat) : Fld := ⟨segStatus c, 7, 1⟩
/-- SEG_STATUS.WARMUP, bits [8:8] (R298). -/
abbrev segStatusWarmup (c : Nat) : Fld := ⟨segStatus c, 8, 1⟩
/-- SEG_STATUS.RUNS_OVER, bits [9:9] (R298). -/
abbrev segStatusRunsOver (c : Nat) : Fld := ⟨segStatus c, 9, 1⟩
/-- SEG_STATUS.BLOBS_OVER, bits [10:10] (R298). -/
abbrev segStatusBlobsOver (c : Nat) : Fld := ⟨segStatus c, 10, 1⟩
/-- SEG_STATUS.RELEARN, bits [11:11] (R298). -/
abbrev segStatusRelearn (c : Nat) : Fld := ⟨segStatus c, 11, 1⟩
/-- Address of SEG_BLOBS (R299). -/
abbrev segBlobs (c : Nat) : Nat := 0x9004 + 0x40 * c
/-- SEG_BLOBS.OPEN, bits [13:0] (R299). -/
abbrev segBlobsOpen (c : Nat) : Fld := ⟨segBlobs c, 0, 14⟩
/-- SEG_BLOBS.SHARE, bits [29:16] (R299). -/
abbrev segBlobsShare (c : Nat) : Fld := ⟨segBlobs c, 16, 14⟩
/-- Address of SEG_STREAMER (R299). -/
abbrev segStreamer (c : Nat) : Nat := 0x9008 + 0x40 * c
/-- SEG_STREAMER.EXP, bits [4:0] (R299). -/
abbrev segStreamerF (c : Nat) : Fld := ⟨segStreamer c, 0, 5⟩
/-- Address of SEG_CNT_BLOBS (R299). -/
abbrev segCntBlobs (c : Nat) : Nat := 0x900C + 0x40 * c
/-- SEG_CNT_BLOBS.COUNT, bits [31:0] (R299). -/
abbrev segCntBlobsF (c : Nat) : Fld := ⟨segCntBlobs c, 0, 32⟩
/-- Address of SEG_CNT_NOSEED (R299). -/
abbrev segCntNoseed (c : Nat) : Nat := 0x9010 + 0x40 * c
/-- SEG_CNT_NOSEED.COUNT, bits [31:0] (R299). -/
abbrev segCntNoseedF (c : Nat) : Fld := ⟨segCntNoseed c, 0, 32⟩
/-- Address of SEG_CNT_STORM (R299). -/
abbrev segCntStorm (c : Nat) : Nat := 0x9014 + 0x40 * c
/-- SEG_CNT_STORM.COUNT, bits [31:0] (R299). -/
abbrev segCntStormF (c : Nat) : Fld := ⟨segCntStorm c, 0, 32⟩
/-- Address of SEG_CNT_SPLIT (R299). -/
abbrev segCntSplit (c : Nat) : Nat := 0x9018 + 0x40 * c
/-- SEG_CNT_SPLIT.COUNT, bits [31:0] (R299). -/
abbrev segCntSplitF (c : Nat) : Fld := ⟨segCntSplit c, 0, 32⟩
/-- Address of SEG_CNT_RELEARN (R299). -/
abbrev segCntRelearn (c : Nat) : Nat := 0x901C + 0x40 * c
/-- SEG_CNT_RELEARN.COUNT, bits [31:0] (R299). -/
abbrev segCntRelearnF (c : Nat) : Fld := ⟨segCntRelearn c, 0, 32⟩
/-- Address of SEG_CNT_SUPPRESSED (R299). -/
abbrev segCntSuppressed (c : Nat) : Nat := 0x9020 + 0x40 * c
/-- SEG_CNT_SUPPRESSED.COUNT, bits [31:0] (R299). -/
abbrev segCntSuppressedF (c : Nat) : Fld := ⟨segCntSuppressed c, 0, 32⟩
/-- Address of SEG_PARTS (R300). -/
abbrev semParts : Nat := 0x9300
/-- SEG_PARTS.PARTS, bits [14:0] (R300). -/
abbrev semPartsParts : Fld := ⟨semParts, 0, 15⟩
/-- SEG_PARTS.PARTS_PEAK, bits [30:16] (R300). -/
abbrev semPartsPartsPeak : Fld := ⟨semParts, 16, 15⟩
/-- SEG_PARTS.PEAK_CLEAR, bits [31:31] (R300). -/
abbrev semPartsPeakClear : Fld := ⟨semParts, 31, 1⟩
/-- Address of SEG_EVENTS (R300). -/
abbrev semEvents : Nat := 0x9304
/-- SEG_EVENTS.EVENTS, bits [7:0] (R300). -/
abbrev semEventsF : Fld := ⟨semEvents, 0, 8⟩
/-- Address of SEG_ALERT (R300). -/
abbrev semAlert : Nat := 0x9308
/-- SEG_ALERT.ALERT, bits [2:0] (R300). -/
abbrev semAlertF : Fld := ⟨semAlert, 0, 3⟩
/-- Address of SEG_CNT_LATE_BUNTING (R300). -/
abbrev semCntLateBunting : Nat := 0x930C
/-- SEG_CNT_LATE_BUNTING.COUNT, bits [31:0] (R300). -/
abbrev semCntLateBuntingF : Fld := ⟨semCntLateBunting, 0, 32⟩
/-- Address of PEN_STATUS (R334). -/
abbrev penStatus : Nat := 0xA000
/-- PEN_STATUS.DELIVERY, bits [0:0] (R334). -/
abbrev penStatusDelivery : Fld := ⟨penStatus, 0, 1⟩
/-- PEN_STATUS.STAGING, bits [1:1] (R334). -/
abbrev penStatusStaging : Fld := ⟨penStatus, 1, 1⟩
/-- PEN_STATUS.OVERFLOW, bits [2:2] (R334). -/
abbrev penStatusOverflow : Fld := ⟨penStatus, 2, 1⟩
/-- PEN_STATUS.LATE, bits [3:3] (R334). -/
abbrev penStatusLate : Fld := ⟨penStatus, 3, 1⟩
/-- PEN_STATUS.POS_UNCERTAIN, bits [4:4] (R334). -/
abbrev penStatusPosUncertain : Fld := ⟨penStatus, 4, 1⟩
/-- PEN_STATUS.BLOCK_EXP, bits [8:5] (R334). -/
abbrev penStatusBlockExp : Fld := ⟨penStatus, 5, 4⟩
/-- Address of PEN_QUEUE (R335). -/
abbrev penQueue : Nat := 0xA004
/-- PEN_QUEUE.LEVEL, bits [20:0] (R335). -/
abbrev penQueueF : Fld := ⟨penQueue, 0, 21⟩
/-- Address of PEN_QUEUE_PEAK (R335). -/
abbrev penQueuePeak : Nat := 0xA008
/-- PEN_QUEUE_PEAK.PEAK, bits [20:0] (R335). -/
abbrev penQueuePeakPeak : Fld := ⟨penQueuePeak, 0, 21⟩
/-- PEN_QUEUE_PEAK.PEAK_CLEAR, bits [31:31] (R335). -/
abbrev penQueuePeakPeakClear : Fld := ⟨penQueuePeak, 31, 1⟩
/-- Address of PEN_STAGING (R335). -/
abbrev penStaging : Nat := 0xA00C
/-- PEN_STAGING.LEVEL, bits [22:0] (R335). -/
abbrev penStagingF : Fld := ⟨penStaging, 0, 23⟩
/-- Address of PEN_SEQ_LAST_LO (R336). -/
abbrev penSeqLastLo : Nat := 0xA010
/-- PEN_SEQ_LAST_LO.VALUE, bits [31:0] (R336). -/
abbrev penSeqLastLoF : Fld := ⟨penSeqLastLo, 0, 32⟩
/-- Address of PEN_SEQ_LAST_HI (R336). -/
abbrev penSeqLastHi : Nat := 0xA014
/-- PEN_SEQ_LAST_HI.VALUE, bits [31:0] (R336). -/
abbrev penSeqLastHiF : Fld := ⟨penSeqLastHi, 0, 32⟩
/-- Address of PEN_EVENTS (R337). -/
abbrev penEvents : Nat := 0xA018
/-- PEN_EVENTS.EVENTS, bits [7:0] (R337). -/
abbrev penEventsF : Fld := ⟨penEvents, 0, 8⟩
/-- Address of PEN_CNT_WRITTEN (R337). -/
abbrev penCntWritten : Nat := 0xA01C
/-- PEN_CNT_WRITTEN.COUNT, bits [31:0] (R337). -/
abbrev penCntWrittenF : Fld := ⟨penCntWritten, 0, 32⟩
/-- Address of PEN_CNT_GAP (R337). -/
abbrev penCntGap : Nat := 0xA020
/-- PEN_CNT_GAP.COUNT, bits [31:0] (R337). -/
abbrev penCntGapF : Fld := ⟨penCntGap, 0, 32⟩
/-- Address of PEN_CNT_LATE (R337). -/
abbrev penCntLate : Nat := 0xA024
/-- PEN_CNT_LATE.COUNT, bits [31:0] (R337). -/
abbrev penCntLateF : Fld := ⟨penCntLate, 0, 32⟩
/-- Address of PEN_CNT_DISCARDED (R337). -/
abbrev penCntDiscarded : Nat := 0xA028
/-- PEN_CNT_DISCARDED.COUNT, bits [31:0] (R337). -/
abbrev penCntDiscardedF : Fld := ⟨penCntDiscarded, 0, 32⟩
/-- Address of PEN_CNT_EXPORT_SKIPPED (R337). -/
abbrev penCntExportSkipped : Nat := 0xA02C
/-- PEN_CNT_EXPORT_SKIPPED.COUNT, bits [31:0] (R337). -/
abbrev penCntExportSkippedF : Fld := ⟨penCntExportSkipped, 0, 32⟩
/-- Address of PEN_CNT_REPLAYED (R337). -/
abbrev penCntReplayed : Nat := 0xA030
/-- PEN_CNT_REPLAYED.COUNT, bits [31:0] (R337). -/
abbrev penCntReplayedF : Fld := ⟨penCntReplayed, 0, 32⟩
/-- Address of CMP_STATUS (R384). -/
abbrev cmpStatus : Nat := 0xB000
/-- CMP_STATUS.RING_VALID, bits [0:0] (R384). -/
abbrev cmpStatusRingValid : Fld := ⟨cmpStatus, 0, 1⟩
/-- CMP_STATUS.DEPTH_LOW, bits [1:1] (R384). -/
abbrev cmpStatusDepthLow : Fld := ⟨cmpStatus, 1, 1⟩
/-- CMP_STATUS.RATIO_LOW, bits [2:2] (R384). -/
abbrev cmpStatusRatioLow : Fld := ⟨cmpStatus, 2, 1⟩
/-- CMP_STATUS.SKIPPING, bits [3:3] (R384). -/
abbrev cmpStatusSkipping : Fld := ⟨cmpStatus, 3, 1⟩
/-- CMP_STATUS.DECODE_STARVED, bits [4:4] (R384). -/
abbrev cmpStatusDecodeStarved : Fld := ⟨cmpStatus, 4, 1⟩
/-- Address of CMP_DEPTH (R385). -/
abbrev cmpDepth : Nat := 0xB004
/-- CMP_DEPTH.DEPTH, bits [31:0] (R385). -/
abbrev cmpDepthF : Fld := ⟨cmpDepth, 0, 32⟩
/-- Address of CMP_RATIO (R385). -/
abbrev cmpRatio : Nat := 0xB008
/-- CMP_RATIO.RATIO, bits [15:0] (R385). -/
abbrev cmpRatioF : Fld := ⟨cmpRatio, 0, 16⟩
/-- Address of CMP_CHUNKS (R385). -/
abbrev cmpChunks : Nat := 0xB00C
/-- CMP_CHUNKS.TOTAL, bits [15:0] (R385). -/
abbrev cmpChunksTotal : Fld := ⟨cmpChunks, 0, 16⟩
/-- CMP_CHUNKS.FREE, bits [31:16] (R385). -/
abbrev cmpChunksFree : Fld := ⟨cmpChunks, 16, 16⟩
/-- Address of CMP_ENGINE (R385). -/
abbrev cmpEngine (g : Nat) : Nat := 0xB010 + 4 * g
/-- CMP_ENGINE.PLANNED, bits [7:0] (R385). -/
abbrev cmpEnginePlanned (g : Nat) : Fld := ⟨cmpEngine g, 0, 8⟩
/-- CMP_ENGINE.DECODE, bits [15:8] (R385). -/
abbrev cmpEngineDecode (g : Nat) : Fld := ⟨cmpEngine g, 8, 8⟩
/-- Address of CMP_JOBS (R385). -/
abbrev cmpJobs : Nat := 0xB018
/-- CMP_JOBS.JOBS, bits [9:0] (R385). -/
abbrev cmpJobsJobs : Fld := ⟨cmpJobs, 0, 10⟩
/-- CMP_JOBS.AUTO, bits [18:10] (R385). -/
abbrev cmpJobsAuto : Fld := ⟨cmpJobs, 10, 9⟩
/-- Address of CMP_EVENTS (R385). -/
abbrev cmpEvents : Nat := 0xB01C
/-- CMP_EVENTS.EVENTS, bits [15:0] (R385). -/
abbrev cmpEventsF : Fld := ⟨cmpEvents, 0, 16⟩
/-- Address of CMP_CNT_RAW (R386). -/
abbrev cmpCntRaw : Nat := 0xB020
/-- CMP_CNT_RAW.COUNT, bits [31:0] (R386). -/
abbrev cmpCntRawF : Fld := ⟨cmpCntRaw, 0, 32⟩
/-- Address of CMP_CNT_TABLE_LATE (R386). -/
abbrev cmpCntTableLate : Nat := 0xB024
/-- CMP_CNT_TABLE_LATE.COUNT, bits [31:0] (R386). -/
abbrev cmpCntTableLateF : Fld := ⟨cmpCntTableLate, 0, 32⟩
/-- Address of CMP_CNT_RING_SKIPPED (R386). -/
abbrev cmpCntRingSkipped : Nat := 0xB028
/-- CMP_CNT_RING_SKIPPED.COUNT, bits [31:0] (R386). -/
abbrev cmpCntRingSkippedF : Fld := ⟨cmpCntRingSkipped, 0, 32⟩
/-- Address of CMP_CNT_EVICTED_EARLY (R386). -/
abbrev cmpCntEvictedEarly : Nat := 0xB02C
/-- CMP_CNT_EVICTED_EARLY.COUNT, bits [31:0] (R386). -/
abbrev cmpCntEvictedEarlyF : Fld := ⟨cmpCntEvictedEarly, 0, 32⟩
/-- Address of CMP_CNT_JOB_OVERRUN (R386). -/
abbrev cmpCntJobOverrun : Nat := 0xB030
/-- CMP_CNT_JOB_OVERRUN.COUNT, bits [31:0] (R386). -/
abbrev cmpCntJobOverrunF : Fld := ⟨cmpCntJobOverrun, 0, 32⟩
/-- Address of CMP_CNT_BLOCKS (R386). -/
abbrev cmpCntBlocks : Nat := 0xB034
/-- CMP_CNT_BLOCKS.COUNT, bits [31:0] (R386). -/
abbrev cmpCntBlocksF : Fld := ⟨cmpCntBlocks, 0, 32⟩
/-- Address of CMP_TABLE (R386). -/
abbrev cmpTable (c : Nat) : Nat := 0xB040 + 4 * c
/-- CMP_TABLE.TABLE_ID, bits [27:0] (R386). -/
abbrev cmpTableTableId (c : Nat) : Fld := ⟨cmpTable c, 0, 28⟩
/-- CMP_TABLE.DYNAMIC, bits [28:28] (R386). -/
abbrev cmpTableDynamic (c : Nat) : Fld := ⟨cmpTable c, 28, 1⟩
/-- CMP_TABLE.ENGINE, bits [29:29] (R386). -/
abbrev cmpTableEngine (c : Nat) : Fld := ⟨cmpTable c, 29, 1⟩
/-- Address of MC_STATUS (R457). -/
abbrev mcStatus (m : Nat) : Nat := 0xC000 + 0x80 * m
/-- MC_STATUS.STATE, bits [2:0] (R457). -/
abbrev mcStatusState (m : Nat) : Fld := ⟨mcStatus m, 0, 3⟩
/-- MC_STATUS.SPARE, bits [4:3] (R457). -/
abbrev mcStatusSpare (m : Nat) : Fld := ⟨mcStatus m, 3, 2⟩
/-- MC_STATUS.SPARE_VALID, bits [5:5] (R457). -/
abbrev mcStatusSpareValid (m : Nat) : Fld := ⟨mcStatus m, 5, 1⟩
/-- MC_STATUS.UNPROTECTED, bits [6:6] (R457). -/
abbrev mcStatusUnprotected (m : Nat) : Fld := ⟨mcStatus m, 6, 1⟩
/-- MC_STATUS.RANKS, bits [15:8] (R457). -/
abbrev mcStatusRanks (m : Nat) : Fld := ⟨mcStatus m, 8, 8⟩
/-- MC_STATUS.ALERT, bits [18:16] (R457). -/
abbrev mcStatusAlert (m : Nat) : Fld := ⟨mcStatus m, 16, 3⟩
/-- Address of MC_RETIRED (R458). -/
abbrev mcRetired (m : Nat) : Nat := 0xC004 + 0x80 * m
/-- MC_RETIRED.RANK0, bits [2:0] (R458). -/
abbrev mcRetiredRank0 (m : Nat) : Fld := ⟨mcRetired m, 0, 3⟩
/-- MC_RETIRED.RANK1, bits [5:3] (R458). -/
abbrev mcRetiredRank1 (m : Nat) : Fld := ⟨mcRetired m, 3, 3⟩
/-- MC_RETIRED.RANK2, bits [8:6] (R458). -/
abbrev mcRetiredRank2 (m : Nat) : Fld := ⟨mcRetired m, 6, 3⟩
/-- MC_RETIRED.RANK3, bits [11:9] (R458). -/
abbrev mcRetiredRank3 (m : Nat) : Fld := ⟨mcRetired m, 9, 3⟩
/-- MC_RETIRED.CLEAR, bits [12:12] (R458). -/
abbrev mcRetiredClear (m : Nat) : Fld := ⟨mcRetired m, 12, 1⟩
/-- Address of MC_EYE (R459). -/
abbrev mcEye (m : Nat) : Nat := 0xC008 + 0x80 * m
/-- MC_EYE.WIDTH, bits [7:0] (R459). -/
abbrev mcEyeWidth (m : Nat) : Fld := ⟨mcEye m, 0, 8⟩
/-- MC_EYE.HEIGHT, bits [15:8] (R459). -/
abbrev mcEyeHeight (m : Nat) : Fld := ⟨mcEye m, 8, 8⟩
/-- MC_EYE.VREF_DEV, bits [23:16] (R459). -/
abbrev mcEyeVrefDev (m : Nat) : Fld := ⟨mcEye m, 16, 8⟩
/-- Address of MC_TEMP (R459). -/
abbrev mcTemp (m : Nat) : Nat := 0xC00C + 0x80 * m
/-- MC_TEMP.MAX, bits [7:0] (R459). -/
abbrev mcTempF (m : Nat) : Fld := ⟨mcTemp m, 0, 8⟩
/-- Address of MC_MIGRATE (R460). -/
abbrev mcMigrate (m : Nat) : Nat := 0xC010 + 0x80 * m
/-- MC_MIGRATE.RANK, bits [1:0] (R460). -/
abbrev mcMigrateRank (m : Nat) : Fld := ⟨mcMigrate m, 0, 2⟩
/-- MC_MIGRATE.PERMILLE, bits [11:2] (R460). -/
abbrev mcMigratePermille (m : Nat) : Fld := ⟨mcMigrate m, 2, 10⟩
/-- Address of MC_EVENTS (R461). -/
abbrev mcEvents (m : Nat) : Nat := 0xC014 + 0x80 * m
/-- MC_EVENTS.EVENTS, bits [3:0] (R461). -/
abbrev mcEventsF (m : Nat) : Fld := ⟨mcEvents m, 0, 4⟩
/-- Address of MC_LIMITS (R461). -/
abbrev mcLimits (m : Nat) : Nat := 0xC018 + 0x80 * m
/-- MC_LIMITS.RETIRE_LIMIT, bits [15:0] (R461). -/
abbrev mcLimitsRetireLimit (m : Nat) : Fld := ⟨mcLimits m, 0, 16⟩
/-- MC_LIMITS.CE_EXP, bits [19:16] (R461). -/
abbrev mcLimitsCeExp (m : Nat) : Fld := ⟨mcLimits m, 16, 4⟩
/-- Address of MC_CNT_CORRECTED (R461). -/
abbrev mcCntCorrected (m : Nat) : Nat := 0xC01C + 0x80 * m
/-- MC_CNT_CORRECTED.COUNT, bits [31:0] (R461). -/
abbrev mcCntCorrectedF (m : Nat) : Fld := ⟨mcCntCorrected m, 0, 32⟩
/-- Address of MC_CNT_UNCORRECTABLE (R461). -/
abbrev mcCntUncorrectable (m : Nat) : Nat := 0xC020 + 0x80 * m
/-- MC_CNT_UNCORRECTABLE.COUNT, bits [31:0] (R461). -/
abbrev mcCntUncorrectableF (m : Nat) : Fld := ⟨mcCntUncorrectable m, 0, 32⟩
/-- Address of MC_CNT_PARITY (R461). -/
abbrev mcCntParity (m : Nat) : Nat := 0xC024 + 0x80 * m
/-- MC_CNT_PARITY.COUNT, bits [31:0] (R461). -/
abbrev mcCntParityF (m : Nat) : Fld := ⟨mcCntParity m, 0, 32⟩
/-- Address of MC_CNT_POISONED (R461). -/
abbrev mcCntPoisoned (m : Nat) : Nat := 0xC028 + 0x80 * m
/-- MC_CNT_POISONED.COUNT, bits [31:0] (R461). -/
abbrev mcCntPoisonedF (m : Nat) : Fld := ⟨mcCntPoisoned m, 0, 32⟩
/-- Address of MC_CNT_RETRAIN_FAIL (R461). -/
abbrev mcCntRetrainFail (m : Nat) : Nat := 0xC02C + 0x80 * m
/-- MC_CNT_RETRAIN_FAIL.COUNT, bits [31:0] (R461). -/
abbrev mcCntRetrainFailF (m : Nat) : Fld := ⟨mcCntRetrainFail m, 0, 32⟩
/-- Address of MC_DEV_ERR (R461). -/
abbrev mcDevErr (m d : Nat) : Nat := 0xC030 + 0x80 * m + 4 * d
/-- MC_DEV_ERR.COUNT, bits [31:0] (R461). -/
abbrev mcDevErrF (m d : Nat) : Fld := ⟨mcDevErr m d, 0, 32⟩
/-- Address of MC_STATUS (R462). -/
abbrev mcgStatus : Nat := 0xC800
/-- MC_STATUS.IN_SERVICE, bits [15:0] (R462). -/
abbrev mcgStatusInService : Fld := ⟨mcgStatus, 0, 16⟩
/-- MC_STATUS.HOT, bits [16:16] (R462). -/
abbrev mcgStatusHot : Fld := ⟨mcgStatus, 16, 1⟩
/-- Address of JNL_STATUS (R500). -/
abbrev jnlStatus : Nat := 0xD000
/-- JNL_STATUS.SINGLE, bits [0:0] (R500). -/
abbrev jnlStatusSingle : Fld := ⟨jnlStatus, 0, 1⟩
/-- JNL_STATUS.FULL, bits [1:1] (R500). -/
abbrev jnlStatusFull : Fld := ⟨jnlStatus, 1, 1⟩
/-- JNL_STATUS.LOST, bits [2:2] (R500). -/
abbrev jnlStatusLost : Fld := ⟨jnlStatus, 2, 1⟩
/-- JNL_STATUS.REPLAYING, bits [3:3] (R500). -/
abbrev jnlStatusReplaying : Fld := ⟨jnlStatus, 3, 1⟩
/-- JNL_STATUS.CATCHUP, bits [4:4] (R500). -/
abbrev jnlStatusCatchup : Fld := ⟨jnlStatus, 4, 1⟩
/-- JNL_STATUS.LAST_FAULT, bits [7:5] (R500). -/
abbrev jnlStatusLastFault : Fld := ⟨jnlStatus, 5, 3⟩
/-- Address of JNL_FREE (R501). -/
abbrev jnlFree : Nat := 0xD004
/-- JNL_FREE.FREE_MB, bits [11:0] (R501). -/
abbrev jnlFreeF : Fld := ⟨jnlFree, 0, 12⟩
/-- Address of JNL_CATCHUP (R501). -/
abbrev jnlCatchup : Nat := 0xD008
/-- JNL_CATCHUP.CONTEXTS, bits [11:0] (R501). -/
abbrev jnlCatchupF : Fld := ⟨jnlCatchup, 0, 12⟩
/-- Address of JNL_ENTRY_LO (R502). -/
abbrev jnlEntryLo : Nat := 0xD00C
/-- JNL_ENTRY_LO.VALUE, bits [31:0] (R502). -/
abbrev jnlEntryLoF : Fld := ⟨jnlEntryLo, 0, 32⟩
/-- Address of JNL_ENTRY_HI (R502). -/
abbrev jnlEntryHi : Nat := 0xD010
/-- JNL_ENTRY_HI.VALUE, bits [31:0] (R502). -/
abbrev jnlEntryHiF : Fld := ⟨jnlEntryHi, 0, 32⟩
/-- Address of JNL_XFAULT (R503). -/
abbrev jnlXfault : Nat := 0xD014
/-- JNL_XFAULT.VALID, bits [0:0] (R503). -/
abbrev jnlXfaultValid : Fld := ⟨jnlXfault, 0, 1⟩
/-- JNL_XFAULT.SESSION, bits [2:1] (R503). -/
abbrev jnlXfaultSession : Fld := ⟨jnlXfault, 1, 2⟩
/-- JNL_XFAULT.WINDOW, bits [7:3] (R503). -/
abbrev jnlXfaultWindow : Fld := ⟨jnlXfault, 3, 5⟩
/-- JNL_XFAULT.CAUSE, bits [11:8] (R503). -/
abbrev jnlXfaultCause : Fld := ⟨jnlXfault, 8, 4⟩
/-- JNL_XFAULT.REQUESTER, bits [15:12] (R503). -/
abbrev jnlXfaultRequester : Fld := ⟨jnlXfault, 12, 4⟩
/-- Address of JNL_XFAULT_OFF_LO (R502). -/
abbrev jnlXfaultOffLo : Nat := 0xD018
/-- JNL_XFAULT_OFF_LO.VALUE, bits [31:0] (R502). -/
abbrev jnlXfaultOffLoF : Fld := ⟨jnlXfaultOffLo, 0, 32⟩
/-- Address of JNL_XFAULT_OFF_HI (R502). -/
abbrev jnlXfaultOffHi : Nat := 0xD01C
/-- JNL_XFAULT_OFF_HI.VALUE, bits [7:0] (R502). -/
abbrev jnlXfaultOffHiF : Fld := ⟨jnlXfaultOffHi, 0, 8⟩
/-- Address of JNL_SNAP (R504). -/
abbrev jnlSnap (i : Nat) : Nat := 0xD020 + 4 * i
/-- JNL_SNAP.SNAP, bits [31:0] (R504). -/
abbrev jnlSnapF (i : Nat) : Fld := ⟨jnlSnap i, 0, 32⟩
/-- Address of JNL_EVENTS (R505). -/
abbrev jnlEvents : Nat := 0xD028
/-- JNL_EVENTS.EVENTS, bits [7:0] (R505). -/
abbrev jnlEventsF : Fld := ⟨jnlEvents, 0, 8⟩
/-- Address of JNL_CNT_XFAULT (R505). -/
abbrev jnlCntXfault : Nat := 0xD02C
/-- JNL_CNT_XFAULT.COUNT, bits [31:0] (R505). -/
abbrev jnlCntXfaultF : Fld := ⟨jnlCntXfault, 0, 32⟩
/-- Address of JNL_CNT_PREEMPT (R505). -/
abbrev jnlCntPreempt : Nat := 0xD030
/-- JNL_CNT_PREEMPT.COUNT, bits [31:0] (R505). -/
abbrev jnlCntPreemptF : Fld := ⟨jnlCntPreempt, 0, 32⟩
/-- Address of JNL_CNT_STAT_DROPPED (R505). -/
abbrev jnlCntStatDropped : Nat := 0xD034
/-- JNL_CNT_STAT_DROPPED.COUNT, bits [31:0] (R505). -/
abbrev jnlCntStatDroppedF : Fld := ⟨jnlCntStatDropped, 0, 32⟩
/-- Address of JNL_CNT_CATCHUP_NEW (R505). -/
abbrev jnlCntCatchupNew : Nat := 0xD038
/-- JNL_CNT_CATCHUP_NEW.COUNT, bits [31:0] (R505). -/
abbrev jnlCntCatchupNewF : Fld := ⟨jnlCntCatchupNew, 0, 32⟩
/-- Address of TIM_CTRL (R597). -/
abbrev timCtrl : Nat := 0xE000
/-- TIM_CTRL.PTP_EN, bits [0:0] (R597). -/
abbrev timCtrlPtpEn : Fld := ⟨timCtrl, 0, 1⟩
/-- TIM_CTRL.MASTER_EN, bits [1:1] (R597). -/
abbrev timCtrlMasterEn : Fld := ⟨timCtrl, 1, 1⟩
/-- TIM_CTRL.P2P, bits [2:2] (R597). -/
abbrev timCtrlP2p : Fld := ⟨timCtrl, 2, 1⟩
/-- TIM_CTRL.TRANSPORT, bits [4:3] (R597). -/
abbrev timCtrlTransport : Fld := ⟨timCtrl, 3, 2⟩
/-- TIM_CTRL.DOMAIN, bits [11:5] (R597). -/
abbrev timCtrlDomain : Fld := ⟨timCtrl, 5, 7⟩
/-- TIM_CTRL.LOG_SYNC, bits [14:12] (R597). -/
abbrev timCtrlLogSync : Fld := ⟨timCtrl, 12, 3⟩
/-- TIM_CTRL.PRIORITY1, bits [22:15] (R597). -/
abbrev timCtrlPriority1 : Fld := ⟨timCtrl, 15, 8⟩
/-- Address of TIM_STATUS (R597). -/
abbrev timStatus : Nat := 0xE004
/-- TIM_STATUS.SERVO, bits [1:0] (R597). -/
abbrev timStatusServo : Fld := ⟨timStatus, 0, 2⟩
/-- TIM_STATUS.SLAVE_PORT, bits [2:2] (R597). -/
abbrev timStatusSlavePort : Fld := ⟨timStatus, 2, 1⟩
/-- TIM_STATUS.TIMESCALE_ARB, bits [3:3] (R597). -/
abbrev timStatusTimescaleArb : Fld := ⟨timStatus, 3, 1⟩
/-- TIM_STATUS.TIME_FAR, bits [4:4] (R597). -/
abbrev timStatusTimeFar : Fld := ⟨timStatus, 4, 1⟩
/-- Address of TIM_NOW_LO (R597). -/
abbrev timNowLo : Nat := 0xE008
/-- TIM_NOW_LO.VALUE, bits [31:0] (R597). -/
abbrev timNowLoF : Fld := ⟨timNowLo, 0, 32⟩
/-- Address of TIM_NOW_HI (R597). -/
abbrev timNowHi : Nat := 0xE00C
/-- TIM_NOW_HI.VALUE, bits [31:0] (R597). -/
abbrev timNowHiF : Fld := ⟨timNowHi, 0, 32⟩
/-- Address of TIM_OFFSET (R597). -/
abbrev timOffset : Nat := 0xE010
/-- TIM_OFFSET.OFFSET, bits [31:0] (R597). -/
abbrev timOffsetF : Fld := ⟨timOffset, 0, 32⟩
/-- Address of TIM_RATE_LO (R597). -/
abbrev timRateLo : Nat := 0xE014
/-- TIM_RATE_LO.VALUE, bits [31:0] (R597). -/
abbrev timRateLoF : Fld := ⟨timRateLo, 0, 32⟩
/-- Address of TIM_RATE_HI (R597). -/
abbrev timRateHi : Nat := 0xE018
/-- TIM_RATE_HI.VALUE, bits [31:0] (R597). -/
abbrev timRateHiF : Fld := ⟨timRateHi, 0, 32⟩
/-- Address of TIM_KP (R597). -/
abbrev timKp : Nat := 0xE01C
/-- TIM_KP.KP, bits [31:0] (R597). -/
abbrev timKpF : Fld := ⟨timKp, 0, 32⟩
/-- Address of TIM_KI (R597). -/
abbrev timKi : Nat := 0xE020
/-- TIM_KI.KI, bits [31:0] (R597). -/
abbrev timKiF : Fld := ⟨timKi, 0, 32⟩
/-- Address of TIM_STEP_LIMIT (R597). -/
abbrev timStepLimit : Nat := 0xE024
/-- TIM_STEP_LIMIT.LIMIT, bits [31:0] (R597). -/
abbrev timStepLimitF : Fld := ⟨timStepLimit, 0, 32⟩
/-- Address of TIM_PORT (R597). -/
abbrev timPort (e : Nat) : Nat := 0xE028 + 4 * e
/-- TIM_PORT.TC_EN, bits [0:0] (R597). -/
abbrev timPortTcEn (e : Nat) : Fld := ⟨timPort e, 0, 1⟩
/-- TIM_PORT.ONE_STEP, bits [1:1] (R597). -/
abbrev timPortOneStep (e : Nat) : Fld := ⟨timPort e, 1, 1⟩
/-- Address of TIM_ASYM (R597). -/
abbrev timAsym (e : Nat) : Nat := 0xE030 + 4 * e
/-- TIM_ASYM.ASYM, bits [31:0] (R597). -/
abbrev timAsymF (e : Nat) : Fld := ⟨timAsym e, 0, 32⟩
/-- Address of TIM_PACE (R597). -/
abbrev timPace : Nat := 0xE038
/-- TIM_PACE.PACE, bits [31:0] (R597). -/
abbrev timPaceF : Fld := ⟨timPace, 0, 32⟩
/-- Address of TIM_EVENTS (R597). -/
abbrev timEvents : Nat := 0xE03C
/-- TIM_EVENTS.EVENTS, bits [23:0] (R597). -/
abbrev timEventsF : Fld := ⟨timEvents, 0, 24⟩
/-- Address of TIM_TOUT (R597). -/
abbrev timTout : Nat := 0xE040
/-- TIM_TOUT.ACTIVE, bits [15:0] (R597). -/
abbrev timToutF : Fld := ⟨timTout, 0, 16⟩
/-- Address of TIM_AO_TRIM (R597). -/
abbrev timAoTrim : Nat := 0xE044
/-- TIM_AO_TRIM.TRIM, bits [31:0] (R597). -/
abbrev timAoTrimF : Fld := ⟨timAoTrim, 0, 32⟩
/-- Address of TIM_CNT_SYNC_TIMEOUT (R597). -/
abbrev timCntSyncTimeout : Nat := 0xE048
/-- TIM_CNT_SYNC_TIMEOUT.COUNT, bits [31:0] (R597). -/
abbrev timCntSyncTimeoutF : Fld := ⟨timCntSyncTimeout, 0, 32⟩
/-- Address of TIM_CNT_STEPS (R597). -/
abbrev timCntSteps : Nat := 0xE04C
/-- TIM_CNT_STEPS.COUNT, bits [31:0] (R597). -/
abbrev timCntStepsF : Fld := ⟨timCntSteps, 0, 32⟩
/-- Address of TIM_CNT_LAUNCH_LATE (R597). -/
abbrev timCntLaunchLate : Nat := 0xE050
/-- TIM_CNT_LAUNCH_LATE.COUNT, bits [31:0] (R597). -/
abbrev timCntLaunchLateF : Fld := ⟨timCntLaunchLate, 0, 32⟩
/-- Address of FAB_CTRL (R633). -/
abbrev fabCtrl : Nat := 0xF000
/-- FAB_CTRL.ENABLE, bits [0:0] (R633). -/
abbrev fabCtrlEnable : Fld := ⟨fabCtrl, 0, 1⟩
/-- FAB_CTRL.TIMED_ORDERS, bits [1:1] (R633). -/
abbrev fabCtrlTimedOrders : Fld := ⟨fabCtrl, 1, 1⟩
/-- FAB_CTRL.BRIDGE, bits [2:2] (R633). -/
abbrev fabCtrlBridge : Fld := ⟨fabCtrl, 2, 1⟩
/-- Address of FAB_STATUS (R633). -/
abbrev fabStatus : Nat := 0xF004
/-- FAB_STATUS.STATE, bits [2:0] (R633). -/
abbrev fabStatusState : Fld := ⟨fabStatus, 0, 3⟩
/-- FAB_STATUS.ADDRESS, bits [8:3] (R633). -/
abbrev fabStatusAddress : Fld := ⟨fabStatus, 3, 6⟩
/-- FAB_STATUS.COORDINATOR, bits [9:9] (R633). -/
abbrev fabStatusCoordinator : Fld := ⟨fabStatus, 9, 1⟩
/-- FAB_STATUS.MODULES, bits [15:10] (R633). -/
abbrev fabStatusModules : Fld := ⟨fabStatus, 10, 6⟩
/-- FAB_STATUS.HOPS, bits [20:16] (R633). -/
abbrev fabStatusHops : Fld := ⟨fabStatus, 16, 5⟩
/-- FAB_STATUS.RING_DETECTED, bits [21:21] (R633). -/
abbrev fabStatusRingDetected : Fld := ⟨fabStatus, 21, 1⟩
/-- FAB_STATUS.MISMATCH, bits [22:22] (R633). -/
abbrev fabStatusMismatch : Fld := ⟨fabStatus, 22, 1⟩
/-- Address of FAB_NEIGHBOURS (R633). -/
abbrev fabNeighbours : Nat := 0xF008
/-- FAB_NEIGHBOURS.LOW_LOST, bits [0:0] (R633). -/
abbrev fabNeighboursLowLost : Fld := ⟨fabNeighbours, 0, 1⟩
/-- FAB_NEIGHBOURS.HIGH_LOST, bits [1:1] (R633). -/
abbrev fabNeighboursHighLost : Fld := ⟨fabNeighbours, 1, 1⟩
/-- FAB_NEIGHBOURS.LOW_PORT, bits [2:2] (R633). -/
abbrev fabNeighboursLowPort : Fld := ⟨fabNeighbours, 2, 1⟩
/-- FAB_NEIGHBOURS.HIGH_PORT, bits [3:3] (R633). -/
abbrev fabNeighboursHighPort : Fld := ⟨fabNeighbours, 3, 1⟩
/-- Address of FAB_SEAM (R633). -/
abbrev fabSeam : Nat := 0xF00C
/-- FAB_SEAM.W_LOW, bits [10:0] (R633). -/
abbrev fabSeamWLow : Fld := ⟨fabSeam, 0, 11⟩
/-- FAB_SEAM.W_HIGH, bits [21:11] (R633). -/
abbrev fabSeamWHigh : Fld := ⟨fabSeam, 11, 11⟩
/-- Address of FAB_COORD_LO (R633). -/
abbrev fabCoordLo : Nat := 0xF010
/-- FAB_COORD_LO.VALUE, bits [31:0] (R633). -/
abbrev fabCoordLoF : Fld := ⟨fabCoordLo, 0, 32⟩
/-- Address of FAB_COORD_HI (R633). -/
abbrev fabCoordHi : Nat := 0xF014
/-- FAB_COORD_HI.VALUE, bits [31:0] (R633). -/
abbrev fabCoordHiF : Fld := ⟨fabCoordHi, 0, 32⟩
/-- Address of FAB_EVENTS (R633). -/
abbrev fabEvents : Nat := 0xF018
/-- FAB_EVENTS.EVENTS, bits [7:0] (R633). -/
abbrev fabEventsF : Fld := ⟨fabEvents, 0, 8⟩
/-- Address of FAB_CNT_STALE (R633). -/
abbrev fabCntStale : Nat := 0xF01C
/-- FAB_CNT_STALE.COUNT, bits [31:0] (R633). -/
abbrev fabCntStaleF : Fld := ⟨fabCntStale, 0, 32⟩
/-- Address of FAB_CNT_RETRANSMIT (R633). -/
abbrev fabCntRetransmit : Nat := 0xF020
/-- FAB_CNT_RETRANSMIT.COUNT, bits [31:0] (R633). -/
abbrev fabCntRetransmitF : Fld := ⟨fabCntRetransmit, 0, 32⟩
/-- Address of FAB_CNT_FORWARDED (R633). -/
abbrev fabCntForwarded : Nat := 0xF024
/-- FAB_CNT_FORWARDED.COUNT, bits [31:0] (R633). -/
abbrev fabCntForwardedF : Fld := ⟨fabCntForwarded, 0, 32⟩
/-- Address of FAB_CNT_LATE_ORDER (R633). -/
abbrev fabCntLateOrder : Nat := 0xF028
/-- FAB_CNT_LATE_ORDER.COUNT, bits [31:0] (R633). -/
abbrev fabCntLateOrderF : Fld := ⟨fabCntLateOrder, 0, 32⟩
/-- Address of FAB_CNT_STRIP_LOST (R633). -/
abbrev fabCntStripLost : Nat := 0xF02C
/-- FAB_CNT_STRIP_LOST.COUNT, bits [31:0] (R633). -/
abbrev fabCntStripLostF : Fld := ⟨fabCntStripLost, 0, 32⟩
/-- Address of FAB_CNT_LOST (R633). -/
abbrev fabCntLost : Nat := 0xF030
/-- FAB_CNT_LOST.COUNT, bits [31:0] (R633). -/
abbrev fabCntLostF : Fld := ⟨fabCntLost, 0, 32⟩
/-- Address of ENC_CTRL (R660). -/
abbrev encCtrl (k : Nat) : Nat := 0x10000 + 0x40 * k
/-- ENC_CTRL.MODE, bits [1:0] (R660). -/
abbrev encCtrlMode (k : Nat) : Fld := ⟨encCtrl k, 0, 2⟩
/-- ENC_CTRL.INVERT, bits [2:2] (R660). -/
abbrev encCtrlInvert (k : Nat) : Fld := ⟨encCtrl k, 2, 1⟩
/-- ENC_CTRL.FILTER, bits [12:3] (R660). -/
abbrev encCtrlFilter (k : Nat) : Fld := ⟨encCtrl k, 3, 10⟩
/-- ENC_CTRL.REZERO, bits [13:13] (R660). -/
abbrev encCtrlRezero (k : Nat) : Fld := ⟨encCtrl k, 13, 1⟩
/-- Address of ENC_STATUS (R661). -/
abbrev encStatus (k : Nat) : Nat := 0x10004 + 0x40 * k
/-- ENC_STATUS.ILLEGAL_STEP, bits [0:0] (R661). -/
abbrev encStatusIllegalStep (k : Nat) : Fld := ⟨encStatus k, 0, 1⟩
/-- ENC_STATUS.HALL_INVALID, bits [1:1] (R661). -/
abbrev encStatusHallInvalid (k : Nat) : Fld := ⟨encStatus k, 1, 1⟩
/-- ENC_STATUS.INDEX_MISMATCH, bits [2:2] (R661). -/
abbrev encStatusIndexMismatch (k : Nat) : Fld := ⟨encStatus k, 2, 1⟩
/-- ENC_STATUS.ENCODER_SUSPECT, bits [3:3] (R661). -/
abbrev encStatusEncoderSuspect (k : Nat) : Fld := ⟨encStatus k, 3, 1⟩
/-- ENC_STATUS.NIGHT_OVERSPEED, bits [4:4] (R661). -/
abbrev encStatusNightOverspeed (k : Nat) : Fld := ⟨encStatus k, 4, 1⟩
/-- ENC_STATUS.DIRECTION, bits [5:5] (R661). -/
abbrev encStatusDirection (k : Nat) : Fld := ⟨encStatus k, 5, 1⟩
/-- ENC_STATUS.REQUALIFYING, bits [6:6] (R661). -/
abbrev encStatusRequalifying (k : Nat) : Fld := ⟨encStatus k, 6, 1⟩
/-- Address of ENC_COUNT (R662). -/
abbrev encCount (k : Nat) : Nat := 0x10008 + 0x40 * k
/-- ENC_COUNT.COUNT, bits [31:0] (R662). -/
abbrev encCountF (k : Nat) : Fld := ⟨encCount k, 0, 32⟩
/-- Address of ENC_POS_LO (R662). -/
abbrev encPosLo (k : Nat) : Nat := 0x1000C + 0x40 * k
/-- ENC_POS_LO.VALUE, bits [31:0] (R662). -/
abbrev encPosLoF (k : Nat) : Fld := ⟨encPosLo k, 0, 32⟩
/-- Address of ENC_POS_HI (R662). -/
abbrev encPosHi (k : Nat) : Nat := 0x10010 + 0x40 * k
/-- ENC_POS_HI.VALUE, bits [31:0] (R662). -/
abbrev encPosHiF (k : Nat) : Fld := ⟨encPosHi k, 0, 32⟩
/-- Address of ENC_INDEX_POS (R662). -/
abbrev encIndexPos (k : Nat) : Nat := 0x10014 + 0x40 * k
/-- ENC_INDEX_POS.COUNT, bits [31:0] (R662). -/
abbrev encIndexPosF (k : Nat) : Fld := ⟨encIndexPos k, 0, 32⟩
/-- Address of ENC_INDEX_DELTA (R662). -/
abbrev encIndexDelta (k : Nat) : Nat := 0x10018 + 0x40 * k
/-- ENC_INDEX_DELTA.D, bits [31:0] (R662). -/
abbrev encIndexDeltaF (k : Nat) : Fld := ⟨encIndexDelta k, 0, 32⟩
/-- Address of ENC_NOMINAL (R662). -/
abbrev encNominal (k : Nat) : Nat := 0x1001C + 0x40 * k
/-- ENC_NOMINAL.N, bits [31:0] (R662). -/
abbrev encNominalF (k : Nat) : Fld := ⟨encNominal k, 0, 32⟩
/-- Address of ENC_TOL (R662). -/
abbrev encTol (k : Nat) : Nat := 0x10020 + 0x40 * k
/-- ENC_TOL.T, bits [15:0] (R662). -/
abbrev encTolF (k : Nat) : Fld := ⟨encTol k, 0, 16⟩
/-- Address of ENC_SPEED (R662). -/
abbrev encSpeed (k : Nat) : Nat := 0x10024 + 0x40 * k
/-- ENC_SPEED.SPEED, bits [31:0] (R662). -/
abbrev encSpeedF (k : Nat) : Fld := ⟨encSpeed k, 0, 32⟩
/-- Address of ENC_WINDOW (R662). -/
abbrev encWindow (k : Nat) : Nat := 0x10028 + 0x40 * k
/-- ENC_WINDOW.WINDOW, bits [13:0] (R662). -/
abbrev encWindowF (k : Nat) : Fld := ⟨encWindow k, 0, 14⟩
/-- Address of ENC_WAKE (R662). -/
abbrev encWake (k : Nat) : Nat := 0x1002C + 0x40 * k
/-- ENC_WAKE.THRESHOLD, bits [30:0] (R662). -/
abbrev encWakeF (k : Nat) : Fld := ⟨encWake k, 0, 31⟩
/-- Address of ENC_EVENTS (R662). -/
abbrev encEvents (k : Nat) : Nat := 0x10030 + 0x40 * k
/-- ENC_EVENTS.EVENTS, bits [5:0] (R662). -/
abbrev encEventsF (k : Nat) : Fld := ⟨encEvents k, 0, 6⟩
/-- Address of ENC_CNT_ILLEGAL (R662). -/
abbrev encCntIllegal (k : Nat) : Nat := 0x10034 + 0x40 * k
/-- ENC_CNT_ILLEGAL.COUNT, bits [31:0] (R662). -/
abbrev encCntIllegalF (k : Nat) : Fld := ⟨encCntIllegal k, 0, 32⟩
/-- Address of ENC_CNT_MISMATCH (R662). -/
abbrev encCntMismatch (k : Nat) : Nat := 0x10038 + 0x40 * k
/-- ENC_CNT_MISMATCH.COUNT, bits [31:0] (R662). -/
abbrev encCntMismatchF (k : Nat) : Fld := ⟨encCntMismatch k, 0, 32⟩
/-- Address of ENC_CNT_HALL_INVALID (R662). -/
abbrev encCntHallInvalid (k : Nat) : Nat := 0x1003C + 0x40 * k
/-- ENC_CNT_HALL_INVALID.COUNT, bits [31:0] (R662). -/
abbrev encCntHallInvalidF (k : Nat) : Fld := ⟨encCntHallInvalid k, 0, 32⟩
/-- Address of AX_CTRL (R694). -/
abbrev axCtrl (x : Nat) : Nat := 0x11000 + 0x80 * x
/-- AX_CTRL.ENABLE, bits [0:0] (R694). -/
abbrev axCtrlEnable (x : Nat) : Fld := ⟨axCtrl x, 0, 1⟩
/-- AX_CTRL.LOW_RAMPED, bits [1:1] (R694). -/
abbrev axCtrlLowRamped (x : Nat) : Fld := ⟨axCtrl x, 1, 1⟩
/-- AX_CTRL.HIGH_RAMPED, bits [2:2] (R694). -/
abbrev axCtrlHighRamped (x : Nat) : Fld := ⟨axCtrl x, 2, 1⟩
/-- AX_CTRL.DROP, bits [3:3] (R694). -/
abbrev axCtrlDrop (x : Nat) : Fld := ⟨axCtrl x, 3, 1⟩
/-- AX_CTRL.FEEDBACK, bits [6:4] (R694). -/
abbrev axCtrlFeedback (x : Nat) : Fld := ⟨axCtrl x, 4, 3⟩
/-- AX_CTRL.MARK_TOUT, bits [10:7] (R694). -/
abbrev axCtrlMarkTout (x : Nat) : Fld := ⟨axCtrl x, 7, 4⟩
/-- Address of AX_STATUS (R695). -/
abbrev axStatus (x : Nat) : Nat := 0x11004 + 0x80 * x
/-- AX_STATUS.STATE, bits [2:0] (R695). -/
abbrev axStatusState (x : Nat) : Fld := ⟨axStatus x, 0, 3⟩
/-- AX_STATUS.POS_UNCERTAIN, bits [3:3] (R695). -/
abbrev axStatusPosUncertain (x : Nat) : Fld := ⟨axStatus x, 3, 1⟩
/-- AX_STATUS.OVERSHOOT, bits [4:4] (R695). -/
abbrev axStatusOvershoot (x : Nat) : Fld := ⟨axStatus x, 4, 1⟩
/-- AX_STATUS.LOW_ACTIVE, bits [5:5] (R695). -/
abbrev axStatusLowActive (x : Nat) : Fld := ⟨axStatus x, 5, 1⟩
/-- AX_STATUS.HIGH_ACTIVE, bits [6:6] (R695). -/
abbrev axStatusHighActive (x : Nat) : Fld := ⟨axStatus x, 6, 1⟩
/-- AX_STATUS.HOLD, bits [7:7] (R695). -/
abbrev axStatusHold (x : Nat) : Fld := ⟨axStatus x, 7, 1⟩
/-- AX_STATUS.FAULT, bits [10:8] (R695). -/
abbrev axStatusFault (x : Nat) : Fld := ⟨axStatus x, 8, 3⟩
/-- AX_STATUS.CHOP_LIMIT, bits [11:11] (R695). -/
abbrev axStatusChopLimit (x : Nat) : Fld := ⟨axStatus x, 11, 1⟩
/-- AX_STATUS.DERATED, bits [12:12] (R695). -/
abbrev axStatusDerated (x : Nat) : Fld := ⟨axStatus x, 12, 1⟩
/-- Address of AX_POS_LO (R696). -/
abbrev axPosLo (x : Nat) : Nat := 0x11008 + 0x80 * x
/-- AX_POS_LO.VALUE, bits [31:0] (R696). -/
abbrev axPosLoF (x : Nat) : Fld := ⟨axPosLo x, 0, 32⟩
/-- Address of AX_POS_HI (R696). -/
abbrev axPosHi (x : Nat) : Nat := 0x1100C + 0x80 * x
/-- AX_POS_HI.VALUE, bits [31:0] (R696). -/
abbrev axPosHiF (x : Nat) : Fld := ⟨axPosHi x, 0, 32⟩
/-- Address of AX_VEL (R696). -/
abbrev axVel (x : Nat) : Nat := 0x11010 + 0x80 * x
/-- AX_VEL.VELOCITY, bits [31:0] (R696). -/
abbrev axVelF (x : Nat) : Fld := ⟨axVel x, 0, 32⟩
/-- Address of AX_CURRENT (R696). -/
abbrev axCurrent (x : Nat) : Nat := 0x11014 + 0x80 * x
/-- AX_CURRENT.RUN_MA, bits [11:0] (R696). -/
abbrev axCurrentRunMa (x : Nat) : Fld := ⟨axCurrent x, 0, 12⟩
/-- AX_CURRENT.HOLD_MA, bits [23:12] (R696). -/
abbrev axCurrentHoldMa (x : Nat) : Fld := ⟨axCurrent x, 12, 12⟩
/-- Address of AX_CHOP (R696). -/
abbrev axChop (x : Nat) : Nat := 0x11018 + 0x80 * x
/-- AX_CHOP.BAND, bits [8:0] (R696). -/
abbrev axChopF (x : Nat) : Fld := ⟨axChop x, 0, 9⟩
/-- Address of AX_CHOP_OFFSET (R696). -/
abbrev axChopOffset (x : Nat) : Nat := 0x1101C + 0x80 * x
/-- AX_CHOP_OFFSET.OFFSET_A, bits [7:0] (R696). -/
abbrev axChopOffsetOffsetA (x : Nat) : Fld := ⟨axChopOffset x, 0, 8⟩
/-- AX_CHOP_OFFSET.OFFSET_B, bits [15:8] (R696). -/
abbrev axChopOffsetOffsetB (x : Nat) : Fld := ⟨axChopOffset x, 8, 8⟩
/-- AX_CHOP_OFFSET.RESIDUAL, bits [23:16] (R696). -/
abbrev axChopOffsetResidual (x : Nat) : Fld := ⟨axChopOffset x, 16, 8⟩
/-- Address of AX_SEGMENTS (R696). -/
abbrev axSegments (x : Nat) : Nat := 0x11020 + 0x80 * x
/-- AX_SEGMENTS.LEFT, bits [10:0] (R696). -/
abbrev axSegmentsF (x : Nat) : Fld := ⟨axSegments x, 0, 11⟩
/-- Address of AX_COMPARE (R696). -/
abbrev axCompare (x : Nat) : Nat := 0x11024 + 0x80 * x
/-- AX_COMPARE.ARMED, bits [7:0] (R696). -/
abbrev axCompareArmed (x : Nat) : Fld := ⟨axCompare x, 0, 8⟩
/-- AX_COMPARE.QUEUED, bits [16:8] (R696). -/
abbrev axCompareQueued (x : Nat) : Fld := ⟨axCompare x, 8, 9⟩
/-- Address of AX_EVENTS (R696). -/
abbrev axEvents (x : Nat) : Nat := 0x11028 + 0x80 * x
/-- AX_EVENTS.EVENTS, bits [9:0] (R696). -/
abbrev axEventsF (x : Nat) : Fld := ⟨axEvents x, 0, 10⟩
/-- Address of AX_CNT_FIRED (R696). -/
abbrev axCntFired (x : Nat) : Nat := 0x1102C + 0x80 * x
/-- AX_CNT_FIRED.COUNT, bits [31:0] (R696). -/
abbrev axCntFiredF (x : Nat) : Fld := ⟨axCntFired x, 0, 32⟩
/-- Address of AX_CNT_LATE (R696). -/
abbrev axCntLate (x : Nat) : Nat := 0x11030 + 0x80 * x
/-- AX_CNT_LATE.COUNT, bits [31:0] (R696). -/
abbrev axCntLateF (x : Nat) : Fld := ⟨axCntLate x, 0, 32⟩
/-- Address of AX_CNT_MISSED (R696). -/
abbrev axCntMissed (x : Nat) : Nat := 0x11034 + 0x80 * x
/-- AX_CNT_MISSED.COUNT, bits [31:0] (R696). -/
abbrev axCntMissedF (x : Nat) : Fld := ⟨axCntMissed x, 0, 32⟩
/-- Address of AX_CNT_MARK_SKIPPED (R696). -/
abbrev axCntMarkSkipped (x : Nat) : Nat := 0x11038 + 0x80 * x
/-- AX_CNT_MARK_SKIPPED.COUNT, bits [31:0] (R696). -/
abbrev axCntMarkSkippedF (x : Nat) : Fld := ⟨axCntMarkSkipped x, 0, 32⟩
/-- Address of AX_CNT_FAULTS (R696). -/
abbrev axCntFaults (x : Nat) : Nat := 0x1103C + 0x80 * x
/-- AX_CNT_FAULTS.COUNT, bits [31:0] (R696). -/
abbrev axCntFaultsF (x : Nat) : Fld := ⟨axCntFaults x, 0, 32⟩
/-- Address of EVT_CHAN_CFG (R722). -/
abbrev evcChanCfg (v : Nat) : Nat := 0x12000 + 0x10 * v
/-- EVT_CHAN_CFG.SOURCE, bits [8:0] (R722). -/
abbrev evcChanCfgSource (v : Nat) : Fld := ⟨evcChanCfg v, 0, 9⟩
/-- EVT_CHAN_CFG.CONSUMER, bits [16:9] (R722). -/
abbrev evcChanCfgConsumer (v : Nat) : Fld := ⟨evcChanCfg v, 9, 8⟩
/-- EVT_CHAN_CFG.OWNER, bits [19:17] (R722). -/
abbrev evcChanCfgOwner (v : Nat) : Fld := ⟨evcChanCfg v, 17, 3⟩
/-- EVT_CHAN_CFG.SECURE, bits [20:20] (R722). -/
abbrev evcChanCfgSecure (v : Nat) : Fld := ⟨evcChanCfg v, 20, 1⟩
/-- EVT_CHAN_CFG.ENABLE, bits [21:21] (R722). -/
abbrev evcChanCfgEnable (v : Nat) : Fld := ⟨evcChanCfg v, 21, 1⟩
/-- Address of EVT_CHAN_STATUS (R722). -/
abbrev evcChanStatus (v : Nat) : Nat := 0x12004 + 0x10 * v
/-- EVT_CHAN_STATUS.COINCIDENT, bits [0:0] (R722). -/
abbrev evcChanStatusCoincident (v : Nat) : Fld := ⟨evcChanStatus v, 0, 1⟩
/-- EVT_CHAN_STATUS.OVERRUN, bits [1:1] (R722). -/
abbrev evcChanStatusOverrun (v : Nat) : Fld := ⟨evcChanStatus v, 1, 1⟩
/-- EVT_CHAN_STATUS.LOOP, bits [2:2] (R722). -/
abbrev evcChanStatusLoop (v : Nat) : Fld := ⟨evcChanStatus v, 2, 1⟩
/-- EVT_CHAN_STATUS.PENDING, bits [3:3] (R722). -/
abbrev evcChanStatusPending (v : Nat) : Fld := ⟨evcChanStatus v, 3, 1⟩
/-- EVT_CHAN_STATUS.LAST_HOP, bits [7:4] (R722). -/
abbrev evcChanStatusLastHop (v : Nat) : Fld := ⟨evcChanStatus v, 4, 4⟩
/-- Address of EVT_CNT_DROPPED (R722). -/
abbrev evcCntDropped (v : Nat) : Nat := 0x12008 + 0x10 * v
/-- EVT_CNT_DROPPED.COUNT, bits [31:0] (R722). -/
abbrev evcCntDroppedF (v : Nat) : Fld := ⟨evcCntDropped v, 0, 32⟩
/-- Address of LC_INPUTS (R723). -/
abbrev lcInputs (l : Nat) : Nat := 0x12400 + 0x10 * l
/-- LC_INPUTS.MODE_0, bits [2:0] (R723). -/
abbrev lcInputsMode0 (l : Nat) : Fld := ⟨lcInputs l, 0, 3⟩
/-- LC_INPUTS.PIN_0, bits [4:3] (R723). -/
abbrev lcInputsPin0 (l : Nat) : Fld := ⟨lcInputs l, 3, 2⟩
/-- LC_INPUTS.MODE_1, bits [10:8] (R723). -/
abbrev lcInputsMode1 (l : Nat) : Fld := ⟨lcInputs l, 8, 3⟩
/-- LC_INPUTS.PIN_1, bits [12:11] (R723). -/
abbrev lcInputsPin1 (l : Nat) : Fld := ⟨lcInputs l, 11, 2⟩
/-- LC_INPUTS.MODE_2, bits [18:16] (R723). -/
abbrev lcInputsMode2 (l : Nat) : Fld := ⟨lcInputs l, 16, 3⟩
/-- LC_INPUTS.PIN_2, bits [20:19] (R723). -/
abbrev lcInputsPin2 (l : Nat) : Fld := ⟨lcInputs l, 19, 2⟩
/-- LC_INPUTS.MODE_3, bits [26:24] (R723). -/
abbrev lcInputsMode3 (l : Nat) : Fld := ⟨lcInputs l, 24, 3⟩
/-- LC_INPUTS.PIN_3, bits [28:27] (R723). -/
abbrev lcInputsPin3 (l : Nat) : Fld := ⟨lcInputs l, 27, 2⟩
/-- Address of LC_CFG (R723). -/
abbrev lcCfg (l : Nat) : Nat := 0x12404 + 0x10 * l
/-- LC_CFG.TABLE, bits [15:0] (R723). -/
abbrev lcCfgTable (l : Nat) : Fld := ⟨lcCfg l, 0, 16⟩
/-- LC_CFG.FF, bits [16:16] (R723). -/
abbrev lcCfgFf (l : Nat) : Fld := ⟨lcCfg l, 16, 1⟩
/-- LC_CFG.FILTER, bits [24:17] (R723). -/
abbrev lcCfgFilter (l : Nat) : Fld := ⟨lcCfg l, 17, 8⟩
/-- LC_CFG.SECURE, bits [25:25] (R723). -/
abbrev lcCfgSecure (l : Nat) : Fld := ⟨lcCfg l, 25, 1⟩
/-- LC_CFG.ENABLE, bits [26:26] (R723). -/
abbrev lcCfgEnable (l : Nat) : Fld := ⟨lcCfg l, 26, 1⟩
/-- Address of LC_STATUS (R723). -/
abbrev lcStatus (l : Nat) : Nat := 0x12408 + 0x10 * l
/-- LC_STATUS.OUT, bits [0:0] (R723). -/
abbrev lcStatusOut (l : Nat) : Fld := ⟨lcStatus l, 0, 1⟩
/-- LC_STATUS.COINCIDENT, bits [1:1] (R723). -/
abbrev lcStatusCoincident (l : Nat) : Fld := ⟨lcStatus l, 1, 1⟩
/-- LC_STATUS.HOP, bits [5:2] (R723). -/
abbrev lcStatusHop (l : Nat) : Fld := ⟨lcStatus l, 2, 4⟩
/-- Address of EVT_CFLAGS (R724). -/
abbrev evtCflags : Nat := 0x12600
/-- EVT_CFLAGS.TOUT_COINCIDENT, bits [15:0] (R724). -/
abbrev evtCflagsToutCoincident : Fld := ⟨evtCflags, 0, 16⟩
/-- EVT_CFLAGS.STOP_COINCIDENT, bits [19:16] (R724). -/
abbrev evtCflagsStopCoincident : Fld := ⟨evtCflags, 16, 4⟩
/-- EVT_CFLAGS.STOP_OVERRUN, bits [23:20] (R724). -/
abbrev evtCflagsStopOverrun : Fld := ⟨evtCflags, 20, 4⟩
/-- Address of EVT_CONFLICT (R724). -/
abbrev evtConflict : Nat := 0x12604
/-- EVT_CONFLICT.CONFLICT, bits [0:0] (R724). -/
abbrev evtConflictConflict : Fld := ⟨evtConflict, 0, 1⟩
/-- EVT_CONFLICT.KIND, bits [2:1] (R724). -/
abbrev evtConflictKind : Fld := ⟨evtConflict, 1, 2⟩
/-- EVT_CONFLICT.INDEX, bits [7:3] (R724). -/
abbrev evtConflictIndex : Fld := ⟨evtConflict, 3, 5⟩
/-- EVT_CONFLICT.OWNER, bits [10:8] (R724). -/
abbrev evtConflictOwner : Fld := ⟨evtConflict, 8, 3⟩
/-- EVT_CONFLICT.CLAIMANT, bits [13:11] (R724). -/
abbrev evtConflictClaimant : Fld := ⟨evtConflict, 11, 3⟩
/-- Address of EVT_CNT_LOOP (R724). -/
abbrev evtCntLoop : Nat := 0x12608
/-- EVT_CNT_LOOP.COUNT, bits [31:0] (R724). -/
abbrev evtCntLoopF : Fld := ⟨evtCntLoop, 0, 32⟩
/-- Address of CRC_CFG (R725). -/
abbrev crcCfg (u : Nat) : Nat := 0x13000 + 0x40 * u
/-- CRC_CFG.WIDTH, bits [6:0] (R725). -/
abbrev crcCfgWidth (u : Nat) : Fld := ⟨crcCfg u, 0, 7⟩
/-- CRC_CFG.REFIN, bits [7:7] (R725). -/
abbrev crcCfgRefin (u : Nat) : Fld := ⟨crcCfg u, 7, 1⟩
/-- CRC_CFG.REFOUT, bits [8:8] (R725). -/
abbrev crcCfgRefout (u : Nat) : Fld := ⟨crcCfg u, 8, 1⟩
/-- Address of CRC_POLY_LO (R725). -/
abbrev crcPolyLo (u : Nat) : Nat := 0x13004 + 0x40 * u
/-- CRC_POLY_LO.VALUE, bits [31:0] (R725). -/
abbrev crcPolyLoF (u : Nat) : Fld := ⟨crcPolyLo u, 0, 32⟩
/-- Address of CRC_POLY_HI (R725). -/
abbrev crcPolyHi (u : Nat) : Nat := 0x13008 + 0x40 * u
/-- CRC_POLY_HI.VALUE, bits [31:0] (R725). -/
abbrev crcPolyHiF (u : Nat) : Fld := ⟨crcPolyHi u, 0, 32⟩
/-- Address of CRC_INIT_LO (R725). -/
abbrev crcInitLo (u : Nat) : Nat := 0x1300C + 0x40 * u
/-- CRC_INIT_LO.VALUE, bits [31:0] (R725). -/
abbrev crcInitLoF (u : Nat) : Fld := ⟨crcInitLo u, 0, 32⟩
/-- Address of CRC_INIT_HI (R725). -/
abbrev crcInitHi (u : Nat) : Nat := 0x13010 + 0x40 * u
/-- CRC_INIT_HI.VALUE, bits [31:0] (R725). -/
abbrev crcInitHiF (u : Nat) : Fld := ⟨crcInitHi u, 0, 32⟩
/-- Address of CRC_XOROUT_LO (R725). -/
abbrev crcXoroutLo (u : Nat) : Nat := 0x13014 + 0x40 * u
/-- CRC_XOROUT_LO.VALUE, bits [31:0] (R725). -/
abbrev crcXoroutLoF (u : Nat) : Fld := ⟨crcXoroutLo u, 0, 32⟩
/-- Address of CRC_XOROUT_HI (R725). -/
abbrev crcXoroutHi (u : Nat) : Nat := 0x13018 + 0x40 * u
/-- CRC_XOROUT_HI.VALUE, bits [31:0] (R725). -/
abbrev crcXoroutHiF (u : Nat) : Fld := ⟨crcXoroutHi u, 0, 32⟩
/-- Address of CRC_VALUE_LO (R725). -/
abbrev crcValueLo (u : Nat) : Nat := 0x1301C + 0x40 * u
/-- CRC_VALUE_LO.VALUE, bits [31:0] (R725). -/
abbrev crcValueLoF (u : Nat) : Fld := ⟨crcValueLo u, 0, 32⟩
/-- Address of CRC_VALUE_HI (R725). -/
abbrev crcValueHi (u : Nat) : Nat := 0x13020 + 0x40 * u
/-- CRC_VALUE_HI.VALUE, bits [31:0] (R725). -/
abbrev crcValueHiF (u : Nat) : Fld := ⟨crcValueHi u, 0, 32⟩
/-- Address of CRC_LOAD (R725). -/
abbrev crcLoad (u : Nat) : Nat := 0x13024 + 0x40 * u
/-- CRC_LOAD.ALIVE, bits [3:0] (R725). -/
abbrev crcLoadAlive (u : Nat) : Fld := ⟨crcLoad u, 0, 4⟩
/-- CRC_LOAD.LOAD, bits [4:4] (R725). -/
abbrev crcLoadLoad (u : Nat) : Fld := ⟨crcLoad u, 4, 1⟩
/-- Address of CRC_RESULT_LO (R725). -/
abbrev crcResultLo (u : Nat) : Nat := 0x13028 + 0x40 * u
/-- CRC_RESULT_LO.VALUE, bits [31:0] (R725). -/
abbrev crcResultLoF (u : Nat) : Fld := ⟨crcResultLo u, 0, 32⟩
/-- Address of CRC_RESULT_HI (R725). -/
abbrev crcResultHi (u : Nat) : Nat := 0x1302C + 0x40 * u
/-- CRC_RESULT_HI.VALUE, bits [31:0] (R725). -/
abbrev crcResultHiF (u : Nat) : Fld := ⟨crcResultHi u, 0, 32⟩
/-- Address of CRC_STATUS (R725). -/
abbrev crcStatus (u : Nat) : Nat := 0x13030 + 0x40 * u
/-- CRC_STATUS.BUSY, bits [0:0] (R725). -/
abbrev crcStatusBusy (u : Nat) : Fld := ⟨crcStatus u, 0, 1⟩
/-- CRC_STATUS.REPEAT, bits [1:1] (R725). -/
abbrev crcStatusRepeat (u : Nat) : Fld := ⟨crcStatus u, 1, 1⟩
/-- CRC_STATUS.WRITE_BUSY, bits [2:2] (R725). -/
abbrev crcStatusWriteBusy (u : Nat) : Fld := ⟨crcStatus u, 2, 1⟩
/-- CRC_STATUS.LAST_ALIVE, bits [6:3] (R725). -/
abbrev crcStatusLastAlive (u : Nat) : Fld := ⟨crcStatus u, 3, 4⟩
/-- CRC_STATUS.CAUSE, bits [8:7] (R725). -/
abbrev crcStatusCause (u : Nat) : Fld := ⟨crcStatus u, 7, 2⟩
/-- Address of CRC_CNT_REPEAT (R725). -/
abbrev crcCntRepeat (u : Nat) : Nat := 0x13034 + 0x40 * u
/-- CRC_CNT_REPEAT.COUNT, bits [31:0] (R725). -/
abbrev crcCntRepeatF (u : Nat) : Fld := ⟨crcCntRepeat u, 0, 32⟩
/-- Address of CAL_CTRL (R740). -/
abbrev calCtrl : Nat := 0x14000
/-- CAL_CTRL.SEAM_TRACK, bits [0:0] (R740). -/
abbrev calCtrlF : Fld := ⟨calCtrl, 0, 1⟩
/-- Address of CAL_SEAM (R740). -/
abbrev calSeam : Nat := 0x14004
/-- CAL_SEAM.WORST_NM, bits [15:0] (R740). -/
abbrev calSeamWorstNm : Fld := ⟨calSeam, 0, 16⟩
/-- CAL_SEAM.SEAM_LIMIT, bits [16:16] (R740). -/
abbrev calSeamSeamLimit : Fld := ⟨calSeam, 16, 1⟩
/-- CAL_SEAM.SKIPPED, bits [31:17] (R740). -/
abbrev calSeamSkipped : Fld := ⟨calSeam, 17, 15⟩
/-- Address of CAL_LAST (R740). -/
abbrev calLast : Nat := 0x14008
/-- CAL_LAST.KIND, bits [7:0] (R740). -/
abbrev calLastKind : Fld := ⟨calLast, 0, 8⟩
/-- CAL_LAST.PASS, bits [8:8] (R740). -/
abbrev calLastPass : Fld := ⟨calLast, 8, 1⟩

/-- The fields of register offset `o` within one SYS set (R814). -/
def sysFields (o : Nat) : List RegField :=
  match o with
  | 0x00 => [⟨0, 16, .ro, 4680, .fuse, .fuse, []⟩, ⟨16, 8, .ro, 10, .fuse, .fuse, []⟩]
  | 0x04 => [⟨0, 8, .ro, 0, .fuse, .fuse, []⟩, ⟨8, 8, .ro, 0, .fuse, .fuse, []⟩]
  | 0x08 => [⟨0, 32, .ro, 1, .fuse, .fuse, []⟩]
  | 0x0C => [⟨0, 32, .ro, 0, .fuse, .fuse, []⟩]
  | 0x10 => [⟨0, 32, .ro, 0, .fuse, .fuse, []⟩]
  | 0x14 => [⟨0, 16, .ro, 0, .fuse, .fuse, []⟩]
  | 0x18 => [⟨0, 32, .ro, 0, .fuse, .fuse, []⟩]
  | 0x1C => [⟨0, 16, .ro, 0, .fuse, .fuse, []⟩]
  | 0x20 => [⟨0, 8, .ro, 0, .trained, .trained, []⟩, ⟨8, 8, .ro, 0, .trained, .trained, []⟩, ⟨16, 8, .ro, 0, .trained, .trained, []⟩]
  | o => if 0x40 ≤ o ∧ o < 0x60 ∧ o % 4 = 0 then [⟨0, 32, .ro, 0, .trained, .trained, []⟩] else []
/-- The fields of register offset `o` within one PWR set (R816, R817, R818, R819, R821). -/
def pwrFields (o : Nat) : List RegField :=
  match o with
  | 0x00 => [⟨0, 3, .ro, 3, .num 3, .num 3, []⟩, ⟨3, 3, .ro, 1, .num 1, .num 2, []⟩, ⟨6, 3, .ro, 7, .num 7, .num 7, []⟩, ⟨9, 3, .ro, 0, .num 0, .kept, []⟩]
  | 0x04 => [⟨0, 4, .rw, 2, .num 2, .kept, []⟩, ⟨4, 1, .rw, 0, .num 0, .kept, []⟩, ⟨5, 14, .rw, 2000, .num 2000, .kept, [(100, 10000)]⟩]
  | 0x08 => [⟨0, 1, .w1c, 0, .num 0, .num 0, []⟩, ⟨1, 1, .ro, 0, .trained, .kept, []⟩, ⟨2, 1, .ro, 0, .num 0, .num 0, []⟩, ⟨3, 1, .ro, 0, .trained, .trained, []⟩, ⟨4, 1, .ro, 1, .trained, .trained, []⟩, ⟨5, 1, .w1c, 0, .num 0, .num 0, []⟩]
  | 0x0C => [⟨0, 16, .ro, 24000, .trained, .trained, []⟩, ⟨16, 16, .ro, 0, .trained, .trained, []⟩]
  | 0x10 => [⟨0, 8, .ro, 0, .trained, .trained, []⟩, ⟨8, 8, .ro, 0, .trained, .trained, []⟩, ⟨16, 8, .ro, 0, .trained, .trained, []⟩, ⟨24, 8, .ro, 0, .trained, .trained, []⟩]
  | 0x14 => [⟨0, 32, .rw, 0, .num 0, .num 0, []⟩]
  | 0x18 => [⟨0, 32, .ro, 4292870143, .trained, .trained, []⟩]
  | 0x1C => [⟨0, 16, .ro, 12799, .trained, .trained, []⟩]
  | 0x20 => [⟨0, 3, .ro, 0, .kept, .kept, []⟩, ⟨3, 4, .ro, 0, .kept, .kept, []⟩, ⟨7, 8, .ro, 0, .kept, .kept, []⟩, ⟨16, 3, .ro, 0, .kept, .kept, []⟩, ⟨19, 1, .ro, 0, .kept, .kept, []⟩, ⟨20, 1, .wo, 0, .num 0, .num 0, []⟩]
  | 0x24 => [⟨0, 32, .ro, 0, .kept, .kept, []⟩]
  | 0x28 => [⟨0, 32, .ro, 0, .kept, .kept, []⟩]
  | 0x2C => [⟨0, 32, .ro, 0, .num 0, .num 0, []⟩]
  | 0x30 => [⟨0, 32, .ro, 0, .num 0, .kept, []⟩]
  | 0x34 => [⟨0, 12, .w1c, 0, .num 0, .num 0, []⟩]
  | 0x38 => [⟨0, 3, .wo, 0, .num 0, .num 0, []⟩, ⟨16, 16, .wo, 0, .num 0, .num 0, []⟩]
  | _ => []
/-- The fields of register offset `o` within one HSS set (R561, R562). -/
def hssFields (o : Nat) : List RegField :=
  match o with
  | 0x00 => [⟨0, 2, .ro, 0, .num 0, .num 0, []⟩, ⟨2, 1, .ro, 0, .num 0, .kept, []⟩, ⟨3, 1, .ro, 0, .num 0, .kept, []⟩, ⟨4, 1, .ro, 0, .num 0, .kept, []⟩, ⟨5, 1, .ro, 0, .num 0, .kept, []⟩, ⟨6, 3, .ro, 0, .num 0, .num 0, []⟩]
  | 0x04 => [⟨0, 32, .ro, 0, .num 0, .kept, []⟩]
  | 0x08 => [⟨0, 32, .ro, 0, .num 0, .kept, []⟩]
  | 0x0C => [⟨0, 9, .ro, 0, .num 0, .kept, []⟩]
  | 0x10 => [⟨0, 32, .ro, 0, .num 0, .num 0, []⟩]
  | 0x14 => [⟨0, 32, .ro, 0, .num 0, .num 0, []⟩]
  | 0x18 => [⟨0, 32, .ro, 0, .num 0, .num 0, []⟩]
  | 0x1C => [⟨0, 32, .ro, 0, .num 0, .num 0, []⟩]
  | 0x20 => [⟨0, 32, .ro, 0, .num 0, .num 0, []⟩]
  | 0x24 => [⟨0, 32, .ro, 0, .num 0, .num 0, []⟩]
  | 0x28 => [⟨0, 32, .ro, 0, .kept, .kept, []⟩]
  | 0x2C => [⟨0, 32, .ro, 0, .kept, .kept, []⟩]
  | _ => []
/-- The fields of register offset `o` within one HSP set (R563). -/
def hspFields (o : Nat) : List RegField :=
  match o with
  | 0x00 => [⟨0, 1, .ro, 0, .trained, .trained, []⟩, ⟨1, 2, .ro, 0, .trained, .trained, []⟩, ⟨3, 1, .ro, 0, .trained, .trained, []⟩, ⟨4, 1, .rw, 0, .num 0, .kept, []⟩, ⟨5, 1, .ro, 0, .num 0, .num 0, []⟩]
  | 0x04 => [⟨0, 8, .w1c, 0, .num 0, .num 0, []⟩]
  | 0x08 => [⟨0, 32, .ro, 0, .num 0, .num 0, []⟩]
  | 0x0C => [⟨0, 32, .ro, 0, .num 0, .num 0, []⟩]
  | 0x10 => [⟨0, 32, .ro, 0, .num 0, .num 0, []⟩]
  | 0x14 => [⟨0, 32, .ro, 0, .num 0, .num 0, []⟩]
  | 0x18 => [⟨0, 32, .ro, 0, .num 0, .num 0, []⟩]
  | _ => []
/-- The fields of register offset `o` within one HST set (R564, R823, R826, R827). -/
def hstFields (o : Nat) : List RegField :=
  match o with
  | 0x00 => [⟨0, 8, .w1c, 0, .num 0, .num 0, []⟩]
  | 0x80 => [⟨0, 16, .rw, 23568, .num 23568, .kept, [(1024, 65535)]⟩, ⟨16, 12, .rw, 0, .num 0, .kept, [(0, 4094)]⟩]
  | 0x180 => [⟨0, 4, .ro, 0, .kept, .kept, []⟩, ⟨4, 4, .ro, 0, .num 0, .num 0, []⟩, ⟨8, 1, .ro, 0, .trained, .trained, []⟩]
  | 0x184 => [⟨0, 16, .ro, 0, .kept, .kept, []⟩]
  | 0x188 => [⟨0, 16, .ro, 0, .kept, .kept, []⟩]
  | 0x18C => [⟨0, 16, .ro, 0, .kept, .kept, []⟩]
  | 0x190 => [⟨0, 16, .ro, 0, .kept, .kept, []⟩]
  | _ => []
/-- The fields of register offset `o` within one HSN set (R824). -/
def hsnFields (o : Nat) : List RegField :=
  match o with
  | 0x00 => [⟨0, 32, .rw, 0, .num 0, .kept, []⟩]
  | 0x04 => [⟨0, 32, .rw, 0, .num 0, .kept, []⟩]
  | 0x08 => [⟨0, 32, .rw, 0, .num 0, .kept, []⟩]
  | 0x0C => [⟨0, 32, .rw, 0, .num 0, .kept, []⟩]
  | 0x10 => [⟨0, 8, .rw, 0, .num 0, .kept, [(0, 128)]⟩]
  | 0x14 => [⟨0, 32, .rw, 0, .num 0, .kept, []⟩]
  | 0x18 => [⟨0, 6, .rw, 0, .num 0, .kept, [(0, 32)]⟩]
  | 0x1C => [⟨0, 32, .rw, 0, .num 0, .kept, []⟩]
  | 0x20 => [⟨0, 32, .rw, 0, .num 0, .kept, []⟩]
  | 0x24 => [⟨0, 32, .rw, 0, .num 0, .kept, []⟩]
  | 0x28 => [⟨0, 32, .rw, 0, .num 0, .kept, []⟩]
  | 0x2C => [⟨0, 32, .rw, 0, .num 0, .kept, []⟩]
  | 0x30 => [⟨0, 1, .wo, 0, .num 0, .num 0, []⟩, ⟨1, 1, .ro, 1, .num 1, .num 1, []⟩]
  | _ => []
/-- The fields of register offset `o` within one HRB set (R828). -/
def hrbFields (o : Nat) : List RegField :=
  match o with
  | 0x00 => [⟨0, 32, .ro, 0, .num 0, .kept, []⟩]
  | 0x04 => [⟨0, 32, .ro, 0, .num 0, .kept, []⟩]
  | 0x08 => [⟨0, 32, .ro, 0, .num 0, .kept, []⟩]
  | 0x0C => [⟨0, 32, .ro, 0, .num 0, .kept, []⟩]
  | 0x10 => [⟨0, 32, .ro, 0, .num 0, .kept, []⟩]
  | 0x14 => [⟨0, 32, .ro, 0, .num 0, .kept, []⟩]
  | 0x18 => [⟨0, 32, .ro, 0, .num 0, .kept, []⟩]
  | 0x1C => [⟨0, 32, .ro, 0, .num 0, .kept, []⟩]
  | 0x20 => [⟨0, 32, .ro, 0, .num 0, .kept, []⟩]
  | 0x24 => [⟨0, 32, .ro, 0, .num 0, .kept, []⟩]
  | 0x28 => [⟨0, 32, .ro, 0, .num 0, .kept, []⟩]
  | 0x2C => [⟨0, 5, .ro, 0, .num 0, .kept, []⟩, ⟨5, 5, .ro, 0, .num 0, .kept, []⟩, ⟨10, 5, .ro, 0, .num 0, .kept, []⟩, ⟨15, 5, .ro, 0, .num 0, .kept, []⟩, ⟨20, 5, .ro, 0, .num 0, .kept, []⟩]
  | 0x30 => [⟨0, 16, .ro, 0, .num 0, .kept, []⟩]
  | 0x34 => [⟨0, 24, .ro, 0, .num 0, .kept, []⟩]
  | 0x38 => [⟨0, 24, .ro, 0, .num 0, .kept, []⟩]
  | 0x3C => [⟨0, 32, .ro, 0, .num 0, .kept, []⟩]
  | 0x40 => [⟨0, 32, .ro, 0, .num 0, .kept, []⟩]
  | 0x44 => [⟨0, 32, .ro, 0, .num 0, .kept, []⟩]
  | _ => []
/-- The fields of register offset `o` within one PLN set (R424, R425). -/
def plnFields (o : Nat) : List RegField :=
  match o with
  | 0x00 => [⟨0, 3, .ro, 0, .plan, .plan, []⟩, ⟨3, 1, .ro, 0, .num 0, .num 0, []⟩, ⟨4, 1, .ro, 0, .num 0, .kept, []⟩, ⟨5, 1, .ro, 0, .num 0, .num 0, []⟩, ⟨6, 1, .ro, 0, .plan, .plan, []⟩, ⟨7, 1, .ro, 0, .plan, .plan, []⟩, ⟨8, 1, .ro, 0, .trained, .trained, []⟩, ⟨16, 8, .ro, 0, .num 0, .num 0, []⟩]
  | 0x04 => [⟨0, 7, .ro, 127, .num 127, .kept, []⟩]
  | 0x08 => [⟨0, 32, .ro, 0, .num 0, .num 0, []⟩]
  | 0x0C => [⟨0, 32, .ro, 0, .num 0, .num 0, []⟩]
  | 0x10 => [⟨0, 32, .ro, 0, .num 0, .num 0, []⟩]
  | 0x14 => [⟨0, 32, .ro, 0, .plan, .kept, []⟩]
  | 0x18 => [⟨0, 8, .ro, 0, .plan, .plan, []⟩]
  | 0x1C => [⟨0, 16, .ro, 0, .plan, .kept, []⟩, ⟨16, 16, .ro, 0, .num 0, .num 0, []⟩]
  | 0x20 => [⟨0, 32, .ro, 0, .num 0, .num 0, []⟩]
  | 0x24 => [⟨0, 32, .ro, 0, .num 0, .num 0, []⟩]
  | 0x28 => [⟨0, 32, .ro, 0, .num 0, .num 0, []⟩]
  | 0x2C => [⟨0, 32, .ro, 0, .num 0, .num 0, []⟩]
  | o => if 0x60 ≤ o ∧ o < 0x80 ∧ o % 4 = 0 then [⟨0, 32, .ro, 0, .plan, .plan, []⟩] else if 0x40 ≤ o ∧ o < 0x60 ∧ o % 4 = 0 then [⟨0, 32, .ro, 0, .plan, .plan, []⟩] else []
/-- The fields of register offset `o` within one ZLP set (R100, R101, R102, R98, R99). -/
def zlpFields (o : Nat) : List RegField :=
  match o with
  | 0x00 => [⟨0, 1, .rwp, 0, .plan, .plan, []⟩, ⟨1, 1, .rwp, 0, .plan, .plan, []⟩, ⟨2, 3, .rwp, 0, .num 0, .num 0, [(0, 4)]⟩, ⟨5, 1, .rwp, 0, .num 0, .num 0, []⟩, ⟨6, 1, .wo, 0, .num 0, .num 0, []⟩, ⟨7, 1, .wo, 0, .num 0, .num 0, []⟩, ⟨8, 4, .rwp, 4, .num 4, .kept, [(1, 4)]⟩]
  | 0x04 => [⟨0, 4, .ro, 0, .trained, .trained, []⟩, ⟨4, 4, .ro, 0, .trained, .trained, []⟩, ⟨8, 4, .ro, 0, .trained, .trained, []⟩, ⟨12, 1, .ro, 0, .trained, .trained, []⟩, ⟨13, 1, .ro, 0, .trained, .trained, []⟩, ⟨14, 1, .ro, 0, .trained, .trained, []⟩, ⟨15, 3, .ro, 0, .num 0, .num 0, []⟩]
  | 0x08 => [⟨0, 8, .ro, 0, .trained, .trained, []⟩, ⟨8, 8, .ro, 0, .trained, .trained, []⟩, ⟨16, 8, .ro, 0, .trained, .trained, []⟩, ⟨24, 8, .ro, 0, .trained, .trained, []⟩]
  | 0x0C => [⟨0, 8, .ro, 0, .trained, .trained, []⟩, ⟨8, 8, .ro, 0, .trained, .trained, []⟩, ⟨16, 8, .ro, 0, .trained, .trained, []⟩, ⟨24, 8, .ro, 0, .trained, .trained, []⟩]
  | 0x10 => [⟨0, 8, .w1c, 0, .num 0, .num 0, []⟩]
  | 0x14 => [⟨0, 32, .ro, 0, .num 0, .num 0, []⟩]
  | 0x18 => [⟨0, 32, .ro, 0, .num 0, .num 0, []⟩]
  | 0x1C => [⟨0, 32, .ro, 0, .num 0, .num 0, []⟩]
  | 0x20 => [⟨0, 32, .ro, 0, .num 0, .num 0, []⟩]
  | 0x24 => [⟨0, 32, .ro, 0, .num 0, .num 0, []⟩]
  | 0x28 => [⟨0, 32, .ro, 0, .num 0, .num 0, []⟩]
  | 0x2C => [⟨0, 32, .ro, 0, .num 0, .num 0, []⟩]
  | 0x30 => [⟨0, 32, .ro, 0, .num 0, .num 0, []⟩]
  | 0x34 => [⟨0, 32, .ro, 0, .num 0, .num 0, []⟩]
  | 0x38 => [⟨0, 32, .ro, 0, .num 0, .num 0, []⟩]
  | 0x3C => [⟨0, 32, .ro, 0, .num 0, .num 0, []⟩]
  | o => if 0x40 ≤ o ∧ o < 0x80 ∧ o % 4 = 0 then [⟨0, 32, .ro, 0, .num 0, .num 0, []⟩] else []
/-- The fields of register offset `o` within one CTX set (R137, R138, R139, R140, R141). -/
def ctxFields (o : Nat) : List RegField :=
  match o with
  | 0x00 => [⟨0, 2, .rwp, 0, .plan, .plan, [(0, 2)]⟩, ⟨2, 2, .rwp, 0, .plan, .plan, []⟩, ⟨4, 3, .rwp, 0, .plan, .plan, [(0, 4)]⟩, ⟨7, 8, .rwp, 0, .plan, .plan, []⟩, ⟨15, 1, .ro, 1, .num 1, .num 1, []⟩]
  | 0x04 => [⟨0, 1, .ro, 0, .num 0, .kept, []⟩, ⟨1, 1, .ro, 0, .num 0, .num 0, []⟩, ⟨2, 1, .ro, 1, .num 1, .num 1, []⟩, ⟨3, 8, .ro, 0, .num 0, .num 0, []⟩, ⟨11, 2, .ro, 0, .num 0, .num 0, []⟩, ⟨13, 3, .ro, 0, .num 0, .num 0, []⟩]
  | 0x08 => [⟨0, 32, .ro, 0, .num 0, .kept, []⟩]
  | 0x0C => [⟨0, 32, .ro, 0, .num 0, .kept, []⟩]
  | 0x10 => [⟨0, 32, .ro, 0, .num 0, .kept, []⟩]
  | 0x14 => [⟨0, 15, .ro, 0, .num 0, .num 0, []⟩, ⟨16, 15, .ro, 0, .num 0, .num 0, []⟩, ⟨31, 1, .wo, 0, .num 0, .num 0, []⟩]
  | 0x18 => [⟨0, 4, .w1c, 0, .num 0, .num 0, []⟩]
  | 0x1C => [⟨0, 32, .ro, 0, .num 0, .num 0, []⟩]
  | 0x20 => [⟨0, 32, .ro, 0, .num 0, .num 0, []⟩]
  | 0x24 => [⟨0, 32, .ro, 0, .num 0, .num 0, []⟩]
  | _ => []
/-- The fields of register offset `o` within one COR set (R191, R192, R193). -/
def corFields (o : Nat) : List RegField :=
  match o with
  | 0x00 => [⟨0, 1, .ro, 0, .plan, .plan, []⟩, ⟨1, 1, .ro, 0, .plan, .plan, []⟩, ⟨2, 1, .ro, 0, .plan, .plan, []⟩, ⟨3, 1, .ro, 0, .plan, .plan, []⟩, ⟨4, 1, .ro, 0, .plan, .plan, []⟩, ⟨5, 1, .ro, 0, .plan, .plan, []⟩, ⟨6, 1, .ro, 0, .plan, .plan, []⟩, ⟨7, 1, .ro, 0, .plan, .plan, []⟩, ⟨8, 3, .ro, 0, .plan, .plan, []⟩, ⟨11, 3, .ro, 0, .plan, .plan, []⟩, ⟨14, 2, .ro, 0, .plan, .plan, []⟩, ⟨16, 2, .ro, 0, .plan, .plan, []⟩, ⟨18, 1, .w1c, 0, .num 0, .num 0, []⟩, ⟨19, 1, .w1c, 0, .num 0, .num 0, []⟩]
  | 0x04 => [⟨0, 32, .ro, 0, .plan, .plan, []⟩]
  | 0x08 => [⟨0, 32, .ro, 0, .plan, .plan, []⟩]
  | 0x0C => [⟨0, 32, .ro, 0, .plan, .plan, []⟩]
  | 0x10 => [⟨0, 32, .ro, 0, .plan, .plan, []⟩]
  | 0x14 => [⟨0, 32, .ro, 0, .num 0, .num 0, []⟩]
  | 0x18 => [⟨0, 32, .ro, 0, .num 0, .num 0, []⟩]
  | 0x1C => [⟨0, 32, .ro, 0, .num 0, .num 0, []⟩]
  | _ => []
/-- The fields of register offset `o` within one GEO set (R236, R237, R238). -/
def geoFields (o : Nat) : List RegField :=
  match o with
  | 0x00 => [⟨0, 2, .ro, 0, .plan, .plan, []⟩, ⟨2, 8, .ro, 0, .plan, .plan, []⟩, ⟨10, 1, .w1c, 0, .num 0, .num 0, []⟩, ⟨11, 1, .w1c, 0, .num 0, .num 0, []⟩, ⟨12, 1, .w1c, 0, .num 0, .num 0, []⟩, ⟨13, 1, .w1c, 0, .num 0, .num 0, []⟩]
  | 0x04 => [⟨0, 19, .ro, 0, .plan, .plan, []⟩]
  | 0x08 => [⟨0, 19, .ro, 0, .plan, .plan, []⟩]
  | 0x0C => [⟨0, 11, .ro, 0, .plan, .plan, []⟩]
  | 0x10 => [⟨0, 32, .ro, 0, .num 0, .kept, []⟩]
  | 0x14 => [⟨0, 32, .ro, 0, .num 0, .kept, []⟩]
  | 0x18 => [⟨0, 32, .ro, 0, .num 0, .num 0, []⟩]
  | 0x1C => [⟨0, 32, .ro, 0, .num 0, .num 0, []⟩]
  | 0x20 => [⟨0, 32, .ro, 0, .num 0, .num 0, []⟩]
  | 0x24 => [⟨0, 32, .ro, 0, .num 0, .num 0, []⟩]
  | 0x28 => [⟨0, 32, .ro, 0, .plan, .plan, []⟩]
  | _ => []
/-- The fields of register offset `o` within one GEG set (R239). -/
def gegFields (o : Nat) : List RegField :=
  match o with
  | 0x00 => [⟨0, 20, .rwp, 0, .plan, .plan, []⟩]
  | 0x04 => [⟨0, 20, .rwp, 0, .plan, .plan, []⟩]
  | 0x08 => [⟨0, 19, .rwp, 0, .plan, .plan, []⟩]
  | 0x0C => [⟨0, 32, .rwp, 0, .plan, .plan, []⟩]
  | 0x10 => [⟨0, 32, .rwp, 0, .plan, .plan, []⟩]
  | 0x14 => [⟨0, 32, .ro, 0, .num 0, .kept, []⟩]
  | 0x18 => [⟨0, 32, .ro, 0, .num 0, .kept, []⟩]
  | _ => []
/-- The fields of register offset `o` within one OVW set (R240). -/
def ovwFields (o : Nat) : List RegField :=
  match o with
  | 0x00 => [⟨0, 1, .ro, 0, .num 0, .num 0, []⟩, ⟨1, 3, .ro, 0, .plan, .plan, []⟩, ⟨4, 3, .ro, 0, .plan, .plan, []⟩, ⟨7, 4, .ro, 0, .plan, .plan, []⟩]
  | 0x04 => [⟨0, 14, .ro, 0, .plan, .plan, []⟩]
  | 0x08 => [⟨0, 32, .ro, 0, .plan, .plan, []⟩]
  | 0x0C => [⟨0, 8, .w1c, 0, .num 0, .num 0, []⟩]
  | 0x10 => [⟨0, 32, .ro, 0, .num 0, .num 0, []⟩]
  | 0x14 => [⟨0, 32, .ro, 0, .num 0, .num 0, []⟩]
  | 0x18 => [⟨0, 32, .ro, 0, .num 0, .num 0, []⟩]
  | _ => []
/-- The fields of register offset `o` within one SEG set (R298, R299). -/
def segFields (o : Nat) : List RegField :=
  match o with
  | 0x00 => [⟨0, 4, .ro, 0, .plan, .plan, []⟩, ⟨4, 3, .ro, 0, .plan, .plan, []⟩, ⟨7, 1, .ro, 0, .num 0, .num 0, []⟩, ⟨8, 1, .ro, 1, .num 1, .num 1, []⟩, ⟨9, 1, .w1c, 0, .num 0, .num 0, []⟩, ⟨10, 1, .w1c, 0, .num 0, .num 0, []⟩, ⟨11, 1, .w1c, 0, .num 0, .num 0, []⟩]
  | 0x04 => [⟨0, 14, .ro, 0, .num 0, .num 0, []⟩, ⟨16, 14, .ro, 0, .plan, .plan, []⟩]
  | 0x08 => [⟨0, 5, .ro, 0, .plan, .plan, []⟩]
  | 0x0C => [⟨0, 32, .ro, 0, .num 0, .num 0, []⟩]
  | 0x10 => [⟨0, 32, .ro, 0, .num 0, .num 0, []⟩]
  | 0x14 => [⟨0, 32, .ro, 0, .num 0, .num 0, []⟩]
  | 0x18 => [⟨0, 32, .ro, 0, .num 0, .num 0, []⟩]
  | 0x1C => [⟨0, 32, .ro, 0, .num 0, .num 0, []⟩]
  | 0x20 => [⟨0, 32, .ro, 0, .num 0, .num 0, []⟩]
  | _ => []
/-- The fields of register offset `o` within one SEM set (R300). -/
def semFields (o : Nat) : List RegField :=
  match o with
  | 0x00 => [⟨0, 15, .ro, 0, .num 0, .num 0, []⟩, ⟨16, 15, .ro, 0, .num 0, .num 0, []⟩, ⟨31, 1, .wo, 0, .num 0, .num 0, []⟩]
  | 0x04 => [⟨0, 8, .w1c, 0, .num 0, .num 0, []⟩]
  | 0x08 => [⟨0, 3, .ro, 0, .num 0, .num 0, []⟩]
  | 0x0C => [⟨0, 32, .ro, 0, .num 0, .num 0, []⟩]
  | _ => []
/-- The fields of register offset `o` within one PEN set (R334, R335, R336, R337). -/
def penFields (o : Nat) : List RegField :=
  match o with
  | 0x00 => [⟨0, 1, .rwp, 0, .plan, .plan, []⟩, ⟨1, 1, .ro, 0, .num 0, .num 0, []⟩, ⟨2, 1, .w1c, 0, .num 0, .num 0, []⟩, ⟨3, 1, .w1c, 0, .num 0, .num 0, []⟩, ⟨4, 1, .ro, 0, .num 0, .num 0, []⟩, ⟨5, 4, .rwp, 0, .plan, .plan, []⟩]
  | 0x04 => [⟨0, 21, .ro, 0, .num 0, .num 0, []⟩]
  | 0x08 => [⟨0, 21, .ro, 0, .num 0, .num 0, []⟩, ⟨31, 1, .wo, 0, .num 0, .num 0, []⟩]
  | 0x0C => [⟨0, 23, .ro, 0, .num 0, .kept, []⟩]
  | 0x10 => [⟨0, 32, .ro, 0, .num 0, .kept, []⟩]
  | 0x14 => [⟨0, 32, .ro, 0, .num 0, .kept, []⟩]
  | 0x18 => [⟨0, 8, .w1c, 0, .num 0, .num 0, []⟩]
  | 0x1C => [⟨0, 32, .ro, 0, .num 0, .num 0, []⟩]
  | 0x20 => [⟨0, 32, .ro, 0, .num 0, .num 0, []⟩]
  | 0x24 => [⟨0, 32, .ro, 0, .num 0, .num 0, []⟩]
  | 0x28 => [⟨0, 32, .ro, 0, .num 0, .num 0, []⟩]
  | 0x2C => [⟨0, 32, .ro, 0, .num 0, .num 0, []⟩]
  | 0x30 => [⟨0, 32, .ro, 0, .num 0, .num 0, []⟩]
  | _ => []
/-- The fields of register offset `o` within one CMP set (R384, R385, R386). -/
def cmpFields (o : Nat) : List RegField :=
  match o with
  | 0x00 => [⟨0, 1, .ro, 0, .num 0, .kept, []⟩, ⟨1, 1, .ro, 0, .num 0, .num 0, []⟩, ⟨2, 1, .w1c, 0, .num 0, .num 0, []⟩, ⟨3, 1, .ro, 0, .num 0, .num 0, []⟩, ⟨4, 1, .ro, 0, .num 0, .num 0, []⟩]
  | 0x04 => [⟨0, 32, .ro, 0, .num 0, .kept, []⟩]
  | 0x08 => [⟨0, 16, .ro, 0, .num 0, .num 0, []⟩]
  | 0x0C => [⟨0, 16, .ro, 0, .plan, .plan, []⟩, ⟨16, 16, .ro, 0, .plan, .kept, []⟩]
  | 0x10 => [⟨0, 8, .ro, 0, .plan, .plan, []⟩, ⟨8, 8, .ro, 0, .num 0, .num 0, []⟩]
  | 0x14 => [⟨0, 8, .ro, 0, .plan, .plan, []⟩, ⟨8, 8, .ro, 0, .num 0, .num 0, []⟩]
  | 0x18 => [⟨0, 10, .ro, 0, .num 0, .num 0, []⟩, ⟨10, 9, .ro, 0, .num 0, .num 0, []⟩]
  | 0x1C => [⟨0, 16, .w1c, 0, .num 0, .num 0, []⟩]
  | 0x20 => [⟨0, 32, .ro, 0, .num 0, .num 0, []⟩]
  | 0x24 => [⟨0, 32, .ro, 0, .num 0, .num 0, []⟩]
  | 0x28 => [⟨0, 32, .ro, 0, .num 0, .num 0, []⟩]
  | 0x2C => [⟨0, 32, .ro, 0, .num 0, .num 0, []⟩]
  | 0x30 => [⟨0, 32, .ro, 0, .num 0, .num 0, []⟩]
  | 0x34 => [⟨0, 32, .ro, 0, .num 0, .num 0, []⟩]
  | o => if 0x40 ≤ o ∧ o < 0x70 ∧ o % 4 = 0 then [⟨0, 28, .ro, 0, .num 0, .kept, []⟩, ⟨28, 1, .rwp, 0, .plan, .plan, []⟩, ⟨29, 1, .ro, 0, .plan, .plan, []⟩] else []
/-- The fields of register offset `o` within one MC set (R457, R458, R459, R460, R461). -/
def mcFields (o : Nat) : List RegField :=
  match o with
  | 0x00 => [⟨0, 3, .ro, 2, .trained, .trained, []⟩, ⟨3, 2, .ro, 3, .plan, .plan, []⟩, ⟨5, 1, .ro, 1, .plan, .plan, []⟩, ⟨6, 1, .ro, 0, .num 0, .kept, []⟩, ⟨8, 8, .ro, 64, .trained, .kept, []⟩, ⟨16, 3, .ro, 0, .num 0, .num 0, []⟩]
  | 0x04 => [⟨0, 3, .ro, 0, .kept, .kept, []⟩, ⟨3, 3, .ro, 0, .kept, .kept, []⟩, ⟨6, 3, .ro, 0, .kept, .kept, []⟩, ⟨9, 3, .ro, 0, .kept, .kept, []⟩, ⟨12, 1, .wo, 0, .num 0, .num 0, []⟩]
  | 0x08 => [⟨0, 8, .ro, 0, .trained, .trained, []⟩, ⟨8, 8, .ro, 0, .trained, .trained, []⟩, ⟨16, 8, .ro, 0, .trained, .trained, []⟩]
  | 0x0C => [⟨0, 8, .ro, 0, .num 0, .num 0, []⟩]
  | 0x10 => [⟨0, 2, .ro, 0, .num 0, .kept, []⟩, ⟨2, 10, .ro, 0, .num 0, .kept, []⟩]
  | 0x14 => [⟨0, 4, .w1c, 0, .num 0, .num 0, []⟩]
  | 0x18 => [⟨0, 16, .rwp, 1024, .num 1024, .kept, []⟩, ⟨16, 4, .rwp, 10, .num 10, .kept, []⟩]
  | 0x1C => [⟨0, 32, .ro, 0, .num 0, .num 0, []⟩]
  | 0x20 => [⟨0, 32, .ro, 0, .num 0, .num 0, []⟩]
  | 0x24 => [⟨0, 32, .ro, 0, .num 0, .num 0, []⟩]
  | 0x28 => [⟨0, 32, .ro, 0, .num 0, .num 0, []⟩]
  | 0x2C => [⟨0, 32, .ro, 0, .num 0, .num 0, []⟩]
  | o => if 0x30 ≤ o ∧ o < 0x80 ∧ o % 4 = 0 then [⟨0, 32, .ro, 0, .num 0, .num 0, []⟩] else []
/-- The fields of register offset `o` within one MCG set (R462). -/
def mcgFields (o : Nat) : List RegField :=
  match o with
  | 0x00 => [⟨0, 16, .ro, 65535, .trained, .trained, []⟩, ⟨16, 1, .ro, 0, .num 0, .num 0, []⟩]
  | _ => []
/-- The fields of register offset `o` within one JNL set (R500, R501, R502, R503, R504, R505). -/
def jnlFields (o : Nat) : List RegField :=
  match o with
  | 0x00 => [⟨0, 1, .ro, 0, .num 0, .kept, []⟩, ⟨1, 1, .ro, 0, .num 0, .num 0, []⟩, ⟨2, 1, .w1c, 0, .num 0, .num 0, []⟩, ⟨3, 1, .ro, 0, .num 0, .num 0, []⟩, ⟨4, 1, .ro, 0, .num 0, .num 0, []⟩, ⟨5, 3, .ro, 0, .num 0, .kept, []⟩]
  | 0x04 => [⟨0, 12, .ro, 2048, .num 2048, .kept, []⟩]
  | 0x08 => [⟨0, 12, .ro, 0, .num 0, .num 0, []⟩]
  | 0x0C => [⟨0, 32, .ro, 0, .num 0, .kept, []⟩]
  | 0x10 => [⟨0, 32, .ro, 0, .num 0, .kept, []⟩]
  | 0x14 => [⟨0, 1, .w1c, 0, .num 0, .num 0, []⟩, ⟨1, 2, .ro, 0, .num 0, .num 0, []⟩, ⟨3, 5, .ro, 0, .num 0, .num 0, []⟩, ⟨8, 4, .ro, 0, .num 0, .num 0, []⟩, ⟨12, 4, .ro, 0, .num 0, .num 0, []⟩]
  | 0x18 => [⟨0, 32, .ro, 0, .num 0, .kept, []⟩]
  | 0x1C => [⟨0, 8, .ro, 0, .num 0, .kept, []⟩]
  | 0x20 => [⟨0, 32, .ro, 0, .plan, .plan, []⟩]
  | 0x24 => [⟨0, 32, .ro, 0, .plan, .plan, []⟩]
  | 0x28 => [⟨0, 8, .w1c, 0, .num 0, .num 0, []⟩]
  | 0x2C => [⟨0, 32, .ro, 0, .num 0, .num 0, []⟩]
  | 0x30 => [⟨0, 32, .ro, 0, .num 0, .num 0, []⟩]
  | 0x34 => [⟨0, 32, .ro, 0, .num 0, .num 0, []⟩]
  | 0x38 => [⟨0, 32, .ro, 0, .num 0, .num 0, []⟩]
  | _ => []
/-- The fields of register offset `o` within one TIM set (R597). -/
def timFields (o : Nat) : List RegField :=
  match o with
  | 0x00 => [⟨0, 1, .rwp, 1, .num 1, .kept, []⟩, ⟨1, 1, .rwp, 0, .num 0, .kept, []⟩, ⟨2, 1, .rwp, 0, .num 0, .kept, []⟩, ⟨3, 2, .rwp, 1, .num 1, .kept, [(0, 2)]⟩, ⟨5, 7, .rwp, 0, .num 0, .kept, []⟩, ⟨12, 3, .rwp, 4, .num 4, .kept, []⟩, ⟨15, 8, .rwp, 248, .num 248, .kept, []⟩]
  | 0x04 => [⟨0, 2, .ro, 0, .trained, .trained, []⟩, ⟨2, 1, .ro, 0, .trained, .trained, []⟩, ⟨3, 1, .ro, 0, .trained, .trained, []⟩, ⟨4, 1, .ro, 0, .num 0, .num 0, []⟩]
  | 0x08 => [⟨0, 32, .ro, 0, .trained, .trained, []⟩]
  | 0x0C => [⟨0, 32, .ro, 0, .trained, .trained, []⟩]
  | 0x10 => [⟨0, 32, .ro, 0, .num 0, .num 0, []⟩]
  | 0x14 => [⟨0, 32, .ro, 0, .num 0, .num 0, []⟩]
  | 0x18 => [⟨0, 32, .ro, 0, .num 0, .num 0, []⟩]
  | 0x1C => [⟨0, 32, .rw, 2251800, .num 2251800, .kept, []⟩]
  | 0x20 => [⟨0, 32, .rw, 140737, .num 140737, .kept, []⟩]
  | 0x24 => [⟨0, 32, .rw, 10000, .num 10000, .kept, []⟩]
  | 0x28 => [⟨0, 1, .rwp, 1, .num 1, .kept, []⟩, ⟨1, 1, .rwp, 0, .num 0, .kept, []⟩]
  | 0x2C => [⟨0, 1, .rwp, 1, .num 1, .kept, []⟩, ⟨1, 1, .rwp, 0, .num 0, .kept, []⟩]
  | 0x30 => [⟨0, 32, .rw, 0, .trained, .kept, []⟩]
  | 0x34 => [⟨0, 32, .rw, 0, .trained, .kept, []⟩]
  | 0x38 => [⟨0, 32, .rw, 0, .num 0, .kept, []⟩]
  | 0x3C => [⟨0, 24, .w1c, 0, .num 0, .num 0, []⟩]
  | 0x40 => [⟨0, 16, .ro, 0, .plan, .num 0, []⟩]
  | 0x44 => [⟨0, 32, .ro, 0, .trained, .kept, []⟩]
  | 0x48 => [⟨0, 32, .ro, 0, .num 0, .num 0, []⟩]
  | 0x4C => [⟨0, 32, .ro, 0, .num 0, .num 0, []⟩]
  | 0x50 => [⟨0, 32, .ro, 0, .num 0, .num 0, []⟩]
  | _ => []
/-- The fields of register offset `o` within one FAB set (R633). -/
def fabFields (o : Nat) : List RegField :=
  match o with
  | 0x00 => [⟨0, 1, .rwp, 0, .plan, .plan, []⟩, ⟨1, 1, .rwp, 0, .num 0, .kept, []⟩, ⟨2, 1, .ro, 0, .plan, .plan, []⟩]
  | 0x04 => [⟨0, 3, .ro, 0, .num 0, .kept, []⟩, ⟨3, 6, .ro, 63, .num 63, .kept, []⟩, ⟨9, 1, .ro, 0, .num 0, .kept, []⟩, ⟨10, 6, .ro, 0, .num 0, .kept, []⟩, ⟨16, 5, .ro, 0, .num 0, .kept, []⟩, ⟨21, 1, .ro, 0, .num 0, .num 0, []⟩, ⟨22, 1, .w1c, 0, .num 0, .num 0, []⟩]
  | 0x08 => [⟨0, 1, .ro, 0, .num 0, .num 0, []⟩, ⟨1, 1, .ro, 0, .num 0, .num 0, []⟩, ⟨2, 1, .ro, 0, .plan, .plan, []⟩, ⟨3, 1, .ro, 0, .plan, .plan, []⟩]
  | 0x0C => [⟨0, 11, .ro, 0, .plan, .plan, []⟩, ⟨11, 11, .ro, 0, .plan, .plan, []⟩]
  | 0x10 => [⟨0, 32, .ro, 0, .num 0, .kept, []⟩]
  | 0x14 => [⟨0, 32, .ro, 0, .num 0, .kept, []⟩]
  | 0x18 => [⟨0, 8, .w1c, 0, .num 0, .num 0, []⟩]
  | 0x1C => [⟨0, 32, .ro, 0, .num 0, .num 0, []⟩]
  | 0x20 => [⟨0, 32, .ro, 0, .num 0, .num 0, []⟩]
  | 0x24 => [⟨0, 32, .ro, 0, .num 0, .num 0, []⟩]
  | 0x28 => [⟨0, 32, .ro, 0, .num 0, .num 0, []⟩]
  | 0x2C => [⟨0, 32, .ro, 0, .num 0, .num 0, []⟩]
  | 0x30 => [⟨0, 32, .ro, 0, .num 0, .num 0, []⟩]
  | _ => []
/-- The fields of register offset `o` within one ENC set (R660, R661, R662). -/
def encFields (o : Nat) : List RegField :=
  match o with
  | 0x00 => [⟨0, 2, .rwp, 0, .plan, .plan, [(0, 2)]⟩, ⟨2, 1, .rwp, 0, .plan, .plan, []⟩, ⟨3, 10, .rwp, 0, .plan, .plan, [(0, 1000)]⟩, ⟨13, 1, .rwp, 0, .plan, .plan, []⟩]
  | 0x04 => [⟨0, 1, .w1c, 0, .num 0, .num 0, []⟩, ⟨1, 1, .w1c, 0, .num 0, .num 0, []⟩, ⟨2, 1, .w1c, 0, .num 0, .num 0, []⟩, ⟨3, 1, .ro, 0, .num 0, .kept, []⟩, ⟨4, 1, .w1c, 0, .num 0, .kept, []⟩, ⟨5, 1, .ro, 0, .num 0, .kept, []⟩, ⟨6, 1, .ro, 1, .num 1, .num 1, []⟩]
  | 0x08 => [⟨0, 32, .ro, 0, .num 0, .kept, []⟩]
  | 0x0C => [⟨0, 32, .ro, 0, .num 0, .kept, []⟩]
  | 0x10 => [⟨0, 32, .ro, 0, .num 0, .kept, []⟩]
  | 0x14 => [⟨0, 32, .ro, 0, .num 0, .kept, []⟩]
  | 0x18 => [⟨0, 32, .ro, 0, .num 0, .num 0, []⟩]
  | 0x1C => [⟨0, 32, .rwp, 0, .plan, .plan, []⟩]
  | 0x20 => [⟨0, 16, .rwp, 0, .plan, .plan, []⟩]
  | 0x24 => [⟨0, 32, .ro, 0, .num 0, .num 0, []⟩]
  | 0x28 => [⟨0, 14, .rwp, 0, .plan, .plan, [(10, 10000)]⟩]
  | 0x2C => [⟨0, 31, .rwp, 0, .plan, .kept, []⟩]
  | 0x30 => [⟨0, 6, .w1c, 0, .num 0, .num 0, []⟩]
  | 0x34 => [⟨0, 32, .ro, 0, .num 0, .num 0, []⟩]
  | 0x38 => [⟨0, 32, .ro, 0, .num 0, .num 0, []⟩]
  | 0x3C => [⟨0, 32, .ro, 0, .num 0, .num 0, []⟩]
  | _ => []
/-- The fields of register offset `o` within one AX set (R694, R695, R696). -/
def axFields (o : Nat) : List RegField :=
  match o with
  | 0x00 => [⟨0, 1, .rwp, 0, .plan, .plan, []⟩, ⟨1, 1, .rwp, 0, .plan, .plan, []⟩, ⟨2, 1, .rwp, 0, .plan, .plan, []⟩, ⟨3, 1, .rwp, 0, .plan, .plan, []⟩, ⟨4, 3, .rwp, 7, .plan, .plan, [(0, 3), (7, 7)]⟩, ⟨7, 4, .rwp, 0, .plan, .plan, []⟩]
  | 0x04 => [⟨0, 3, .ro, 1, .num 1, .kept, []⟩, ⟨3, 1, .ro, 1, .num 1, .kept, []⟩, ⟨4, 1, .w1c, 0, .num 0, .num 0, []⟩, ⟨5, 1, .ro, 0, .trained, .trained, []⟩, ⟨6, 1, .ro, 0, .trained, .trained, []⟩, ⟨7, 1, .ro, 1, .num 1, .kept, []⟩, ⟨8, 3, .ro, 0, .num 0, .num 0, []⟩, ⟨11, 1, .w1c, 0, .num 0, .num 0, []⟩, ⟨12, 1, .ro, 0, .trained, .trained, []⟩]
  | 0x08 => [⟨0, 32, .ro, 0, .num 0, .kept, []⟩]
  | 0x0C => [⟨0, 32, .ro, 0, .num 0, .kept, []⟩]
  | 0x10 => [⟨0, 32, .ro, 0, .num 0, .num 0, []⟩]
  | 0x14 => [⟨0, 12, .rwp, 0, .plan, .plan, []⟩, ⟨12, 12, .rwp, 0, .plan, .plan, []⟩]
  | 0x18 => [⟨0, 9, .rw, 100, .num 100, .kept, [(25, 400)]⟩]
  | 0x1C => [⟨0, 8, .ro, 0, .trained, .kept, []⟩, ⟨8, 8, .ro, 0, .trained, .kept, []⟩, ⟨16, 8, .ro, 0, .num 0, .num 0, []⟩]
  | 0x20 => [⟨0, 11, .ro, 0, .num 0, .num 0, []⟩]
  | 0x24 => [⟨0, 8, .ro, 0, .num 0, .num 0, []⟩, ⟨8, 9, .ro, 0, .num 0, .num 0, []⟩]
  | 0x28 => [⟨0, 10, .w1c, 0, .num 0, .num 0, []⟩]
  | 0x2C => [⟨0, 32, .ro, 0, .num 0, .num 0, []⟩]
  | 0x30 => [⟨0, 32, .ro, 0, .num 0, .num 0, []⟩]
  | 0x34 => [⟨0, 32, .ro, 0, .num 0, .num 0, []⟩]
  | 0x38 => [⟨0, 32, .ro, 0, .num 0, .num 0, []⟩]
  | 0x3C => [⟨0, 32, .ro, 0, .num 0, .num 0, []⟩]
  | _ => []
/-- The fields of register offset `o` within one EVC set (R722). -/
def evcFields (o : Nat) : List RegField :=
  match o with
  | 0x00 => [⟨0, 9, .rwp, 0, .plan, .plan, [(0, 407)]⟩, ⟨9, 8, .rwp, 0, .plan, .plan, [(0, 1), (16, 159), (160, 163)]⟩, ⟨17, 3, .rwp, 0, .plan, .plan, [(0, 4)]⟩, ⟨20, 1, .rwp, 0, .plan, .plan, []⟩, ⟨21, 1, .rwp, 0, .plan, .plan, []⟩]
  | 0x04 => [⟨0, 1, .w1c, 0, .num 0, .num 0, []⟩, ⟨1, 1, .w1c, 0, .num 0, .num 0, []⟩, ⟨2, 1, .w1c, 0, .num 0, .num 0, []⟩, ⟨3, 1, .ro, 0, .num 0, .num 0, []⟩, ⟨4, 4, .ro, 0, .num 0, .num 0, []⟩]
  | 0x08 => [⟨0, 32, .ro, 0, .num 0, .num 0, []⟩]
  | _ => []
/-- The fields of register offset `o` within one LC set (R723). -/
def lcFields (o : Nat) : List RegField :=
  match o with
  | 0x00 => [⟨0, 3, .rwp, 0, .plan, .plan, [(0, 4)]⟩, ⟨3, 2, .rwp, 0, .plan, .plan, []⟩, ⟨8, 3, .rwp, 0, .plan, .plan, [(0, 4)]⟩, ⟨11, 2, .rwp, 0, .plan, .plan, []⟩, ⟨16, 3, .rwp, 0, .plan, .plan, [(0, 4)]⟩, ⟨19, 2, .rwp, 0, .plan, .plan, []⟩, ⟨24, 3, .rwp, 0, .plan, .plan, [(0, 4)]⟩, ⟨27, 2, .rwp, 0, .plan, .plan, []⟩]
  | 0x04 => [⟨0, 16, .rwp, 0, .plan, .plan, []⟩, ⟨16, 1, .rwp, 0, .plan, .plan, []⟩, ⟨17, 8, .rwp, 0, .plan, .plan, [(1, 255)]⟩, ⟨25, 1, .rwp, 0, .plan, .plan, []⟩, ⟨26, 1, .rwp, 0, .plan, .plan, []⟩]
  | 0x08 => [⟨0, 1, .ro, 0, .num 0, .num 0, []⟩, ⟨1, 1, .w1c, 0, .num 0, .num 0, []⟩, ⟨2, 4, .ro, 0, .num 0, .num 0, []⟩]
  | _ => []
/-- The fields of register offset `o` within one EVT set (R724). -/
def evtFields (o : Nat) : List RegField :=
  match o with
  | 0x00 => [⟨0, 16, .w1c, 0, .num 0, .num 0, []⟩, ⟨16, 4, .w1c, 0, .num 0, .num 0, []⟩, ⟨20, 4, .w1c, 0, .num 0, .num 0, []⟩]
  | 0x04 => [⟨0, 1, .w1c, 0, .num 0, .num 0, []⟩, ⟨1, 2, .ro, 0, .num 0, .num 0, []⟩, ⟨3, 5, .ro, 0, .num 0, .num 0, []⟩, ⟨8, 3, .ro, 0, .num 0, .num 0, []⟩, ⟨11, 3, .ro, 0, .num 0, .num 0, []⟩]
  | 0x08 => [⟨0, 32, .ro, 0, .num 0, .num 0, []⟩]
  | _ => []
/-- The fields of register offset `o` within one CRC set (R725). -/
def crcFields (o : Nat) : List RegField :=
  match o with
  | 0x00 => [⟨0, 7, .rw, 32, .num 32, .kept, [(1, 64)]⟩, ⟨7, 1, .rw, 1, .num 1, .kept, []⟩, ⟨8, 1, .rw, 1, .num 1, .kept, []⟩]
  | 0x04 => [⟨0, 32, .rw, 517762881, .num 517762881, .kept, []⟩]
  | 0x08 => [⟨0, 32, .rw, 0, .num 0, .kept, []⟩]
  | 0x0C => [⟨0, 32, .rw, 4294967295, .num 4294967295, .kept, []⟩]
  | 0x10 => [⟨0, 32, .rw, 0, .num 0, .kept, []⟩]
  | 0x14 => [⟨0, 32, .rw, 4294967295, .num 4294967295, .kept, []⟩]
  | 0x18 => [⟨0, 32, .rw, 0, .num 0, .kept, []⟩]
  | 0x1C => [⟨0, 32, .rw, 4294967295, .num 4294967295, .num 4294967295, []⟩]
  | 0x20 => [⟨0, 32, .rw, 0, .num 0, .num 0, []⟩]
  | 0x24 => [⟨0, 4, .wo, 0, .num 0, .num 0, []⟩, ⟨4, 1, .wo, 0, .num 0, .num 0, []⟩]
  | 0x28 => [⟨0, 32, .ro, 0, .num 0, .num 0, []⟩]
  | 0x2C => [⟨0, 32, .ro, 0, .num 0, .num 0, []⟩]
  | 0x30 => [⟨0, 1, .ro, 0, .num 0, .num 0, []⟩, ⟨1, 1, .w1c, 0, .num 0, .num 0, []⟩, ⟨2, 1, .w1c, 0, .num 0, .num 0, []⟩, ⟨3, 4, .ro, 0, .num 0, .num 0, []⟩, ⟨7, 2, .ro, 0, .num 0, .num 0, []⟩]
  | 0x34 => [⟨0, 32, .ro, 0, .num 0, .num 0, []⟩]
  | _ => []
/-- The fields of register offset `o` within one CAL set (R740). -/
def calFields (o : Nat) : List RegField :=
  match o with
  | 0x00 => [⟨0, 1, .rw, 1, .num 1, .kept, []⟩]
  | 0x04 => [⟨0, 16, .ro, 0, .num 0, .num 0, []⟩, ⟨16, 1, .w1c, 0, .num 0, .kept, []⟩, ⟨17, 15, .ro, 0, .num 0, .num 0, []⟩]
  | 0x08 => [⟨0, 8, .ro, 0, .num 0, .num 0, []⟩, ⟨8, 1, .ro, 0, .num 0, .num 0, []⟩]
  | _ => []
/-- The fields of the register at byte address `a`; none at a reserved offset (R808, R809). -/
def fieldsAt (a : Nat) : List RegField :=
  if 0x0 ≤ a ∧ a < 0x60 then sysFields (a - 0x0) else
  if 0x1000 ≤ a ∧ a < 0x103C then pwrFields (a - 0x1000) else
  if 0x2000 ≤ a ∧ a < 0x2100 then hssFields ((a - 0x2000) % 0x40) else
  if 0x2100 ≤ a ∧ a < 0x2180 then hspFields ((a - 0x2100) % 0x40) else
  if 0x2210 ≤ a ∧ a < 0x2290 then hsnFields ((a - 0x2210) % 0x40) else
  if 0x2180 ≤ a ∧ a < 0x2314 then hstFields (a - 0x2180) else
  if 0x2400 ≤ a ∧ a < 0x2600 then hrbFields ((a - 0x2400) % 0x80) else
  if 0x3000 ≤ a ∧ a < 0x3080 then plnFields (a - 0x3000) else
  if 0x4000 ≤ a ∧ a < 0x4C00 then zlpFields ((a - 0x4000) % 0x100) else
  if 0x5000 ≤ a ∧ a < 0x5300 then ctxFields ((a - 0x5000) % 0x40) else
  if 0x6000 ≤ a ∧ a < 0x6300 then corFields ((a - 0x6000) % 0x40) else
  if 0x7000 ≤ a ∧ a < 0x7300 then geoFields ((a - 0x7000) % 0x40) else
  if 0x7300 ≤ a ∧ a < 0x731C then gegFields (a - 0x7300) else
  if 0x8000 ≤ a ∧ a < 0x801C then ovwFields (a - 0x8000) else
  if 0x9000 ≤ a ∧ a < 0x9300 then segFields ((a - 0x9000) % 0x40) else
  if 0x9300 ≤ a ∧ a < 0x9310 then semFields (a - 0x9300) else
  if 0xA000 ≤ a ∧ a < 0xA034 then penFields (a - 0xA000) else
  if 0xB000 ≤ a ∧ a < 0xB070 then cmpFields (a - 0xB000) else
  if 0xC000 ≤ a ∧ a < 0xC800 then mcFields ((a - 0xC000) % 0x80) else
  if 0xC800 ≤ a ∧ a < 0xC804 then mcgFields (a - 0xC800) else
  if 0xD000 ≤ a ∧ a < 0xD03C then jnlFields (a - 0xD000) else
  if 0xE000 ≤ a ∧ a < 0xE054 then timFields (a - 0xE000) else
  if 0xF000 ≤ a ∧ a < 0xF034 then fabFields (a - 0xF000) else
  if 0x10000 ≤ a ∧ a < 0x10100 then encFields ((a - 0x10000) % 0x40) else
  if 0x11000 ≤ a ∧ a < 0x11100 then axFields ((a - 0x11000) % 0x80) else
  if 0x12000 ≤ a ∧ a < 0x12400 then evcFields ((a - 0x12000) % 0x10) else
  if 0x12400 ≤ a ∧ a < 0x12600 then lcFields ((a - 0x12400) % 0x10) else
  if 0x12600 ≤ a ∧ a < 0x1260C then evtFields (a - 0x12600) else
  if 0x13000 ≤ a ∧ a < 0x13200 then crcFields ((a - 0x13000) % 0x40) else
  if 0x14000 ≤ a ∧ a < 0x1400C then calFields (a - 0x14000) else
  []
/-- The addresses of every counter register (every name containing _CNT_), the set that R627 latches. -/
def counterAddrs : List Nat :=
  [0x102C] ++
  [0x1030] ++
  (List.range 4).map (0x2010 + 0x40 * ·) ++
  (List.range 4).map (0x2014 + 0x40 * ·) ++
  (List.range 4).map (0x2018 + 0x40 * ·) ++
  (List.range 4).map (0x201C + 0x40 * ·) ++
  (List.range 4).map (0x2020 + 0x40 * ·) ++
  (List.range 4).map (0x2024 + 0x40 * ·) ++
  (List.range 2).map (0x2108 + 0x40 * ·) ++
  (List.range 2).map (0x210C + 0x40 * ·) ++
  (List.range 2).map (0x2110 + 0x40 * ·) ++
  (List.range 2).map (0x2114 + 0x40 * ·) ++
  (List.range 2).map (0x2118 + 0x40 * ·) ++
  [0x3028] ++
  [0x302C] ++
  (List.range 12).map (0x4014 + 0x100 * ·) ++
  (List.range 12).map (0x4018 + 0x100 * ·) ++
  (List.range 12).map (0x401C + 0x100 * ·) ++
  (List.range 12).map (0x4020 + 0x100 * ·) ++
  (List.range 12).map (0x4024 + 0x100 * ·) ++
  (List.range 12).map (0x4028 + 0x100 * ·) ++
  (List.range 12).map (0x402C + 0x100 * ·) ++
  (List.range 12).map (0x501C + 0x40 * ·) ++
  (List.range 12).map (0x5020 + 0x40 * ·) ++
  (List.range 12).map (0x5024 + 0x40 * ·) ++
  (List.range 12).map (0x6014 + 0x40 * ·) ++
  (List.range 12).map (0x6018 + 0x40 * ·) ++
  (List.range 12).map (0x601C + 0x40 * ·) ++
  (List.range 12).map (0x7018 + 0x40 * ·) ++
  (List.range 12).map (0x701C + 0x40 * ·) ++
  (List.range 12).map (0x7020 + 0x40 * ·) ++
  (List.range 12).map (0x7024 + 0x40 * ·) ++
  [0x8010] ++
  [0x8014] ++
  [0x8018] ++
  (List.range 12).map (0x900C + 0x40 * ·) ++
  (List.range 12).map (0x9010 + 0x40 * ·) ++
  (List.range 12).map (0x9014 + 0x40 * ·) ++
  (List.range 12).map (0x9018 + 0x40 * ·) ++
  (List.range 12).map (0x901C + 0x40 * ·) ++
  (List.range 12).map (0x9020 + 0x40 * ·) ++
  [0x930C] ++
  [0xA01C] ++
  [0xA020] ++
  [0xA024] ++
  [0xA028] ++
  [0xA02C] ++
  [0xA030] ++
  [0xB020] ++
  [0xB024] ++
  [0xB028] ++
  [0xB02C] ++
  [0xB030] ++
  [0xB034] ++
  (List.range 16).map (0xC01C + 0x80 * ·) ++
  (List.range 16).map (0xC020 + 0x80 * ·) ++
  (List.range 16).map (0xC024 + 0x80 * ·) ++
  (List.range 16).map (0xC028 + 0x80 * ·) ++
  (List.range 16).map (0xC02C + 0x80 * ·) ++
  [0xD02C] ++
  [0xD030] ++
  [0xD034] ++
  [0xD038] ++
  [0xE048] ++
  [0xE04C] ++
  [0xE050] ++
  [0xF01C] ++
  [0xF020] ++
  [0xF024] ++
  [0xF028] ++
  [0xF02C] ++
  [0xF030] ++
  (List.range 4).map (0x10034 + 0x40 * ·) ++
  (List.range 4).map (0x10038 + 0x40 * ·) ++
  (List.range 4).map (0x1003C + 0x40 * ·) ++
  (List.range 2).map (0x1102C + 0x80 * ·) ++
  (List.range 2).map (0x11030 + 0x80 * ·) ++
  (List.range 2).map (0x11034 + 0x80 * ·) ++
  (List.range 2).map (0x11038 + 0x80 * ·) ++
  (List.range 2).map (0x1103C + 0x80 * ·) ++
  (List.range 64).map (0x12008 + 0x10 * ·) ++
  [0x12608] ++
  (List.range 8).map (0x13034 + 0x40 * ·)

/-- Bits [lo+width-1 : lo] of a word. -/
def getBits (w : Word) (lo width : Nat) : Nat := (w.toNat >>> lo) % 2 ^ width

/-- A word with bits [lo+width-1 : lo] set to the low bits of `v`. -/
def setBits (w : Word) (lo width : Nat) (v : Nat) : Word :=
  (w &&& ~~~ (BitVec.ofNat 32 (2 ^ width - 1) <<< lo)) ||| (BitVec.ofNat 32 (v % 2 ^ width) <<< lo)

/-- The word at address `a` in `State.reset`: every field at its reset value, reserved bits 0 (R8). -/
def coldWord (a : Nat) : Word :=
  (fieldsAt a).foldl (fun w f => setBits w f.lo f.width f.coldVal) 0

/-- A value is one its field's encoding lists as used (R9). -/
def RegField.admits (f : RegField) (v : Nat) : Bool :=
  f.legal.isEmpty || f.legal.any (fun r => decide (r.1 ≤ v) && decide (v ≤ r.2))

/-- The word of address `a` after the warm column of its table is applied to `old` (R17). Fields restored
by the plan or by training keep their value here; the start's own steps set them. -/
def warmWord (a : Nat) (old : Word) : Word :=
  (fieldsAt a).foldl (fun w f =>
    match f.warm with
    | .num v => setBits w f.lo f.width v
    | _ => w) old

/-- The word of address `a` at a cold start: fields whose Cold column is a number take it, kept and fuse
fields keep their value, plan and trained fields take the reset value until the start sets them (R17). -/
def coldStartWord (a : Nat) (old : Word) : Word :=
  (fieldsAt a).foldl (fun w f =>
    match f.cold with
    | .kept | .fuse => w
    | _ => setBits w f.lo f.width f.coldVal) old

end Sys2Proof.Machine
end

