-- ==== Sys2Proof/Machine/Records.lean ====
section
/-! DEFINITION. The records of the camera ports, contexts, slices, look-back ring, jobs, pennant unit, journal
and host sessions. -/

namespace Sys2Proof.Machine

/-! ### Camera ports -/

/-- Where a lane stands in its rate step (R45). -/
inductive LanePhase where
  | idle | stepSent | waitSwitch | adapting | waitResult | settled | unusable
  deriving DecidableEq, Repr

/-- A camera lane: rate step, whether the step runs again at the present rate (R727, ADAPT), figures of merit, block lock and alignment (R45, R53, R57). -/
structure LaneSt where
  phase : LanePhase
  rate : Nat
  again : Bool
  own : Option Nat
  peer : Option Nat
  keptOwn : Nat
  locked : Bool
  goodMarks : Nat
  badMarks : Nat
  mark : Option (Nat × Nat)
  camFom : Option Nat
  deriving DecidableEq, Repr

/-- A line trigger kept by the port (R70, R74). -/
structure Trig where
  num : Nat
  time : Nat
  pos : Int
  deriving DecidableEq, Repr

/-- A settings request that became an APPLY (R78, R83, R129). -/
structure Apply where
  line : Nat
  strip : Nat
  tag : Nat
  body : List Byte
  sends : Nat
  accepted : Bool
  sess : Nat
  desc : Nat
  deriving DecidableEq, Repr

/-- The outstanding CTRL request of a port (R84, R85). -/
structure CtrlReq where
  op : Nat
  tag : Nat
  words : Nat
  body : List Byte
  sends : Nat
  dest : Nat
  sess : Nat
  desc : Nat
  deriving DecidableEq, Repr

/-- What a port is waiting for in bring-up, sleep or resume (R44, R91, R93). -/
inductive PortWait where
  | none | retry | switchEcho | codeSwitch | lock | wake | warmAdapt | warmStatus | adapting
  deriving DecidableEq, Repr

/-- A camera port. -/
structure PortSt where
  wait : PortWait
  dscSeq : Nat
  dscSeen : Nat
  recSeq : Nat
  recSends : Nat
  agreed : Nat
  declared : Nat
  lanes : Tbl LaneSt
  asleep : Bool
  deskew : List Nat
  txSeq : Nat
  lastIdx : Option Nat
  lastAbs : Nat
  prevLine : Option CamLine
  lastTime : Nat
  lastPos : Int
  fresh : Bool
  gaps : List Gap
  trigNum : Nat
  trigs : List Trig
  applies : List Apply
  nextTag : Nat
  ctrl : Option CtrlReq
  ctrlTag : Nat
  ctrlQ : List CtrlReq
  lost : Bool
  deriving DecidableEq, Repr

/-- A queued FIFO line with its two consumers (R114, R115). -/
structure FifoLine where
  line : CamLine
  sliceTook : Bool
  engineTook : Bool
  units : Nat
  deriving DecidableEq, Repr

/-- A committed bank waiting for its strip (R123, R125). -/
structure BankCommit where
  strip : Nat
  id : Nat
  deriving DecidableEq, Repr

/-- Numbering, banks and settings of a context (R106 to R131). -/
structure CtxNum where
  held : Nat
  needBase : Bool
  nextStrip : Nat
  lastAccept : Nat
  lastIdx : Nat
  expectTag : Nat
  b0 : Bank
  b1 : Bank
  id0 : Nat
  id1 : Nat
  commit : Option BankCommit
  retired : Option Nat
  stripBanks : List (Nat × Nat)
  shorts : List Nat
  illegalSeen : Nat
  startAt : Option (Int × Int)
  bases : List (Nat × Nat)
  deriving DecidableEq, Repr

/-- A context: numbering, ingress FIFO, strip buffers and the running state of its slice stages. -/
structure CtxSt where
  num : CtxNum
  fifo : List FifoLine
  filling : List CamLine
  complete : List (List CamLine)
  reading : List CamLine
  fe : FeSt
  geo : GeoSt
  seg : SegSt
  segq : List OutLine
  trackLog : List (Nat × List Int)
  deriving DecidableEq, Repr

/-- A pipeline slice: slot position and power (R119, R135, R776). -/
structure SliceSt where
  granule : Nat
  owner : Option Nat
  asleep : Bool
  lost : Bool
  idleSince : Nat
  deriving DecidableEq, Repr

/-! ### Look-back ring and jobs -/

/-- A code table of the look-back coder: five sub-tables of 17 lengths (R343, R353). -/
structure CodeTable where
  id : Nat
  dynamic : Bool
  lens : List (List Nat)
  deriving DecidableEq, Repr

/-- A line stored in the look-back ring (R354): the record's bytes, and the samples they code. -/
structure RingLine where
  ctx : Nat
  strip : Nat
  idx : Nat
  abs : Nat
  off : Nat
  tag : Nat
  time : Nat
  pos : Int
  y : Int
  replaced : Bool
  depth : Nat
  table : Nat
  chunk : Nat
  poisoned : Bool
  suspect : Bool
  illegal : Bool
  mismatch : Bool
  triggered : Bool
  gaps : List Gap
  rows : List (List Nat)
  record : List Byte
  deriving DecidableEq, Repr

/-- A strip index entry (R361). -/
structure StripIdx where
  strip : Nat
  ctx : Nat
  short : Bool
  gap : Bool
  poisoned : Bool
  lines : Nat
  firstIdx : Nat
  yFirst : Int
  yLast : Int
  tFirst : Nat
  tLast : Nat
  bank : Nat
  dir : Nat
  chunk : Nat
  deriving DecidableEq, Repr

/-- A chunk of the ring in use (R358, R359). -/
structure Chunk where
  no : Nat
  ctx : Nat
  opened : Bool
  used : Nat
  firstTime : Nat
  deriving DecidableEq, Repr

/-- The coder of one context (R340, R349 to R352, R363). -/
structure Coder where
  table : CodeTable
  kept : List CodeTable
  nextTable : Nat
  counts : List (List Nat)
  due : List (Nat × CodeTable)
  prevIdx : Option (Nat × Nat)
  prevRows : List (List Nat)
  blocks : Nat
  rawBlocks : Nat
  banks : List (Nat × Bank)
  deriving DecidableEq, Repr

/-- A line that left the ring: what a job's GAP records say of it (R371). -/
structure GoneLine where
  ctx : Nat
  strip : Nat
  idx : Nat
  y : Int
  deriving DecidableEq, Repr

/-- The look-back ring (R358 to R367). -/
structure RingSt where
  chunks : List Chunk
  lines : List RingLine
  gone : List GoneLine
  strips : List StripIdx
  dirNext : Nat
  rawBytes : Nat
  codedBytes : Nat
  deriving DecidableEq, Repr

/-- Whether a job waits, runs, is suspended, or waits for a read (R376, R381, R383). -/
inductive JobPhase where
  | queued | running | suspended | ringWait
  deriving DecidableEq, Repr

/-- The kinds of background work that a descriptor or a class action starts (R368, R717). -/
inductive JobKind where
  | crop | reprocess | check | slotLoad
  deriving DecidableEq, Repr

/-- The parameters of a job (R368). -/
structure JobParams where
  kind : JobKind
  format : Nat
  chans : Nat
  ctxMask : Nat
  defaultX : Bool
  bankSel : Nat
  yLo : Int
  yHi : Int
  xLo : Int
  xHi : Int
  offs : Int
  gain : Nat
  unit : Nat
  source : Nat
  srcLen : Nat
  deriving DecidableEq, Repr

/-- What a job still has to do, in order (R371, R372, R374). -/
inductive JobItem where
  | read (ctx strip idx abs : Nat)
  | absent (ctx first last cause : Nat)
  | sect (ctx : Nat)
  | drain
  | finish
  deriving DecidableEq, Repr

/-- A run of absent lines of one cause for a GAP record (R372). -/
structure JobGap where
  ctx : Nat
  cause : Nat
  first : Int
  last : Int
  deriving DecidableEq, Repr

/-- A record formed and not yet written: its bytes, and the lines and gap lines it stands for (R376). -/
structure JobRec where
  bytes : List Byte
  lines : Nat
  gaps : Nat
  deriving DecidableEq, Repr

/-- The pipeline state a job keeps for one context (R479); `main` is clear for a blend partner outside the job's mask. -/
structure JobPipe where
  ctx : Nat
  main : Bool
  fe : FeSt
  geo : GeoSt
  seg : SegSt
  outq : List OutLine
  deriving DecidableEq, Repr

/-- A held job (R376 to R383, R479). `out`, `outLen` and `outPos` are the output buffer in force; `recs` are formed
records, `carry` the rest of the record being written. -/
structure Job where
  id : Nat
  sess : Nat
  tag : Nat
  desc : Nat
  auto : Bool
  pennant : Nat
  par : JobParams
  phase : JobPhase
  opened : Bool
  fresh : Bool
  out : Nat
  outLen : Nat
  outPos : Nat
  produced : Nat
  consumed : Nat
  exported : Nat
  gapLines : Nat
  todo : List JobItem
  runs : List JobGap
  recs : List JobRec
  logged : Nat
  carry : List Byte
  cur : JobRec
  sect : List Byte
  tables : List (Nat × Nat)
  pipes : List JobPipe
  seam : SeamSt
  nextM : Int
  hiM : Int
  ring : Nat
  firstSeq : Nat
  lastSeq : Nat
  units : Nat
  fault : Nat
  faultWin : Nat
  faultOff : Nat
  deriving DecidableEq, Repr

/-! ### Pennant unit -/

/-- Discarded pennants of one cut window of one context (R322). -/
structure Discards where
  ctx : Nat
  window : Int
  first : Int
  last : Int
  deriving DecidableEq, Repr

/-- The pennant unit (R313, R315, R321 to R323). -/
structure PenSt where
  queue : List Pennant
  staging : List Pennant
  discards : List Discards
  block : Nat
  nextLive : Nat
  nextRepro : Nat
  gathered : Nat
  written : Nat
  datagrams : Nat
  deriving DecidableEq, Repr

/-! ### Journal -/

/-- A journal entry (R481, R482): type, fields and payload. -/
structure JEntry where
  num : Nat
  ty : Nat
  sess : Nat
  ctx : Nat
  plan : Nat
  time : Nat
  fields : List Nat
  payload : List Byte
  durable : Bool
  deriving DecidableEq, Repr

/-- The work journal (R481 to R491); `restartGaps` holds, by context, the first output line that the gap pennants of R495 cover. -/
structure JnlSt where
  entries : List JEntry
  next : Nat
  freeBytes : Nat
  valid : Bool
  snapCount : Tbl Nat
  snaps : List (Nat × Nat × FeSt × GeoSt × SegSt)
  catchPos : List (Nat × Nat)
  matchLeft : List (Nat × Nat)
  matchParts : List (Nat × Nat)
  partsSince : List (Nat × Nat)
  restartGaps : List (Nat × Int)
  replayPen : List (Nat × List Byte)
  deriving DecidableEq, Repr

/-! ### Host sessions -/

/-- A host window: remote base, length, key, linear flags or page entries (R466, R470). -/
structure Window where
  base : Nat
  len : Nat
  key : Nat
  linear : Bool
  flags : Nat
  pages : Tbl Nat
  fenced : Bool
  deriving DecidableEq, Repr

/-- A ring in host memory (R536, R537, R547): its device address, entries, entry size and indices. -/
structure HRing where
  addr : Nat
  entries : Nat
  unit : Nat
  prod : Nat
  cons : Nat
  alive : Option Nat
  deriving DecidableEq, Repr

/-- Why an RDMA READ is outstanding (R529). -/
inductive ReadFor where
  | descriptors (first count : Nat)
  | recipe (desc : Nat)
  | pages (desc : Nat)
  | pairs (desc : Nat)
  | ctrlData (desc : Nat)
  | segments (desc : Nat)
  | sine (desc : Nat)
  | frame (desc : Nat)
  | jobInput (job : Nat)
  deriving DecidableEq, Repr

/-- An RDMA operation a session waits on (R529, R470): the packet sequence number after it, what a READ is for,
its window, offset and length, the bytes of a WRITE, and its requester as JNL_XFAULT codes it (R503). -/
structure RdmaOp where
  psn : Nat
  len : Nat
  data : List Byte
  read : Option ReadFor
  win : Nat
  off : Nat
  who : Nat
  job : Nat
  deriving DecidableEq, Repr

/-- An accepted descriptor of a session (R550, R552, R553). -/
structure OutDesc where
  idx : Nat
  bytes : List Byte
  bad : Nat
  durable : Bool
  started : Bool
  stale : Bool
  deriving DecidableEq, Repr

/-- A descriptor fetch in flight or waiting to be repeated (R552). -/
structure Refetch where
  idx : Nat
  tries : Nat
  deriving DecidableEq, Repr

/-- A write that waits for a lost or held session to resume (R533): window, offset, requester, job, bytes. -/
structure HeldWrite where
  win : Nat
  off : Nat
  who : Nat
  job : Nat
  bytes : List Byte
  deriving DecidableEq, Repr

/-- A session's queue pair and network end points (R529 to R533, R515). -/
structure QpSt where
  hostQpn : Nat
  psn : Nat
  hostPsn : Nat
  host : List Byte
  ops : List RdmaOp
  retries : Nat
  rate : Nat
  lastCnp : Option Nat
  deriving DecidableEq, Repr

/-- A host session (R530 to R544). -/
structure Sess where
  qp : QpSt
  windows : Tbl Window
  rings : Tbl HRing
  descs : List OutDesc
  fetching : Bool
  refetch : Option Refetch
  heldCpl : List (List Byte)
  waitCpl : List (Nat × List Byte)
  heldEvt : List (List Byte)
  heldWrites : List HeldWrite
  dropped : Bool
  fences : List (Nat × Nat)
  reply : List Byte
  authFails : List Nat
  lockUntil : Option Nat
  key : Option (List Byte)
  deriving DecidableEq, Repr

end Sys2Proof.Machine
end

