-- ==== Sys2Proof/Machine/UnitTypes.lean ====
section
/-! DEFINITION. The records of the overview unit, module memory, Planner, network, time unit, fabric engine,
feedback channels, marker axes, event routing, check-value units, calibrations and power control. -/

namespace Sys2Proof.Machine

/-! ### Overview unit -/

/-- A line inside the overview unit (R230, R235): its output line, time, flags and channels. -/
structure OvwRow where
  m : Int
  time : Nat
  gap : Bool
  sat : Bool
  replaced : Bool
  chans : List (List Int)
  deriving DecidableEq, Repr

/-- A grid line being assembled from the owned columns of the contexts (R229). -/
structure OvwPart where
  m : Int
  ctxs : List Nat
  row : OvwRow
  deriving DecidableEq, Repr

/-- A finished overview line (R233): down-web position of its centre in nm, time, flags, pixel bytes. -/
structure OvwLine where
  y : Int
  time : Nat
  gap : Bool
  sat : Bool
  replaced : Bool
  pixels : List Byte
  deriving DecidableEq, Repr

/-- The overview unit (R230 to R242): grid lines under assembly, the down-web filter histories (one per
half-band stage, with the number of lines it has taken), the resampler's history and source position (32 fractional bits), finished lines, numbering, the times of grid lines,
and the cycle of the last line written. -/
structure OvwSt where
  parts : List OvwPart
  stages : List (Nat × List OvwRow)
  resample : List OvwRow
  fed : Nat
  srcPos : Nat
  ready : List OvwLine
  number : Nat
  dropped : Bool
  limited : Bool
  times : List (Int × Nat)
  lastAt : Nat
  lines : Nat
  deriving DecidableEq, Repr

/-! ### Module memory -/

/-- A migration in progress (R450, R451): the failed rank, allocated bursts, next burst, bursts copied, and the
bursts whose bit a write has set. -/
structure Migration where
  rank : Nat
  alloc : Nat
  next : Nat
  copied : Nat
  written : List Nat
  deriving DecidableEq, Repr

/-- A DRAM channel (R426 to R456). -/
structure McSt where
  errTimes : Tbl (List Nat)
  corrected : Nat
  dies : List Int
  migration : Option Migration
  storedVref : Int
  trimmed : List Int
  retrainDue : Bool
  refreshes : Nat
  tested : Bool
  deriving DecidableEq, Repr

/-- Module memory as a whole: codewords that migration wrote, and the refresh variant that is due. -/
structure MemSt where
  chans : Tbl McSt
  bursts : Tbl (List Byte)
  hotDue : Option Bool
  coolSince : Option Nat
  deriving DecidableEq, Repr

/-! ### Planner -/

/-- A Planner descriptor whose records are being read or compiled (R397, R399, R400). -/
structure PlanJob where
  sess : Nat
  desc : Nat
  bytes : Option (List Byte)
  set : Option BankSet
  deriving DecidableEq, Repr

/-- A commit waiting for its frame boundary (R398); `sess` 255 where the Planner commits itself. -/
structure CommitWait where
  sess : Nat
  desc : Nat
  deriving DecidableEq, Repr

/-- An operation waiting for its frame boundary: kind as the operation code of R624, form, time or position, the E_zero that a
position is formed with (R113), its descriptor, and the sequence of the global order that brought it, 0 for none (R625). -/
structure DueOp where
  kind : Nat
  form : Nat
  val : Int
  zero : Int
  sess : Nat
  desc : Nat
  seq : Nat
  deriving DecidableEq, Repr

/-- The Planner (R397 to R423); `awaitCamera` is set while a start's compile was refused for want of a camera (R831). -/
structure PlnSt where
  plan : Option Plan
  compiled : Option Plan
  original : Option Plan
  compiling : Option PlanJob
  sets : List PlanJob
  slots : List (Nat × List (Nat × Bank))
  fallbacks : Tbl Plan
  commit : Option CommitWait
  fault : Option Nat
  loaded : Bool
  queued : List Nat
  due : List DueOp
  lastRecipe : List Byte
  staged : List Byte
  awaitCamera : Bool
  deriving DecidableEq, Repr

/-! ### Network and management -/

/-- An Ethernet port: the address set in force (12 words, R824), the cycles at which its link went down and its pause began, and the
TAI time in ns until which launched frames occupy the wire (R590). -/
structure EthSt where
  inForce : List Word
  downSince : Option Nat
  pausedAt : Option Nat
  wireUntil : Nat
  deriving DecidableEq, Repr

/-- The LO/HI latches, one per reader and LO register (R810); reader 4 is firmware. -/
abbrev Latches := Tbl Word

/-! ### Time unit -/

/-- A frame in a launch queue (R590): its time, the descriptor it serves, and its bytes. -/
structure Launch where
  time : Nat
  sess : Nat
  desc : Nat
  bytes : List Byte
  deriving DecidableEq, Repr

/-- A TOUT_ARM in force (R587). -/
structure ToutArm where
  periodic : Bool
  period : Nat
  width : Nat
  sess : Nat
  deriving DecidableEq, Repr

/-- A timed output (R584 to R589): the function the plan gives it, edges due, the armed pulses, and the end of
the pulse in progress. -/
structure ToutSt where
  plan : Option ToutPlan
  dues : List Nat
  next : Option Nat
  arm : Option ToutArm
  high : Option Nat
  overload : Bool
  deriving DecidableEq, Repr

/-- A Sync waiting for its Follow_Up (R575). -/
structure SyncRx where
  src : Nat
  seq : Nat
  arrival : Int
  corr : Int
  deriving DecidableEq, Repr

/-- PTP end-point state of a port: delay measurements under way and the delay in force, in 1/65 536 ns. -/
structure PtpPort where
  delay : Int
  reqSeq : Nat
  reqTime : Option Int
  respTime : Option (Int × Int × Int)
  sync : Option SyncRx
  lastSync : Option (Int × Int)
  syncSeq : Nat
  annSeq : Nat
  deriving DecidableEq, Repr

/-- The time unit (R567 to R598). TAI is counted in units of 1/(5 × 2^48) ns, in which a tick of R567 is the
integer 8 × (2^48 + r). -/
structure TimSt where
  tai : Nat
  f : Int
  r : Int
  streak : Nat
  master : Option AnnMsg
  foreign : List (Nat × AnnMsg)
  asMaster : Bool
  step : Option Int
  ports : Tbl PtpPort
  residence : Tbl Int
  second : Nat
  touts : Tbl ToutSt
  queues : Tbl (List Launch)
  paceNext : Nat
  aoTrim : Int
  deriving DecidableEq, Repr

/-! ### Fabric engine -/

/-- A module heard by its ensigns (R605, R607). -/
structure Peer where
  serial : Nat
  seq : Nat
  coord : Nat
  isCoord : Bool
  named : Bool
  spanKnown : Bool
  left : Int
  right : Int
  hops : Nat
  port : Nat
  addr : Nat
  hash : List Byte
  gone : Bool
  deriving DecidableEq, Repr

/-- A fabric message sent and not yet acknowledged (R619). -/
structure FabOut where
  dest : Nat
  type : Nat
  seq : Nat
  body : List Byte
  deriving DecidableEq, Repr

/-- A global operation ordered by this module as coordinator (R624, R625): the modules that have not acknowledged it, and the
result of its descriptor once it has taken effect here. -/
structure GlobalOp where
  op : Nat
  form : Nat
  time : Nat
  seq : Nat
  sess : Nat
  desc : Nat
  waiting : List Nat
  result : Option (List Byte)
  deriving DecidableEq, Repr

/-- A place in the assigned fabric: address, serial and hop count (R608). -/
structure Member where
  addr : Nat
  serial : Nat
  hops : Nat
  acked : Bool
  deriving DecidableEq, Repr

/-- A seam strip kept for seam alignment (R623, R730). -/
structure SeamData where
  side : Nat
  first : Int
  lines : Nat
  bytes : List Byte
  deriving DecidableEq, Repr

/-- A seam strip of this module under collection (R623): side, first line, rows with their validity. -/
structure SeamOutAcc where
  side : Nat
  first : Int
  rows : List (Bool × List Byte)
  deriving DecidableEq, Repr

/-- The fabric engine (R599 to R634). `got` is the last sequence delivered without a gap before it, by source and type, and
`ahead` what was delivered beyond it (R618); `lost` lists the neighbours declared lost, each with the strip of its seam context after
which exchange resumes once it is heard again (R630, R632); `lostGaps` the modules whose columns this module reports as gaps, each
with the first line not yet reported (R631); `prevCoord` the coordinator before a warm start, until ensigns confirm it (R610). -/
structure FabSt where
  stripOut : List SeamOutAcc
  peers : List Peer
  ensignSeq : Nat
  seen : List (Nat × Nat)
  named : Option Nat
  members : List Member
  sent : Tbl Nat
  got : Tbl Nat
  ahead : List (Nat × Nat)
  outs : List FabOut
  orders : List GlobalOp
  ready : List (Nat × List Byte)
  lost : List (Nat × Option Nat)
  lostGaps : List (Nat × Int)
  cutLow : Int
  cutHigh : Int
  wLow : Nat
  wHigh : Nat
  x0 : Int
  hash : List Byte
  aligned : Bool
  strips : List SeamData
  snaps : List (Nat × List Byte)
  snapDesc : Option (Nat × Nat)
  prevCoord : Nat
  deriving DecidableEq, Repr

/-! ### Feedback channels -/

/-- A feedback channel (R635 to R659): input levels, the last valid Hall state (0 none, else 1 to 6), the base pair
of R645, the count at the last index pulse, the run of mismatches, the speed window, the always-on count with its
value at NIGHT entry and the cycle of its last edge, the reference count at the last redundant index and the
revolutions that agreed, and whether the handover of R659 is under way. -/
structure EncSt where
  a : Bool
  b : Bool
  z : Bool
  hall : Nat
  rawBase : Nat
  base : Int
  index : Option Nat
  run : Nat
  window : Int
  ao : Int
  aoEntry : Int
  lastEdge : Option Nat
  redRef : Option Nat
  agree : Nat
  handover : Bool
  deriving DecidableEq, Repr

/-! ### Marker axes -/

/-- A segment of a table or of a planned move (R674). -/
structure Segment where
  dur : Nat
  vel : Int
  pos : Int
  deriving DecidableEq, Repr

/-- A firmware move (R678): its target, its limits and its descriptor (session 255: the mark service). -/
structure AxisMove where
  target : Int
  vel : Nat
  acc : Nat
  dec : Nat
  sess : Nat
  desc : Nat
  overshoot : Bool
  deriving DecidableEq, Repr

/-- A raw table waiting or running (R677). -/
structure RawTable where
  segs : List Segment
  start : Nat
  time : Nat
  sess : Nat
  desc : Nat
  deriving DecidableEq, Repr

/-- An armed compare unit (R689 to R692): a host's (`sess` below 4) or a mark's, with the pennant fields it brings. -/
structure Compare where
  unit : Nat
  web : Bool
  target : Int
  drop : Bool
  falling : Bool
  sess : Nat
  desc : Nat
  low : Nat
  cls : Nat
  ctxByte : Nat
  cross : Int
  deriving DecidableEq, Repr

/-- A mark request (R331, R693): compare value's web position, cross-web position, and what the pennant carries. -/
structure Mark where
  value : Int
  cross : Int
  low : Nat
  cls : Nat
  ctxByte : Nat
  deriving DecidableEq, Repr

/-- A marker axis (R664 to R693). `segs` are the segments left, the first running since `segStart` from
(`p0`, `v0`); `ending` lists the descriptors that complete at standstill with their status; `newLims` and
`limitDue` take effect at the next motion tick. -/
structure AxSt where
  sine : List Int
  p : Int
  v : Int
  segs : List Segment
  segStart : Nat
  p0 : Int
  v0 : Int
  newMove : Option AxisMove
  move : Option AxisMove
  newLims : Option (Nat × Nat × Nat)
  raw : Option RawTable
  nextRaw : Option RawTable
  newSine : Option (List Int)
  compares : List Compare
  marks : List Mark
  marking : Option Mark
  coilsOn : Bool
  limitMa : Option Nat
  limitDue : Option (Option Nat)
  cutPercent : Nat
  endedAt : Nat
  ending : List (Nat × Nat × Nat)
  residA : Nat
  residB : Nat
  deriving DecidableEq, Repr

/-! ### Event routing -/

/-- An event on its way through a channel (R699, R701): source, its time, its hop count, the cycle it fired. -/
structure Flight where
  chan : Nat
  source : Nat
  time : Nat
  hop : Nat
  cycle : Nat
  merged : Bool
  overrun : Bool
  deriving DecidableEq, Repr

/-- A logic cell (R708 to R710): toggle and pulse levels of its inputs, synchroniser and raw stages, flip-flop,
the level before the filter and how long it has held, and the largest hop count since its last event. -/
structure CellSt where
  toggles : Nat
  pulses : Nat
  raw : Bool
  ff : Bool
  level : Bool
  held : Nat
  hop : Nat
  deriving DecidableEq, Repr

/-- Event routing (R698 to R715). -/
structure EvtSt where
  flights : List Flight
  waiting : List Flight
  ringBusy : Tbl Nat
  cells : Tbl CellSt
  pins : Nat
  sync0 : Nat
  sync1 : Nat
  claims : Tbl Nat
  deriving DecidableEq, Repr

/-! ### Check-value units -/

/-- A check-value unit (R716 to R721): running value, staged value, and its run's job. -/
structure CrcSt where
  v : Nat
  staged : Nat
  job : Option Nat
  loads : Nat
  deriving DecidableEq, Repr

/-! ### Calibration -/

/-- A calibration in progress (R727 to R738): for kind 1 the lane, the lowest figures of merit in `edges` and the failed lanes in
`clipped`; for kind 4 sums per sensor pixel, lines and CLIPPED samples; for kind 6 the edge offsets, with `active` from the first. -/
structure CalRun where
  kind : Nat
  target : Nat
  sess : Nat
  desc : Nat
  strips : Nat
  began : Nat
  active : Bool
  nextStrip : Nat
  lines : Nat
  clipped : Nat
  sums : List (List Int)
  prev : List (List Px)
  edges : List Int
  out : Nat
  outLen : Nat
  lane : Nat
  deriving DecidableEq, Repr

/-- Calibration state: runs, seam correction totals and waiting estimates in 1/64 column, last residuals in nm. -/
structure CalSt where
  runs : List CalRun
  totals : Tbl Int
  waiting : Tbl Int
  last : Tbl Int
  residuals : List (Nat × Nat)
  deriving DecidableEq, Repr

/-! ### Power and start -/

/-- What flash keeps (R313, R401, R434, R446, R452, R520, R739, R758). -/
structure Flash where
  recipe : List Byte
  block : Nat
  asym : List Int
  aoTrim : Int
  training : List (Nat × Nat × Int)
  lanes : Tbl LaneSt
  seams : Tbl Int
  seamRecipe : List Byte
  failed : Tbl Nat
  seqMarks : List Nat
  imageA : Bool
  deriving DecidableEq, Repr

/-- Power control (R741 to R767). Starts: the last step ended, the steps of SUNRISE that have ended, whether a failed SUNRISE waits
for its retry, the cycles of failed warm starts and of the last loss of a PLL, the mode of R750, the pending AUTO_RESUME start.
DUSK: the mode it was entered from, its step of R761, the descriptor and the target that wait for the STOP of R749, a critical
temperature. NIGHT: WAKE not heeded (R756), latched wake sources, a failed DAWN (R758), DRAM retained, a valid start record.
Supply: PRESENT, the supply, an insertion not yet qualified, a hold-up that has not ended (R763 to R766). FRESET already heeded
(R798), sensors with a standing warning, the current limit, the cycle each watchdog was served, the compression engines
out of service (R777), flash. -/
structure PwrSt where
  step : Nat
  done : List Nat
  retry : Bool
  warmFails : List Nat
  pllAt : Option Nat
  faultMode : Nat
  resumeStart : Bool
  duskFrom : Nat
  duskStep : Nat
  duskDesc : Option (Nat × Nat)
  afterStop : Option Nat
  critical : Bool
  ignoreWake : Bool
  latched : List Nat
  blocked : Bool
  dramKept : Bool
  recordValid : Bool
  present : Bool
  supply : Bool
  inserted : Bool
  holding : Bool
  freset : Bool
  warned : List Nat
  limiting : Bool
  watchdog : List Nat
  engineLost : List Nat
  flash : Flash
  deriving DecidableEq, Repr

end Sys2Proof.Machine
end

