-- ==== Sys2Proof/Machine/Init.lean ====
section
/-! DEFINITION. The value every indexed record of the state has in `State.reset`: what a table reads where it
lists nothing. Values the spec states no reset for are named in notes/assumptions/2.md. -/

namespace Sys2Proof.Machine

/-- A lane not yet used. -/
def initLane : LaneSt :=
  { phase := .idle, rate := 0, again := false, own := none, peer := none, keptOwn := 0,
    locked := false, goodMarks := 0, badMarks := 0, mark := none, camFom := none }

/-- A camera port without a signal. DESIGN CHOICE: assumption 2. -/
def initPort : PortSt :=
  { wait := .none, dscSeq := 0, dscSeen := 0, recSeq := 0, recSends := 0, agreed := 0,
    declared := 0, lanes := [], asleep := false, deskew := [], txSeq := 0, lastIdx := none, lastAbs := 0,
    prevLine := none, lastTime := 0, lastPos := 0, fresh := true, gaps := [], trigNum := 0, trigs := [], applies := [],
    nextTag := 1, ctrl := none, ctrlTag := 1, ctrlQ := [], lost := false }

/-- The stage enables of a bank that nothing has loaded: every stage off. -/
def initEnables : Enables := ⟨false, false, false, false, false, false, false, false⟩

/-- Dark tracking of a bank that nothing has loaded. -/
def initDark : DarkCfg := ⟨0, 0, 0, 0, false, 0, 0, 0, 0, false⟩

/-- A bank that nothing has loaded. -/
def initBank : Bank :=
  { front := { en := initEnables, clip := 0, bc := [], br := [], dark := initDark, defects := [], outlier := 0,
               gain := [], offs := [], mosRows := 1, mosCols := 1, cells := [], dist := [], delta := [],
               planes := [], kernels := [], matrix := [], channels := 1, statFirst := 0, statLast := 0,
               colbin := 0 },
    geo := { gen := 0, entries := [], sets := [] },
    seg := { planes := 1, weights := [], rate := [], d0 := [], warmup := 1024, hold := 0, resetModel := false,
             layers := [], streamExp := 14, lists := [], nodes := [], actions := [] } }

/-- A front end that holds no line (R171). DESIGN CHOICE: assumption 2. -/
def initFe : FeSt :=
  { hist := [], gaps := [], start := 0, linkStart := true, nextReg := none, t28 := [], prevX2 := [],
    lastDelta := [], stats := [], statOverflow := false, bankStrip := none }

/-- A geometry stage that holds no line. DESIGN CHOICE: assumption 2. -/
def initGeo : GeoSt :=
  { lines := [], gaps := [], start := 0, linkStart := true, nextM := none, maxY := none, reversing := false,
    waiting := [], contrib := [], gave := [] }

/-- A back end before its first line. DESIGN CHOICE: assumption 2. -/
def initSeg : SegSt :=
  { model := [], blobs := [], prev := [], prevGaps := [], prevM := none, prevMissing := false, strip := none,
    stripFirst := none, storm := false, tiles := [], gaps := [], nextId := 0, lastProgress := none, lines := [],
    banks := [] }

/-- Numbering of a context before its first base line (R107, R110). DESIGN CHOICE: assumption 2. -/
def initNum : CtxNum :=
  { held := 0, needBase := true, nextStrip := 0, lastAccept := 0, lastIdx := 0, expectTag := 0, b0 := initBank,
    b1 := initBank, id0 := 0, id1 := 0, commit := none, retired := none, stripBanks := [],
    shorts := [], illegalSeen := 0, startAt := none, bases := [] }

/-- A context that has taken no line. -/
def initCtx : CtxSt :=
  { num := initNum, fifo := [], filling := [], complete := [], reading := [], fe := initFe, geo := initGeo,
    seg := initSeg, segq := [], trackLog := [] }

/-- A slice before its first granule boundary. -/
def initSlice : SliceSt :=
  { granule := 0, owner := none, asleep := false, lost := false, idleSince := 0 }

/-- The code table a plan starts from where it names none: every class coded in 5 bits up to class 14 and
the two last in 4 (R345); the plan replaces it. -/
def initTable : CodeTable := { id := 0, dynamic := true, lens := [] }

/-- A coder that has coded nothing. DESIGN CHOICE: assumption 2. -/
def initCoder : Coder :=
  { table := initTable, kept := [], nextTable := 1, counts := [], due := [], prevIdx := none,
    prevRows := [], blocks := 0, rawBlocks := 0, banks := [] }

/-- An empty look-back ring. -/
def initRing : RingSt := { chunks := [], lines := [], gone := [], strips := [], dirNext := 0, rawBytes := 0, codedBytes := 0 }

/-- A seam merge unit that holds nothing. -/
def initSeam : SeamSt := { inq := [], parts := [], runs := [], cover := [] }

/-- The pennant unit after the first DAWN: block 1 (R313). DESIGN CHOICE: assumption 2. -/
def initPen : PenSt :=
  { queue := [], staging := [], discards := [], block := 1, nextLive := 0, nextRepro := 0, gathered := 0,
    written := 0, datagrams := 0 }

/-- An empty journal (R481): entry numbers start at 1, 2 GB free. DESIGN CHOICE: assumption 2. -/
def initJnl : JnlSt :=
  { entries := [], next := 1, freeBytes := 2147483648, valid := false, snapCount := [], snaps := [],
    catchPos := [], matchLeft := [], matchParts := [], partsSince := [], restartGaps := [], replayPen := [] }

/-- An overview unit with empty filters. -/
def initOvw : OvwSt :=
  { parts := [], stages := [], resample := [], fed := 0, srcPos := 0, ready := [], number := 0, dropped := false,
    limited := false, times := [], lastAt := 0, lines := 0 }

/-- A channel after a passing training. -/
def initMc : McSt :=
  { errTimes := [], corrected := 0, dies := [], migration := none, storedVref := 0,
    trimmed := [], retrainDue := false, refreshes := 0, tested := true }

/-- Module memory in normal refresh. DESIGN CHOICE: assumption 2. -/
def initMem : MemSt := { chans := [], bursts := [], hotDue := none, coolSince := none }

/-- A Planner without a plan or a stored recipe. DESIGN CHOICE: assumption 2. -/
def initPln : PlnSt :=
  { plan := none, compiled := none, original := none, compiling := none, sets := [], slots := [], fallbacks := [],
    commit := none, fault := none, loaded := false, queued := [], due := [], lastRecipe := [], staged := [],
    awaitCamera := false }

/-- A window that nothing has defined. -/
def initWindow : Window := { base := 0, len := 0, key := 0, linear := false, flags := 0, pages := [], fenced := false }

/-- A ring that nothing has defined (R536). -/
def initHRing : HRing := { addr := 0, entries := 0, unit := 0, prod := 0, cons := 0, alive := none }

/-- A queue pair that no OPEN has set up; 100 Gbit/s in units of 1/20 Gbit/s (R515). -/
def initQp : QpSt :=
  { hostQpn := 0, psn := 0, hostPsn := 0, host := [], ops := [], retries := 0, rate := 2000, lastCnp := none }

/-- A closed session without a key. DESIGN CHOICE: assumption 2. -/
def initSess : Sess :=
  { qp := initQp, windows := [], rings := [], descs := [], fetching := false, refetch := none, heldCpl := [],
    waitCpl := [], heldEvt := [], heldWrites := [], dropped := false, fences := [], reply := [], authFails := [], lockUntil := none,
    key := none }

/-- An Ethernet port without addresses. -/
def initEth : EthSt := { inForce := List.replicate 12 0, downSince := none, pausedAt := none, wireUntil := 0 }

/-- A timed output without a function. -/
def initTout : ToutSt := { plan := none, dues := [], next := none, arm := none, high := none, overload := false }

/-- PTP state of a port before the first message. -/
def initPtp : PtpPort :=
  { delay := 0, reqSeq := 0, reqTime := none, respTime := none, sync := none, lastSync := none, syncSeq := 0,
    annSeq := 0 }

/-- The time unit in FREE at TAI 0 (R577). DESIGN CHOICE: assumption 2. -/
def initTim : TimSt :=
  { tai := 0, f := 0, r := 0, streak := 0, master := none, foreign := [], asMaster := false, step := none,
    ports := [], residence := [], second := 0, touts := [], queues := [], paceNext := 0, aoTrim := 0 }

/-- A fabric engine that has heard nothing. DESIGN CHOICE: assumption 2. -/
def initFab : FabSt :=
  { stripOut := [], peers := [], ensignSeq := 0, seen := [], named := none, members := [], sent := [], got := [], ahead := [],
    outs := [], orders := [], ready := [], lost := [], lostGaps := [], cutLow := 0, cutHigh := 0, wLow := 0, wHigh := 0, x0 := 0,
    hash := [], aligned := false, strips := [], snaps := [], snapDesc := none, prevCoord := 0 }

/-- A feedback channel before its first edge. -/
def initEnc : EncSt :=
  { a := false, b := false, z := false, hall := 0, rawBase := 0, base := 0, index := none, run := 0, window := 0,
    ao := 0, aoEntry := 0, lastEdge := none, redRef := none, agree := 0, handover := false }

/-- The default sine table of R666: T[k] = 32 767 × sin(2πk / 1 024) in binary64, rounded to nearest even. -/
def defaultSine : List Int :=
  (List.range 1024).map (fun (k : Nat) =>
    ((f64OfInt 32767).mul (sinF64 (((f64OfInt 2).mul piF64).mul (f64OfInt k) |>.div (f64OfInt 1024)))).round)

/-- A marker axis at microstep 0 (R671); an empty sine table stands for the default of R666.
DESIGN CHOICE: assumption 2. -/
def initAx : AxSt :=
  { sine := [], p := 0, v := 0, segs := [], segStart := 0, p0 := 0, v0 := 0, newMove := none, move := none,
    newLims := none, raw := none, nextRaw := none, newSine := none, compares := [], marks := [], marking := none,
    coilsOn := true, limitMa := none, limitDue := none, cutPercent := 100, endedAt := 0, ending := [], residA := 0, residB := 0 }

/-- Event routing with no event under way. -/
def initEvt : EvtSt :=
  { flights := [], waiting := [], ringBusy := [], cells := [], pins := 0, sync0 := 0, sync1 := 0, claims := [] }

/-- A logic cell with every level 0. -/
def initCell : CellSt := { toggles := 0, pulses := 0, raw := false, ff := false, level := false, held := 0, hop := 0 }

/-- A check-value unit (R725: V is 0xFFFF_FFFF). DESIGN CHOICE: assumption 2. -/
def initCrc : CrcSt := { v := 0xFFFFFFFF, staged := 0xFFFFFFFF, job := none, loads := 0 }

/-- No calibration has run. -/
def initCal : CalSt := { runs := [], totals := [], waiting := [], last := [], residuals := [] }

/-- Flash as shipped, after the first DAWN wrote block 1 (R313). DESIGN CHOICE: assumption 2. -/
def initFlash : Flash :=
  { recipe := [], block := 1, asym := [0, 0], aoTrim := 0, training := [], lanes := [], seams := [], seamRecipe := [],
    failed := [], seqMarks := [0, 0, 0, 0], imageA := true }

/-- Power control at the end of DAWN. DESIGN CHOICE: assumption 2. -/
def initPwr : PwrSt :=
  { step := 12, done := [], retry := false, warmFails := [], pllAt := none, faultMode := 0, resumeStart := false, duskFrom := 0,
    duskStep := 0, duskDesc := none, afterStop := none, critical := false, ignoreWake := false, latched := [], blocked := false,
    dramKept := false, recordValid := true, present := true, supply := true, inserted := false, holding := false, freset := false,
    warned := [], limiting := false, watchdog := [0, 0, 0, 0], engineLost := [], flash := initFlash }

end Sys2Proof.Machine
end

