-- ==== Sys2Proof/Machine/Out.lean ====
section
/-! DEFINITION. What leaves the module, in order: the observable side of every command. -/

namespace Sys2Proof.Machine

/-- One thing that leaves the module at a cage, a connector or an Ethernet port. -/
inductive Out where
  /-- A ZLP ordered set at rate code 0 (R36). -/
  | orderedSet (port lane type arg1 arg2 : Nat)
  /-- A ZLP record (R37). -/
  | zlpRecord (port type seq : Nat) (bytes : List Byte)
  /-- TRAIN on a lane at a rate code (R36, R45). -/
  | train (port lane rate : Nat)
  /-- A framed downlink packet: type, sequence and body (R58 to R60). -/
  | zlpPacket (port type seq : Nat) (body : List Byte)
  /-- A TRIG block (R72). -/
  | trig (port number kind : Nat)
  /-- A SLEEP block (R54, R90). -/
  | sleep (port : Nat)
  /-- A LOOP block (R54, R97). -/
  | loop (port mode : Nat)
  /-- The downlink resumes at a rate and lane count (R91, R93). -/
  | resume (port rate lanes : Nat)
  /-- The PHY of a port is powered or not (R743). -/
  | phy (port : Nat) (on : Bool)
  /-- Low-power mode of a cage's module (R32). -/
  | cageLow (cage : Nat) (low : Bool)
  /-- An RDMA WRITE of a session (R513, R529). -/
  | rdmaWrite (sess key addr : Nat) (bytes : List Byte)
  /-- An RDMA READ request of a session (R529). -/
  | rdmaRead (sess key addr len : Nat)
  /-- An RDMA acknowledgement of the host's write, or an invalid-request NAK (R529). -/
  | rdmaAck (sess : Nat) (ok : Bool)
  /-- A management reply (R517, R522). -/
  | mgmt (port : Nat) (dest bytes : List Byte)
  /-- Pennants as a UDP datagram (R326). -/
  | datagram (dest : List Byte) (udp : Nat) (bytes : List Byte)
  /-- A congestion notification packet (R515). -/
  | cnp (sess : Nat)
  /-- A neighbour advertisement or ARP reply (R509). -/
  | neighbour (port : Nat) (target mac : List Byte)
  /-- An Ethernet frame sent as it stands: timed launch or bridging (R590, R601). -/
  | frame (port : Nat) (late : Bool) (bytes : List Byte)
  /-- An ensign frame (R604). -/
  | ensign (port : Nat) (bytes : List Byte)
  /-- A fabric message (R615 to R617). -/
  | fabric (port : Nat) (bytes : List Byte)
  /-- A PTP message (R570 to R581). -/
  | ptp (port type : Nat) (fields : List Int)
  /-- A level change of a TOUT (R584, R585). -/
  | tout (n : Nat) (level : Bool) (time : Nat)
  /-- Bridge outputs of an axis: enabled, coil current commands in mA (R666, R668). -/
  | coils (axis : Nat) (on : Bool) (a b : Int)
  /-- Marker output MK0 or MK1 (R794). -/
  | marker (axis : Nat) (on : Bool)
  /-- A supply is on or off (R688, R763, R764, R794): 0 motor bridges, 1 the module's supply, 2 the TOUT drivers. -/
  | power (what : Nat) (on : Bool)
  deriving DecidableEq, Repr

end Sys2Proof.Machine
end

