-- ==== Sys2Proof/Machine/State.lean ====
section
/-! DEFINITION. The state of the block, what stops a step, and the state after reset. -/

namespace Sys2Proof.Machine

/-- The cases of R780 that a command can meet; the manual calls them undefined behaviour and gives them no effect. The
tenth, lens models that are inconsistent with the real cameras (R206), is a matter of the world outside. -/
inductive UndefCase where
  | tagReuse | jobOverlap | rwpWrite | lineBeyondDeclared | revokeUnfenced | sineWhileMoving
  | crcReconfigured | tcOneStep | coordinatorMoved
  deriving DecidableEq, Repr

/-- Why a step stops. -/
inductive Fault where
  /-- A case that R780 calls undefined behaviour, raised by the meaning that meets it. Safe: the manual gives the
  machine no effect there, so nothing is claimed of it. -/
  | undefinedBehaviour (c : UndefCase)
  deriving DecidableEq, Repr

/-- Why a step is refused. -/
inductive Refusal where
  /-- The command has no meaning in this model. Raised by the dispatch alone. Safe. -/
  | notModelled (mnemonic : String)
  deriving DecidableEq, Repr

/-- The state of the module. `pending` is the queue of commands; every other field is the module's.
`clock` counts cycles of 1.6 ns (in NIGHT, of the always-on clock) and `frameTick` those since the last frame
boundary; `freeIdx` numbers the free values taken so far and is the model's own (assumption 3); `out` logs, in
order, all that has left the module. Tables list only instances that differ from their initial record. -/
structure State where
  pending : List Instr
  clock : Nat
  frameTick : Nat
  freeIdx : Nat
  out : List Out
  regs : Tbl Word
  latches : Latches
  ports : Tbl PortSt
  ctxs : Tbl CtxSt
  slices : Tbl SliceSt
  coders : Tbl Coder
  ring : RingSt
  jobs : List Job
  seam : SeamSt
  pen : PenSt
  jnl : JnlSt
  ovw : OvwSt
  mem : MemSt
  pln : PlnSt
  sess : Tbl Sess
  eths : Tbl EthSt
  tim : TimSt
  fab : FabSt
  encs : Tbl EncSt
  dividers : Tbl Int
  axes : Tbl AxSt
  evt : EvtSt
  crcs : Tbl CrcSt
  cal : CalSt
  pwr : PwrSt
  statHeld : Tbl (List (List Byte))
  zeroLatched : Bool
  deriving DecidableEq, Repr

/-- The module on completion of DAWN, in MORNING, as shipped: no plan, no camera, no session, no key; every
register at its Cold value (R17, R746). DESIGN CHOICE: assumption 2. -/
def State.reset : State :=
  { pending := [], clock := 0, frameTick := 0, freeIdx := 0, out := [], regs := [], latches := [], ports := [],
    ctxs := [], slices := [], coders := [], ring := initRing, jobs := [], seam := initSeam, pen := initPen,
    jnl := initJnl, ovw := initOvw, mem := initMem, pln := initPln, sess := [], eths := [], tim := initTim,
    fab := initFab, encs := [], dividers := [], axes := [], evt := initEvt, crcs := [], cal := initCal,
    pwr := initPwr, statHeld := [], zeroLatched := false }

end Sys2Proof.Machine
end

