-- ==== Sys2Proof/Machine/Ops.lean ====
section
/-! DEFINITION. The named operations over registers, indexed records, time and free values. Every meaning goes
through them. -/

namespace Sys2Proof.Machine

/-! ### Registers -/

/-- The word at byte address `a` as the module holds it (R808). -/
def State.reg (s : State) (a : Nat) : Word := tblGet s.regs (coldWord a) a

/-- Store a word at byte address `a`. -/
def State.setReg (s : State) (a : Nat) (v : Word) : State := { s with regs := tblSet s.regs (coldWord a) a v }

/-- The value of a register field. -/
def State.fld (s : State) (f : Fld) : Nat := getBits (s.reg f.addr) f.lo f.width

/-- Store the low bits of `v` in a register field; the word's other bits keep their value. -/
def State.setFld (s : State) (f : Fld) (v : Nat) : State := s.setReg f.addr (setBits (s.reg f.addr) f.lo f.width v)

/-- A one-bit field read as a flag. -/
def State.flag (s : State) (f : Fld) : Bool := s.fld f = 1

/-- Store a flag. -/
def State.setFlag (s : State) (f : Fld) (b : Bool) : State := s.setFld f (b2n b)

/-- Raise a counter field by `n`, saturating at its largest value (R102). -/
def State.bump (s : State) (f : Fld) (n : Nat) : State := s.setFld f (min (s.fld f + n) (2 ^ f.width - 1))

/-- A pair of LO and HI registers as one unsigned number. -/
def State.get64 (s : State) (lo : Nat) : Nat := (s.reg lo).toNat + 2 ^ 32 * (s.reg (lo + 4)).toNat

/-- Store the low 64 bits of `v` in a LO and HI pair. -/
def State.set64 (s : State) (lo v : Nat) : State :=
  (s.setReg lo (BitVec.ofNat 32 v)).setReg (lo + 4) (BitVec.ofNat 32 (v / 2 ^ 32))

/-- A LO and HI pair as a signed number. -/
def State.getInt64 (s : State) (lo : Nat) : Int := toSigned 64 (s.get64 lo)

/-- Store a signed number in a LO and HI pair. -/
def State.setInt64 (s : State) (lo : Nat) (v : Int) : State := s.set64 lo (ofSigned 64 v)

/-- A field read as a signed number. -/
def State.fldInt (s : State) (f : Fld) : Int := toSigned f.width (s.fld f)

/-- Store a signed number in a field, two's complement. -/
def State.setFldInt (s : State) (f : Fld) (v : Int) : State := s.setFld f (ofSigned f.width v)

/-! ### What leaves the module -/

/-- Something leaves the module. -/
def State.emit (s : State) (o : Out) : State := { s with out := s.out ++ [o] }

/-- Several things leave the module, in order. DESIGN CHOICE: assumption 114. -/
def State.emits (s : State) (os : List Out) : State := { s with out := s.out ++ os }

/-! ### Indexed records -/

/-- Camera port `p`. -/
def State.port (s : State) (p : Nat) : PortSt := tblGet s.ports initPort p
/-- Replace camera port `p`. -/
def State.setPort (s : State) (p : Nat) (v : PortSt) : State := { s with ports := tblSet s.ports initPort p v }
/-- Context `c`. -/
def State.ctx (s : State) (c : Nat) : CtxSt := tblGet s.ctxs initCtx c
/-- Replace context `c`. -/
def State.setCtx (s : State) (c : Nat) (v : CtxSt) : State := { s with ctxs := tblSet s.ctxs initCtx c v }
/-- Slice `k`. -/
def State.slice (s : State) (k : Nat) : SliceSt := tblGet s.slices initSlice k
/-- Replace slice `k`. -/
def State.setSlice (s : State) (k : Nat) (v : SliceSt) : State := { s with slices := tblSet s.slices initSlice k v }
/-- The coder of context `c`. -/
def State.coder (s : State) (c : Nat) : Coder := tblGet s.coders initCoder c
/-- Replace the coder of context `c`. -/
def State.setCoder (s : State) (c : Nat) (v : Coder) : State := { s with coders := tblSet s.coders initCoder c v }
/-- DRAM channel `m`. -/
def State.mc (s : State) (m : Nat) : McSt := tblGet s.mem.chans initMc m
/-- Replace DRAM channel `m`. -/
def State.setMc (s : State) (m : Nat) (v : McSt) : State :=
  { s with mem := { s.mem with chans := tblSet s.mem.chans initMc m v } }
/-- Session `n`. -/
def State.session (s : State) (n : Nat) : Sess := tblGet s.sess initSess n
/-- Replace session `n`. -/
def State.setSession (s : State) (n : Nat) (v : Sess) : State := { s with sess := tblSet s.sess initSess n v }
/-- Ethernet port `e`. -/
def State.eth (s : State) (e : Nat) : EthSt := tblGet s.eths initEth e
/-- Replace Ethernet port `e`. -/
def State.setEth (s : State) (e : Nat) (v : EthSt) : State := { s with eths := tblSet s.eths initEth e v }
/-- Feedback channel `k`. -/
def State.enc (s : State) (k : Nat) : EncSt := tblGet s.encs initEnc k
/-- Replace feedback channel `k`. -/
def State.setEnc (s : State) (k : Nat) (v : EncSt) : State := { s with encs := tblSet s.encs initEnc k v }
/-- The divider accumulator of port `p` (R656). -/
def State.divider (s : State) (p : Nat) : Int := tblGet s.dividers 0 p
/-- Replace the divider accumulator of port `p`. -/
def State.setDivider (s : State) (p : Nat) (v : Int) : State := { s with dividers := tblSet s.dividers 0 p v }
/-- Marker axis `x`. -/
def State.ax (s : State) (x : Nat) : AxSt := tblGet s.axes initAx x
/-- Replace marker axis `x`. -/
def State.setAx (s : State) (x : Nat) (v : AxSt) : State := { s with axes := tblSet s.axes initAx x v }
/-- Check-value unit `u`. -/
def State.crc (s : State) (u : Nat) : CrcSt := tblGet s.crcs initCrc u
/-- Replace check-value unit `u`. -/
def State.setCrc (s : State) (u : Nat) (v : CrcSt) : State := { s with crcs := tblSet s.crcs initCrc u v }
/-- Timed output `t`. -/
def State.tout (s : State) (t : Nat) : ToutSt := tblGet s.tim.touts initTout t
/-- Replace timed output `t`. -/
def State.setTout (s : State) (t : Nat) (v : ToutSt) : State :=
  { s with tim := { s.tim with touts := tblSet s.tim.touts initTout t v } }
/-- Launch queue `q` of Ethernet port `e` (R590). -/
def State.queue (s : State) (e q : Nat) : List Launch := tblGet s.tim.queues [] (8 * e + q)
/-- Replace launch queue `q` of Ethernet port `e`. -/
def State.setQueue (s : State) (e q : Nat) (v : List Launch) : State :=
  { s with tim := { s.tim with queues := tblSet s.tim.queues [] (8 * e + q) v } }
/-- PTP state of Ethernet port `e`. -/
def State.ptp (s : State) (e : Nat) : PtpPort := tblGet s.tim.ports initPtp e
/-- Replace the PTP state of Ethernet port `e`. -/
def State.setPtp (s : State) (e : Nat) (v : PtpPort) : State :=
  { s with tim := { s.tim with ports := tblSet s.tim.ports initPtp e v } }
/-- Logic cell `l`. -/
def State.cell (s : State) (l : Nat) : CellSt := tblGet s.evt.cells initCell l
/-- Replace logic cell `l`. -/
def State.setCell (s : State) (l : Nat) (v : CellSt) : State :=
  { s with evt := { s.evt with cells := tblSet s.evt.cells initCell l v } }

/-! ### Time -/

/-- Units of `TimSt.tai` in one nanosecond. -/
def taiUnit : Nat := 5 * 2 ^ 48

/-- TAI time in whole nanoseconds (R567). -/
def State.taiNs (s : State) : Nat := s.tim.tai / taiUnit

/-- TAI time in 1/65 536 ns, quantised to 0.4 ns (R568), with `sub` further steps of 0.4 ns. -/
def State.taiFine (s : State) (sub : Nat) : Int := ((s.tim.tai / (2 * 2 ^ 48) + sub) * 2 * 65536 / 5 : Nat)

/-- Cycles of 1.6 ns in a schedule frame of 124.8 µs (R407). -/
def frameCycles : Nat := 78000

/-- Cycles of 1.6 ns in `us` microseconds. -/
def cyclesOfUs (us : Nat) : Nat := us * 625

/-- The frame number since the last start (R425). -/
def State.frameNo (s : State) : Nat := s.get64 plnFrameLo

/-! ### Free values -/

/-- The next free value below `bound`, and the state that has taken it. DESIGN CHOICE: assumption 3. -/
def State.takeFree (s : State) (bound : Nat) : Nat × State :=
  (Config.freeNat s.freeIdx % bound, { s with freeIdx := s.freeIdx + 1 })

/-! ### Modes -/

/-- The present mode, numbered in the order of R26. -/
def State.mode (s : State) : Nat := s.fld pwrModeMode

/-- NOON or AFTERNOON: the module inspects. -/
def State.inspecting (s : State) : Bool := s.mode = 4 || s.mode = 5

/-- The live plan's entry for context `c`, where the context is in service. -/
def State.ctxPlan (s : State) (c : Nat) : Option CtxPlan :=
  match s.pln.plan with
  | none => none
  | some p => (p.ctxs.find? (fun e => decide (e.1 = c))).map (·.2)

/-- The live plan's entry for the camera of port `p`. -/
def State.camPlan (s : State) (p : Nat) : Option CamPlan :=
  match s.pln.plan with
  | none => none
  | some pl => (pl.cams.find? (fun e => decide (e.1 = p))).map (·.2)

/-- The entry of key `k` of a plan's table. -/
def planEntry {α : Type} (t : Tbl α) (k : Nat) : Option α := (t.find? (fun e => decide (e.1 = k))).map (·.2)

/-- The contexts that the live plan has in service, in rising order. -/
def State.liveCtxs (s : State) : List Nat :=
  match s.pln.plan with
  | none => []
  | some p => p.ctxs.map (·.1)

/-- The reference web encoder of the live plan (R392); channel 0 without a plan. -/
def State.refEnc (s : State) : Nat := match s.pln.plan with | none => 0 | some p => p.refEnc

/-- The extended position of feedback channel `k` for its present count (R645). -/
def State.encPos (s : State) (k : Nat) : Int :=
  let e := s.enc k
  e.base + toSigned 32 (ofSigned 32 ((s.fld (encCountF k) : Int) - (e.rawBase : Int)))

/-- E_zero (R197). -/
def State.zero (s : State) : Int := s.getInt64 gegZeroLo

/-- The down-web position of the reference scan line in nm: rnd((E − E_zero) × S, 32) (R198, R309). -/
def State.webPos (s : State) : Int :=
  let sc := match s.pln.plan with | none => 0 | some p => p.scale
  rnd ((s.encPos s.refEnc - s.zero) * sc) 32

end Sys2Proof.Machine
end

