-- ==== Sys2Proof/Machine/Flags.lean ====
section
/-! DEFINITION. Every flag computation that blocks share: event sources and their EVENTS bits (R698, R699),
notices in status registers, the copies of SYS_STATUS (R815). -/

namespace Sys2Proof.Machine

/-- The EVENTS bit of source `n` (R698): register and bit; logic cells and check units have none. -/
def eventBit (n : Nat) : Option Fld :=
  if n < 96 then some ⟨zlpEvents (n / 8), n % 8, 1⟩
  else if n < 144 then some ⟨ctxEvents ((n - 96) / 4), (n - 96) % 4, 1⟩
  else if n < 152 then some ⟨ovwEvents, n - 144, 1⟩
  else if n < 160 then some ⟨semEvents, n - 152, 1⟩
  else if n < 168 then some ⟨penEvents, n - 160, 1⟩
  else if n < 184 then some ⟨cmpEvents, n - 168, 1⟩
  else if n < 248 then some ⟨mcEvents ((n - 184) / 4), (n - 184) % 4, 1⟩
  else if n < 264 then some ⟨hspPortEvents ((n - 248) / 8), (n - 248) % 8, 1⟩
  else if n < 288 then some ⟨timEvents, n - 264, 1⟩
  else if n < 296 then some ⟨fabEvents, n - 288, 1⟩
  else if n < 320 then some ⟨encEvents ((n - 296) / 6), (n - 296) % 6, 1⟩
  else if n < 340 then some ⟨axEvents ((n - 320) / 10), (n - 320) % 10, 1⟩
  else if n < 380 then none
  else if n < 392 then some ⟨pwrEvents, n - 380, 1⟩
  else if n < 400 then some ⟨hstEvents, n - 392, 1⟩
  else if n < 408 then some ⟨jnlEvents, n - 400, 1⟩
  else none

/-- The enabled channels that carry source `n` (R700, R701), in rising order. -/
def State.channelsOf (s : State) (n : Nat) : List Nat :=
  s.regs.filterMap (fun e =>
    if 0x12000 ≤ e.1 ∧ e.1 < 0x12400 ∧ e.1 % 16 = 0 ∧ getBits e.2 21 1 = 1 ∧ getBits e.2 0 9 = n then
      some ((e.1 - 0x12000) / 16)
    else none)

/-- Source `n` fires with a hop count and a time (R699): its EVENTS bit is set, and each enabled channel of the
source takes the event on its way. -/
def State.fireAt (s : State) (n hop time : Nat) : State :=
  let s1 := match eventBit n with
    | some f => s.setFld f 1
    | none => s
  let fs : List Flight := (s.channelsOf n).map (fun v => ⟨v, n, time, hop, s.clock, false, false⟩)
  { s1 with evt := { s1.evt with flights := s1.evt.flights ++ fs } }

/-- Source `n` fires now with hop count 0 (R699). -/
def State.fire (s : State) (n : Nat) : State := s.fireAt n 0 s.taiNs

/-- Fire where a condition arises. -/
def State.fireIf (s : State) (b : Bool) (n : Nat) : State := if b then s.fire n else s

/-- A camera port's NOTICE (R99). -/
def State.notice (s : State) (p cause : Nat) : State := s.setFld (zlpStatusNotice p) cause

/-- A context's ALERT (R138) and its CONTEXT_ALERT event (source 3 of R142). -/
def State.alert (s : State) (c cause : Nat) : State := (s.setFld (ctxStatusAlert c) cause).fire (96 + 4 * c + 3)

/-- A DRAM channel's ALERT and CHANNEL_NOTICE (R457, R463). -/
def State.mcAlert (s : State) (m cause : Nat) : State := (s.setFld (mcStatusAlert m) cause).fire (184 + 4 * m + 3)

/-- The resource claim table's key of R713: kind 0 TOUT, 1 compare unit, 2 cell, 3 timed-frame queue. -/
def claimKey (kind index : Nat) : Nat := 32 * kind + index

/-- The owner of a resource, if any (R713). -/
def State.claimOf (s : State) (kind index : Nat) : Option Nat :=
  let v := tblGet s.evt.claims 0 (claimKey kind index)
  if v = 0 then none else some (v - 1)

/-- Record an owner, or none. -/
def State.setClaim (s : State) (kind index : Nat) (o : Option Nat) : State :=
  let v := match o with | none => 0 | some v => v + 1
  { s with evt := { s.evt with claims := tblSet s.evt.claims 0 (claimKey kind index) v } }

/-- EVT_CONFLICT after a claim that fails (R714, R724). -/
def State.conflict (s : State) (kind index owner claimant : Nat) : State :=
  (((((s.setFld evtConflictConflict 1).setFld evtConflictKind kind).setFld evtConflictIndex index).setFld
    evtConflictOwner owner).setFld evtConflictClaimant claimant)

/-- A channel is disabled, UNPROTECTED or has an ALERT (MEMORY_NOTICE of R815). -/
def State.memoryNotice (s : State) : Bool :=
  (List.range 16).any (fun m => s.fld (mcStatusState m) = 0 || s.flag (mcStatusUnprotected m) || s.fld (mcStatusAlert m) ≠ 0)

/-- A port in the plan is degraded, changed or not LINKED (PORT_NOTICE of R815); state 6 is LINKED (R99). -/
def State.portNotice (s : State) : Bool :=
  s.liveCtxs.any (fun p => s.flag (zlpStatusDegraded p) || s.flag (zlpStatusCameraChanged p) || s.fld (zlpStatusState p) ≠ 6)

/-- SYS_STATUS (R815): copies and summaries of other blocks' fields. DESIGN CHOICE: assumption 9. -/
def State.sysStatus (s : State) : Word :=
  BitVec.ofNat 32 (s.mode + 8 * s.fld plnStatusFallbacksReady + 16 * s.fld plnStatusOnFallback +
    32 * (s.fld hstKeysProvisioned % 2) + 64 * b2n (s.fld pwrStartFailMode ≠ 0) +
    128 * s.fld pwrStatusThermalWarn + 256 * b2n s.memoryNotice + 512 * b2n s.portNotice +
    1024 * b2n (s.fld timStatusServo = 2) +
    2048 * b2n (s.flag fabStatusRingDetected || s.flag fabStatusMismatch) + 4096 * s.fld pwrStatusImageB)

end Sys2Proof.Machine
end

