-- ==== Sys2Proof/Machine/Hostlink.lean ====
section
/-! DEFINITION. The host side shared by every block: host windows and their translation (R464 to R472), RDMA
messages (R513, R529), the work journal (R481 to R488), rings in host memory (R536 to R544), completions
(R556, R542) and event records (R559, R560). -/

namespace Sys2Proof.Machine

/-! ### Device addresses and windows -/

/-- A host-space device address (R464): session, window, offset. -/
def devSess (a : Nat) : Nat := a / 2 ^ 45 % 4
/-- The window of a host-space device address. -/
def devWin (a : Nat) : Nat := a / 2 ^ 40 % 32
/-- The offset of a host-space device address. -/
def devOff (a : Nat) : Nat := a % 2 ^ 40
/-- Bit 47 selects the host space. -/
def devHost (a : Nat) : Bool := bitAt a 47
/-- The device address of a session, window and offset. -/
def devAddr (n w o : Nat) : Nat := 2 ^ 47 + n * 2 ^ 45 + w * 2 ^ 40 + o

/-- The session is open (R561). -/
def State.isOpen (s : State) (n : Nat) : Bool := s.fld (hssSessionState n) = 1

/-- Window `w` of session `n`; window 0 is the ring window of the session's OPEN (R532). -/
def State.window (s : State) (n w : Nat) : Option Window :=
  if w = 0 then
    if s.get64 (hrbWinLenLo n) = 0 then none
    else some { base := s.get64 (hrbWinBaseLo n), len := s.get64 (hrbWinLenLo n), key := s.fld (hrbWinKeyF n),
                linear := true, flags := 3, pages := [], fenced := false }
  else
    let v := tblGet (s.session n).windows initWindow w
    if v.len = 0 then none else some v

/-- The page entry of R466 for page `p` of a window: what MAP wrote, over the entries that a linear window starts with (R555). -/
def Window.entry (w : Window) (p : Nat) : Nat :=
  tblGet w.pages (if w.linear then 1 + 2 * (w.flags % 4) + w.base + 65536 * p else 0) p

/-- The translation-fault cause of R471 at byte `o` of a window, 0 where it translates. -/
def xlateCause (w : Option Window) (o : Nat) (write : Bool) : Nat :=
  match w with
  | none => 6
  | some v =>
    if v.fenced then 4
    else if v.len ≤ o then 3
    else
      let e := v.entry (o / 65536)
      if ¬ bitAt e 0 then 1
      else if ¬ bitAt e (if write then 2 else 1) then 2
      else 0

/-- The pieces of a transfer, page by page (R466, R468): remote address and length of each, and the cause and
offset of the fault that ends it. -/
def xlateSpans (w : Option Window) (write : Bool) : Nat → Nat → Nat → List (Nat × Nat) × Option (Nat × Nat)
  | 0, _, _ => ([], none)
  | fuel + 1, o, len =>
    if len = 0 then ([], none)
    else match xlateCause w o write, w with
    | 0, some v =>
      let n := min len (65536 - o % 65536)
      let r := xlateSpans w write fuel (o + n) (len - n)
      ((v.entry (o / 65536) / 65536 * 65536 + o % 65536, n) :: r.1, r.2)
    | c, _ => ([], some (c, o))

/-- The pieces of a transfer of `len` bytes. -/
def State.spans (s : State) (n w o len : Nat) (write : Bool) : List (Nat × Nat) × Option (Nat × Nat) :=
  xlateSpans (s.window n w) write (len / 65536 + 2) o len

/-- Cut a byte string at every 4 096 bytes (R513). -/
def cutMessages : Nat → Nat → List Byte → List (Nat × List Byte)
  | 0, _, _ => []
  | fuel + 1, a, bs =>
    if bs = [] then [] else (a, bs.take 4096) :: cutMessages fuel (a + 4096) (bs.drop 4096)

/-- Post one RDMA operation of `len` bytes on a session's queue pair: a packet for every 4 096 bytes (R529). -/
def State.postOp (s : State) (n len : Nat) (data : List Byte) (read : Option ReadFor) (w o who job : Nat) : State :=
  let ss := s.session n
  let p := (ss.qp.psn + (len + 4095) / 4096) % 2 ^ 24
  let op : RdmaOp := ⟨p, len, data, read, w, o, who, job⟩
  s.setSession n { ss with qp := { ss.qp with psn := p, ops := ss.qp.ops ++ [op] } }

/-- The remote key of a window. -/
def State.winKey (s : State) (n w : Nat) : Nat := match s.window n w with | none => 0 | some v => v.key

/-- Write bytes at one translated piece, message by message. -/
def State.writePiece (s : State) (n w o who job addr : Nat) (bs : List Byte) : State :=
  (cutMessages (bs.length / 4096 + 1) addr bs).foldl (fun s m =>
    (s.emit (.rdmaWrite n (s.winKey n w) m.1 m.2)).postOp n m.2.length m.2 none w (o + (m.1 - addr)) who job) s

/-- Write the pieces of a transfer in order. -/
def State.writePieces (s : State) (n w who job : Nat) : Nat → List (Nat × Nat) → List Byte → State
  | _, [], _ => s
  | o, (a, len) :: r, bs =>
    (s.writePiece n w o who job a (bs.take len)).writePieces n w who job (o + len) r (bs.drop len)

/-- Record a translation fault (R472, R503): JNL_XFAULT, its counter and XLATE_FAULT. -/
def State.xfault (s : State) (n w o cause who : Nat) : State :=
  let s := (((((s.setFld jnlXfaultValid 1).setFld jnlXfaultSession n).setFld jnlXfaultWindow w).setFld
    jnlXfaultCause cause).setFld jnlXfaultRequester who)
  (((s.setReg jnlXfaultOffLo (BitVec.ofNat 32 o)).setFld jnlXfaultOffHiF (o / 2 ^ 32)).bump jnlCntXfaultF 1).fire 400

/-- A write to a session that is lost or held waits for it (R533). -/
def State.holdWrite (s : State) (n w o who job : Nat) (bs : List Byte) : State :=
  let ss := s.session n
  if bs = [] then s else s.setSession n { ss with heldWrites := ss.heldWrites ++ [⟨w, o, who, job, bs⟩] }

/-- RDMA WRITE of bytes at a host-space device address (R466, R468, R472): no byte at or beyond a faulting page
is written; the fault, if any, is recorded and returned. -/
def State.hostWrite (s : State) (dev : Nat) (bs : List Byte) (who job : Nat) : State × Option (Nat × Nat) :=
  let n := devSess dev; let w := devWin dev
  let sp := s.spans n w (devOff dev) bs.length true
  let s1 := if s.flag (hssSessionResumable n) then s.holdWrite n w (devOff dev) who job (bs.take ((sp.1.map Prod.snd).foldl (· + ·) 0))
    else s.writePieces n w who job (devOff dev) sp.1 bs
  match sp.2 with
  | none => (s1, none)
  | some (c, o) => (s1.xfault n w o c who, some (c, o))

/-- RDMA READ of `len` bytes at a host-space device address: one request per page piece, or the fault. The requests of a session
that is lost or held leave when it resumes. DESIGN CHOICE: assumption 115. -/
def State.hostRead (s : State) (dev len : Nat) (why : ReadFor) (who job : Nat) : State × Option (Nat × Nat) :=
  let n := devSess dev; let w := devWin dev
  let sp := s.spans n w (devOff dev) len false
  match sp.2 with
  | some (c, o) => (s.xfault n w o c who, some (c, o))
  | none =>
    let s1 := if s.flag (hssSessionResumable n) then s else sp.1.foldl (fun s p => s.emit (.rdmaRead n (s.winKey n w) p.1 p.2)) s
    (s1.postOp n len [] (some why) w (devOff dev) who job, none)

/-! ### Journal -/

/-- Free journal space in MB, and FULL (R488, R501): set below 64 MB, cleared above 128 MB. -/
def State.jnlSpace (s : State) (freeBytes : Nat) : State :=
  let mb := freeBytes / 2 ^ 20
  let s := ({ s with jnl := { s.jnl with freeBytes := freeBytes } }).setFld jnlFreeF mb
  if mb < 64 ∧ ¬ s.flag jnlStatusFull then
    let s := (s.setFld jnlStatusFull 1).fire 404
    (List.range 4).foldl (fun s n =>
      if s.isOpen n ∧ s.fld (hssSessionStopped n) = 0 then (s.setFld (hssSessionStopped n) 3).fire 399 else s) s
  else if 128 < mb ∧ s.flag jnlStatusFull then
    let s := s.setFld jnlStatusFull 0
    (List.range 4).foldl (fun s n => if s.fld (hssSessionStopped n) = 3 then s.setFld (hssSessionStopped n) 0 else s) s
  else s

/-- Bytes an entry takes in each copy: 64 and its payload in units of 64 (R481). -/
def entrySize (payload : List Byte) : Nat := 64 + 64 * ((payload.length + 63) / 64)

/-- Write a journal entry (R481, R482); it becomes durable at JOURNAL_DURABLE. -/
def State.journal (s : State) (ty sess ctx : Nat) (fields : List Nat) (payload : List Byte) : State :=
  let e : JEntry := ⟨s.jnl.next, ty, sess, ctx, s.fld plnPlanIdF, s.taiNs, fields, payload, false⟩
  let s1 := { s with jnl := { s.jnl with entries := s.jnl.entries ++ [e], next := s.jnl.next + 1, valid := true } }
  s1.jnlSpace (s.jnl.freeBytes - entrySize payload)

/-- A FAULT entry of the catalogue (R774): kind, resource, frame, time. -/
def State.faultEntry (s : State) (kind resource : Nat) : State :=
  s.journal 0x0A 0xFF 0xFF [kind, resource, s.frameNo, s.taiNs] []

/-! ### Rings in host memory -/

/-- Ring `r` of session `n` (R536). -/
def State.hring (s : State) (n r : Nat) : HRing := tblGet (s.session n).rings initHRing r

/-- Replace ring `r` of session `n`. -/
def State.setHring (s : State) (n r : Nat) (v : HRing) : State :=
  let ss := s.session n
  s.setSession n { ss with rings := tblSet ss.rings initHRing r v }

/-- Free slots of a ring (R537). -/
def HRing.free (h : HRing) : Nat := h.entries - (h.prod - h.cons)

/-- The alive counter of entry `i` of a ring of `n` entries (R540). -/
def aliveOf (i n : Nat) : Nat := (i % 2 ^ 32 / n + 1) % 16

/-- The slot of entry `i` (R537): indices wrap at 2^32. -/
def slotOf (i n : Nat) : Nat := i % 2 ^ 32 % n

/-- The module-owned index of ring `r` in the session's registers and index block (R538, R562). -/
def State.mirror (s : State) (n r : Nat) : State :=
  let h := s.hring n r
  let v := if r = 0 then h.cons else h.prod
  let s := if r = 0 then s.setFld (hssCmdConsF n) v else if r = 1 then s.setFld (hssCplProdF n) v else s
  (s.hostWrite (devAddr n 0 (s.fld (hrbIndexOffF n) + 4 * r)) (leBytes 4 v) (if r = 0 then 7 else if r = 1 then 8 else 9) 0).1

/-- Write an entry into the next slot of ring `r` and move its producer index (R537, R538). The caller has seen
a free slot. -/
def State.ringPut (s : State) (n r : Nat) (bs : List Byte) (who job : Nat) : State × Option (Nat × Nat) :=
  let h := s.hring n r
  let w := s.hostWrite (h.addr + h.unit * slotOf h.prod h.entries) bs who job
  match w.2 with
  | some f => (w.1, some f)
  | none => ((w.1.setHring n r { w.1.hring n r with prod := h.prod + 1 }).mirror n r, none)

/-! ### Completions -/

/-- The 128 bytes of a completion (R556). -/
def cplBytes (d : List Byte) (status alive idx : Nat) (result : List Byte) : List Byte :=
  let h := slice d 2 2 ++ slice d 0 1 ++ leBytes 1 status ++ leBytes 1 alive ++ leBytes 3 0 ++ slice d 8 8 ++
    leBytes 4 idx ++ leBytes 4 0 ++ slice result 0 100
  h ++ leBytes 4 (crc32c h).toNat

/-- The session's rings are stopped by a translation fault (R472). -/
def State.stopRings (s : State) (n : Nat) : State := (s.setFld (hssSessionStopped n) 2).fireIf (s.fld (hssSessionStopped n) = 0) 399

/-- Write held completions into free slots, in order (R542). -/
def State.flushCpl (s : State) (n : Nat) : Nat → State
  | 0 => s
  | fuel + 1 =>
    let ss := s.session n
    match ss.heldCpl with
    | [] => if s.fld (hssSessionStopped n) = 1 then s.setFld (hssSessionStopped n) 0 else s
    | c :: r =>
      if ¬ s.isOpen n ∨ s.fld (hssSessionStopped n) = 2 then s
      else if (s.hring n 1).free = 0 then
        if s.fld (hssSessionStopped n) = 0 then ((s.setFld (hssSessionStopped n) 1).fire 398).fire 399 else s
      else
        let w := s.ringPut n 1 c 8 0
        match w.2 with
        | some _ => w.1.stopRings n
        | none => (w.1.setSession n { w.1.session n with heldCpl := r }).flushCpl n fuel

/-- Descriptor `idx` of session `n`, while it is outstanding (R552). -/
def State.desc (s : State) (n idx : Nat) : Option OutDesc :=
  (s.session n).descs.find? (fun d => decide (d.idx = idx))

/-- Journal a completion and hold it until its entry is durable (R484); a stale one is discarded (R554). -/
def State.sendCpl (s : State) (n : Nat) (d : OutDesc) (status : Nat) (result : List Byte) : State :=
  if d.stale then (s.bump (hssCntStaleF n) 1).fire 397
  else
    let ss := s.session n
    let h := s.hring n 1
    let i := h.prod + ss.heldCpl.length + ss.waitCpl.length
    let bs := cplBytes d.bytes status (aliveOf i h.entries) d.idx result
    let num := s.jnl.next
    let s := s.journal 0x02 n 0xFF [slotOf i h.entries] bs
    let ss := s.session n
    s.setSession n { ss with waitCpl := ss.waitCpl ++ [(num, bs)] }

/-! ### Descriptor fetch -/

/-- Ask for the next descriptors of session `n` where R552, R542 and R488 let it: at most 32, at most to the end
of the ring, while fewer than 256 are outstanding. -/
def State.kickFetch (s : State) (n : Nat) : State :=
  let ss := s.session n
  let h := s.hring n 0
  let count := min (min 32 (h.prod - h.cons)) (min (256 - ss.descs.length) (h.entries - slotOf h.cons h.entries))
  if ¬ s.isOpen n ∨ ss.fetching ∨ ss.refetch ≠ none ∨ (s.fld (hssSessionStopped n) ≠ 0 ∧ s.fld (hssSessionStopped n) ≠ 4) ∨ count = 0 ∨ h.entries = 0 then s
  else
    let w := s.hostRead (h.addr + h.unit * slotOf h.cons h.entries) (128 * count) (.descriptors h.cons count) 7 0
    match w.2 with
    | some _ => w.1.stopRings n
    | none => w.1.setSession n { w.1.session n with fetching := true }

/-- Complete descriptor `idx` of session `n` (R552, R556): it is no longer outstanding. -/
def State.finishDesc (s : State) (n idx status : Nat) (result : List Byte) : State :=
  match s.desc n idx with
  | none => s
  | some d =>
    let ss := s.session n
    let ds := ss.descs.filter (fun e => decide (e.idx ≠ idx))
    let s := (s.setSession n { ss with descs := ds }).setFld (hssOutstandingF n) ds.length
    let s := s.fireIf (status = 1 ∨ status = 2) 395
    (s.sendCpl n d status result).kickFetch n

/-- Mark a descriptor as started (R553). -/
def State.startDesc (s : State) (n idx : Nat) : State :=
  let ss := s.session n
  s.setSession n { ss with descs := ss.descs.map (fun d => if d.idx = idx then { d with started := true } else d) }

/-! ### Event records -/

/-- The 32 bytes of an event record before its alive counter and CRC (R559). -/
def evtRaw (src chan flags time arg : Nat) : List Byte :=
  leBytes 2 src ++ leBytes 1 chan ++ leBytes 1 flags ++ leBytes 4 0 ++ leBytes 8 time ++ leBytes 8 arg ++ leBytes 8 0

/-- The record with DROPPED_BEFORE, its alive counter and its CRC in place. -/
def evtSeal (raw : List Byte) (dropped : Bool) (alive : Nat) : List Byte :=
  let h := slice raw 0 3 ++ leBytes 1 (leAt raw 3 1 + 4 * b2n dropped) ++ leBytes 1 alive ++ slice raw 5 23
  h ++ leBytes 4 (crc32c h).toNat

/-- Write held event records into free slots (R542). -/
def State.flushEvt (s : State) (n : Nat) : Nat → State
  | 0 => s
  | fuel + 1 =>
    let ss := s.session n
    match ss.heldEvt with
    | [] => s
    | e :: r =>
      if ¬ s.isOpen n ∨ s.fld (hssSessionStopped n) = 2 then s
      else
        let h := s.hring n 2
        if h.free = 0 then s
        else
          let w := s.ringPut n 2 (evtSeal e ss.dropped (aliveOf h.prod h.entries)) 9 0
          match w.2 with
          | some _ => w.1.stopRings n
          | none => (w.1.setSession n { w.1.session n with heldEvt := r, dropped := false }).flushEvt n fuel

/-- Hand an event record to a session's event ring (R542, R559): 4 096 held on die, further ones dropped. -/
def State.eventTo (s : State) (n : Nat) (raw : List Byte) : State :=
  let ss := s.session n
  if 4096 ≤ ss.heldEvt.length then
    (s.setSession n { ss with dropped := true }).bump (hssCntEventDroppedF n) 1
  else
    let full := s.isOpen n && decide ((s.hring n 2).free = 0) && ss.heldEvt.isEmpty
    ((s.setSession n { ss with heldEvt := ss.heldEvt ++ [raw] }).fireIf full 398).flushEvt n 4096

/-- A firmware notice to the event ring of every open session (R560). -/
def State.noticeAll (s : State) (code chan arg : Nat) : State :=
  (List.range 4).foldl (fun s n => if s.isOpen n then s.eventTo n (evtRaw code chan 0 s.taiNs arg) else s) s

/-- Enter a mode (R746): PWR_MODE, MODE_CHANGED and notice 0x8003. -/
def State.enterMode (s : State) (m : Nat) : State :=
  if s.mode = m then s
  else ((((s.setFld pwrModePrevious s.mode).setFld pwrModeMode m).fire 380).noticeAll 0x8003 0xFF m)

end Sys2Proof.Machine
end

