-- ==== Sys2Proof/Machine/CalEnd.lean ====
section
/-! DEFINITION. How a calibration ends (R557, R726 to R729, R740), for every block that can end one. -/

namespace Sys2Proof.Machine

/-- A calibration under way of a kind on a target (R727). -/
def State.calRun (s : State) (kind target : Nat) : Option CalRun := s.cal.runs.find? (fun r => decide (r.kind = kind ∧ r.target = target))

/-- Put a calibration's new data in place. -/
def State.setCalRun (s : State) (kind target : Nat) (f : CalRun → CalRun) : State :=
  { s with cal := { s.cal with runs := s.cal.runs.map (fun r => if r.kind = kind ∧ r.target = target then f r else r) } }

/-- A calibration leaves the list of those under way, and CAL_LAST names it (R740). -/
def State.calGone (s : State) (kind target : Nat) (pass : Bool) : State :=
  let s := { s with cal := { s.cal with runs := s.cal.runs.filter (fun r => !decide (r.kind = kind ∧ r.target = target)) } }
  (s.setFld calLastKind kind).setFlag calLastPass pass

/-- The result fields of CALIBRATE (R557, R728): quality figure with PASS in bit 63, interruption in µs. -/
def calResult (pass : Bool) (q us : Nat) : List Byte := leBytes 8 (q % 2 ^ 63 + (if pass then 2 ^ 63 else 0)) ++ leBytes 4 us

/-- A calibration has run to its end: status 0 whether or not it passed (R728). DEDUCED: assumption 96. -/
def State.calDone (s : State) (r : CalRun) (pass : Bool) (q us : Nat) : State :=
  (s.calGone r.kind r.target pass).finishDesc r.sess r.desc 0 (calResult pass q us)

/-- Microseconds since the descriptor began. DEDUCED: assumption 96. -/
def State.calElapsed (s : State) (r : CalRun) : Nat := (s.clock - r.began) / 625

/-- A calibration ends early with status 10; every value in force stays (R729). DEDUCED: assumption 96. -/
def State.calCut (s : State) (r : CalRun) : State := (s.calGone r.kind r.target false).finishDesc r.sess r.desc 10 []

/-- Every calibration ends early (R729, R761). DEDUCED: assumption 103. -/
def State.calCutAll (s : State) : State := s.cal.runs.foldl State.calCut s

/-- The calibration of a kind on a target, if there is one, ends early. DEDUCED: assumption 103. -/
def State.calCutOn (s : State) (kind target : Nat) : State :=
  match s.calRun kind target with
  | none => s
  | some r => s.calCut r

/-- Whether LOCKED with the port as slave port holds, as kind 6 needs (R738). DEDUCED: assumption 101. -/
def State.lockedOn (s : State) (e : Nat) : Bool := decide (s.fld timStatusServo = 2 ∧ s.fld timStatusSlavePort = e)

/-- A path calibration that has begun its edges ends with PASS 0 once LOCKED is lost (R738); its other result bits are then free.
DEDUCED: assumption 101. -/
def State.asymLost (s : State) : State :=
  ([0, 1] : List Nat).foldl (fun (s : State) (e : Nat) =>
    match s.calRun 6 e with
    | none => s
    | some r =>
      if !r.active || s.lockedOn e then s
      else
        let f := s.takeFree (2 ^ 63)
        f.2.calDone r false f.1 0) s

end Sys2Proof.Machine
end

