-- ==== Sys2Proof/Machine/Operands.lean ====
section
/-! DEFINITION. The operand forms the manual lays down: descriptor parameters (R550, R555), doorbell records
(R546), management frames (R517), fabric messages (R615) and line packets' fields. -/

namespace Sys2Proof.Machine

/-- An unsigned parameter of a descriptor: byte offset and size (R555). -/
def OutDesc.par (d : OutDesc) (off size : Nat) : Nat := leAt d.bytes off size

/-- A signed 64-bit parameter of a descriptor. -/
def OutDesc.parInt (d : OutDesc) (off : Nat) : Int := toSigned 64 (d.par off 8)

/-- The opcode of a descriptor (R550). -/
def OutDesc.opcode (d : OutDesc) : Nat := d.par 0 1

/-- ORDERED (R550). -/
def OutDesc.ordered (d : OutDesc) : Bool := bitAt (d.par 1 1) 0

/-- Tag and generation of a descriptor (R550). -/
def OutDesc.tagGen (d : OutDesc) : Nat := d.par 2 2

/-- A descriptor passes its CRC (R552). -/
def descCrcOk (b : List Byte) : Bool := decide (leAt b 0x7C 4 = (crc32c (slice b 0 0x7C)).toNat)

/-- The fields of a doorbell record (R546). -/
structure Bell where
  ring : Nat
  sess : Nat
  alive : Nat
  index : Nat
  crcOk : Bool
  deriving DecidableEq, Repr

/-- Read a doorbell record. -/
def bellOf (b : List Byte) : Bell :=
  { ring := leAt b 0 1, sess := leAt b 1 1, alive := leAt b 2 1 % 16, index := leAt b 4 4,
    crcOk := decide (b.length = 16 ∧ leAt b 12 4 = (crc32c (slice b 0 12)).toNat) }

/-- The fields of a management frame (R517). -/
structure Mgmt where
  version : Nat
  type : Nat
  sess : Nat
  seq : Nat
  len : Nat
  body : List Byte
  mac : List Byte
  head : List Byte
  deriving DecidableEq, Repr

/-- Read a management frame. -/
def mgmtOf (b : List Byte) : Mgmt :=
  let n := beAt b 0x0E 2
  { version := beAt b 0 1, type := beAt b 1 1, sess := beAt b 2 1, seq := beAt b 4 8, len := n,
    body := slice b 0x10 n, mac := b.drop (0x10 + n), head := b.take (0x10 + n) }

/-- A fabric message (R615): header fields and body. -/
structure FabMsg where
  head : FabHead
  type : Nat
  body : List Byte
  deriving DecidableEq, Repr

/-- Read a fabric message; the CRC covers header and body. -/
def fabOf (b : List Byte) : FabMsg :=
  let n := beAt b 6 2
  { head := { src := beAt b 2 1, dest := beAt b 3 1, hops := beAt b 4 1, flags := beAt b 5 1, seq := beAt b 8 4,
              ref := beAt b 12 4,
              crcOk := decide (beAt b 0 1 = 1 ∧ b.length = 20 + n ∧ n ≤ 4096 ∧
                beAt b (16 + n) 4 = (crc32c (slice b 0 (16 + n))).toNat) },
    type := beAt b 1 1, body := slice b 16 n }

/-- The bytes of a fabric message (R615). -/
def fabBytes (type src dest hops flags seq ref : Nat) (body : List Byte) : List Byte :=
  let h := beBytes 1 1 ++ beBytes 1 type ++ beBytes 1 src ++ beBytes 1 dest ++ beBytes 1 hops ++ beBytes 1 flags ++
    beBytes 2 body.length ++ beBytes 4 seq ++ beBytes 4 ref ++ body
  h ++ beBytes 4 (crc32c h).toNat

end Sys2Proof.Machine
end

