-- ==== Sys2Proof/Machine/Desc.lean ====
section
/-! DEFINITION. What every descriptor row shares (R552 to R558): when a descriptor may start, the mode check,
and the statuses of its completion. -/

namespace Sys2Proof.Machine

/-- The modes in which an opcode is accepted (R555), in the numbers of R26. -/
abbrev ModeSet := List Nat
/-- M N A X D. -/
def modesAll : ModeSet := [3, 4, 5, 7, 6]
/-- M N A X. -/
def modesMNAX : ModeSet := [3, 4, 5, 7]
/-- M N A. -/
def modesMNA : ModeSet := [3, 4, 5]
/-- M X. -/
def modesMX : ModeSet := [3, 7]
/-- N A. -/
def modesNA : ModeSet := [4, 5]
/-- M. -/
def modesM : ModeSet := [3]

/-- Descriptor `idx` of session `n` may start now (R553): accepted, its DESC entry durable, every earlier descriptor
started, and, with ORDERED, every earlier one completed. DEDUCED: assumption 54. -/
def State.startable (s : State) (n idx : Nat) : Option OutDesc :=
  let ds := (s.session n).descs
  match ds.find? (fun d => decide (d.idx = idx)) with
  | none => none
  | some d =>
    let before := ds.takeWhile (fun e => decide (e.idx ≠ idx))
    if d.started ∨ ¬ d.durable ∨ d.bad ≠ 0 ∨ before.any (fun e => !e.started && decide (e.bad = 0)) ∨
        (d.ordered = true ∧ before ≠ []) then none
    else some d

/-- Status 4 with the offset of the first offending parameter byte (R557). -/
def State.badParam (s : State) (n : Nat) (d : OutDesc) (off : Nat) : State := s.finishDesc n d.idx 4 (leBytes 1 off)

/-- Status 15 with the owner (R557). -/
def State.owned (s : State) (n : Nat) (d : OutDesc) (owner : Nat) : State := s.finishDesc n d.idx 15 (leBytes 1 owner)

/-- Status 6 (R558). -/
def State.wrongState (s : State) (n : Nat) (d : OutDesc) : State := s.finishDesc n d.idx 6 []

/-- Status 0 with a result. -/
def State.doneDesc (s : State) (n : Nat) (d : OutDesc) (result : List Byte) : State := s.finishDesc n d.idx 0 result

/-- Run descriptor `idx` of session `n` if it has opcode `op` and may start (R553, R555): outside its modes it completes
with status 5; in them `f` is its effect. -/
def State.runDesc (s : State) (n idx op : Nat) (modes : ModeSet) (f : OutDesc → State → State) : State :=
  match s.startable n idx with
  | none => s
  | some d =>
    if d.opcode ≠ op then s
    else
      let s := s.startDesc n idx
      if modes.contains s.mode then f d s else s.finishDesc n idx 5 []

/-- The owner code of a session (R713). -/
def ownerOf (n : Nat) : Nat := n + 1

/-- An enable of a resource by `owner` (R714): `none` when another owner holds it, with CONFLICT set, else the state in
which it is claimed. DEDUCED: assumption 88. -/
def State.tryClaim (s : State) (kind index owner : Nat) : Option State :=
  match s.claimOf kind index with
  | some o => if o = owner then some s else none
  | none => some (s.setClaim kind index (some owner))

/-- A claim that fails: CONFLICT and status 15 (R714). -/
def State.claimFail (s : State) (kind index : Nat) (n : Nat) (d : OutDesc) : State :=
  let o := (s.claimOf kind index).getD 0
  (s.conflict kind index o (ownerOf n)).owned n d o

/-- The Planner block of a completion (R557). -/
def planBlock (st : PlanStatus) : List Byte :=
  leBytes 1 st.status ++ leBytes 1 0 ++ leBytes 2 st.type ++ leBytes 1 st.inst ++ leBytes 3 0 ++ leBytes 4 st.off ++ leBytes 4 0

end Sys2Proof.Machine
end

