-- ==== Sys2Proof/Machine/Pennants.lean ====
section
/-! DEFINITION. The pennant unit (R302 to R338): records, sequence numbers, the on-die queue and its staging
area, discards, gathering and delivery to the host. -/

namespace Sys2Proof.Machine

/-! ### Records -/

/-- The fabric address of this module, 0 outside a fabric (R302); 63 stands for none (R633). -/
def State.selfAddr (s : State) : Nat := if s.fld fabStatusAddress = 63 then 0 else s.fld fabStatusAddress

/-- Cross-web grid pitch of the live plan in nm (R194). -/
def State.pitchX (s : State) : Nat := match s.pln.plan with | none => 0 | some p => p.pitchX
/-- Down-web grid pitch of the live plan in nm (R196). -/
def State.pitchY (s : State) : Nat := match s.pln.plan with | none => 0 | some p => p.pitchY

/-- The 64 bytes of a pennant with its alive counter and CRC (R302, R305). -/
def penBytes (p : Pennant) : List Byte :=
  let h := leBytes 8 p.seq ++ leBytes 8 p.time ++ leBytes 8 (ofSigned 64 p.y) ++ leBytes 8 (ofSigned 64 p.x) ++
    leBytes 4 p.len ++ leBytes 4 p.wid ++ leBytes 4 p.area ++ leBytes 1 p.cls ++ leBytes 1 p.addr ++
    leBytes 1 p.ctxByte ++ leBytes 1 (p.seq % 16 + 16 * p.kind) ++ leBytes 2 p.flags ++ leBytes 2 (ofSigned 16 p.peak) ++
    leBytes 2 (ofSigned 16 p.mean) ++ leBytes 2 0 ++ leBytes 4 p.low
  h ++ leBytes 4 (crc32c h).toNat

/-- The same record with REPLAYED set and its CRC formed again (R316). -/
def penReplayed (b : List Byte) : List Byte :=
  let h := slice b 0 0x30 ++ leBytes 2 (leAt b 0x30 2 ||| 4) ++ slice b 0x32 10
  h ++ leBytes 4 (crc32c h).toNat

/-- Kinds that R322 discards first: blobs, streamers and split halves. -/
def penIsBlob (p : Pennant) : Bool := decide (p.kind = 0 ∨ p.kind = 1 ∨ p.kind = 2 ∨ p.kind = 6)

/-- Quality flags of R304: ENCODER_SUSPECT in bit 7 and POS_UNCERTAIN in bit 3, which it implies (R312);
LINE_REPLACED in bit 4. -/
def qualityFlags (suspect uncertain replaced : Bool) : Nat :=
  8 * b2n (suspect || uncertain) + 16 * b2n replaced + 128 * b2n suspect

/-- Half a pitch rounded down, as an integer (R319). -/
def halfPitch (p : Nat) : Int := (p / 2 : Nat)

/-- An extent of `n` pitches in µm, rounded up (R319). -/
def extentUp (n : Int) (p : Nat) : Nat := satU 32 ((n * p + 999) / 1000)

/-- A gap pennant of context `c` (R307, R319). -/
def State.gapPennant (s : State) (c : Nat) (g : GapRun) : Pennant :=
  { seq := 0, time := g.time, y := g.first * s.pitchY - halfPitch s.pitchY, x := g.gLo * s.pitchX - halfPitch s.pitchX,
    len := extentUp (g.last + 1 - g.first) s.pitchY, wid := extentUp (g.gHi + 1 - g.gLo) s.pitchX,
    area := satU 32 ((g.last + 1 - g.first) * (g.gHi + 1 - g.gLo)), cls := 0, addr := s.selfAddr, ctxByte := c,
    kind := 4, flags := qualityFlags g.suspect g.uncertain g.replaced, peak := g.cause, mean := 0,
    low := ofSigned 32 g.first, due := 0 }

/-- The global column of span column 0: X_0 / p_x (R195, R309). -/
def State.gridColumn (s : State) : Int := if s.pitchX = 0 then 0 else s.getInt64 gegOriginLo / (s.pitchX : Int)

/-- The owned columns of a context as global columns (R195, R319). -/
def State.ownedG (s : State) (c : Nat) : Int × Int :=
  match s.ctxPlan c with
  | none => (0, -1)
  | some cp => (s.gridColumn + cp.oLo, s.gridColumn + cp.oHi)

/-! ### Numbers -/

/-- Move to the next block of sequence numbers, recorded in flash first (R313). -/
def State.penBlock (s : State) (k : Nat) : State :=
  let s := { s with pwr := { s.pwr with flash := { s.pwr.flash with block := k } },
                    pen := { s.pen with block := k, nextLive := 0, nextRepro := 0 } }
  s.journal 0x08 0xFF 0xFF [k, k * 2 ^ 40, 2 ^ 63 + k * 2 ^ 40] []

/-- Take the next live number (R313, R315). -/
def State.penLiveSeq (s : State) : Nat × State :=
  let s := if s.pen.nextLive < 2 ^ 40 then s else s.penBlock (s.pen.block + 1)
  (s.pen.block * 2 ^ 40 + s.pen.nextLive, { s with pen := { s.pen with nextLive := s.pen.nextLive + 1 } })

/-- Take the next reprocess number (R313, R315). -/
def State.penReproSeq (s : State) : Nat × State :=
  let s := if s.pen.nextRepro < 2 ^ 40 then s else s.penBlock (s.pen.block + 1)
  (2 ^ 63 + s.pen.block * 2 ^ 40 + s.pen.nextRepro, { s with pen := { s.pen with nextRepro := s.pen.nextRepro + 1 } })

/-! ### Queue and staging -/

/-- Entries of the on-die queue (R321). -/
def penQueueMax : Nat := 1048576
/-- Entries of the staging area (R321). -/
def penStagingMax : Nat := 4194304
/-- Entries of the staging area in reserve (R322). -/
def penReserve : Nat := 4096

/-- PEN_QUEUE, its peak, PEN_STAGING and STAGING follow the queue (R334, R335); crossing 75 % fires QUEUE_HIGH and
STAGING becoming 1 fires STAGING_USED (R338). DEDUCED: assumption 105. -/
def State.penLevels (s : State) : State :=
  let n := s.pen.queue.length; let t := s.pen.staging.length
  let high := decide (s.fld penQueueF ≤ 786432 ∧ 786432 < n)
  let used := decide (s.fld penStatusStaging = 0 ∧ 0 < t)
  let s := ((s.setFld penQueueF n).setFld penQueuePeakPeak (max n (s.fld penQueuePeakPeak))).setFld penStagingF t
  ((s.setFlag penStatusStaging (decide (0 < t))).fireIf high 161).fireIf used 162

/-- PEN_STATUS.POS_UNCERTAIN follows the newest pennant to enter the queue (R312). -/
def State.penUncertain (s : State) (p : Pennant) : State :=
  let u := bitAt p.flags 3
  (s.setFlag penStatusPosUncertain u).fireIf (u && !s.flag penStatusPosUncertain) 167

/-- Put a numbered pennant into the queue, or into staging behind it when the queue is full (R321). -/
def State.penPut (s : State) (p : Pennant) : State :=
  let ahead := s.pen.queue.length
  let extra := if s.pen.staging.isEmpty ∧ 4096 ≤ ahead then 250 * (ahead - 4095) else 0
  let q : Pennant := { p with due := p.due + extra }
  let s := if s.pen.staging.isEmpty ∧ ahead < penQueueMax then { s with pen := { s.pen with queue := s.pen.queue ++ [q] } }
    else { s with pen := { s.pen with staging := s.pen.staging ++ [q] } }
  (s.penUncertain q).penLevels

/-- Note a discarded pennant of lines `a` to `b` in every cut window of its context that it reaches (R322). -/
def discardAdd (c : Nat) (a b : Int) : Nat → Int → List Discards → List Discards
  | 0, _, l => l
  | n + 1, w, l =>
    let lo := max a (w * 1024); let hi := min b (w * 1024 + 1023)
    let l := if l.any (fun d => decide (d.ctx = c ∧ d.window = w)) then
        l.map (fun d => if d.ctx = c ∧ d.window = w then { d with first := min d.first lo, last := max d.last hi } else d)
      else l ++ [⟨c, w, lo, hi⟩]
    discardAdd c a b n (w + 1) l

/-- Discard an arriving pennant before numbering it (R322). DEDUCED: assumption 26. -/
def State.penDiscard (s : State) (p : Pennant) (a b : Int) : State :=
  let n := (b / 1024 - a / 1024 + 1).toNat
  let ds := if penIsBlob p then discardAdd (p.ctxByte % 16) a b n (a / 1024) s.pen.discards else s.pen.discards
  ((({ s with pen := { s.pen with discards := ds } }).bump penCntDiscardedF 1).setFld penStatusOverflow 1).fire 163

/-- A record enters the pennant unit: it is numbered and queued, or discarded (R315, R321, R322). `a` and `b` are
the first and last output line it stands for. -/
def State.penEnter (s : State) (p : Pennant) (a b : Int) : State :=
  let t := s.pen.staging.length
  if (penIsBlob p ∧ penStagingMax - penReserve ≤ t) ∨ penStagingMax ≤ t then s.penDiscard p a b
  else
    let n := s.penLiveSeq
    n.2.penPut { p with seq := n.1 }

/-- A gap pennant enters the pennant unit (R320). -/
def State.gapEnter (s : State) (c : Nat) (g : GapRun) : State := s.penEnter (s.gapPennant c g) g.first g.last

/-- The cause-7 gap pennants of context `c` whose cut window ended at least three lines before line `m`, so that
no blob of it is still to be handed over (R263, R322). DEDUCED: assumption 105. -/
def State.penDiscardGaps (s : State) (c : Nat) (m : Int) : State :=
  let due := s.pen.discards.filter (fun d => decide (d.ctx = c ∧ (d.window + 1) * 1024 + 3 ≤ m))
  let left := s.pen.discards.filter (fun d => ! decide (d.ctx = c ∧ (d.window + 1) * 1024 + 3 ≤ m))
  let g := s.ownedG c
  due.foldl (fun s d => s.gapEnter c ⟨d.first, d.last, 7, g.1, g.2, s.taiNs, false, false, false⟩)
    { s with pen := { s.pen with discards := left } }

/-! ### Gathering and delivery -/

/-- The open session that takes live pennants (R532). -/
def State.penSess (s : State) : Option Nat :=
  (List.range 4).find? (fun n => s.isOpen n && s.flag (hssSessionPennants n))

/-- The live number `q` stands in a durable PENNANTS entry of the live ring, or is a replay (R484). -/
def State.penDurable (s : State) (q : Pennant) : Bool :=
  bitAt q.flags 2 || s.jnl.entries.any (fun e => decide (e.ty = 6 ∧ e.durable = true ∧ natAt e.fields 0 = 3 ∧
    leAt e.payload 0 8 ≤ q.seq ∧ q.seq < leAt e.payload 0 8 + natAt e.fields 2))

/-- The longest run of consecutive numbers at the front, at most `n` of them. -/
def penRun : Nat → List Pennant → List Pennant
  | 0, _ => []
  | _, [] => []
  | n + 1, p :: r =>
    match r with
    | q :: _ => if q.seq = p.seq + 1 then p :: penRun n r else [p]
    | [] => [p]

/-- Journal the next pennants of the queue that no PENNANTS entry holds, at most 63 of them (R482, R484).
DEDUCED: assumption 105. -/
def State.penGather (s : State) : State :=
  let ps := penRun 63 (s.pen.queue.drop s.pen.gathered)
  if ps.isEmpty then s
  else
    let slot := match s.penSess with
      | none => s.pen.gathered
      | some n => slotOf ((s.hring n 3).prod + s.pen.gathered) (s.hring n 3).entries
    let s1 := s.journal 0x06 0xFF 0xFF [3, slot, ps.length] (ps.flatMap penBytes)
    { s1 with pen := { s1.pen with gathered := s1.pen.gathered + ps.length } }

/-- LATE of R328: a pennant of kind 0, 1, 2 or 6 reaches the wire after its bound; a replay never takes it. -/
def State.penSeal (s : State) (p : Pennant) : Pennant :=
  if penIsBlob p && !bitAt p.flags 2 && decide (p.due < s.taiNs) then { p with flags := p.flags ||| 1 } else p

/-- Counters, events and PEN_SEQ_LAST after one pennant was written (R336 to R338). DEDUCED: assumption 105. -/
def State.penWritten (s : State) (p : Pennant) : State :=
  let late := penIsBlob p && bitAt p.flags 0 && !bitAt p.flags 2
  let s := (s.bump penCntWrittenF 1).set64 penSeqLastLo p.seq
  let s := { s with pen := { s.pen with written := s.pen.written + 1 } }
  let s := s.fireIf (decide (s.pen.written % 2 ^ s.fld penStatusBlockExp = 0)) 160
  let s := if late then ((s.bump penCntLateF 1).setFld penStatusLate 1).fire 164 else s
  if p.kind = 4 then (s.bump penCntGapF 1).fire 165 else s

/-- Drop the first `n` pennants of the queue, and refill it from staging in order (R321). DEDUCED: assumption 105. -/
def State.penDrop (s : State) (n : Nat) : State :=
  let q := s.pen.queue.drop n
  let k := penQueueMax - q.length
  ({ s with pen := { s.pen with queue := q ++ s.pen.staging.take k, staging := s.pen.staging.drop k,
                                gathered := s.pen.gathered - n } }).penLevels

/-- Write replayed pennants into their slots, before any new one (R316, R493). -/
def State.penReplay (s : State) (n : Nat) : List (Nat × List Byte) → State
  | [] => s
  | (slot, b) :: r =>
    let h := s.hring n 3
    let w := s.hostWrite (h.addr + 64 * slot) b 1 0
    match w.2 with
    | some _ => w.1
    | none =>
      let t := w.1.bump penCntReplayedF 1
      ({ t with jnl := { t.jnl with replayPen := r } }).penReplay n r

/-- One RDMA WRITE of up to 64 gathered and durable pennants into the live ring (R323, R325, R484): not while the
journal is full (R488), nor without a free slot, and nothing moves on a translation fault (R472). -/
def State.penRdma (s : State) (n : Nat) : State :=
  let h := s.hring n 3
  let room := min (min 64 h.free) (h.entries - slotOf h.prod h.entries)
  let ps := (penRun (min room s.pen.gathered) (s.pen.queue.takeWhile s.penDurable)).map s.penSeal
  if ps.isEmpty ∨ s.flag jnlStatusFull then s
  else
    let w := s.hostWrite (h.addr + 64 * slotOf h.prod h.entries) (ps.flatMap penBytes) 1 0
    match w.2 with
    | some _ => w.1
    | none =>
      let t := (w.1.setHring n 3 { w.1.hring n 3 with prod := h.prod + ps.length }).mirror n 3
      (ps.foldl State.penWritten t).penDrop ps.length

/-- The datagram of R326 for a run of pennants. DESIGN CHOICE: assumption 106. -/
def datagramBytes (addr : Nat) (ps : List Pennant) : List Byte :=
  beBytes 1 1 ++ beBytes 1 ps.length ++ beBytes 1 addr ++ beBytes 1 0 ++ beBytes 8 ((ps.map Pennant.seq).headD 0) ++
    beBytes 4 0 ++ ps.flatMap penBytes

/-- One datagram of up to 22 gathered pennants (R326); with TIM_PACE it is queued for a timed launch on queue 7 (R593).
DESIGN CHOICE: assumption 106. -/
def State.penDatagram (s : State) (p : Plan) : State :=
  let ps := (penRun (min 22 s.pen.gathered) (s.pen.queue.takeWhile s.penDurable)).map s.penSeal
  if ps.isEmpty ∨ (s.fld timPaceF ≠ 0 ∧ 16 ≤ (s.queue 0 7).length) then s
  else
    let b := datagramBytes s.selfAddr ps
    let t :=
      if s.fld timPaceF = 0 then s.emit (.datagram p.penHost p.penPort b)
      else
        let at' := max s.taiNs s.tim.paceNext
        let s := s.setQueue 0 7 (s.queue 0 7 ++ [⟨at', 255, 0, b⟩])
        { s with tim := { s.tim with paceNext := at' + s.fld timPaceF } }
    (ps.foldl State.penWritten { t with pen := { t.pen with datagrams := t.pen.datagrams + 1 } }).penDrop ps.length

/-- Deliver what is gathered and durable: by datagram (R326), else to the live ring, replays first (R493).
DESIGN CHOICE: assumption 106. -/
def State.penDeliver (s : State) : State :=
  if s.flag penStatusDelivery then
    match s.pln.plan with
    | none => s
    | some p => s.penDatagram p
  else
    match s.penSess with
    | none => s
    | some n =>
      if s.jnl.replayPen.isEmpty then s.penRdma n else s.penReplay n s.jnl.replayPen

/-- PENNANT_WRITE (R323 to R326): the queue's head is gathered under a PENNANTS entry where none holds it yet, and
delivered once that entry is durable. -/
def execPennantWrite (s : State) : Host.Outcome State Fault Refusal :=
  .next (if s.pen.gathered = 0 then s.penGather.penDeliver else s.penDeliver)

/-- GATHER_TIMEOUT (R323): 2 µs after the first held pennant, gathering ends. DESIGN CHOICE: assumption 6. -/
def execGatherTimeout (s : State) : Host.Outcome State Fault Refusal := .next s.penGather.penDeliver

end Sys2Proof.Machine
end

