-- ==== Sys2Proof/Machine/Time.lean ====
section
/-! DEFINITION. The time unit (R567 to R598): timed outputs, the servo, PTP end points and transparent clock. -/

namespace Sys2Proof.Machine

/-! ### Timed outputs -/

/-- Width of the pulses of TOUT `t`: TOUT_ARM's or the function's (R585). -/
def State.toutWidth (s : State) (t : Nat) : Nat :=
  match (s.tout t).arm, (s.tout t).plan with
  | some a, _ => a.width
  | none, some p => p.width
  | none, none => 0

/-- The pin level that stands for the active level (R396). -/
def State.toutLevel (s : State) (t : Nat) (active : Bool) : Bool :=
  match (s.tout t).plan with
  | some p => active != p.low
  | none => active

/-- TIM_TOUT bit `t`: the output has a function or an armed pulse (R597). -/
def State.toutActive (s : State) (t : Nat) : State :=
  let o := s.tout t
  let f := match o.plan with | some p => decide (p.func ≠ 0) | none => false
  s.setFlag ⟨timTout, t, 1⟩ (f || o.arm.isSome)

/-- The axes whose marker output follows TOUT `t` (R794). -/
def State.markersOf (s : State) (t : Nat) : List Nat :=
  [0, 1].filter (fun x => s.flag (axCtrlEnable x) && decide (s.fld (axCtrlMarkTout x) = t))

/-- A rising edge of TOUT `t` with a pulse of `w` ns (R584, R585): it merges with a pulse that is high (R588). -/
def State.toutRiseW (s : State) (t w time : Nat) : State :=
  let o := s.tout t
  match o.high with
  | some _ => s.setFld ⟨evtCflags, t, 1⟩ 1
  | none =>
    let s1 := (s.setTout t { o with high := some (time + w) }).emit (.tout t (s.toutLevel t true) time)
    (s1.emits ((s.markersOf t).map (fun x => .marker x true))).fireAt (264 + t) 0 time

/-- A rising edge with the output's own width. -/
def State.toutRise (s : State) (t time : Nat) : State := s.toutRiseW t (s.toutWidth t) time

/-- Insert a time into a rising list. -/
def insertTime (x : Nat) : List Nat → List Nat
  | [] => [x]
  | y :: r => if x ≤ y then x :: y :: r else y :: insertTime x r

/-- A phased pulse: at once where its time has come, else when TOUT_EDGE finds it due. -/
def State.toutPlace (s : State) (t time : Nat) : State :=
  if time ≤ s.taiNs then s.toutRise t time
  else s.setTout t { s.tout t with dues := insertTime time (s.tout t).dues }

/-- The first `t > now` with `(t - phase) mod period = 0` (R585). -/
def nextPeriodic (phase period now : Nat) : Option Nat :=
  if period = 0 then none else some (now + period - (((now : Int) - phase) % period).toNat)

/-- An event reaches TOUT `t` under function 2 (R585, R588): merged while the pulse is high. -/
def State.toutEvent (s : State) (t time : Nat) : State :=
  match (s.tout t).plan with
  | some p =>
    if p.func ≠ 2 then s
    else if (s.tout t).high.isSome then s.setFld ⟨evtCflags, t, 1⟩ 1
    else s.toutPlace t (time + p.phase)
  | none => s

/-- The outputs whose function is `f` and that name port or axis `p`. -/
def State.toutsOf (s : State) (f p : Nat) : List Nat :=
  s.tim.touts.filterMap (fun e => match e.2.plan with
    | some q => if q.func = f ∧ q.port = p then some e.1 else none
    | none => none)

/-- A camera trigger of port `p` would merge with a high pulse (R588). -/
def State.triggerMerges (s : State) (p : Nat) : Bool := (s.toutsOf 3 p).any (fun t => (s.tout t).high.isSome)

/-- A line trigger of port `p` reaches its camera-trigger and strobe outputs (R585). -/
def State.toutTrigger (s : State) (p time : Nat) : State :=
  let s := (s.toutsOf 3 p).foldl (fun s t => s.toutRise t time) s
  (s.toutsOf 4 p).foldl (fun s t =>
    s.toutPlace t (time + (match (s.tout t).plan with | some q => q.phase | none => 0))) s

/-- TOUT_EDGE (R584, R585): a programmed edge falls due. Nothing is due: nothing happens. -/
def execToutEdge (t : ToutId) (s : State) : Host.Outcome State Fault Refusal :=
  let o := s.tout t
  let due := match o.next with | some n => decide (n ≤ s.taiNs) | none => false
  if due then
    let n := o.next.getD 0
    let nx := match o.arm, o.plan with
      | some a, _ => if a.periodic ∧ a.period ≠ 0 then some (n + a.period) else none
      | none, some p => nextPeriodic p.phase p.period n
      | none, none => none
    .next ((s.setTout t { o with next := nx }).toutRise t n)
  else
    match o.dues with
    | d :: r => if d ≤ s.taiNs then .next ((s.setTout t { o with dues := r }).toutRise t d) else .next s
    | [] => .next s

/-- TOUT_PULSE_END (R585): the pulse ends at its own time; a single armed pulse is then spent. -/
def execToutPulseEnd (t : ToutId) (s : State) : Host.Outcome State Fault Refusal :=
  let o := s.tout t
  match o.high with
  | none => .next s
  | some e =>
    if s.taiNs < e then .next s
    else
      let arm := match o.arm with | some a => if a.periodic then some a else none | none => none
      let s1 := (s.setTout t { o with high := none, arm := arm, overload := false }).emit (.tout t (s.toutLevel t false) e)
      let s2 := if o.overload then s1 else s1.emits ((s.markersOf t).map (fun x => .marker x false))
      .next (s2.toutActive t)

/-- One output after a step of the clock from `old` to `new` (R589): edges skipped forward give one pulse at the
step; a periodic output continues after the new time, and no edge time recurs. DEDUCED: assumption 108. -/
def State.toutStepped (s : State) (t old new : Nat) : State :=
  let o := s.tout t
  if new ≤ old then s
  else
    let skipped := o.dues.any (fun d => decide (d ≤ new)) || (match o.next with | some n => decide (n ≤ new) | none => false)
    let nx := match o.next, o.arm, o.plan with
      | some n, some a, _ =>
        if new < n then some n else if a.period = 0 then none else some (n + ((new - n) / a.period + 1) * a.period)
      | some n, none, some p => if new < n then some n else nextPeriodic p.phase p.period new
      | _, _, _ => none
    let s := s.setTout t { o with dues := o.dues.filter (fun d => decide (new < d)), next := nx }
    if skipped then s.toutRise t new else s

/-! ### The clock -/

/-- The largest rate correction, 2^-12 in units of 2^-48 (R567). -/
def rateMax : Int := 2 ^ 36

/-- TAI advances by one tick of 1.6 ns × (1 + r), and a pending step takes effect (R567, R578).
DEDUCED: assumption 108. -/
def State.clockTick (s : State) : State :=
  let old := s.taiNs
  let adv := 8 * (2 ^ 48 + s.tim.r)
  match s.tim.step with
  | none => { s with tim := { s.tim with tai := s.tim.tai + adv.toNat } }
  | some d =>
    let t := ((s.tim.tai : Int) + adv + d * (5 * 2 ^ 32)).toNat
    let s := { s with tim := { s.tim with tai := t, step := none } }
    (List.range 16).foldl (fun s k => s.toutStepped k old s.taiNs) s

/-! ### The servo -/

/-- Enter a servo state (R577, R598). DEDUCED: assumption 108. -/
def State.servo (s : State) (v : Nat) : State :=
  let s0 := s.setFld timStatusServo v
  let s1 := s0.fireIf (decide (v = 2 ∧ s.fld timStatusServo ≠ 2)) 280
  (if v = 3 ∧ s.fld timStatusServo ≠ 3 then (s1.fire 281).bump timCntSyncTimeoutF 1 else s1).asymLost

/-- Rate and its registers (R597). -/
def State.setRate (s : State) (f r : Int) : State :=
  ({ s with tim := { s.tim with f := f, r := r } }).setInt64 timRateLo r

/-- FREE: PTP is off or has not begun (R577). -/
def State.servoFree (s : State) : State :=
  (({ s with tim := { s.tim with streak := 0, step := none } }).setRate s.tim.f 0).servo 0

/-- Consecutive updates with |o| below 100 ns (R577). -/
def streakOf (o : Int) (k : Nat) : Nat := if o.natAbs < 6553600 then k + 1 else 0

/-- A step outside NOON and AFTERNOON (R578): by -o at the next tick, F kept. -/
def State.servoStep (s : State) (o : Int) : State :=
  ((({ s with tim := { s.tim with step := some (-o), streak := 0 } }).bump timCntStepsF 1).fire 282).setFld timStatusTimeFar 0

/-- The rate after an update (R575); a far offset in NOON or AFTERNOON is slewed at the clamp (R578). -/
def servoRate (far : Bool) (f kp o : Int) : Int :=
  if far then (if 0 < o then -rateMax else rateMax) else clampInt (-rateMax) rateMax (f - rnd (kp * o) 16)

/-- An update without a step (R575, R577, R578). DEDUCED: assumption 108. -/
def State.servoTrack (s : State) (far near : Bool) (o : Int) : State :=
  let f := clampInt (-rateMax) rateMax (s.tim.f - rnd (s.fld timKiF * o) 16)
  let k := streakOf o s.tim.streak
  let s1 := ({ s with tim := { s.tim with streak := k } }).setRate f (servoRate far f (s.fld timKpF) o)
  let s2 := if far then (s1.setFld timStatusTimeFar 1).fireIf (s1.fld timStatusTimeFar = 0) 284
    else if near then s1.setFld timStatusTimeFar 0 else s1
  if decide (16 ≤ k) && decide (s2.fld timStatusServo = 1) then s2.servo 2 else s2

/-- One servo update with offset `o` in 1/65 536 ns (R575, R577, R578). DEDUCED: assumption 108. -/
def State.servoUpdate (s : State) (o : Int) : State :=
  let s := s.setFldInt timOffsetF (satS 32 (rnd o 12))
  let lim := s.fld timStepLimitF * 65536
  let s := if s.fld timStatusServo = 0 ∨ s.fld timStatusServo = 3 then s.servo 1 else s
  if decide (lim < o.natAbs) && !s.inspecting then s.servoStep o
  else s.servoTrack (decide (lim < o.natAbs)) (decide (o.natAbs < lim)) o

/-! ### PTP -/

/-- PTP runs (R597). -/
def State.ptpOn (s : State) : Bool := s.flag timCtrlPtpEn

/-- delayAsymmetry of a port in 1/65 536 ns (R574, R597). -/
def State.asym (s : State) (e : Nat) : Int := s.fldInt (timAsymF e) * 256

/-- The port identity of this module's port `e`: its serial number and the port number (R571). -/
def State.portIdentity (s : State) (e : Nat) : Nat := 16 * s.get64 sysSerialLo + e + 1

/-- The message comes from the selected master on the slave port (R570, R575). -/
def State.fromMaster (s : State) (e src : Nat) : Bool :=
  s.ptpOn && decide (s.fld timStatusSlavePort = e) && (match s.tim.master with | some a => decide (a.src = src) | none => false)

/-- A Sync's offset: arrival minus origin, minus all corrections and the path delay (R575). -/
def State.syncDone (s : State) (e : Nat) (t1 t2 corr : Int) : State :=
  let p := s.ptp e
  (s.setPtp e { p with sync := none, lastSync := some (t1 + corr, t2) }).servoUpdate (t2 - t1 - corr - p.delay)

/-- SYNC (R573 to R578): one-step at once, two-step with its Follow_Up. -/
def execSync (e : EthId) (m : PtpMsg) (s : State) : Host.Outcome State Fault Refusal :=
  if ¬ s.fromMaster e m.src then .next s
  else
    let t2 := s.taiFine m.sub.val
    let corr := m.corr + s.asym e
    if m.twoStep then
      .next (s.setPtp e { s.ptp e with sync := some ⟨m.src, m.seq, t2, corr⟩ })
    else .next (s.syncDone e m.origin t2 corr)

/-- FOLLOW_UP (R575): completes the two-step Sync of the same sequence number. -/
def execFollowUp (e : EthId) (m : PtpMsg) (s : State) : Host.Outcome State Fault Refusal :=
  if ¬ s.fromMaster e m.src then .next s
  else
    match (s.ptp e).sync with
    | none => .next s
    | some r =>
      if r.src = m.src ∧ r.seq = m.seq then .next (s.syncDone e m.origin r.arrival (r.corr + m.corr)) else .next s

/-- DELAY_REQ_INTERVAL (R570, R575): the slave port sends its Delay_Req, in P2P each port its Pdelay_Req. -/
def execDelayReqInterval (e : EthId) (s : State) : Host.Outcome State Fault Refusal :=
  let slave := s.tim.master.isSome && decide (s.fld timStatusSlavePort = e)
  if ¬ s.ptpOn ∨ (¬ s.flag timCtrlP2p ∧ ¬ slave) then .next s
  else
    let p := s.ptp e
    let q := (p.reqSeq + 1) % 65536
    let ty := if s.flag timCtrlP2p then 2 else 1
    .next ((s.setPtp e { p with reqSeq := q, reqTime := some (s.taiFine 0), respTime := none }).emit
      (.ptp e ty [q, s.portIdentity e, -s.asym e]))

/-- DELAY_RESP (R575): the mean path delay, with the corrections of both directions. -/
def execDelayResp (e : EthId) (m : PtpMsg) (s : State) : Host.Outcome State Fault Refusal :=
  let p := s.ptp e
  if ¬ s.fromMaster e m.src ∨ s.flag timCtrlP2p ∨ m.seq ≠ p.reqSeq ∨ m.req ≠ s.portIdentity e then .next s
  else
    match p.reqTime, p.lastSync with
    | some t3, some (t1c, t2) =>
      .next (s.setPtp e { p with delay := rnd ((t2 - t1c) + (m.origin - t3 - m.corr)) 1, reqTime := none })
    | _, _ => .next s

/-- PDELAY (R574, R579): each port answers Pdelay_Req, and forms the link delay from the response. -/
def execPdelay (e : EthId) (kind : PdKind) (m : PtpMsg) (s : State) : Host.Outcome State Fault Refusal :=
  let p := s.ptp e
  let mine := decide (m.seq = p.reqSeq ∧ m.req = s.portIdentity e)
  if ¬ s.ptpOn ∨ ¬ s.flag timCtrlP2p then .next s
  else
    match kind with
    | .req =>
      let t2 := s.taiFine m.sub.val
      .next (s.emits [.ptp e 3 [m.seq, m.src, t2, m.corr], .ptp e 10 [m.seq, m.src, s.taiFine 0, 0]])
    | .resp =>
      match p.reqTime with
      | some t1 =>
        if ¬ mine then .next s
        else
          let t4 := s.taiFine m.sub.val
          let corr := m.corr + s.asym e
          if m.twoStep then .next (s.setPtp e { p with respTime := some (t4, m.origin, corr) })
          else .next (s.setPtp e { p with delay := rnd (t4 - t1 - corr) 1, reqTime := none })
      | none => .next s
    | .respFollowUp =>
      match p.reqTime, p.respTime with
      | some t1, some (t4, t2, corr) =>
        if ¬ mine then .next s
        else .next (s.setPtp e { p with delay := rnd ((t4 - t1) - (m.origin - t2) - corr - m.corr) 1,
                                        reqTime := none, respTime := none })
      | _, _ => .next s

/-! ### Best master (R570, R571) -/

/-- The data set that IEEE 1588 compares, in order of weight; the lower wins. PRESUMED: assumption 107. -/
def annRank (a : AnnMsg) : List Nat := [a.prio1, a.cls, a.acc, a.var, a.prio2, a.gm, a.steps, a.src]

/-- Lexicographic order. PRESUMED: assumption 107. -/
def listLt : List Nat → List Nat → Bool
  | a :: r, b :: t => if a = b then listLt r t else decide (a < b)
  | _, _ => false

/-- The module's own data set (R571). -/
def State.ownAnn (s : State) : AnnMsg :=
  { src := s.portIdentity 0, prio1 := s.fld timCtrlPriority1, cls := 248, acc := 0xFE, var := 0xFFFF, prio2 := 128,
    gm := s.get64 sysSerialLo, steps := 0, ptp := true }

/-- The best of the announced masters with the port that heard it. PRESUMED: assumption 107. -/
def bestForeign (l : List (Nat × AnnMsg)) : Option (Nat × AnnMsg) :=
  l.foldl (fun b x => match b with
    | none => some x
    | some y => if listLt (annRank x.2) (annRank y.2) then some x else some y) none

/-- Select the master again (R570, R571, R577): a change of master fires MASTER_CHANGED and begins ACQUIRING.
PRESUMED: assumption 107. -/
def State.selectMaster (s : State) : State :=
  let best := bestForeign s.tim.foreign
  let own := s.flag timCtrlMasterEn && (match best with | none => true | some b => listLt (annRank s.ownAnn) (annRank b.2))
  if own then
    let s1 := { s with tim := { s.tim with asMaster := true, master := none } }
    s1.fireIf (!s.tim.asMaster) 283
  else
    match best with
    | none => { s with tim := { s.tim with asMaster := false, master := none } }
    | some (e, a) =>
      let same := match s.tim.master with | some b => decide (b.src = a.src) | none => false
      let s1 := ({ s with tim := { s.tim with asMaster := false, master := some a } }).setFld timStatusSlavePort e
      let s1 := s1.setFlag timStatusTimescaleArb (!a.ptp)
      if same then s1
      else
        let s2 := ({ s1 with tim := { s1.tim with streak := 0 } }).fire 283
        if s2.fld timStatusServo = 0 then s2.asymLost else s2.servo 1

/-- ANNOUNCE (R570): a master announces itself on a port. -/
def execAnnounce (e : EthId) (m : AnnMsg) (s : State) : Host.Outcome State Fault Refusal :=
  if ¬ s.ptpOn then .next s
  else
    let f := s.tim.foreign.filter (fun x => decide (x.2.src ≠ m.src)) ++ [(e.val, m)]
    .next ({ s with tim := { s.tim with foreign := f } }).selectMaster

/-- ANNOUNCE_TIMEOUT (R570): three Announce intervals passed without one of the selected master. -/
def execAnnounceTimeout (s : State) : Host.Outcome State Fault Refusal :=
  match s.tim.master with
  | none => if s.ptpOn then .next s.selectMaster else .next s
  | some a =>
    let f := s.tim.foreign.filter (fun x => decide (x.2.src ≠ a.src))
    .next ({ s with tim := { s.tim with foreign := f, master := none } }).selectMaster

/-- The Sync timeout of the servo (R577): HOLDOVER with r = F. -/
def State.syncTimeout (s : State) : State :=
  if s.fld timStatusServo = 1 ∨ s.fld timStatusServo = 2 then
    (({ s with tim := { s.tim with streak := 0 } }).setRate s.tim.f s.tim.f).servo 3
  else s

/-- The module is the master (R571). -/
def State.isMaster (s : State) : Bool := s.ptpOn && s.flag timCtrlMasterEn && s.tim.asMaster

/-- SYNC_INTERVAL (R571, R581): the master's Sync, one-step where the port has ONE_STEP, else with its Follow_Up.
A port with both TC_EN and ONE_STEP is undefined behaviour (R582, R780). -/
def execSyncInterval (e : EthId) (s : State) : Host.Outcome State Fault Refusal :=
  if s.flag (timPortTcEn e) ∧ s.flag (timPortOneStep e) then .fault (.undefinedBehaviour .tcOneStep)
  else if ¬ s.isMaster then .next s
  else
    let p := s.ptp e
    let q := (p.syncSeq + 1) % 65536
    let t := s.taiFine 0
    let s := s.setPtp e { p with syncSeq := q }
    if s.flag (timPortOneStep e) then .next (s.emit (.ptp e 0 [q, t / 65536, t % 65536]))
    else .next (s.emits [.ptp e 0 [q, 0, 0], .ptp e 8 [q, t / 65536, t % 65536]])

/-- ANNOUNCE_INTERVAL (R571): the master announces its data set. -/
def execAnnounceInterval (e : EthId) (s : State) : Host.Outcome State Fault Refusal :=
  if ¬ s.isMaster then .next s
  else
    let p := s.ptp e
    let q := (p.annSeq + 1) % 65536
    let r : List Int := (annRank s.ownAnn).map (fun (v : Nat) => (v : Int))
    .next ((s.setPtp e { p with annSeq := q }).emit (.ptp e 11 ((q : Int) :: r)))

/-- DELAY_REQ (R570): the master answers with its receive timestamp. -/
def execDelayReq (e : EthId) (m : PtpMsg) (s : State) : Host.Outcome State Fault Refusal :=
  if ¬ s.isMaster ∨ s.flag timCtrlP2p then .next s
  else .next (s.emit (.ptp e 9 [m.seq, m.src, s.taiFine m.sub.val, m.corr]))

/-- The transparent clock forwards (R579, R601). PRESUMED: assumption 107. -/
def State.transitOn (s : State) : Bool := s.flag (timPortTcEn 0) && s.flag (timPortTcEn 1) && s.flag fabCtrlBridge

/-- PTP_TRANSIT (R579, R580): the residence time enters the correctionField of a one-step Sync or Delay_Req, or of
the Follow_Up of a two-step Sync; in P2P also the ingress port's link delay and asymmetry. PRESUMED: assumption 107. -/
def execPtpTransit (e : EthId) (m : PtpMsg) (kind : TransitKind) (dwell : Nat) (s : State) : Host.Outcome State Fault Refusal :=
  if (s.flag (timPortTcEn 0) ∧ s.flag (timPortOneStep 0)) ∨ (s.flag (timPortTcEn 1) ∧ s.flag (timPortOneStep 1)) then
    .fault (.undefinedBehaviour .tcOneStep)
  else if ¬ s.ptpOn ∨ ¬ s.transitOn then .next s
  else
    let o := 1 - e.val
    let key := m.src * 65536 + m.seq
    let extra : Int := if s.flag timCtrlP2p then (s.ptp e).delay + s.asym e else 0
    let b : List Int := [m.seq, m.src, m.origin]
    match kind with
    | .sync =>
      if m.twoStep then
        .next (({ s with tim := { s.tim with residence := tblSet s.tim.residence 0 key (dwell + extra) } }).emit (.ptp o 0 (b ++ [m.corr])))
      else .next (s.emit (.ptp o 0 (b ++ [m.corr + dwell + extra])))
    | .followUp =>
      let r := tblGet s.tim.residence 0 key
      .next (({ s with tim := { s.tim with residence := tblErase key s.tim.residence } }).emit (.ptp o 8 (b ++ [m.corr + r])))
    | .delayReq => if s.flag timCtrlP2p then .next s else .next (s.emit (.ptp o 1 (b ++ [m.corr + dwell])))
    | .delayResp => if s.flag timCtrlP2p then .next s else .next (s.emit (.ptp o 9 (b ++ [m.corr])))

/-! ### Holdover in NIGHT and seconds -/

/-- AO_TRIM_MEASURE (R594): the correction of the always-on clock, measured while LOCKED.
DESIGN CHOICE: assumption 110. -/
def execAoTrimMeasure (trim : Int) (s : State) : Host.Outcome State Fault Refusal :=
  if s.fld timStatusServo = 2 then
    .next (({ s with tim := { s.tim with aoTrim := trim },
                     pwr := { s.pwr with flash := { s.pwr.flash with aoTrim := trim } } }).setFldInt timAoTrimF trim)
  else .next s

/-- TAI_SECOND (R598): TAI has passed a whole second. -/
def execTaiSecond (s : State) : Host.Outcome State Fault Refusal :=
  let n := s.taiNs / 1000000000
  if s.tim.second < n then .next (({ s with tim := { s.tim with second := n } }).fire 285) else .next s

end Sys2Proof.Machine
end

