-- ==== Sys2Proof/Machine/Axes.lean ====
section
/-! DEFINITION. The marker axes (R664 to R697): coil currents, segments, firmware moves, stops and faults,
compares, the mark service, and the axis descriptors. -/

namespace Sys2Proof.Machine

/-! ### Curves -/

/-- The cubic Hermite curve of a segment at `t` ns from its start, in binary64, in the order written (R674, R675). -/
def segPos (p0 v0 : Int) (g : Segment) (t : Nat) : Int :=
  let T := f64OfRat g.dur 1000000000
  let u := (f64OfRat t 1000000000).div T
  let u2 := u.mul u; let u3 := u2.mul u
  let k (n : Int) := f64OfInt n
  let a := ((((k 2).mul u3).sub ((k 3).mul u2)).add (k 1)).mul (k p0)
  let b := (((u3.sub ((k 2).mul u2)).add u).mul T).mul (k v0)
  let c := ((((k (-2)).mul u3).add ((k 3).mul u2))).mul (k g.pos)
  let d := ((u3.sub u2).mul T).mul (k g.vel)
  (((a.add b).add c).add d).round

/-- Commanded velocity of a segment at `t` ns, in microsteps/s, rounded to nearest even (R696). -/
def segVel (p0 v0 : Int) (g : Segment) (t : Nat) : Int :=
  let T : Int := g.dur; let x : Int := t; let n : Int := 1000000000
  rdiv ((6 * x * x - 6 * x * T) * (p0 - g.pos) * n + (3 * x * x - 4 * x * T + T * T) * T * v0 +
    (3 * x * x - 2 * x * T) * T * g.vel) (max 1 (T * T * T))

/-- |p'| stays at or below 4 000 000 at both ends and at the vertex of p' inside the segment (R676). -/
def segSpeedOk (p0 v0 : Int) (g : Segment) : Bool :=
  let T : Int := g.dur; let n : Int := 1000000000; let lim : Int := 4000000
  let A := 6 * n * (p0 - g.pos) + 3 * T * (v0 + g.vel)
  let B := -6 * n * (p0 - g.pos) - T * (4 * v0 + 2 * g.vel)
  let C := T * v0
  let inside := if 0 < A then decide (B < 0 ∧ -B < 2 * A) else if A < 0 then decide (0 < B ∧ B < -2 * A) else false
  decide (v0.natAbs ≤ lim ∧ g.vel.natAbs ≤ lim) &&
    (!inside || decide ((4 * A * C - B * B).natAbs ≤ lim * T * (4 * A).natAbs))

/-- Largest `r` with `r² ≤ n`. -/
def isqrt (n : Nat) : Nat :=
  (List.range (n.log2 / 2 + 1)).reverse.foldl (fun r i => if (r + 2 ^ i) * (r + 2 ^ i) ≤ n then r + 2 ^ i else r) 0

/-- Turning points of a segment's curve inside it, as times in ns (R673). -/
def segTurns (p0 v0 : Int) (g : Segment) : List Nat :=
  let T : Int := g.dur; let n : Int := 1000000000
  let A := 6 * n * (p0 - g.pos) + 3 * T * (v0 + g.vel)
  let B := -6 * n * (p0 - g.pos) - T * (4 * v0 + 2 * g.vel)
  let C := T * v0
  let D := B * B - 4 * A * C
  let ts := if A = 0 then (if B = 0 then [] else [rdiv (-C * T * (if B < 0 then -1 else 1)) B.natAbs])
    else if D < 0 then []
    else
      let r : Int := isqrt D.toNat
      let sg : Int := if A < 0 then -1 else 1
      [rdiv ((-B + r) * T * sg) (2 * A.natAbs), rdiv ((-B - r) * T * sg) (2 * A.natAbs)]
  (ts.filter (fun t => decide (0 < t ∧ t < T))).map Int.toNat

/-- A segment's curve stays within the travel limits (R673). -/
def segInside (lo hi p0 v0 : Int) (g : Segment) : Bool :=
  (g.pos :: (segTurns p0 v0 g).map (segPos p0 v0 g)).all (fun p => decide (lo ≤ p ∧ p ≤ hi))

/-! ### Firmware profiles (R678 to R680) -/

/-- A stretch of constant acceleration from (`p`, `v0`) to velocity `v1` at position `q` over `ns`, cut so that no
piece exceeds the longest duration of R674. -/
def rampPieces (p v0 v1 q : Int) (ns : Nat) : List Segment :=
  let k := ns / 4000000000 + 1
  (List.range k).map (fun j =>
    let v := v0 + (v1 - v0) * (j + 1) / k
    let x := p + rdiv ((2 * v0 * (j + 1) * k + (v1 - v0) * (j + 1) * (j + 1)) * ns) (2 * k * k * 1000000000 : Nat)
    if j + 1 = k then ⟨max 10000 (ns / k), v1, q⟩ else ⟨max 10000 (ns / k), v, x⟩)

/-- Duration in ns of a velocity change `dv` at rate `a`. -/
def rampNs (dv a : Nat) : Nat := (rdiv (dv * 1000000000 : Nat) (max 1 a : Nat)).toNat

/-- The trapezoid from (`p`, `v0`) to a target ahead, in direction `sg` (R679 step 2, R680): `v0` is a magnitude. -/
def trapAhead (sg p : Int) (v0 v a d : Nat) (target : Int) : List Segment :=
  let D := (target - p).natAbs
  if D = 0 ∧ v0 = 0 then []
  else
    let vp2 := (2 * a * d * D + d * v0 * v0) / (max 1 (a + d))
    let vp := max v0 (min v (isqrt vp2))
    let s1 : Int := (rdiv (vp * vp - v0 * v0 : Nat) (2 * max 1 a : Nat))
    let s3 : Int := (rdiv (vp * vp : Nat) (2 * max 1 d : Nat))
    let q1 := p + sg * s1; let q2 := target - sg * s3
    let cruise := ((q2 - q1) * sg).toNat
    (if vp = v0 then [] else rampPieces p (sg * v0) (sg * vp) q1 (rampNs (vp - v0) a)) ++
    (if cruise = 0 ∨ vp < v then [] else rampPieces q1 (sg * vp) (sg * vp) q2 (rampNs cruise vp)) ++
    rampPieces (if vp < v then q1 else q2) (sg * vp) 0 target (rampNs vp d)

/-- The sign of a direction, 1 for none. -/
def dirOf (x : Int) : Int := if x < 0 then -1 else 1

/-- The profile from (`p`, `v0`) to a target (R679), and whether it passes the target and returns. -/
def profile (p v0 target : Int) (v a d : Nat) : List Segment × Bool :=
  let m := v0.natAbs; let sg := dirOf v0
  -- step 1: decelerate to v
  let pre := if v < m then [(v, p + sg * rdiv (m * m - v * v : Nat) (2 * max 1 d : Nat))] else []
  let m1 := if v < m then v else m
  let p1 := match pre with | (_, q) :: _ => q | [] => p
  let seg1 := if v < m then rampPieces p v0 (sg * v) p1 (rampNs (m - v) d) else []
  if m1 = 0 then (seg1 ++ trapAhead (dirOf (target - p1)) p1 0 v a d target, false)
  else
    let ahead := (target - p1) * sg
    if decide (0 ≤ ahead) && decide ((m1 * m1 : Int) ≤ 2 * d * ahead) then (seg1 ++ trapAhead sg p1 m1 v a d target, false)
    else
      let ps := p1 + sg * rdiv (m1 * m1 : Nat) (2 * max 1 d : Nat)
      (seg1 ++ rampPieces p1 (sg * m1) 0 ps (rampNs m1 d) ++ trapAhead (dirOf (target - ps)) ps 0 v a d target, decide (0 ≤ ahead))

/-- Total duration of segments in ns. -/
def segsNs (l : List Segment) : Nat := l.foldl (fun n g => n + g.dur) 0

/-! ### Registers and currents -/

/-- The MARKER record of axis `x` in the live plan (R396). -/
def State.axPlan (s : State) (x : Nat) : Option AxisPlan :=
  match s.pln.plan with
  | none => none
  | some p => planEntry p.outs.axes x

/-- AX_POS, AX_VEL, AX_SEGMENTS and AX_COMPARE follow the axis (R696). -/
def State.axRegs (s : State) (x : Nat) : State :=
  let a := s.ax x
  let armed := a.compares.foldl (fun m c => m ||| 2 ^ c.unit) 0
  ((((s.setInt64 (axPosLo x) a.p).setFldInt (axVelF x) (satS 32 a.v)).setFld (axSegmentsF x) a.segs.length).setFld
    (axCompareArmed x) armed).setFld (axCompareQueued x) a.marks.length

/-- The rms current in force: run or hold, under the derated value (R665) and the input-current cut (R754). -/
def State.axCurrent (s : State) (x : Nat) : Nat :=
  let i := if s.flag (axStatusHold x) then s.fld (axCurrentHoldMa x) else s.fld (axCurrentRunMa x)
  let l := match (s.ax x).limitMa with | some m => min i m | none => i
  l * (s.ax x).cutPercent / 100

/-- Entry `k` of the axis's sine table; the default table is that of R666. -/
def AxSt.sineAt (a : AxSt) (k : Nat) : Int := if a.sine.isEmpty then intAt defaultSine k else intAt a.sine k

/-- Phase current `i` mA at electrical index `k` (R664). -/
def phaseMa (a : AxSt) (i k : Nat) : Int := rdiv (i * 46341 * a.sineAt (k % 1024)) 1073709056

/-- The electrical index φ (R664). -/
def AxSt.phase (a : AxSt) : Nat := (a.p % 1024).toNat

/-- Commanded current of phase A or B (R664). -/
def State.phaseRef (s : State) (x : Nat) (b : Bool) : Int :=
  phaseMa (s.ax x) (s.axCurrent x) ((s.ax x).phase + if b then 256 else 0)

/-- The bridges regulate to the present commands, or are off. -/
def State.axCoils (s : State) (x : Nat) : State :=
  if (s.ax x).coilsOn then s.emit (.coils x true (s.phaseRef x false) (s.phaseRef x true)) else s.emit (.coils x false 0 0)

/-- POS_UNCERTAIN becomes 1 (R671, R697). -/
def State.axUncertain (s : State) (x : Nat) : State :=
  (s.setFld (axStatusPosUncertain x) 1).fireIf (!s.flag (axStatusPosUncertain x)) (320 + 10 * x + 8)

/-- Cross-web position of the carriage in nm (R670). -/
def State.axisNm (s : State) (x : Nat) (p : Int) : Int :=
  match s.axPlan x with | none => 0 | some a => rnd (p * a.scale) 16

/-- The microstep target of a cross-web position (R670). -/
def axisTarget (a : AxisPlan) (x : Int) : Int := if a.scale = 0 then 0 else rdiv (x * 65536) a.scale

/-- The result of an axis descriptor (R557). -/
def State.axResult (s : State) (x : Nat) (overshoot : Bool) : List Byte :=
  leBytes 8 (ofSigned 64 (s.ax x).p) ++ leBytes 2 (b2n overshoot + 2 * s.fld (axStatusPosUncertain x))

/-- Complete an axis descriptor of a host session. -/
def State.axFinish (s : State) (x n idx status : Nat) (overshoot : Bool) : State :=
  if n < 4 then s.finishDesc n idx status (s.axResult x overshoot) else s

/-! ### Compares (R689 to R692) -/

/-- The marker output's pulse of axis `x` (R692). -/
def State.markerPulse (s : State) (x : Nat) : State :=
  match s.axPlan x with
  | none => s
  | some a => if s.flag (axCtrlEnable x) then s.toutRiseW (s.fld (axCtrlMarkTout x)) a.width s.taiNs else s

/-- Take a compare off its axis; a host's claim on the unit ends (R715). -/
def State.dropCompare (s : State) (x : Nat) (c : Compare) : State :=
  let a := s.ax x
  let a1 := { a with compares := a.compares.filter (fun d => decide (d.unit ≠ c.unit)),
                     marking := if c.sess < 4 then a.marking else none }
  let s := (s.setAx x a1).axRegs x
  if c.unit < 4 then s else s.setClaim 1 (8 * x + c.unit) none

/-- A compare fires (R692, R307): pulse, counters, events, the pennant of kind 5 and the descriptor. -/
def State.fireCompare (s : State) (x : Nat) (c : Compare) (late : Bool) : State :=
  let off := match s.axPlan x with | none => 0 | some a => a.offset
  let y := s.webPos - off
  let xn := s.axisNm x (s.ax x).p
  let host := decide (c.sess < 4)
  let down := if host ∧ ¬ c.web then 0 else if c.web then satU 32 (rdiv (y - c.target).natAbs 1000) else 0
  let cross := if host ∧ c.web then 0 else
    let want := if host then s.axisNm x c.target else c.cross
    satU 32 (rdiv (xn - want).natAbs 1000)
  let sus := s.flag (encStatusEncoderSuspect s.refEnc)
  let unc := s.flag (axStatusPosUncertain x)
  let p : Pennant :=
    { seq := 0, time := s.taiNs, y := y, x := xn, len := down, wid := cross, area := 0, cls := c.cls, addr := s.selfAddr,
      ctxByte := c.ctxByte, kind := 5, flags := b2n late + qualityFlags sus unc false, peak := x, mean := 0, low := c.low,
      due := 0 }
  let pos := if c.web then s.webPos else (s.ax x).p
  let s := (s.dropCompare x c).markerPulse x
  let s := (s.bump (axCntFiredF x) 1).fire (320 + 10 * x + 1)
  let s := if late then (s.bump (axCntLateF x) 1).fire (320 + 10 * x + 2) else s
  let t := s.taiNs
  let s := s.penEnter p 0 0
  if host then s.finishDesc c.sess c.desc 0 (leBytes 8 t ++ leBytes 8 (ofSigned 64 pos) ++ leBytes 1 (b2n late)) else s

/-- A compare is discarded with MISSED (R687, R691). -/
def State.missCompare (s : State) (x : Nat) (c : Compare) : State :=
  let pos := if c.web then s.webPos else (s.ax x).p
  let s := ((s.dropCompare x c).bump (axCntMissedF x) 1).fire (320 + 10 * x + 3)
  if c.sess < 4 then s.finishDesc c.sess c.desc 0 (leBytes 8 0 ++ leBytes 8 (ofSigned 64 pos) ++ leBytes 1 2) else s

/-- The compare value of a web compare: its web position and the marker offset (R689). -/
def State.compareValue (s : State) (x : Nat) (c : Compare) : Int :=
  c.target + (match s.axPlan x with | none => 0 | some a => a.offset)

/-- The compare is armed after its target has passed (R691). -/
def State.compareBehind (s : State) (x : Nat) (c : Compare) : Bool :=
  let a := s.ax x
  if c.web then decide (s.compareValue x c ≤ s.webPos)
  else if c.falling then decide (a.v < 0 ∧ a.p < c.target) else decide (0 < a.v ∧ c.target < a.p)

/-- Arm a compare (R691). -/
def State.armCompare (s : State) (x : Nat) (c : Compare) : State :=
  let s1 := (s.setAx x { s.ax x with compares := (s.ax x).compares ++ [c] }).axRegs x
  if s.compareBehind x c then (if c.drop then s1.missCompare x c else s1.fireCompare x c true) else s1

/-- Web compares of every axis that a forward count edge reaches (R689). -/
def State.webCompares (s : State) : State :=
  [0, 1].foldl (fun s x => (s.ax x).compares.foldl (fun s c =>
    if c.web && decide (s.compareValue x c ≤ s.webPos) then s.fireCompare x c false else s) s) s

/-- Axis compares that a move of the commanded position from `p` to `q` crosses (R690). -/
def State.axisCompares (s : State) (x : Nat) (p q : Int) : State :=
  (s.ax x).compares.foldl (fun s c =>
    let hit := if c.falling then decide (c.target < p ∧ q ≤ c.target) else decide (p < c.target ∧ c.target ≤ q)
    if !c.web && hit then s.fireCompare x c false else s) s

/-! ### Marks (R693) -/

/-- A mark request is skipped (R693). -/
def State.skipMark (s : State) (x : Nat) : State := (s.bump (axCntMarkSkippedF x) 1).fire (320 + 10 * x + 4)

/-- Insert a mark in rising order of compare value. -/
def insertMark (m : Mark) : List Mark → List Mark
  | [] => [m]
  | k :: r => if m.value < k.value then m :: k :: r else k :: insertMark m r

/-- A mark request of the pennant unit (R331, R693): at most 256 are held. -/
def State.markRequest (s : State) (x : Nat) (m : Mark) : State :=
  let a := s.ax x
  if 256 ≤ a.marks.length then s.skipMark x
  else (s.setAx x { a with marks := insertMark m a.marks }).axRegs x

/-- Every queued mark request of the axis is skipped (R684, R687). -/
def State.skipMarks (s : State) (x : Nat) : State :=
  let a := s.ax x
  let n := a.marks.length
  ((List.range n).foldl (fun s _ => s.skipMark x) (s.setAx x { a with marks := [] })).axRegs x

/-! ### Motion -/

/-- The axis is in state `v` (R695). -/
def State.axIs (s : State) (x v : Nat) : Bool := decide (s.fld (axStatusState x) = v)

/-- The axis moves. -/
def State.axMoving (s : State) (x : Nat) : Bool := !(s.ax x).segs.isEmpty

/-- Begin segments from the present position and velocity, at run current (R665, R674). -/
def State.beginSegs (s : State) (x st : Nat) (segs : List Segment) : State :=
  let a := s.ax x
  let s := s.setAx x { a with segs := segs, segStart := s.taiNs, p0 := a.p, v0 := a.v }
  ((s.setFld (axStatusState x) st).setFld (axStatusHold x) 0).axRegs x

/-- Motion has ended at standstill: descriptors complete, MOVE_DONE fires, a waiting table begins (R677, R684, R697). -/
def State.endMotion (s : State) (x : Nat) : State :=
  let a := s.ax x
  let passed := match a.move with | some m => m.overshoot | none => false
  let ends := a.ending ++ (match a.move with | some m => [(m.sess, m.desc, 0)] | none => []) ++
    (match a.raw with | some r => [(r.sess, r.desc, 0)] | none => [])
  let s := s.setAx x { a with segs := [], v := 0, v0 := 0, p0 := a.p, move := none, raw := none, ending := [], endedAt := s.taiNs }
  let s := ((s.setFld (axStatusState x) 1).axRegs x).fire (320 + 10 * x)
  let s := ends.foldl (fun (s : State) (e : Nat × Nat × Nat) => s.axFinish x e.1 e.2.1 e.2.2 passed) s
  match (s.ax x).nextRaw with
  | some r =>
    if r.start = 0 then (s.setAx x { s.ax x with nextRaw := none, raw := some r }).beginSegs x 3 r.segs else s
  | none => s

/-- The descriptors that a stop ends with status 10 (R684). -/
def AxSt.stopped (a : AxSt) : List (Nat × Nat × Nat) :=
  (match a.move with | some m => [(m.sess, m.desc, 10)] | none => []) ++
  (match a.newMove with | some m => [(m.sess, m.desc, 10)] | none => []) ++
  (match a.raw with | some r => [(r.sess, r.desc, 10)] | none => []) ++
  (match a.nextRaw with | some r => [(r.sess, r.desc, 10)] | none => [])

/-- A hard stop (R684): step generation stops at once and the coils hold φ at run current. `extra` completes too.
DEDUCED: assumption 111. -/
def State.hardStop (s : State) (x : Nat) (extra : List (Nat × Nat × Nat)) : State :=
  let a := s.ax x
  let s := if a.v ≠ 0 then s.axUncertain x else s
  let ends := a.ending ++ a.stopped ++ extra
  let moving := !a.segs.isEmpty
  let s := s.setAx x { a with segs := [], v := 0, move := none, newMove := none, newLims := none, raw := none, nextRaw := none,
                              ending := [], endedAt := if moving then s.taiNs else a.endedAt }
  let s := (if moving then (s.setFld (axStatusState x) 1).fire (320 + 10 * x) else s).axRegs x
  ends.foldl (fun (s : State) (e : Nat × Nat × Nat) => s.axFinish x e.1 e.2.1 e.2.2 false) ((s.skipMarks x).axCoils x)

/-- The deceleration limit in force: the running move's, else the MARKER record's (R684). -/
def State.axDec (s : State) (x : Nat) : Nat :=
  match (s.ax x).move, s.axPlan x with
  | some m, _ => m.dec
  | none, some a => a.dec
  | none, none => 0

/-- A ramped stop (R684): decelerate to a stop; without a deceleration limit there is only the hard stop.
DEDUCED: assumption 111. -/
def State.rampedStop (s : State) (x : Nat) (extra : List (Nat × Nat × Nat)) : State :=
  let a := s.ax x
  let d := s.axDec x
  if a.v = 0 ∨ d = 0 then s.hardStop x extra
  else
    let sg := dirOf a.v
    let ps := a.p + sg * rdiv (a.v.natAbs * a.v.natAbs : Nat) (2 * d : Nat)
    let s := s.setAx x { a with move := none, newMove := none, newLims := none, raw := none, nextRaw := none,
                                ending := a.ending ++ a.stopped ++ extra }
    (s.beginSegs x 4 (rampPieces a.p a.v 0 ps (rampNs a.v.natAbs d))).skipMarks x

/-- A stop, hard or ramped, of an axis that is on and not in fault (R684, R685). DEDUCED: assumption 111. -/
def State.axStop (s : State) (x : Nat) (ramped : Bool) (extra : List (Nat × Nat × Nat)) : State :=
  if ramped then s.rampedStop x extra else s.hardStop x extra

/-- A replan of the running firmware move from the present state (R679, R681). -/
def State.replan (s : State) (x : Nat) (m : AxisMove) (byLimits : Bool) : State :=
  let a := s.ax x
  let r := profile a.p a.v m.target m.vel m.acc m.dec
  let passed := byLimits && r.2
  let s := s.setAx x { a with move := some { m with overshoot := m.overshoot || passed } }
  let s := if passed then (s.setFld (axStatusOvershoot x) 1).fire (320 + 10 * x + 7) else s
  if r.1.isEmpty then (s.setFld (axStatusState x) 2).endMotion x else s.beginSegs x 2 r.1

/-- A target lies outside the travel limits while the position is established (R673). -/
def State.outside (s : State) (x : Nat) (t : Int) : Bool :=
  match s.axPlan x with
  | none => false
  | some a => !s.flag (axStatusPosUncertain x) && decide (t < a.lo ∨ a.hi < t)

/-- A move from `p` to `t` is toward an active limit switch (R685). -/
def State.towardSwitch (s : State) (x : Nat) (p t : Int) : Bool :=
  (s.flag (axStatusLowActive x) && decide (t < p)) || (s.flag (axStatusHighActive x) && decide (p < t))

/-- The web reaches a compare value before a planned arrival and 1 ms of settling (R693). -/
def State.tooLate (s : State) (x : Nat) (c : Compare) (ns : Nat) : Bool :=
  let speed := s.fldInt (encSpeedF s.refEnc) * (match s.pln.plan with | none => 0 | some p => (p.scale : Int))
  decide (0 < speed) && decide ((s.compareValue x c - s.webPos) * 2 ^ 32 * 1000000000 < ((ns : Int) + 1000000) * speed)

/-- Serve the next mark requests of an idle mark service (R693). -/
def State.serveMarks (s : State) (x : Nat) : Nat → State
  | 0 => s
  | fuel + 1 =>
    let a := s.ax x
    match a.marks, s.axPlan x with
    | m :: r, some pl =>
      if a.marking.isSome ∨ ¬ (s.axIs x 1 = true ∨ s.axIs x 2 = true) then s
      else
        let t := axisTarget pl m.cross
        let c : Compare := ⟨0, true, m.value, s.flag (axCtrlDrop x), false, 255, 0, m.low, m.cls, m.ctxByte, m.cross⟩
        let plan := profile a.p a.v t pl.vel pl.acc pl.dec
        let s0 := (s.setAx x { a with marks := r }).axRegs x
        if s.outside x t || s.towardSwitch x a.p t || s.tooLate x c (segsNs plan.1) then (s0.skipMark x).serveMarks x fuel
        else
          let s1 := s0.setAx x { s0.ax x with marking := some m }
          let s2 := s1.replan x ⟨t, pl.vel, pl.acc, pl.dec, 255, 0, false⟩ false
          s2.armCompare x c
    | _, _ => s

/-- MOTION_TICK (R678): what was accepted since the last tick takes effect, and the mark service is served. -/
def execMotionTick (x : AxisId) (s : State) : Host.Outcome State Fault Refusal :=
  let a := s.ax x
  let s := match a.newSine with
    | some t => (s.setAx x { s.ax x with sine := t, newSine := none }).axCoils x
    | none => s
  let s := match a.limitDue with
    | some m => (s.setAx x { s.ax x with limitMa := m, limitDue := none }).axCoils x
    | none => s
  let s := match a.newMove with
    | some m => (s.setAx x { s.ax x with newMove := none }).replan x m false
    | none => s
  let s := match a.newLims, (s.ax x).move with
    | some l, some m =>
      if s.axIs x 2 then (s.setAx x { s.ax x with newLims := none }).replan x { m with vel := l.1, acc := l.2.1, dec := l.2.2 } true
      else s.setAx x { s.ax x with newLims := none }
    | some _, none => s.setAx x { s.ax x with newLims := none }
    | none, _ => s
  let s := match (s.ax x).nextRaw with
    | some r =>
      if r.start = 1 ∧ r.time ≤ s.taiNs then
        let ends : List (Nat × Nat × Nat) := match (s.ax x).move with | some m => [(m.sess, m.desc, 10)] | none => []
        let s := (s.setAx x { s.ax x with nextRaw := none, move := none, raw := some r }).beginSegs x 3 r.segs
        ends.foldl (fun (s : State) (e : Nat × Nat × Nat) => s.axFinish x e.1 e.2.1 e.2.2 false) s
      else s
    | none => s
  .next (s.serveMarks x 257)

/-- Advance the axis to the present time, segment by segment (R675). -/
def State.stepAxis (s : State) (x : Nat) : Nat → State
  | 0 => s
  | fuel + 1 =>
    let a := s.ax x
    match a.segs with
    | [] => s
    | g :: r =>
      let t := s.taiNs - a.segStart
      if t < g.dur then
        let q := segPos a.p0 a.v0 g t
        ((s.setAx x { a with p := q, v := segVel a.p0 a.v0 g t }).axisCompares x a.p q).axRegs x
      else
        let s := (s.setAx x { a with p := g.pos, v := g.vel, p0 := g.pos, v0 := g.vel, segs := r, segStart := a.segStart + g.dur })
        let s := (s.axisCompares x a.p g.pos).axRegs x
        if r.isEmpty then s.endMotion x else s.stepAxis x fuel

/-- STEP_EVALUATION (R675, R690): the step generator sets the commanded position; compares that it crosses fire. -/
def execStepEvaluation (x : AxisId) (s : State) : Host.Outcome State Fault Refusal :=
  if (s.ax x).segs.isEmpty then .next s
  else .next ((s.stepAxis x ((s.ax x).segs.length + 1)).axCoils x)

/-- HOLD_CURRENT_TIMER (R665): 100 ms after motion ended the current falls to the hold current. -/
def execHoldCurrentTimer (x : AxisId) (s : State) : Host.Outcome State Fault Refusal :=
  if s.axIs x 1 && !s.flag (axStatusHold x) && decide ((s.ax x).endedAt + 100000000 ≤ s.taiNs) then
    .next ((s.setFld (axStatusHold x) 1).axCoils x)
  else .next s

/-- CHOPPER_OFFSET_UPDATE (R669): the adaptive offset of a phase from the measured mean current. -/
def execChopperOffsetUpdate (x : AxisId) (phaseB : Bool) (mean : Int) (s : State) : Host.Outcome State Fault Refusal :=
  let f : Fld := if phaseB then axChopOffsetOffsetB x else axChopOffsetOffsetA x
  let e := s.phaseRef x phaseB - mean
  let o := s.fldInt f + rdiv e 4
  let a := s.ax x
  let s := s.setAx x (if phaseB then { a with residB := e.natAbs } else { a with residA := e.natAbs })
  let s := s.setFld (axChopOffsetResidual x) (satU 8 e.natAbs)
  if o.natAbs ≤ 50 then .next (s.setFldInt f o) else .next (s.setFld (axStatusChopLimit x) 1)

/-- LIMIT_SWITCH (R672, R685): a switch has become active for 1 µs; the low one is the home reference. -/
def execLimitSwitch (x : AxisId) (high : Bool) (s : State) : Host.Outcome State Fault Refusal :=
  let f : Fld := if high then axStatusHighActive x else axStatusLowActive x
  let s := (s.setFld f 1).fire (320 + 10 * x + (if high then 6 else 5))
  let a := s.ax x
  let toward := if high then decide (0 < a.v) else decide (a.v < 0)
  if ¬ toward then .next s
  else
    let ramped := if high then s.flag (axCtrlHighRamped x) else s.flag (axCtrlLowRamped x)
    if high then .next (s.axStop x ramped [])
    else
      let lo := match s.axPlan x with | none => a.p | some pl => pl.lo
      let homed := (s.setAx x { a with p := lo }).setFld (axStatusPosUncertain x) 0
      let stopped := (homed.axRegs x).axStop x ramped []
      .next (stopped.setFld (axStatusPosUncertain x) 0)

/-- LIMIT_SWITCH_RELEASE (R685): the switch is closed again. -/
def execLimitSwitchRelease (x : AxisId) (high : Bool) (s : State) : Host.Outcome State Fault Refusal :=
  .next (s.setFld (if high then axStatusHighActive x else axStatusLowActive x) 0)

/-- A fault stops the axis (R687). -/
def State.axFault (s : State) (x cause : Nat) : State :=
  let a := s.ax x
  let off := decide (cause ≤ 4)
  let s := if a.v ≠ 0 ∨ off then s.axUncertain x else s
  let ends := a.ending ++ a.stopped
  let s := s.setAx x { a with segs := [], v := 0, move := none, newMove := none, newLims := none, raw := none, nextRaw := none,
                              ending := [], coilsOn := a.coilsOn && !off, endedAt := s.taiNs }
  let s := ((s.setFld (axStatusState x) 5).setFld (axStatusFault x) cause).setFld (axStatusHold x) 1
  let s := ((s.bump (axCntFaultsF x) 1).fire (320 + 10 * x + 9)).axRegs x
  let s := (s.ax x).compares.foldl (fun s c => s.missCompare x c) s
  ends.foldl (fun (s : State) (e : Nat × Nat × Nat) => s.axFinish x e.1 e.2.1 e.2.2 false) ((s.skipMarks x).axCoils x)

/-- AXIS_FAULT (R686, R687); causes 0, 6 and 7 are unused, and an axis that is off or in fault stays so.
DEDUCED: assumption 111. -/
def execAxisFault (x : AxisId) (cause : Fin 8) (s : State) : Host.Outcome State Fault Refusal :=
  if cause.val = 0 ∨ 5 < cause.val ∨ s.axIs x 0 = true ∨ s.axIs x 5 = true then .next s else .next (s.axFault x cause)

/-- MARKER_OVERLOAD (R794): the marker output turns off for the rest of its pulse. -/
def execMarkerOverload (x : AxisId) (s : State) : Host.Outcome State Fault Refusal :=
  let t := s.fld (axCtrlMarkTout x)
  let o := s.tout t
  if s.flag (axCtrlEnable x) && o.high.isSome && !o.overload then
    .next ((s.setTout t { o with overload := true }).emit (.marker x false))
  else .next s

/-! ### Descriptors -/

/-- The mark service owns the axis's motion (R683). -/
def State.markOwned (s : State) (x : Nat) : Bool :=
  s.inspecting && (match s.pln.plan with
    | none => false
    | some p => p.banks.any (fun b => b.2.seg.actions.any (fun w => bitAt w.toNat (1 + x))))

/-- The cause of a fault has ceased (R687): undervoltage and bridge temperature by their readings; the other causes
cease with the stop. DEDUCED: assumption 111. -/
def State.faultCeased (s : State) (x : Nat) : Bool :=
  match s.fld (axStatusFault x) with
  | 4 => decide (8500 ≤ s.fld pwrInputVin)
  | 2 => decide (s.fldInt pwrTempBridge ≤ 150)
  | _ => true

/-- The effect of an AXIS_MOVE descriptor (R673, R678, R682, R683, R685). DEDUCED: assumption 111. -/
def axisMoveEffect (n : Nat) (d : OutDesc) (s : State) : State :=
  let x := d.par 0x10 1
  let t := d.parInt 0x18
  if 2 ≤ x then s.badParam n d 0x10
  else if t ≠ toSigned 40 (ofSigned 40 t) then s.badParam n d 0x18
  else if 4000000 < d.par 0x20 4 then s.badParam n d 0x20
  else if s.markOwned x then s.owned n d 5
  else match s.axPlan x with
  | none => s.wrongState n d
  | some pl =>
    if s.axIs x 0 || s.axIs x 3 || s.axIs x 4 || s.axIs x 5 then s.wrongState n d
    else if s.outside x t then s.badParam n d 0x18
    else if s.towardSwitch x (s.ax x).p t then s.wrongState n d
    else
      let pick (off dflt : Nat) : Nat := if d.par off 4 = 0 then dflt else d.par off 4
      let m : AxisMove := ⟨t, pick 0x20 pl.vel, pick 0x24 pl.acc, pick 0x28 pl.dec, n, d.idx, false⟩
      let a := s.ax x
      let olds := (match a.newMove with | some o => [(o.sess, o.desc)] | none => []) ++
        (match a.move with | some o => [(o.sess, o.desc)] | none => [])
      let move := match a.move with | some o => some { o with sess := 255 } | none => none
      olds.foldl (fun (s : State) (e : Nat × Nat) => s.axFinish x e.1 e.2 10 false) (s.setAx x { a with newMove := some m, move := move })

/-- AXIS_MOVE (0x40). -/
def execAxisMove (n : SessId) (idx : Nat) (s : State) : Host.Outcome State Fault Refusal :=
  .next (s.runDesc n idx 0x40 modesMNAX (axisMoveEffect n))

/-- The effect of an AXIS_LIMITS descriptor (R681, R683); zero limits are out of range. DEDUCED: assumption 111. -/
def axisLimitsEffect (n : Nat) (d : OutDesc) (s : State) : State :=
  let x := d.par 0x10 1
  let v := d.par 0x14 4; let a := d.par 0x18 4; let c := d.par 0x1C 4
  if 2 ≤ x then s.badParam n d 0x10
  else if v = 0 ∨ 4000000 < v then s.badParam n d 0x14
  else if a = 0 then s.badParam n d 0x18
  else if c = 0 then s.badParam n d 0x1C
  else if s.markOwned x then s.owned n d 5
  else (s.setAx x { s.ax x with newLims := some (v, a, c) }).doneDesc n d []

/-- AXIS_LIMITS (0x41). -/
def execAxisLimits (n : SessId) (idx : Nat) (s : State) : Host.Outcome State Fault Refusal :=
  .next (s.runDesc n idx 0x41 modesMNAX (axisLimitsEffect n))

/-- Start a load from the device address at parameter `off`: the RDMA READ that brings it, or the translation-fault status
(R472); an address outside the host space is no parameter (R465). -/
def State.loadRead (s : State) (n : Nat) (d : OutDesc) (off len : Nat) (why : ReadFor) : State :=
  let dev := d.par off 8
  if !devHost dev then s.badParam n d off else
  let w := s.hostRead dev len why 6 0
  match w.2 with
  | some _ => w.1.finishDesc n d.idx 7 []
  | none => w.1

/-- The effect of an AXIS_TABLE descriptor: its checks, then the read of the table (R677). -/
def axisTableEffect (n : Nat) (d : OutDesc) (s : State) : State :=
  let x := d.par 0x10 1
  if 2 ≤ x then s.badParam n d 0x10
  else if 2 ≤ d.par 0x11 1 then s.badParam n d 0x11
  else if d.par 0x12 2 = 0 ∨ 1024 < d.par 0x12 2 then s.badParam n d 0x12
  else if s.markOwned x then s.owned n d 5
  else if (s.axPlan x).isNone || s.axIs x 0 || s.axIs x 4 || s.axIs x 5 || (s.ax x).nextRaw.isSome then s.wrongState n d
  else s.loadRead n d 0x20 (16 * d.par 0x12 2 + 16) (.segments d.idx)

/-- AXIS_TABLE (0x42). -/
def execAxisTable (n : SessId) (idx : Nat) (s : State) : Host.Outcome State Fault Refusal :=
  .next (s.runDesc n idx 0x42 modesMNAX (axisTableEffect n))

/-- The segments of a raw table (R677). -/
def rawSegs (b : List Byte) : Nat → Nat → List Segment
  | 0, _ => []
  | k + 1, o => ⟨leAt b o 4, toSigned 32 (leAt b (o + 4) 4), toSigned 64 (leAt b (o + 8) 8)⟩ :: rawSegs b k (o + 16)

/-- Every segment of a table is legal from its start state (R674, R676, R673). -/
def segsOk (lim : Option (Int × Int)) : Int → Int → List Segment → Bool
  | _, v, [] => decide (v = 0)
  | p, v, g :: r =>
    decide (10000 ≤ g.dur ∧ g.pos = toSigned 40 (ofSigned 40 g.pos)) && segSpeedOk p v g &&
      (match lim with | some l => segInside l.1 l.2 p v g | none => true) && segsOk lim g.pos g.vel r

/-- Where the present motion will end. -/
def AxSt.finalPos (a : AxSt) : Int := match a.segs.getLast? with | some g => g.pos | none => a.p

/-- The table read for an AXIS_TABLE arrives (R676, R677). -/
def axisTableLoaded (n : Nat) (d : OutDesc) (b : List Byte) (s : State) : State :=
  let x := d.par 0x10 1; let k := d.par 0x12 2
  let segs := rawSegs b k 0
  let a := s.ax x
  let start := if d.par 0x11 1 = 1 then (a.p, a.v) else (a.finalPos, 0)
  let lim := match s.axPlan x with
    | some pl => if s.flag (axStatusPosUncertain x) then none else some (pl.lo, pl.hi)
    | none => none
  if leAt b (16 * k) 4 ≠ (crc32c (slice b 0 (16 * k))).toNat ∨ segsOk lim start.1 start.2 segs = false then s.badParam n d 0x20
  else if s.towardSwitch x start.1 ((segs.map Segment.pos).headD start.1) then s.wrongState n d
  else
    let r : RawTable := ⟨segs, d.par 0x11 1, d.par 0x18 8, n, d.idx⟩
    if d.par 0x11 1 = 0 ∧ s.axMoving x = false then (s.setAx x { a with raw := some r }).beginSegs x 3 segs
    else s.setAx x { a with nextRaw := some r }

/-- The effect of an AXIS_STOP descriptor (R684, R687). -/
def axisStopEffect (n : Nat) (d : OutDesc) (s : State) : State :=
  let x := d.par 0x10 1
  if 2 ≤ x then s.badParam n d 0x10
  else if 2 ≤ d.par 0x11 1 then s.badParam n d 0x11
  else if s.axIs x 5 then
    if s.faultCeased x then
      let s := ((s.setFld (axStatusState x) 1).setFld (axStatusFault x) 0).setFld (axStatusHold x) 1
      ((s.setAx x { s.ax x with coilsOn := true }).axCoils x).axFinish x n d.idx 0 false
    else s.wrongState n d
  else s.axStop x (decide (d.par 0x11 1 = 1)) [(n, d.idx, 0)]

/-- AXIS_STOP (0x43), accepted in every mode. -/
def execAxisStop (n : SessId) (idx : Nat) (s : State) : Host.Outcome State Fault Refusal :=
  .next (s.runDesc n idx 0x43 modesAll (axisStopEffect n))

/-- The first of units 4 to 7 that no compare uses. -/
def State.freeUnit (s : State) (x : Nat) : Option Nat :=
  [4, 5, 6, 7].find? (fun u => (s.claimOf 1 (8 * x + u)).isNone)

/-- The effect of a COMPARE_ARM descriptor (R689 to R691, R713). The manual names no context for the pennant of a host
compare: its context byte is a free value below 12 (assumption 3). -/
def compareArmEffect (n : Nat) (d : OutDesc) (s : State) : State :=
  let x := d.par 0x10 1
  if 2 ≤ x then s.badParam n d 0x10
  else if 2 ≤ d.par 0x11 1 then s.badParam n d 0x11
  else if 2 ≤ d.par 0x12 1 then s.badParam n d 0x12
  else if 2 ≤ d.par 0x13 1 then s.badParam n d 0x13
  else match s.freeUnit x, s.axPlan x with
  | some u, some _ =>
    let f := s.takeFree 12
    let c : Compare := ⟨u, decide (d.par 0x11 1 = 0), d.parInt 0x18, decide (d.par 0x12 1 = 1), decide (d.par 0x13 1 = 1),
      n, d.idx, 0, 0, f.1, 0⟩
    (f.2.setClaim 1 (8 * x + u) (some (ownerOf n))).armCompare x c
  | _, _ => s.wrongState n d

/-- COMPARE_ARM (0x44). -/
def execCompareArm (n : SessId) (idx : Nat) (s : State) : Host.Outcome State Fault Refusal :=
  .next (s.runDesc n idx 0x44 modesMNA (compareArmEffect n))

/-- The effect of a SINE_LOAD descriptor: the read of the table (R666). -/
def sineLoadEffect (n : Nat) (d : OutDesc) (s : State) : State :=
  if 2 ≤ d.par 0x10 1 then s.badParam n d 0x10 else s.loadRead n d 0x18 2056 (.sine d.idx)

/-- SINE_LOAD (0x45); a load while the axis moves is undefined behaviour (R667, R780). -/
def execSineLoad (n : SessId) (idx : Nat) (s : State) : Host.Outcome State Fault Refusal :=
  match s.startable n idx with
  | some d =>
    if d.opcode = 0x45 ∧ modesMX.contains s.mode = true ∧ d.par 0x10 1 < 2 ∧ s.axMoving (d.par 0x10 1) = true then
      .fault (.undefinedBehaviour .sineWhileMoving)
    else .next (s.runDesc n idx 0x45 modesMX (sineLoadEffect n))
  | none => .next s

/-- The entries of a sine table (R666). -/
def sineEntries (b : List Byte) : List Int := (List.range 1024).map (fun k => toSigned 16 (leAt b (2 * k) 2))

/-- A sine table is legal (R666). -/
def sineOk (b : List Byte) : Bool :=
  let t := sineEntries b
  decide (leAt b 2048 4 = (crc32c (slice b 0 2048)).toNat) && t.all (fun v => decide (v ≠ -32768)) &&
    (List.range 512).all (fun k => decide (intAt t (k + 512) = -intAt t k))

/-- The table read for a SINE_LOAD arrives (R666): it applies from the next motion tick. -/
def sineLoaded (n : Nat) (d : OutDesc) (b : List Byte) (s : State) : State :=
  let x := d.par 0x10 1
  if sineOk b then (s.setAx x { s.ax x with newSine := some (sineEntries b) }).doneDesc n d [] else s.badParam n d 0x18

end Sys2Proof.Machine
end

