-- ==== Sys2Proof/Machine/Faults.lean ====
section
/-! DEFINITION. Faults and requests to the Planner that several blocks share (R402, R413, R418, R420, R421, R774). -/

namespace Sys2Proof.Machine

/-- Power domain `d` is on or off (R743, R818). -/
def State.setDomain (s : State) (d : Nat) (on : Bool) : State :=
  if d < 32 then s.setFlag ⟨pwrDomainsLo, d, 1⟩ on else s.setFlag ⟨pwrDomainsHi, d - 32, 1⟩ on

/-- LAST_STATUS after a compile, commit or bank update, and its count where it was refused (R424, R425). -/
def State.planStatus (s : State) (st : Nat) : State :=
  (s.setFld plnStatusLastStatus st).bump plnCntRefusedF (if st = 0 then 0 else 1)

/-- A refusal by the Planner: completion status 12 with the Planner block (R413, R557, R558). -/
def State.planRefuse (s : State) (n idx : Nat) (st : PlanStatus) : State :=
  (s.planStatus st.status).finishDesc n idx 12 (planBlock st)

/-- The committed plan yields to a fault switch (R402): status 17. -/
def State.dropCommit (s : State) : State :=
  match s.pln.commit with
  | none => s
  | some w =>
    let s := { s with pln := { s.pln with commit := none } }
    if w.sess < 4 then s.planRefuse w.sess w.desc ⟨17, 0, 0, 0⟩ else s.planStatus 17

/-- Fallback `n` is ready (R417). -/
def State.fallbackReady (s : State) (n : Nat) : Bool := bitAt (s.fld (plnFbReadyF (n / 32))) (n % 32)

/-- A fault that has fallback plan `n` (R415, R418): its image is to be loaded, or, while an earlier fault's switch is
pending, it waits (R420). Nothing switches in NIGHT or in a start (R762, R773), or without a plan.
DEDUCED: assumption 18. -/
def State.planFault (s : State) (n : Nat) : State :=
  if 3 ≤ s.mode ∧ s.pln.plan.isSome = true then
    let s := s.dropCommit
    match s.pln.fault with
    | none => { s with pln := { s.pln with fault := some n, loaded := false } }
    | some m =>
      if m = n ∨ s.pln.queued.contains n = true then s
      else { s with pln := { s.pln with queued := s.pln.queued ++ [n] } }
  else s

/-- A fault of the catalogue (R774, R775): its journal entry, and its fallback where it has one. -/
def State.catalogue (s : State) (kind resource : Nat) (fallback : Option Nat) : State :=
  let s := s.faultEntry kind resource
  match fallback with
  | none => s
  | some n => s.planFault n

/-- The Planner compiles a recipe by itself, to commit it itself (R397, R421, R831).
DESIGN CHOICE: assumption 45; DEDUCED: assumption 63. -/
def State.selfCompile (s : State) (recipe : List Byte) : State :=
  if s.pln.compiling.isSome = true ∨ recipe = [] then s
  else ({ s with pln := { s.pln with compiling := some ⟨255, 0, some recipe, none⟩ } }).setFld plnStatusState 1

/-- A lost port is LINKED again (R421): the original plan is compiled with the present resources. -/
def State.portBack (s : State) : State :=
  if s.flag plnStatusOnFallback ∧ 64 ≤ s.fld plnActiveF ∧ s.fld plnActiveF < 76 then s.selfCompile s.pln.lastRecipe else s

end Sys2Proof.Machine
end

