-- ==== Sys2Proof/Machine/Pixel.lean ====
section
/-! DEFINITION. The front end (R143 to R190) as functions of a bank, a context plan and the running state:
black level, defects, shading, registration of the sensor rows, mosaic interpolation, colour matrix, statistics. -/

namespace Sys2Proof.Machine

/-- A working value from a sample of depth `d`, marked CLIPPED at or above the clip level (R146, R147). -/
def pxIn (bk : FrontBank) (d x : Nat) : Px := ((x * 2 ^ (18 - d) : Nat), decide (bk.clip ≤ x))

/-- The tracked value in force per row from the tracking state (R153). -/
def trackValue (bk : FrontBank) (t28 : List Int) (r : Nat) : Int :=
  if bk.en.track && bitAt bk.dark.rowMask r then rnd (intAt t28 r) 8 else 0

/-- The black stage on one row (R151). -/
def blackRow (bk : FrontBank) (width r : Nat) (t : Int) (xs : List Px) : List Px :=
  if bk.en.black then
    xs.mapIdx (fun c x => (sat (x.1 - (intAt bk.bc (r * width + c) + intAt bk.br r + t)), x.2))
  else xs

/-- Sum over one range of dark columns of `x_w - BC - BR` (R153 step 1). -/
def darkSum (bk : FrontBank) (width r start p : Nat) (xs : List Px) : Int :=
  sumInt (((xs.drop start).take (2 ^ p)).mapIdx
    (fun i x => x.1 - intAt bk.bc (r * width + start + i) - intAt bk.br r))

/-- The tracking update of one row: the new state and whether it saturated (R153, R154). -/
def trackRow (bk : FrontBank) (width r : Nat) (t : Int) (xs : List Px) : Int × Bool :=
  let k := bk.dark
  let sum := darkSum bk width r k.start0 k.p0 xs +
    (if k.range1 then darkSum bk width r k.start1 k.p1 xs else 0)
  let m := rnd sum (if k.range1 then k.p0 + 1 else k.p0)
  let n := t + rnd (m * 256 - t) k.kt
  let lim : Int := k.tl * 256
  let c := clampInt (-lim) lim n
  (c, decide (c ≠ n))

/-- The mosaic letter of pixel (r, c) (R163). -/
def letterAt (bk : FrontBank) (r c : Nat) : Nat :=
  bk.cells.getD (r % bk.mosRows * 8 + c % bk.mosCols) 15

/-- Pixel (r, c) stands in the defect list. -/
def listed (bk : FrontBank) (r c : Nat) : Bool := bk.defects.any (fun e => decide (e.row = r ∧ e.col = c))

/-- The same-channel neighbour of pixel (r, c) on one side, at a distance of at most 8 (R157). -/
def neighbour (bk : FrontBank) (xs : List Px) (r c : Nat) (left : Bool) : Option Px :=
  ((List.range 8).filterMap (fun i =>
    let j := i + 1
    if left then (if j ≤ c then some (c - j) else none)
    else (if c + j < xs.length then some (c + j) else none))).findSome?
    (fun c' => if letterAt bk r c' = letterAt bk r c && !listed bk r c' then xs[c']? else none)

/-- Mean of two neighbour values; CLIPPED when either was (R158, R160). -/
def pxMean (a b : Px) : Px := (rnd (a.1 + b.1) 1, a.2 || b.2)

/-- The replacement of a listed pixel from its neighbours `l`, `r`, the previous line's value `p` and its
own value (R158, R159, R160). -/
def defectValue (dir : Nat) (l r p : Option Px) (own : Px) : Px :=
  let prev := p.getD own
  match dir, l, r with
  | 0, some a, some b => pxMean a b
  | 0, some a, none => a
  | 0, none, some b => b
  | 1, some a, _ => a
  | 2, _, some b => b
  | 4, some a, some b => match p with
    | some q => (rnd (a.1 + b.1 + 2 * q.1) 2, a.2 || b.2 || q.2)
    | none => own
  | 4, some a, none => match p with
    | some q => (rnd (2 * a.1 + 2 * q.1) 2, a.2 || q.2)
    | none => own
  | 4, none, some b => match p with
    | some q => (rnd (2 * b.1 + 2 * q.1) 2, b.2 || q.2)
    | none => own
  | _, _, _ => prev

/-- The defective-pixel stage on one row (R156 to R160). -/
def defectRow (bk : FrontBank) (r : Nat) (prev : Option (List Px)) (xs : List Px) : List Px :=
  if bk.en.defect then
    xs.mapIdx (fun c x =>
      match bk.defects.find? (fun e => decide (e.row = r ∧ e.col = c)) with
      | none => x
      | some e => defectValue e.dir (neighbour bk xs r c true) (neighbour bk xs r c false)
          (prev.bind (fun q => q[c]?)) x)
  else xs

/-- Outliers of one row (R161). -/
def outlierCount (bk : FrontBank) (r : Nat) (xs : List Px) : Nat :=
  if bk.en.outlier && bk.outlier ≠ 0 then
    (xs.mapIdx (fun c x =>
      match neighbour bk xs r c true, neighbour bk xs r c false with
      | some a, some b =>
        !listed bk r c && (decide (max a.1 b.1 + bk.outlier < x.1) || decide (x.1 < min a.1 b.1 - bk.outlier))
      | _, _ => false)).count true
  else 0

/-- The shading stage on one row (R162). -/
def shadeRow (bk : FrontBank) (width r : Nat) (xs : List Px) : List Px :=
  if bk.en.shade then
    xs.mapIdx (fun c x =>
      (sat (rnd (x.1 * (bk.gain.getD (r * width + c) 4096 : Nat)) 12 + intAt bk.offs (r * width + c)), x.2))
  else xs

/-- The kernels' remainder rule: the remainder to 16 384 goes to the coefficient of largest magnitude, the
lowest of equal ones (R204). -/
def fixSum (ks : List Int) : List Int :=
  let rem := 16384 - sumInt ks
  let big := ks.foldl (fun a k => max a k.natAbs) 0
  match ks.findIdx? (fun k => k.natAbs = big) with
  | some i => listModify ks i (· + rem)
  | none => ks

/-- The linear-phase kernel K_L at phase `φ` of 128 (R221). -/
def kernelL (φ : Nat) : List Int :=
  let ds := (List.range 8).map (fun j => f64OfRat ((j : Int) * 128 - 384 - φ) 128)
  let hs := ds.map (fun d => (sincF64 d).mul (sincF64 (d.div (f64OfInt 4))))
  let tot := hs.foldl F64.add ⟨0, 0⟩
  fixSum (hs.map (fun h => (((f64OfInt 16384).mul h).div tot).round))

/-- The minimum-phase kernel K_M at phase `φ` of 128: taps 0 to 7, of which 0 to 3 are 0 (R222). -/
def kernelM (φ : Nat) : List Int :=
  let x : Int := (φ : Int) - 96
  fixSum [0, 0, 0, 0,
    rdiv (-x * (x + 128) * (x - 128)) 768,
    rdiv ((x + 256) * x * (x - 128)) 256,
    rdiv (-(x + 256) * (x + 128) * (x - 128)) 256,
    rdiv ((x + 256) * (x + 128) * x) 768]

/-- The area kernel of scale `σ16 / 16` at phase `φ` of 64 (R203, R204). -/
def kernelArea (σ16 φ : Nat) : List Int :=
  fixSum ((List.range 8).map (fun j =>
    -- interval ends in 1/128 column: [-σ/2, σ/2] is ±4 σ16, tap j spans d ± 64 with d = 2 (64 (j - 3) - φ)
    let d : Int := 2 * (64 * ((j : Int) - 3) - φ)
    let lo := max (-(4 * σ16 : Nat) : Int) (d - 64)
    let hi := min ((4 * σ16 : Nat) : Int) (d + 64)
    let a := max 0 (hi - lo)
    rdiv (16384 * a) (8 * σ16)))

/-- Lowest gap cause of camera line `k`, 0 when it is not missing (R318). -/
def gapCauseAt (gs : List Gap) (k : Nat) : Nat :=
  lowestCause (gs.map (fun g => if g.first ≤ k ∧ k ≤ g.last then g.cause else 0))

/-- Row displacements of camera line `n` in 1/128 line and whether a clamp occurred; `none` for a row
without a value (R165 to R167). -/
def rowDeltas (cp : CtxPlan) (bk : FrontBank) (fs : FeSt) (n : HistLine) : List (Option Nat) × Bool :=
  let rows := List.range cp.rows
  let clampD (v : Int) : Nat := (clampInt 0 7679 v).toNat
  if cp.encTrig then
    let raw := rows.map (fun r => (natAt bk.delta r : Int))
    (raw.map (fun v => some (clampD v)), raw.any (fun v => decide (7679 < v)))
  else
    let before := (fs.hist.filter (fun h => h.abs < n.abs)).reverse
    match (before.take 16).getLast? with
    | none => (rows.map (fun _ => none), false)
    | some b =>
      let k : Int := (n.abs : Int) - b.abs
      let dy := n.y - b.y
      if dy ≤ 0 then (rows.map (fun r => (fs.lastDelta.getD r none)), true)
      else
        let raw := rows.map (fun r => rdiv ((natAt bk.dist r : Int) * 128 * k) dy)
        (raw.map (fun v => some (clampD v)), raw.any (fun v => decide (7679 < v)))

/-- One tap line of registration: the row, or why it is missing (R171, R227, R830). -/
inductive TapLine where
  | have_ (xs : List Px) | missing (cause : Nat) | before
  deriving DecidableEq, Repr

/-- Look a camera line's row up for registration. -/
def tapLine (fs : FeSt) (r : Nat) (k : Int) : TapLine :=
  if k < fs.start then .before else
    match fs.hist.find? (fun h => decide ((h.abs : Int) = k)) with
    | some h => .have_ (h.rows.getD r [])
    | none => .missing (let c := gapCauseAt fs.gaps k.toNat; if c = 0 then 1 else c)

/-- Weighted sum of tap rows, column by column, rounded by `2^14` and saturated; CLIPPED when a tap of
non-zero coefficient was (R168). -/
def weightRows (taps : List (Int × List Px)) (width : Nat) : List Px :=
  let z : List (Int × Bool) := List.replicate width (0, false)
  let tot := taps.foldl (fun acc t =>
    if t.1 = 0 then acc else List.zipWith (fun a x => (a.1 + t.1 * x.1, a.2 || x.2)) acc t.2) z
  tot.map (fun a => (sat (rnd a.1 14), a.2))

/-- Row `r` of registered line `n` at displacement `d` of 1/128 line (R164, R168). -/
def registerRow (cp : CtxPlan) (fs : FeSt) (n : HistLine) (r d : Nat) : TapLine :=
  let t : Int := (n.abs : Int) * 128 - d
  let base := t / 128
  let φ := (t % 128).toNat
  if φ = 0 then tapLine fs r base
  else
    let ks := kernelL φ
    let taps := (List.range 8).filterMap (fun j =>
      let c := intAt ks j
      if c = 0 then none else some (c, tapLine fs r (base - 3 + j)))
    if taps.any (fun t => t.2 = .before) then .before
    else
      let bad := lowestCause (taps.map (fun t => match t.2 with | .missing c => c | _ => 0))
      if bad ≠ 0 then .missing bad
      else .have_ (weightRows (taps.map (fun t => (t.1, match t.2 with | .have_ x => x | _ => []))) cp.width)

/-- The column mapping of the row's ends (R174). -/
def mapCol (width pc : Nat) (u : Int) : Nat :=
  if u < 0 then (u % pc).toNat
  else if u < width then u.toNat
  else
    let last : Int := (width : Int) - 1
    (last - (last - u) % pc).toNat

/-- One plane at one column (R173, R177). -/
def planeAt (bk : FrontBank) (rows : List (List Px)) (width k c : Nat) : Px :=
  let ker := bk.kernels.getD (k * bk.mosCols + c % bk.mosCols) []
  let terms := (List.range rows.length).flatMap (fun r =>
    (List.range 7).filterMap (fun j =>
      let co := intAt ker (r * 7 + j)
      if co = 0 then none else
        some (co, ((rows.getD r []).getD (mapCol width bk.mosCols ((c : Int) + j - 3)) (0, false)))))
  (sat (rnd (sumInt (terms.map (fun t => t.1 * t.2.1))) 14), terms.any (fun t => t.2.2))

/-- The planes of a registered line (R173, R176). -/
def planesOf (bk : FrontBank) (width : Nat) (rows : List (List Px)) : List (List Px) :=
  if bk.en.mosaic then
    (List.range bk.planes.length).map (fun k => (List.range width).map (fun c => planeAt bk rows width k c))
  else [rows.headD []]

/-- The colour matrix (R178, R179). -/
def matrixOf (bk : FrontBank) (width : Nat) (ps : List (List Px)) : List (List Px) :=
  if bk.en.matrix then
    (List.range bk.channels).map (fun k =>
      let row := bk.matrix.getD k []
      (List.range width).map (fun c =>
        let ins := (List.range 4).map (fun j => (intAt row j, (ps.getD j []).getD c (0, false)))
        (sat (rnd (sumInt (ins.map (fun t => t.1 * t.2.1))) 14 + intAt row 4),
          ins.any (fun t => decide (t.1 ≠ 0) && t.2.2))))
  else ps

/-- Registered line `n` through mosaic and matrix (R164 to R179). -/
def formRegistered (cp : CtxPlan) (bk : FrontBank) (fs : FeSt) (n : HistLine) : RegLine × List (Option Nat) :=
  let dc := rowDeltas cp bk fs n
  let linkCause := if fs.linkStart then 6 else 0
  let rows := (List.range cp.rows).map (fun r =>
    if r = cp.refRow then tapLine fs r n.abs
    else match dc.1.getD r none with
      | none => TapLine.before
      | some d => registerRow cp fs n r d)
  let before := rows.any (fun t => t = .before)
  let bad := lowestCause ((rows.map (fun t => match t with | .missing c => c | _ => 0)) ++
    [if before then linkCause else 0])
  let skip := before && !fs.linkStart
  let good := !before && bad = 0
  let chans := if good then
      matrixOf bk cp.width (planesOf bk cp.width (rows.map (fun t => match t with | .have_ x => x | _ => [])))
    else []
  (⟨n, if skip then 0 else bad, skip, dc.2, chans⟩, dc.1)

/-- An empty statistics record opened by a registered line (R132, R134). -/
def statOpen (n : HistLine) (channels bins : Nat) : StatAcc :=
  { strip := n.strip, base := n.abs - n.off, tag := n.tag, time := n.time, idx := n.idx, off := n.off, lines := 0, replaced := false,
    gap := false, mismatch := false, trackLimit := false, regClamped := false, outliers := 0, trk := [],
    chans := List.replicate channels ⟨0, List.replicate 256 0, 0, 0, List.replicate bins 0⟩ }

/-- Columns of the statistics window (R181). -/
def statCols (bk : FrontBank) : Nat := bk.statLast + 1 - bk.statFirst

/-- Number of column bins (R183). -/
def statBins (bk : FrontBank) : Nat := (statCols bk + 2 ^ bk.colbin - 1) / 2 ^ bk.colbin

/-- One channel of one line enters its statistics (R182, R183). -/
def statChan (bk : FrontBank) (xs : List Px) (cs : ChanStat) : ChanStat :=
  let win := (xs.drop bk.statFirst).take (statCols bk)
  let bin (v : Int) : Nat := if v < 0 then 0 else if 261119 < v then 255 else (v / 1024).toNat
  { sum := cs.sum + sumInt (win.map Prod.fst)
    hist := win.foldl (fun h p => listModify h (bin p.1) (· + 1)) cs.hist
    clipped := cs.clipped + (win.filter Prod.snd).length
    overs := cs.overs + (win.filter (fun p => decide (fullScale < p.1))).length
    bins := (win.zipIdx.foldl (fun b p => listModify b (p.2 / 2 ^ bk.colbin) (· + p.1.1)) cs.bins) }

/-- A registered line enters a statistics record (R132, R133, R154, R186). -/
def statLine (bk : FrontBank) (g : RegLine) (a : StatAcc) : StatAcc :=
  { a with
    lines := a.lines + 1
    replaced := a.replaced || g.src.replaced
    mismatch := a.mismatch || g.src.mismatch
    trackLimit := a.trackLimit || g.src.limited
    regClamped := a.regClamped || g.clamped
    outliers := a.outliers + g.src.outliers
    trk := g.src.trk
    chans := List.zipWith (fun xs c => statChan bk xs c) g.chans a.chans }

/-- Find the record of the line's tag in its strip, opening it when there are fewer than four (R132). -/
def statAdd (bk : FrontBank) (g : RegLine) (fs : FeSt) : FeSt :=
  if !bk.en.stat || g.missing ≠ 0 || g.skip then fs else
    match fs.stats.findIdx? (fun a => decide (a.tag = g.src.tag)) with
    | some i => { fs with stats := listModify fs.stats i (statLine bk g) }
    | none =>
      if 4 ≤ fs.stats.length then { fs with statOverflow := true }
      else { fs with stats := fs.stats ++ [statLine bk g (statOpen g.src g.chans.length (statBins bk))] }

/-- Closed statistics of a strip, with STAT_OVERFLOW, ready to be written (R132, R134). -/
structure StatDone where
  strip : Nat
  overflow : Bool
  bins : Nat
  cols : Nat
  first : Nat
  colbin : Nat
  recs : List StatAcc
  deriving DecidableEq, Repr

/-- Close the statistics under accumulation of a strip of `lines` lines; missing lines set GAP (R133). -/
def statClose (lines : Nat) (bk : FrontBank) (fs : FeSt) : FeSt × List StatDone :=
  match fs.stats with
  | [] => ({ fs with statOverflow := false }, [])
  | a :: _ =>
    ({ fs with stats := [], statOverflow := false },
      [⟨a.strip, fs.statOverflow, statBins bk, statCols bk, bk.statFirst, bk.colbin,
        fs.stats.map (fun r => { r with
          gap := fs.gaps.any (fun k => decide (r.base ≤ k.last ∧ k.first < r.base + lines)) })⟩])

/-- What the front end yields for one camera line. -/
structure FeOut where
  st : FeSt
  regs : List RegLine
  stats : List StatDone
  outliers : Nat
  limited : Bool
  deriving DecidableEq, Repr

/-- Form every registered line that the newest camera line makes complete (R169). -/
def formReady (cp : CtxPlan) (bankOf : Nat → FrontBank) (newest : Nat) :
    List HistLine → FeSt → List RegLine → List StatDone → FeSt × List RegLine × List StatDone
  | [], fs, rs, ds => (fs, rs, ds)
  | n :: rest, fs, rs, ds =>
    if n.abs + cp.look ≤ newest then
      let bk := bankOf n.strip
      let closed := match fs.stats with
        | a :: _ => if a.strip = n.strip then (fs, []) else statClose cp.lines (bankOf a.strip) fs
        | [] => (fs, [])
      let fr := formRegistered cp bk closed.1 n
      let g := fr.1
      let f1 := statAdd bk g { closed.1 with lastDelta := fr.2, nextReg := some (n.abs + 1) }
      let fin := if n.lastOfStrip then statClose cp.lines bk f1 else (f1, [])
      formReady cp bankOf newest rest fin.1 (rs ++ [g]) (ds ++ closed.2 ++ fin.2)
    else (fs, rs, ds)

/-- Down-web position of a stamped web position at a context (R198). -/
def webY (pos zero : Int) (scale : Nat) (mount : Int) : Int := rnd ((pos - zero) * scale) 32 - mount

/-- The front end up to defect replacement, for flat-field acquisition (R734, R735): x2, T28 after the line, whether a
limit was met, and the samples that carried CLIPPED. -/
def feFlat (cp : CtxPlan) (bk : FrontBank) (t28 : List Int) (prev : List (List Px)) (ln : CamLine) :
    List (List Px) × List Int × Bool × Nat :=
  let xw := ln.rows.map (fun r => r.map (pxIn bk ln.depth))
  let x1 := xw.mapIdx (fun r xs => blackRow bk cp.width r (trackValue bk t28 r) xs)
  let x2 := x1.mapIdx (fun r xs => defectRow bk r (prev[r]?) xs)
  let upd := xw.mapIdx (fun r xs =>
    if bk.en.track && bitAt bk.dark.rowMask r then trackRow bk cp.width r (intAt t28 r) xs
    else (intAt t28 r, false))
  (x2, (upd.map Prod.fst) ++ t28.drop upd.length, upd.any Prod.snd, ((xw.map (fun xs => (xs.filter Prod.snd).length)).foldl (· + ·) 0))

/-- The front end on one camera line (R148): black, defects, shading, history, registration, mosaic, matrix,
statistics and the tracking update of R153. -/
def feLine (cp : CtxPlan) (bankOf : Nat → FrontBank) (yOf : CamLine → Int) (fs0 : FeSt) (ln : CamLine) : FeOut :=
  let bk := bankOf ln.strip
  let newBank := bk.dark.resetOnCommit && decide (fs0.bankStrip = some ln.strip) &&
    decide (ln.off = 0)
  let t28 := if newBank then List.replicate 4 (bk.dark.ti * 256) else fs0.t28
  let trk := (List.range 4).map (trackValue bk t28)
  let xw := ln.rows.map (fun r => r.map (pxIn bk ln.depth))
  let x1 := xw.mapIdx (fun r xs => blackRow bk cp.width r (intAt trk r) xs)
  let outl := (x1.mapIdx (fun r xs => outlierCount bk r xs)).foldl (· + ·) 0
  let x2 := x1.mapIdx (fun r xs => defectRow bk r (fs0.prevX2[r]?) xs)
  let x3 := x2.mapIdx (fun r xs => shadeRow bk cp.width r xs)
  let upd := xw.mapIdx (fun r xs =>
    if bk.en.track && bitAt bk.dark.rowMask r then trackRow bk cp.width r (intAt t28 r) xs
    else (intAt t28 r, false))
  let limited := upd.any Prod.snd
  let h : HistLine := {
    abs := ln.abs, idx := ln.idx, tag := ln.tag, time := ln.time, pos := ln.pos,
    y := yOf ln, replaced := ln.replaced, strip := ln.strip, off := ln.off,
    mismatch := ln.mismatch, suspect := ln.suspect, illegal := ln.illegal, lastOfStrip := ln.lastOfStrip,
    trk := trk, limited := limited, outliers := outl, rows := x3 }
  let first := fs0.nextReg.isNone
  let fs1 : FeSt := { fs0 with
    hist := fs0.hist ++ [h], gaps := fs0.gaps ++ ln.gaps,
    start := if first then ln.abs else fs0.start,
    nextReg := if first then some ln.abs else fs0.nextReg,
    t28 := (upd.map Prod.fst) ++ t28.drop upd.length,
    prevX2 := x2 }
  let todo := fs1.hist.filter (fun g => decide (fs1.nextReg.getD 0 ≤ g.abs))
  let r := formReady cp bankOf ln.abs todo fs1 [] []
  let st : FeSt := { r.1 with
    hist := r.1.hist.filter (fun g => decide (ln.abs ≤ g.abs + 63 + cp.look))
    gaps := r.1.gaps.filter (fun g => decide (ln.abs ≤ g.last + 1100)) }
  { st := st, regs := r.2.1, stats := r.2.2, outliers := outl, limited := limited }

/-- Clear the registration history at LINKED (`link`) or at an inspection start (R171, R830). -/
def feClear (link : Bool) (fs : FeSt) : FeSt :=
  { fs with hist := [], gaps := [], start := 0, linkStart := link, nextReg := none, lastDelta := [],
            prevX2 := if link then [] else fs.prevX2 }

end Sys2Proof.Machine
end

