-- ==== Sys2Proof/Machine/Geometry.lean ====
section
/-! DEFINITION. The geometry stage (R198 to R229) as functions of a bank and the running state: cross-web
mapping, down-web resampling, blending of overlaps. -/

namespace Sys2Proof.Machine

/-- One span column of one channel (R201, R205). -/
def mapColumn (gb : GeoBank) (width : Nat) (zs : List Px) (e : MapEntry) : Px :=
  let ks := gb.sets.getD e.set []
  let terms := (List.range 8).filterMap (fun j =>
    let k := intAt ks (e.ph * 8 + j)
    if k = 0 then none else
      some (k, zs.getD (clampInt 0 ((width : Int) - 1) ((e.src : Int) + j - 3)).toNat (0, false)))
  (sat (rnd (sumInt (terms.map (fun t => t.1 * t.2.1))) 14), terms.any (fun t => t.2.2))

/-- Cross-web mapping of every channel of a registered line (R201). -/
def crossMap (gb : GeoBank) (width : Nat) (chans : List (List Px)) : List (List Px) :=
  chans.map (fun zs => gb.entries.map (mapColumn gb width zs))

/-- A registered line enters the down-web stage; answers the new state and whether a reversal episode began
(R228). -/
def geoFeed (cp : CtxPlan) (gb : GeoBank) (pitchY : Nat) (gs : GeoSt) (gaps : List Gap) (r : RegLine) : GeoSt × Bool :=
  if r.skip then (gs, false) else
    let first := gs.lines.isEmpty && gs.nextM.isNone && gs.maxY.isNone
    let y := r.src.y
    let back := match gs.maxY with
      | some t => decide (y < t)
      | none => false
    let past := match gs.nextM with
      | some m => decide (m * pitchY ≤ y)
      | none => !back
    let rev := if past then false else (gs.reversing || back)
    let begins := rev && !gs.reversing
    let g : GeoLine := {
      abs := r.src.abs, pos := r.src.pos, y := y, time := r.src.time, missing := r.missing, replaced := r.src.replaced,
      suspect := r.src.suspect, uncertain := r.src.illegal || r.src.suspect || rev,
      strip := r.src.strip, gen := gb.gen,
      vals := if r.missing = 0 then crossMap gb cp.width r.chans else [] }
    ({ gs with
        lines := gs.lines ++ [g]
        gaps := gaps
        start := if first then r.src.abs else gs.start
        maxY := some (match gs.maxY with | some t => max t y | none => y)
        reversing := rev }, begins)

/-- An output line with no pixels (R227). -/
def missingLine (m : Int) (cause time : Nat) (strip : Option Nat) (arrive gen : Nat) (sus unc : Bool) : OutLine :=
  { m := m, time := time, missing := cause, strip := strip, arrive := arrive, gen := gen, replaced := false,
    suspect := sus, uncertain := unc, colGaps := [], vals := [] }

/-- What the down-web stage answers for one output line. -/
inductive Emit where
  | wait | skip | line (o : OutLine) (phaseErr : Bool)
  deriving DecidableEq, Repr

/-- Down-web position of a grid line (R196). -/
def gridY (pitchY : Nat) (m : Int) : Int := m * pitchY

/-- Cause of a lost camera line near `d` between two lines, 1 where none was lost (R226). -/
def lostNear (gs : GeoSt) (d : Int) : Nat :=
  let before := (gs.lines.filter (fun g => decide (g.y ≤ d))).getLast?
  let after := gs.lines.find? (fun g => decide (d < g.y))
  match before, after with
  | some a, some b =>
    let k := (a.abs : Int) + rdiv ((d - a.y) * ((b.abs : Int) - a.abs)) (b.y - a.y)
    let c := gapCauseAt gs.gaps k.toNat
    if c ≠ 0 then c else
      let cs := (gs.gaps.filter (fun g => decide (a.abs < g.last ∧ g.first < b.abs))).map Gap.cause
      let l := lowestCause cs
      if l = 0 then 1 else l
  | _, _ => 1

/-- Pass-through: the registered line nearest `D_m` (R226). -/
def emitDirect (pitchY : Nat) (gs : GeoSt) (m : Int) : Emit :=
  let d := gridY pitchY m
  if gs.lines.any (fun g => decide (2 * d ≤ 2 * g.y + pitchY)) then
    let best := gs.lines.foldl (fun (b : Option GeoLine) g =>
      match b with
      | none => some g
      | some h => if (g.y - d).natAbs < (h.y - d).natAbs then some g else b) none
    match best with
    | none => .wait
    | some g =>
      let dist := (g.y - d).natAbs
      if pitchY < 2 * dist then .line (missingLine m (lostNear gs d) g.time none g.time g.gen g.suspect g.uncertain) false
      else if g.missing ≠ 0 then
        .line (missingLine m g.missing g.time (some g.strip) g.time g.gen g.suspect g.uncertain) false
      else
        .line { m := m, time := g.time, missing := 0, strip := some g.strip, arrive := g.time, gen := g.gen,
                replaced := g.replaced, suspect := g.suspect, uncertain := g.uncertain, colGaps := [],
                vals := g.vals } (decide (pitchY < 128 * dist))
  else .wait

/-- One tap of the down-web stage: a line, a missing line's cause, or a line before the first. -/
inductive GeoTap where
  | have_ (g : GeoLine) | missing (cause : Nat) | before | later
  deriving DecidableEq, Repr

/-- The camera line of a tap (R227). -/
def geoTap (gs : GeoSt) (newest : Nat) (k : Int) : GeoTap :=
  if (newest : Int) < k then .later
  else if k < gs.start then .before
  else match gs.lines.find? (fun g => decide ((g.abs : Int) = k)) with
    | some g => if g.missing ≠ 0 then .missing g.missing else .have_ g
    | none => .missing (let c := gapCauseAt gs.gaps k.toNat; if c = 0 then 1 else c)

/-- Resampling modes 1 and 2 (R220 to R224, R227, R229, R830). -/
def emitResampled (mode pitchY : Nat) (gs : GeoSt) (m : Int) : Emit :=
  let d := gridY pitchY m
  match (gs.lines.filter (fun g => decide (g.y ≤ d))).getLast? with
  | none => match gs.lines with
    | [] => .wait
    | g :: _ =>
      if gs.linkStart && gs.nextM.isSome then .line (missingLine m 6 g.time none g.time g.gen g.suspect g.uncertain) false
      else .skip
  | some n =>
    match gs.lines.find? (fun g => decide (n.abs < g.abs ∧ n.y < g.y)) with
    | none => .wait
    | some n' =>
      let f := rdiv (128 * (d - n.y)) (n'.y - n.y)
      let t128 : Int := if f = 128 then (n'.abs : Int) * 128 else (n.abs : Int) * 128 + f
      let v128 := if mode = 2 then t128 + 96 else t128
      let base := v128 / 128
      let φ := (v128 % 128).toNat
      let ks := if mode = 2 then kernelM φ else kernelL φ
      let off : Int := if mode = 2 then base - 6 else base - 3
      let newest := (gs.lines.getLast?.map GeoLine.abs).getD 0
      let taps := (List.range 8).filterMap (fun j =>
        let c := intAt ks j
        if c = 0 then none else some (c, geoTap gs newest (off + j)))
      let time := ((n.time : Int) + rdiv (f * ((n'.time : Int) - n.time)) 128).toNat
      let lines := taps.filterMap (fun t => match t.2 with | .have_ g => some g | _ => none)
      let sus := lines.any GeoLine.suspect || n.suspect
      let unc := lines.any GeoLine.uncertain || n.uncertain
      let before := taps.any (fun t => t.2 = .before)
      if before && !(gs.linkStart && gs.nextM.isSome) then .skip
      else if taps.any (fun t => t.2 = .later) then .wait
      else
        let bad := lowestCause ((taps.map (fun t => match t.2 with | .missing c => c | _ => 0)) ++
          [if before then 6 else 0])
        let arrive := (lines.map GeoLine.time).foldl max n.time
        if bad ≠ 0 then .line (missingLine m bad time (some n.strip) arrive n.gen sus unc) false
        else
          let nch := (lines.headD n).vals.length
          let nw := ((lines.headD n).vals.headD []).length
          let vals := (List.range nch).map (fun k =>
            weightRows (taps.map (fun t => (t.1, match t.2 with | .have_ g => g.vals.getD k [] | _ => []))) nw)
          .line { m := m, time := time, missing := 0, strip := some n.strip, arrive := arrive, gen := n.gen,
                  replaced := lines.any GeoLine.replaced, suspect := sus, uncertain := unc, colGaps := [],
                  vals := vals } false

/-- Output line `m` of the context's down-web mode (R218). -/
def emitLine (cp : CtxPlan) (pitchY : Nat) (gs : GeoSt) (m : Int) : Emit :=
  if cp.dwMode = 0 then emitDirect pitchY gs m else emitResampled cp.dwMode pitchY gs m

/-- The first output line to try when none has been emitted since the start (R830). -/
def firstCandidate (cp : CtxPlan) (pitchY : Nat) (gs : GeoSt) : Option Int :=
  match gs.lines with
  | [] => none
  | g :: _ =>
    if cp.dwMode = 0 then some (-((pitchY - 2 * g.y) / (2 * pitchY)))
    else some (g.y / pitchY)

/-- Try output lines from `m` on until one is emitted or must wait (R224, R830). -/
def emitFrom (cp : CtxPlan) (pitchY : Nat) (gs : GeoSt) : Nat → Int → Option (OutLine × Bool)
  | 0, _ => none
  | f + 1, m =>
    match emitLine cp pitchY gs m with
    | .wait => none
    | .skip => emitFrom cp pitchY gs f (m + 1)
    | .line o p => some (o, p)

/-- Emit the next output line when every camera line it needs has arrived (R224). -/
def geoEmit (cp : CtxPlan) (pitchY : Nat) (gs : GeoSt) : Option (OutLine × Bool × GeoSt) :=
  match (match gs.nextM with | some m => some m | none => firstCandidate cp pitchY gs) with
  | none => none
  | some m =>
    match emitFrom cp pitchY gs 4096 m with
    | none => none
    | some (o, p) =>
      let d := gridY pitchY (o.m + 1)
      let keep := match (gs.lines.filter (fun g => decide (g.y ≤ d))).getLast? with
        | some n => n.abs
        | none => 0
      some (o, p, { gs with
        nextM := some (o.m + 1)
        lines := gs.lines.filter (fun g => decide (keep ≤ g.abs + 8)) })

/-- Columns `[lo, hi]` of a span line that starts at column `gLo`. -/
def spanCols (gLo lo hi : Nat) (xs : List Px) : List Px := (xs.drop (lo - gLo)).take (hi + 1 - lo)

/-- The partner's contribution words for one band (R210). -/
def contribution (cp : CtxPlan) (gb : GeoBank) (self : Nat) (o : OutLine) (b : Band) : BandLine :=
  let ws := ((gb.entries.drop (b.first - cp.gLo)).take (b.last + 1 - b.first)).map MapEntry.w
  { partner := self, m := o.m, gen := o.gen,
    words := if o.missing ≠ 0 then [ws.map (fun w => ⟨0, w, false, false⟩)]
      else o.vals.map (fun xs => List.zipWith (fun x w => ⟨x.1, w, x.2, true⟩) (spanCols cp.gLo b.first b.last xs) ws) }

/-- One blended value of owner and partner (R211, R212, R213). -/
def blendPx (mixed : Bool) (wo : Nat) (own : Px) (p : Option Contrib) : Px :=
  match p with
  | none => own
  | some c =>
    if !c.valid then own
    else if mixed then (if wo < c.w then (c.v, c.sat) else own)
    else if wo + c.w = 0 then own
    else (rdiv (wo * own.1 + c.w * c.v) (wo + c.w : Nat), (decide (wo ≠ 0) && own.2) || (decide (c.w ≠ 0) && c.sat))

/-- The maximal runs of columns where a flag holds, from column `g`. -/
def flagRuns (g : Nat) (fs : List Bool) (cause : Nat) : List ColGap :=
  fs.zipIdx.foldl (fun acc f =>
    if f.1 then
      match acc.getLast? with
      | some r => if r.last + 1 = g + f.2 then acc.dropLast ++ [{ r with last := g + f.2 }] else acc ++ [⟨g + f.2, g + f.2, cause⟩]
      | none => [⟨g + f.2, g + f.2, cause⟩]
    else acc) []

/-- Blend one band of the owner's line with the partner's line record; answers also BAND_MIXED and
BAND_MISSING (R211 to R213). -/
def blendBand (cp : CtxPlan) (gb : GeoBank) (o : OutLine) (b : Band) (pl : Option BandLine) : OutLine × Bool × Bool :=
  if o.missing ≠ 0 then (o, false, false) else
    let ws := ((gb.entries.drop (b.first - cp.gLo)).take (b.last + 1 - b.first)).map MapEntry.w
    let valid := match pl with
      | some l => l.words.all (fun ch => ch.all Contrib.valid) && !l.words.isEmpty
      | none => false
    let mixed := match pl with | some l => valid && decide (l.gen ≠ o.gen) | none => false
    let words (k : Nat) : List (Option Contrib) := match pl with
      | some l => (l.words.getD k []).map some
      | none => []
    let vals := o.vals.mapIdx (fun k xs =>
      let pre := xs.take (b.first - cp.gLo)
      let mid := spanCols cp.gLo b.first b.last xs
      let post := xs.drop (b.last + 1 - cp.gLo)
      let ps := words k
      pre ++ (mid.zipIdx.map (fun x => blendPx mixed (natAt ws x.2) x.1 (if valid then ps.getD x.2 none else none))) ++ post)
    let gone := if valid then [] else flagRuns b.first (ws.map (fun w => decide (w = 0))) 5
    ({ o with vals := vals, colGaps := o.colGaps ++ gone }, mixed, !valid)

/-- Clear the down-web history at LINKED (`link`) or at an inspection start (R171, R830). -/
def geoClear (link : Bool) (gs : GeoSt) : GeoSt :=
  { gs with lines := [], gaps := [], start := 0, linkStart := link, maxY := none, reversing := false,
            nextM := if link then gs.nextM else none }

end Sys2Proof.Machine
end

