-- ==== Sys2Proof/Machine/Segment.lean ====
section
/-! DEFINITION. The back end of a slice (R243 to R280) as functions of a bank and the running state: background
model, detection layers, runs and blobs, features, streamers, storms, gap runs and bunting. -/

namespace Sys2Proof.Machine

/-- What a context's back end knows of its place on the web. -/
structure SegEnv where
  ctx : Nat
  addr : Nat
  oLo : Int
  oHi : Int
  left : Bool
  right : Bool
  share : Nat
  deriving DecidableEq, Repr

/-- What the back end hands on. -/
inductive SegOut where
  | piece (kind : Nat) (p : Piece) (split : Bool)
  | tile (first last gLo gHi : Int) (count strip : Nat) (replaced suspect uncertain : Bool)
  | gap (g : GapRun)
  | bunt (b : Bunt)
  | noseed | stormIn | stormOut | streamer | relearn | runsOver | blobsOver | stripDone (s : Nat)
  deriving DecidableEq, Repr

/-- Detection plane q at one column (R247). -/
def planeQ (sb : SegBank) (q : Nat) (vs : List Px) : Px :=
  let row := sb.weights.getD q []
  let ins := (List.range 4).map (fun k => (intAt row k, vs.getD k (0, false)))
  (sat (rnd (sumInt (ins.map (fun t => t.1 * t.2.1))) 14), ins.any (fun t => decide (t.1 ≠ 0) && t.2.2))

/-- Deviations of one pixel from the model (R249). -/
def deviations (us : List Px) (cm : ColModel) : List Int :=
  us.mapIdx (fun q u => u.1 * 65536 - intAt cm.m q)

/-- The model after an update (R250). -/
def updateModel (sb : SegBank) (es : List Int) (cm : ColModel) : ColModel :=
  { cm with
    d := es.mapIdx (fun q e => clampInt 0 (2 ^ 36 - 1) (intAt cm.d q + rnd ((e.natAbs : Int) - intAt cm.d q) (natAt sb.rate q)))
    m := es.mapIdx (fun q e => satS 40 (intAt cm.m q + rnd e (natAt sb.rate q))) }

/-- Threshold of a test (R254). -/
def tau (t o : Nat) (d : Int) : Int := rnd (t * d) 8 + o * 65536

/-- The comparison of a layer (R255). -/
def passes (polarity : Nat) (e τ : Int) : Bool :=
  match polarity with
  | 0 => decide (e < -τ)
  | 1 => decide (τ < e)
  | _ => decide (e < -τ) || decide (τ < e)

/-- The result of the tests at one pixel (R256, R257). -/
structure Det where
  seed : Bool
  grow : Bool
  frozen : Bool
  layer : Nat
  c : Int
  cq : List Int
  sat : Bool
  deriving DecidableEq, Repr

/-- The detection tests at one pixel (R254 to R257). -/
def detect (sb : SegBank) (us : List Px) (cm : ColModel) : Det :=
  let es := deviations us cm
  let res := sb.layers.map (fun l =>
    let e := intAt es l.plane
    let d := intAt cm.d l.plane
    let s := passes l.polarity e (tau l.ts l.os d)
    (s, s || passes l.polarity e (tau l.tg l.og d), l))
  let grow := res.any (fun r => r.2.1)
  let layer := (res.findIdx? (fun r => r.2.1)).getD 0
  let cq := es.map (fun e => sat (rnd e 16))
  { seed := res.any (fun r => r.1), grow := grow, frozen := res.any (fun r => r.2.1 && r.2.2.freeze),
    layer := layer, c := intAt cq ((sb.layers[layer]?.map Layer.plane).getD 0), cq := cq, sat := us.any Prod.snd }

/-- What becomes of one column in one line: its model, its detection, its gap cause (0 none), a relearn. -/
structure ColRes where
  model : ColModel
  det : Option Det
  cause : Nat
  relearn : Bool
  deriving DecidableEq, Repr

/-- One column of one output line (R249 to R253). -/
def columnStep (sb : SegBank) (m : Int) (uninspected : Bool) (vs : List Px) (cm : ColModel) : ColRes :=
  let warm := match cm.warmEnd with | some w => decide (m < w) | none => false
  if uninspected then ⟨cm, none, if warm then 4 else 5, false⟩ else
    let us := (List.range sb.planes).map (fun q => planeQ sb q vs)
    match cm.warmEnd with
    | none =>
      let cm' : ColModel := { m := us.map (fun u => u.1 * 65536), d := (List.range sb.planes).map (fun q => (natAt sb.d0 q : Int) * 65536),
                              freeze := 0, warmEnd := some (m + sb.warmup) }
      if sb.warmup = 0 then ⟨cm', some (detect sb us cm'), 0, false⟩ else ⟨cm', none, 4, false⟩
    | some w =>
      let es := deviations us cm
      if m < w then ⟨updateModel sb es cm, none, 4, false⟩
      else
        let d := detect sb us cm
        if d.frozen then
          let n := cm.freeze + 1
          if sb.hold ≠ 0 ∧ sb.hold ≤ n then ⟨{ updateModel sb es cm with freeze := 0 }, some d, 0, true⟩
          else ⟨{ cm with freeze := min n 65535 }, some d, 0, false⟩
        else ⟨{ updateModel sb es cm with freeze := 0 }, some d, 0, false⟩

/-- Runs of the grow mask from column `g` (R258). -/
def growRuns (g : Int) (ds : List (Option Det)) : List (Int × Int) :=
  (ds.zipIdx.foldl (fun acc d =>
    if (d.1.map Det.grow).getD false then
      match acc with
      | (a, b) :: r => if b + 1 = g + d.2 then (a, b + 1) :: r else (g + d.2, g + d.2) :: acc
      | [] => [(g + d.2, g + d.2)]
    else acc) ([] : List (Int × Int))).reverse

/-- Columns shared by two column ranges. -/
def overlap (a b c d : Int) : Nat := (min b d + 1 - max a c).toNat

/-- Columns of run [a, b] that lie in the runs of a neighbouring line (R267). -/
def covered (a b : Int) (rs : List (Int × Int)) : Nat := rs.foldl (fun n r => n + overlap a b r.1 r.2) 0

/-- An empty accumulator at a reference point (R265). -/
def accNew (g m : Int) : Acc :=
  { a := 0, mFirst := m, mLast := m, gMin := g, gMax := g, xRef := g, yRef := m, sx := 0, sy := 0, sxx := 0,
    syy := 0, sxy := 0, sc := 0, scq := [0, 0, 0, 0], peak := 0, peakG := g, peakM := m, runs := 0, crack := 0 }

/-- The peak of two (R266): larger magnitude, then smaller line, then smaller column. -/
def peakOf (p pg pm q qg qm : Int) : Int × Int × Int :=
  if p.natAbs < q.natAbs ∨ (p.natAbs = q.natAbs ∧ (qm < pm ∨ (qm = pm ∧ qg < pg))) then (q, qg, qm) else (p, pg, pm)

/-- One pixel enters the accumulators (R265). -/
def accPixel (a : Acc) (g m : Int) (d : Det) : Acc :=
  let x := g - a.xRef
  let y := m - a.yRef
  let pk := if a.a = 0 then (d.c, g, m) else peakOf a.peak a.peakG a.peakM d.c g m
  { a with
    a := a.a + 1, mFirst := if a.a = 0 then m else min a.mFirst m, mLast := if a.a = 0 then m else max a.mLast m
    gMin := if a.a = 0 then g else min a.gMin g, gMax := if a.a = 0 then g else max a.gMax g
    sx := a.sx + x, sy := a.sy + y, sxx := a.sxx + x * x, syy := a.syy + y * y, sxy := a.sxy + x * y
    sc := a.sc + d.c, scq := (List.range 4).map (fun q => intAt a.scq q + intAt d.cq q)
    peak := pk.1, peakG := pk.2.1, peakM := pk.2.2 }

/-- Accumulators shifted to another reference point (R283). -/
def accShift (p : Acc) (xr yr : Int) : Acc :=
  let dx := p.xRef - xr
  let dy := p.yRef - yr
  let n : Int := p.a
  { p with
    xRef := xr, yRef := yr, sx := p.sx + n * dx, sy := p.sy + n * dy
    sxx := p.sxx + 2 * dx * p.sx + n * dx * dx, syy := p.syy + 2 * dy * p.sy + n * dy * dy
    sxy := p.sxy + dx * p.sy + dy * p.sx + n * dx * dy }

/-- Sum of two accumulators at the reference point of the first (R270, R283). -/
def accJoin (p q0 : Acc) : Acc :=
  let q := accShift q0 p.xRef p.yRef
  let pk := peakOf p.peak p.peakG p.peakM q.peak q.peakG q.peakM
  { p with
    a := p.a + q.a, mFirst := min p.mFirst q.mFirst, mLast := max p.mLast q.mLast
    gMin := min p.gMin q.gMin, gMax := max p.gMax q.gMax, sx := p.sx + q.sx, sy := p.sy + q.sy
    sxx := p.sxx + q.sxx, syy := p.syy + q.syy, sxy := p.sxy + q.sxy, sc := p.sc + q.sc
    scq := (List.range 4).map (fun i => intAt p.scq i + intAt q.scq i)
    peak := pk.1, peakG := pk.2.1, peakM := pk.2.2, runs := p.runs + q.runs, crack := p.crack + q.crack }

/-- Two optional accumulators joined. -/
def accJoinOpt : Option Acc → Option Acc → Option Acc
  | some a, some b => some (accJoin a b)
  | some a, none => some a
  | none, b => b

/-- Lexicographic order of first pixels (R260). -/
def firstBefore (a b : Blob) : Bool := decide (a.firstM < b.firstM ∨ (a.firstM = b.firstM ∧ a.firstG < b.firstG))

/-- Merge lists of edge runs of the same edge into maximal runs of consecutive lines. -/
def edgeInsert (l : List (Int × Int)) (r : Int × Int) : List (Int × Int) :=
  match l with
  | [] => [r]
  | h :: t =>
    if r.2 + 1 < h.1 then r :: h :: t
    else if h.2 + 1 < r.1 then h :: edgeInsert t r
    else edgeInsert t (min h.1 r.1, max h.2 r.2)

/-- Two open blobs become one; the earlier first pixel gives the identity (R260, R270). -/
def blobJoin (x y : Blob) : Blob :=
  let p := if firstBefore y x then y else x
  let q := if firstBefore y x then x else y
  { p with
    segFirst := min p.segFirst q.segFirst
    lastM := max p.lastM q.lastM
    acc := accJoinOpt (p.acc.map (fun a => accShift a p.firstG p.firstM)) q.acc |>.map (fun a => accShift a p.firstG p.firstM)
    attr := p.attr ||| q.attr
    seed := p.seed || q.seed
    streamer := p.streamer || q.streamer
    edge := p.edge || q.edge
    cutSent := p.cutSent || q.cutSent
    label := if q.cutSent && !p.cutSent then q.label else p.label
    held := p.held ++ q.held
    suspect := p.suspect || q.suspect
    uncertain := p.uncertain || q.uncertain
    edgeLo := q.edgeLo.foldl edgeInsert p.edgeLo
    edgeHi := q.edgeHi.foldl edgeInsert p.edgeHi }

/-- Change the blob of one id. -/
def blobModify (bs : List Blob) (i : Nat) (f : Blob → Blob) : List Blob :=
  bs.map (fun b => if b.id = i then f b else b)

/-- Labelling state while the runs of one line are taken in column order. -/
structure LabelSt where
  blobs : List Blob
  prev : List Run
  cur : List Run
  nextId : Nat
  overflow : Bool
  deriving DecidableEq, Repr

/-- Join blob `j` into blob `i` and rename it in the runs. -/
def labelMerge (l : LabelSt) (i j : Nat) : LabelSt :=
  if i = j then l else
    match l.blobs.find? (fun b => b.id = i), l.blobs.find? (fun b => b.id = j) with
    | some x, some y =>
      let z := blobJoin x y
      let ren (r : Run) : Run := if r.blob = i ∨ r.blob = j then { r with blob := z.id } else r
      { l with
        blobs := (l.blobs.filter (fun b => b.id ≠ i && b.id ≠ j)) ++ [z]
        prev := l.prev.map ren
        cur := l.cur.map ren }
    | _, _ => l

/-- The uninspected-neighbour test of TRUNCATED (R264). -/
def touchesGap (a b : Int) (gs : List ColGap) : Bool :=
  gs.any (fun g => decide (a - 1 ≤ g.last ∧ g.first ≤ b + 1))

/-- The pixels of one run enter a blob (R264, R265, R267 steps 1 and 2). -/
def blobRun (env : SegEnv) (o : OutLine) (ds : List (Option Det)) (prevRuns : List (Int × Int)) (trunc : Bool)
    (a b : Int) (bl : Blob) : Blob :=
  let pix := (((ds.drop (a - env.oLo).toNat).take (b + 1 - a).toNat).zipIdx).filterMap
    (fun d => d.1.map (fun x => (a + (d.2 : Int), x)))
  let acc0 := bl.acc.getD (accNew bl.firstG bl.firstM)
  let acc1 := pix.foldl (fun ac p => accPixel ac p.1 o.m p.2) acc0
  let len := (b + 1 - a).toNat
  let acc2 := { acc1 with runs := acc1.runs + 1, crack := acc1.crack + 2 + (len - covered a b prevRuns) }
  let bits := pix.foldl (fun t p =>
    t ||| (if p.2.sat then 1 else 0) ||| (if p.2.c < 0 then 16 else 0) ||| (if 0 < p.2.c then 32 else 0) |||
      2 ^ (8 + p.2.layer)) 0
  let lo := env.left && decide (a = env.oLo)
  let hi := env.right && decide (b = env.oHi)
  { bl with
    acc := some acc2
    lastM := o.m
    attr := bl.attr ||| bits ||| (if o.replaced then 2 else 0) ||| (if trunc then 4 else 0)
    seed := bl.seed || pix.any (fun p => p.2.seed)
    suspect := bl.suspect || o.suspect
    uncertain := bl.uncertain || o.uncertain
    edge := bl.edge || lo || hi
    edgeLo := if lo then edgeInsert bl.edgeLo (o.m, o.m) else bl.edgeLo
    edgeHi := if hi then edgeInsert bl.edgeHi (o.m, o.m) else bl.edgeHi }

/-- A new blob at a run's first pixel (R260). -/
def blobNew (id : Nat) (m g : Int) : Blob :=
  { id := id, firstM := m, firstG := g, segFirst := m, lastM := m, acc := none, attr := 0, seed := false,
    streamer := false, edge := false, cutSent := false, held := [], suspect := false, uncertain := false,
    label := id, edgeLo := [], edgeHi := [] }

/-- One run of the line is connected to the blobs of the line before it or begins a new one (R259, R273). -/
def labelRun (env : SegEnv) (o : OutLine) (ds : List (Option Det)) (prevRuns : List (Int × Int))
    (gapsHere gapsPrev : List ColGap) (prevGone : Bool) (l : LabelSt) (r : Int × Int) : LabelSt :=
  if l.overflow then l else
    let ids := (l.prev.filter (fun p => decide (p.a ≤ r.2 + 1 ∧ r.1 - 1 ≤ p.b))).map Run.blob
    let trunc := prevGone || touchesGap r.1 r.2 gapsHere || touchesGap r.1 r.2 gapsPrev
    match ids with
    | [] =>
      if env.share ≤ l.blobs.length then { l with overflow := true } else
        let b := blobRun env o ds prevRuns trunc r.1 r.2 (blobNew l.nextId o.m r.1)
        { l with blobs := l.blobs ++ [b], cur := l.cur ++ [⟨r.1, r.2, l.nextId⟩], nextId := l.nextId + 1 }
    | i :: rest =>
      let l1 := rest.foldl (fun (acc : Nat × LabelSt) j =>
        let st' := labelMerge acc.2 acc.1 j
        (if st'.blobs.any (fun b => b.id = acc.1) then acc.1 else j, st')) (i, l)
      let k := l1.1
      let st := l1.2
      { st with blobs := blobModify st.blobs k (blobRun env o ds prevRuns trunc r.1 r.2)
                cur := st.cur ++ [⟨r.1, r.2, k⟩] }

/-- Bottom edges of the previous line's runs (R267 step 3), to the blobs whose present segment holds that line. -/
def bottomEdges (prev : List Run) (here : List (Int × Int)) (bs : List Blob) : List Blob :=
  prev.foldl (fun acc r =>
    blobModify acc r.blob (fun b =>
      { b with acc := b.acc.map (fun a =>
          { a with crack := a.crack + ((r.b + 1 - r.a).toNat - covered r.a r.b here) }) })) bs

/-- A blob's present segment as a piece to hand over. -/
def pieceOf (b : Blob) (a : Acc) : Piece := ⟨a, b.attr, b.seed, b.suspect, b.uncertain⟩

/-- A bunting record of a context (R279). -/
def mkBunt (env : SegEnv) (kind edge label : Nat) (first last : Int) : Bunt :=
  { kind := kind, edge := edge, ctx := env.ctx, addr := env.addr, label := label, first := first, last := last,
    attr := 0, seed := false, streamer := false, suspect := false, uncertain := false, body := none }

/-- The edges of a context that have a neighbour (R278). -/
def edgesOf (env : SegEnv) : List Nat := (if env.left then [0] else []) ++ (if env.right then [1] else [])

/-- EDGE_RUN records of a blob under its label, in rising order of first line (R280). -/
def edgeRunBunts (env : SegEnv) (b : Blob) : List SegOut :=
  ((b.edgeLo.map (fun r => SegOut.bunt (mkBunt env 2 0 b.label r.1 r.2))) ++
   (b.edgeHi.map (fun r => SegOut.bunt (mkBunt env 2 1 b.label r.1 r.2))))

/-- CUT records of a streamer, one per edge it is open on (R287). -/
def cutBunts (env : SegEnv) (b : Blob) : List SegOut :=
  (if b.edgeLo.isEmpty then [] else [SegOut.bunt (mkBunt env 6 0 b.label b.firstM b.lastM)]) ++
  (if b.edgeHi.isEmpty then [] else [SegOut.bunt (mkBunt env 6 1 b.label b.firstM b.lastM)])

/-- Hand over one piece, or count it as seedless (R262, R271). -/
def handOver (kind : Nat) (p : Piece) (split : Bool) : SegOut := if p.seed then .piece kind p split else .noseed

/-- Hand over the pieces held since the streamer cuts; the last is the streamer end when the blob closed
without a further pixel (R270). -/
def handHeld (split closed : Bool) : List Piece → List SegOut
  | [] => []
  | [p] => [handOver (if closed then 2 else 1) p split]
  | p :: r => handOver 1 p split :: handHeld split closed r

/-- Close a blob (R261, R262, R270, R277, R280, R287). -/
def closeBlob (env : SegEnv) (trunc : Bool) (b0 : Blob) : List SegOut :=
  let b := if trunc then { b0 with attr := b0.attr ||| 4 } else b0
  let held := handHeld (b.streamer && b.edge) b.acc.isNone b.held
  match b.acc with
  | none => (if b.edge then (if b.cutSent then [] else cutBunts env b) ++ edgeRunBunts env b else []) ++ held
  | some a =>
    if b.streamer then
      held ++ (if b.edge then (if b.cutSent then [] else cutBunts env b) ++ edgeRunBunts env b else []) ++
        [handOver 2 (pieceOf b a) b.edge]
    else if b.edge then
      edgeRunBunts env b ++ [.bunt { mkBunt env 3 (if b.edgeLo.isEmpty then 1 else 0) b.label a.mFirst a.mLast with
        attr := b.attr, seed := b.seed, suspect := b.suspect, uncertain := b.uncertain, body := some a }]
    else [handOver 0 (pieceOf b a) false]

/-- A streamer cut at line m (R270 steps 1 and 2), with its bunting (R280, R287). -/
def cutBlob (env : SegEnv) (m : Int) (len : Nat) (b : Blob) : Blob × List SegOut :=
  match b.acc with
  | none => (b, [])
  | some a =>
    let a' := { a with crack := a.crack + len }
    let done (l : List (Int × Int)) := l.filter (fun r => r.2 < m)
    let sendB := { b with edgeLo := done b.edgeLo, edgeHi := done b.edgeHi }
    let outs := (if b.streamer then [] else [SegOut.streamer]) ++
      (if b.edge && !b.cutSent then cutBunts env b ++ edgeRunBunts env sendB else [])
    ({ b with acc := none, segFirst := m + 1, streamer := true, cutSent := b.cutSent || b.edge,
              held := b.held ++ [pieceOf b a'], suspect := false, uncertain := false,
              edgeLo := if b.edge then b.edgeLo.filter (fun r => m ≤ r.2) else b.edgeLo,
              edgeHi := if b.edge then b.edgeHi.filter (fun r => m ≤ r.2) else b.edgeHi }, outs)

/-- Later edge runs of a cut streamer, sent at the end of each run (R280). -/
def lateEdgeRuns (env : SegEnv) (m : Int) (b : Blob) : Blob × List SegOut :=
  if !b.streamer || !b.edge then (b, []) else
    let fin (l : List (Int × Int)) := l.filter (fun r => r.2 < m)
    let sendB := { b with edgeLo := fin b.edgeLo, edgeHi := fin b.edgeHi }
    if sendB.edgeLo.isEmpty && sendB.edgeHi.isEmpty then (b, []) else
      ({ b with cutSent := true, edgeLo := b.edgeLo.filter (fun r => m ≤ r.2), edgeHi := b.edgeHi.filter (fun r => m ≤ r.2) },
       (if b.cutSent then [] else cutBunts env b) ++ edgeRunBunts env sendB)

/-- Extend or open the gap runs of one line and answer those that end (R319, R320). -/
def gapStep (m : Int) (time : Nat) (sus unc rep : Bool) (here : List (Nat × Int × Int)) (gs : List GapRun) :
    List GapRun × List GapRun :=
  let cut := m % 1024 = 0
  let cont (g : GapRun) : Bool := !cut && decide (g.last + 1 = m) && here.any (fun h => decide (h = (g.cause, g.gLo, g.gHi)))
  let ended := gs.filter (fun g => !cont g)
  let kept := (gs.filter cont).map (fun g =>
    { g with last := m, suspect := g.suspect || sus, uncertain := g.uncertain || unc, replaced := g.replaced || rep })
  let fresh := (here.filter (fun h => !kept.any (fun g => decide (h = (g.cause, g.gLo, g.gHi))))).map
    (fun h => (⟨m, m, h.1, h.2.1, h.2.2, time, sus, unc, rep⟩ : GapRun))
  let all := kept ++ fresh
  if (m + 1) % 1024 = 0 then ([], ended ++ all) else (all, ended)

/-- Storm tiles of the strip that ends before line `m` (R275). -/
def tileOuts (env : SegEnv) (st : SegSt) (lastM : Int) (strip : Nat) : List SegOut :=
  st.tiles.filterMap (fun t =>
    if t.count = 0 then none else
      let first := max (t.row * 256) (st.stripFirst.getD (t.row * 256))
      let last := min (t.row * 256 + 255) lastM
      let ls := st.lines.filter (fun l => decide (first ≤ l.m ∧ l.m ≤ last))
      some (.tile first last (max (t.col * 256) env.oLo) (min (t.col * 256 + 255) env.oHi) t.count strip
        (ls.any LineInfo.replaced) (ls.any LineInfo.suspect) (ls.any LineInfo.uncertain)))

/-- Count one grow-mask pixel in its tile. -/
def tileAdd (ts : List Tile) (g m : Int) : List Tile :=
  let c := g / 256
  let r := m / 256
  if ts.any (fun t => decide (t.col = c ∧ t.row = r)) then
    ts.map (fun t => if t.col = c ∧ t.row = r then { t with count := t.count + 1 } else t)
  else ts ++ [⟨c, r, 1⟩]

/-- The line up to which an edge is final: no record of an open blob there is still to come (R280). -/
def finalLine (m : Int) (edge : Nat) (bs : List Blob) : Int :=
  bs.foldl (fun f b =>
    match (if edge = 0 then b.edgeLo else b.edgeHi) with
    | r :: _ => min f (r.1 - 1)
    | [] => f) m

/-- PROGRESS of both edges, at least once per 256 output lines (R280). -/
def progressOuts (env : SegEnv) (m : Int) (bs : List Blob) : List SegOut :=
  (edgesOf env).map (fun e => .bunt (mkBunt env 1 e 0 (finalLine m e bs) 0))

/-- The bank whose tables apply at output line `m` (R284). -/
def segBankAt (st : SegSt) (m : Int) (dflt : SegBank) : SegBank :=
  ((st.banks.find? (fun b => decide (b.1 ≤ m))).map Prod.snd).getD dflt

/-- End the present strip: storm tiles, the strip's completion, leaving storm mode (R275, R276, R486). -/
def stripEnd (env : SegEnv) (st : SegSt) : SegSt × List SegOut :=
  match st.strip with
  | none => (st, [])
  | some s =>
    let outs := (if st.storm then tileOuts env st (st.prevM.getD 0) s ++ [.stormOut] else []) ++ [.stripDone s]
    ({ st with storm := false, tiles := [], strip := none, stripFirst := none }, outs)

/-- Close every open blob at its last line (R109, R398, R829). -/
def closeAll (env : SegEnv) (trunc : Bool) (st : SegSt) : SegSt × List SegOut :=
  let bs := (bottomEdges st.prev [] st.blobs).mergeSort (fun a b => !firstBefore b a)
  ({ st with blobs := [], prev := [] }, bs.flatMap (closeBlob env trunc))

/-- Restart of the background model (R253). -/
def modelRestart (st : SegSt) : SegSt := { st with model := [] }

/-- End every gap run. -/
def gapsEnd (st : SegSt) : SegSt × List SegOut := ({ st with gaps := [] }, st.gaps.map .gap)

/-- A line that the back end does not inspect at all (R227, R261, R280). -/
def labelMissing (env : SegEnv) (o : OutLine) (st0 : SegSt) : SegSt × List SegOut :=
  let c := closeAll env true st0
  let g := gapStep o.m o.time o.suspect o.uncertain o.replaced [(o.missing, env.oLo, env.oHi)] c.1.gaps
  let info : LineInfo := ⟨o.m, o.time, o.arrive, o.strip, true, o.replaced, o.suspect, o.uncertain⟩
  let outs := c.2 ++ g.2.map .gap ++ (edgesOf env).map (fun e => .bunt (mkBunt env 4 e 0 o.m o.m))
  ({ c.1 with gaps := g.1, prevM := some o.m, prevMissing := true, prevGaps := [], lines := info :: c.1.lines }, outs)

/-- Global-column gap list of a line from per-column causes (R319). -/
def causeRuns (base : Int) (cs : List Nat) : List (Nat × Int × Int) :=
  (cs.zipIdx.foldl (fun acc c =>
    if c.1 = 0 then acc else
      match acc with
      | (k, a, b) :: r => if k = c.1 ∧ b + 1 = base + c.2 then (k, a, b + 1) :: r else (c.1, base + c.2, base + c.2) :: acc
      | [] => [(c.1, base + c.2, base + c.2)]) ([] : List (Nat × Int × Int))).reverse

/-- An inspected output line through model, detection, labelling and closure (R247 to R276). `vals` are the
owned columns per channel; the line's column gaps stand in global columns. -/
def labelInspected (env : SegEnv) (sb : SegBank) (vals : List (List Px)) (o : OutLine) (st0 : SegSt) : SegSt × List SegOut :=
  let n := (env.oHi + 1 - env.oLo).toNat
  let off (i : Nat) : Bool := o.colGaps.any (fun g => decide (g.first ≤ env.oLo + i ∧ env.oLo + i ≤ g.last))
  let cols := (List.range n).map (fun i =>
    columnStep sb o.m (off i) (vals.map (fun ch => ch.getD i (0, false))) (st0.model.getD i ⟨[], [], 0, none⟩))
  let ds := cols.map ColRes.det
  let causes := causeRuns env.oLo (cols.map ColRes.cause)
  let gapsHere : List ColGap := causes.map (fun c => ⟨c.2.1, c.2.2, c.1⟩)
  let runs := growRuns env.oLo ds
  let contig := decide (st0.prevM = some (o.m - 1))
  let info : LineInfo := ⟨o.m, o.time, o.arrive, o.strip, false, o.replaced, o.suspect, o.uncertain⟩
  let g := gapStep o.m o.time o.suspect o.uncertain o.replaced causes st0.gaps
  let relearns := (cols.filter ColRes.relearn).map (fun _ => SegOut.relearn)
  let tiles := runs.foldl (fun ts r =>
    (List.range (r.2 + 1 - r.1).toNat).foldl (fun t i => tileAdd t (r.1 + i) o.m) ts) st0.tiles
  let st1 : SegSt := { st0 with
    model := cols.map ColRes.model, tiles := tiles, gaps := g.1, lines := info :: st0.lines,
    prevM := some o.m, prevMissing := false, prevGaps := gapsHere }
  let base := relearns ++ g.2.map .gap
  if st0.storm then
    ({ st1 with prev := [] }, base ++ (edgesOf env).map (fun e => .bunt (mkBunt env 5 e 0 o.m o.m)))
  else
    let tooMany := decide (4096 < runs.length)
    let bs1 := bottomEdges st0.prev (if contig then runs else []) st0.blobs
    let prevGone := contig && st0.prevMissing
    let gapsPrev := if contig then st0.prevGaps else []
    let bs2 := st0.prev.foldl (fun acc r =>
      if contig && touchesGap r.a r.b gapsHere then blobModify acc r.blob (fun b => { b with attr := b.attr ||| 4 }) else acc) bs1
    let l0 : LabelSt := ⟨bs2, if contig then st0.prev else [], [], st0.nextId, tooMany⟩
    let prevRuns := if contig then st0.prev.map (fun r => (r.a, r.b)) else []
    let l := runs.foldl (labelRun env o ds prevRuns gapsHere gapsPrev prevGone) l0
    if l.overflow then
      let sf := st0.stripFirst.getD o.m
      ({ st1 with blobs := [], prev := [], storm := true, nextId := l.nextId },
        base ++ [if tooMany then .runsOver else .blobsOver, .stormIn] ++
          (edgesOf env).map (fun e => .bunt (mkBunt env 5 e 0 sf o.m)))
    else
      let closing := (l.blobs.filter (fun b => decide (b.lastM < o.m))).mergeSort (fun a b => !firstBefore b a)
      let open_ := l.blobs.filter (fun b => decide (b.lastM = o.m))
      let closed := closing.flatMap (closeBlob env false)
      let heldOuts := (open_.filter (fun b => !b.held.isEmpty)).flatMap (fun b => handHeld b.edge false b.held)
      let open1 := open_.map (fun b => { b with held := [] })
      let late := open1.map (lateEdgeRuns env o.m)
      let cutLen : Int := (2 ^ sb.streamExp : Nat)
      let cuts := late.map (fun x =>
        let b := x.1
        if o.m - b.segFirst + 1 = cutLen then
          let len := (l.cur.filter (fun r => r.blob = b.id)).foldl (fun k r => k + (r.b + 1 - r.a).toNat) 0
          let c := cutBlob env o.m len b
          (c.1, x.2 ++ c.2)
        else x)
      ({ st1 with blobs := cuts.map Prod.fst, prev := l.cur, nextId := l.nextId },
        base ++ closed ++ heldOuts ++ cuts.flatMap Prod.snd)

/-- The back end on one output line (R243 to R280); with no layers it only sends PROGRESS (R836). -/
def segLine (env : SegEnv) (sb : SegBank) (vals : List (List Px)) (o : OutLine) (st0 : SegSt) : SegSt × List SegOut :=
  let moved := match o.strip, st0.strip with
    | some a, some b => decide (a ≠ b)
    | _, _ => false
  let e := if moved then stripEnd env st0 else (st0, [])
  let st1 : SegSt := match o.strip, e.1.strip with
    | some s, none => { e.1 with strip := some s, stripFirst := some o.m }
    | _, _ => e.1
  let st2 : SegSt := match st1.banks with
    | (_, b) :: _ => if b = sb then st1 else { st1 with banks := (o.m, sb) :: st1.banks }
    | [] => { st1 with banks := [(o.m, sb)] }
  let r :=
    if sb.layers.isEmpty then
      ({ st2 with prevM := some o.m, lines := ⟨o.m, o.time, o.arrive, o.strip, decide (o.missing ≠ 0), o.replaced, o.suspect, o.uncertain⟩ :: st2.lines }, [])
    else if o.missing ≠ 0 then labelMissing env o st2
    else labelInspected env sb vals o st2
  let due := match r.1.lastProgress with
    | none => true
    | some p => decide (p + 256 ≤ o.m) || decide (o.m < p)
  if due then ({ r.1 with lastProgress := some o.m }, e.2 ++ r.2 ++ progressOuts env o.m r.1.blobs)
  else (r.1, e.2 ++ r.2)

/-- The 16 features (R269). -/
def features (a : Acc) : List Int :=
  let n : Int := a.a
  [n, a.mLast - a.mFirst + 1, a.gMax - a.gMin + 1,
   256 * a.xRef + rdiv (256 * a.sx) n, 256 * a.yRef + rdiv (256 * a.sy) n,
   rdiv (256 * (n * a.sxx - a.sx * a.sx)) (n * n), rdiv (256 * (n * a.syy - a.sy * a.sy)) (n * n),
   rdiv (256 * (n * a.sxy - a.sx * a.sy)) (n * n), a.peak, rdiv a.sc n,
   rdiv (intAt a.scq 0) n, rdiv (intAt a.scq 1) n, rdiv (intAt a.scq 2) n, rdiv (intAt a.scq 3) n,
   a.runs, rnd (a.crack * 201) 4]

/-- The quantised level of feature `i` (R291). -/
def levelOf (sb : SegBank) (fs : List Int) (i : Nat) : Nat :=
  ((sb.lists.getD i []).filter (fun t => decide (t ≤ intAt fs i))).length

/-- Evaluation of the decision table (R292, R293); a path passes at most 64 test nodes. -/
def classifyFrom (sb : SegBank) (fs : List Int) (attr : Nat) : Nat → Nat → Nat
  | 0, _ => 0
  | f + 1, i =>
    let w := (sb.nodes.getD i 1#64).toNat
    if bitAt w 0 then bitsAt w 34 8 else
      let t := bitsAt w 1 5
      let holds := if t < 16 then decide (bitsAt w 6 4 ≤ levelOf sb fs t) else bitAt attr (t - 16)
      classifyFrom sb fs attr f (if holds then bitsAt w 10 12 else bitsAt w 22 12)

/-- The class of a blob (R293). -/
def classify (sb : SegBank) (fs : List Int) (attr : Nat) : Nat := classifyFrom sb fs attr 66 0

/-- The class action record (R294). -/
def actionOf (sb : SegBank) (cls : Nat) : Nat := (sb.actions.getD cls 1#32).toNat

end Sys2Proof.Machine
end

