-- ==== Sys2Proof/Machine/Contexts.lean ====
section
/-! DEFINITION. Contexts (R104 to R131, R155, R171): numbering of lines into strips, rebase, ingress FIFOs, banks and
settings tags, and the commands that act on them directly. -/

namespace Sys2Proof.Machine

/-- The context of a port: a bonded pair's is the lower port's (R35, R104). -/
def State.ctxOf (s : State) (p : Nat) : Nat := if p % 2 = 1 ∧ s.flag (zlpCtrlBond (p - 1)) = true then p - 1 else p

/-- Replace the numbering of a context. -/
def State.setNum (s : State) (c : Nat) (f : CtxNum → CtxNum) : State :=
  let x := s.ctx c
  s.setCtx c { x with num := f x.num }

/-! ### Ingress FIFO -/

/-- Bytes of one FIFO entry (R114): a stamp record and the packed samples, rounded up to 64 bytes.
DEDUCED: assumption 23. -/
def fifoEntry (rows width depth : Nat) : Nat := 32 + 64 * ((rows * width * depth + 511) / 512)

/-- Capacity of a context's FIFO in bytes (R114). -/
def State.fifoCap (s : State) (c : Nat) : Nat := if s.flag (zlpCtrlBond c) then 8388608 else 4194304

/-- Bytes in a context's FIFO. -/
def State.fifoBytes (s : State) (c : Nat) : Nat := ((s.ctx c).fifo.map FifoLine.units).foldl (· + ·) 0

/-- LEVEL and PEAK follow the occupancy (R140); FIFO_HIGH fires where it passes 75 %, at both cages of a pair (R103).
DEDUCED: assumption 23. -/
def State.fifoLevel (s : State) (c : Nat) : State :=
  let used := s.fifoBytes c
  let v := (used + 511) / 512
  let old := s.fld (ctxFifoLevel c)
  let mark := s.fifoCap c / 512 * 3 / 4
  let s := (s.setFld (ctxFifoLevel c) v).setFld (ctxFifoPeak c) (max v (s.fld (ctxFifoPeak c)))
  let high := decide (old ≤ mark ∧ mark < v)
  (s.fireIf high (8 * c + 7)).fireIf (high && s.flag (zlpCtrlBond c)) (8 * (c + 1) + 7)

/-- Lines that both consumers have taken leave the FIFO (R115). -/
def State.fifoDrain (s : State) (c : Nat) : State :=
  let x := s.ctx c
  (s.setCtx c { x with fifo := x.fifo.filter (fun l => !(l.sliceTook && l.engineTook)) }).fifoLevel c

/-- A compression engine works unless it is lost (R777). -/
def State.engineUp (s : State) (e : Nat) : Bool := e < 2 && !s.pwr.engineLost.contains e

/-- A flat-field acquisition is under way on the context (R735). DEDUCED: assumption 32. -/
def State.flatRun (s : State) (c : Nat) : Option CalRun := s.cal.runs.find? (fun r => decide (r.kind = 4 ∧ r.target = c) && r.active)

/-- The context is inspected: its inspection runs and nothing holds it (R113, R137); DUSK finishes the strips that were
accepted before its STOP (R761 step 2). -/
def State.inspected (s : State) (c : Nat) : Bool :=
  (s.inspecting || (decide (s.mode = 6) && decide (s.pwr.duskStep = 2))) && !s.flag (ctxCtrlGated c)

/-- The slices process the context: it is inspected, or its flat field is taken (R735). -/
def State.processing (s : State) (c : Nat) : Bool := s.inspected c || (s.flatRun c).isSome

/-! ### Strips -/

/-- A strip closes at ingress (R109, R142): STRIP_CLOSED; a memory-borne strip becomes complete (R117).
DEDUCED: assumption 23. -/
def State.stripDone (s : State) (c : Nat) : State :=
  let x := s.ctx c
  let x := { x with num := { x.num with held := 0 } }
  let x := if x.filling = [] then x else { x with complete := x.complete ++ [x.filling], filling := [] }
  (s.setCtx c x).fire (96 + 4 * c)

/-- Mark the newest line of strip `n` as its last, wherever it stands. DEDUCED: assumption 23. -/
def CtxSt.endStrip (x : CtxSt) (n : Nat) : CtxSt :=
  let ends := x.fifo.map (fun l => l.line)
  let all := ends ++ x.filling ++ x.complete.flatten ++ x.reading
  let off := (all.filter (fun l => decide (l.strip = n))).foldl (fun a l => max a l.off) 0
  let hoff := (x.fe.hist.filter (fun l => decide (l.strip = n))).foldl (fun a l => max a l.off) 0
  let o := max off hoff
  let f (l : CamLine) : CamLine := if l.strip = n ∧ l.off = o then { l with lastOfStrip := true } else l
  { x with
    fifo := x.fifo.map (fun l => { l with line := f l.line })
    filling := x.filling.map f
    complete := x.complete.map (fun q => q.map f)
    reading := x.reading.map f
    fe := { x.fe with hist := x.fe.hist.map (fun l => if l.strip = n ∧ l.off = o then { l with lastOfStrip := true } else l) } }

/-- The context rebases (R110): its present strip, if it holds a line, closes SHORT; the next accepted line begins the
next unused strip at offset 0. -/
def State.rebase (s : State) (c : Nat) : State :=
  let n := (s.ctx c).num
  if n.held = 0 then s.setNum c (fun n => { n with needBase := true })
  else
    let strip := s.get64 (ctxStripLo c)
    let s := s.setCtx c ((s.ctx c).endStrip strip)
    let s := (s.stripDone c).setNum c (fun n => { n with needBase := true, shorts := n.shorts ++ [strip] })
    (s.bump (ctxCntShortF c) 1).alert c 2

/-- Every context of the live plan rebases. -/
def State.rebaseAll (s : State) : State := s.liveCtxs.foldl State.rebase s

/-! ### Banks -/

/-- A bank of a context by its number. -/
def CtxNum.bank (n : CtxNum) (b : Nat) : Bank := if b = 1 then n.b1 else n.b0

/-- The number of the bank that a strip is processed under (R123). -/
def CtxNum.bankNo (n : CtxNum) (strip : Nat) : Nat :=
  match n.stripBanks.find? (fun e => decide (e.1 ≤ strip)) with
  | some e => e.2
  | none => 0

/-- The bank that a strip is processed under. -/
def CtxNum.bankOf (n : CtxNum) (strip : Nat) : Bank := n.bank (n.bankNo strip)

/-- The bank active at the present strip (R138). -/
def State.activeBank (s : State) (c : Nat) : Bank := (s.ctx c).num.bank (s.fld (ctxStatusActiveBank c))

/-- COR, GEO and SEG status fields that report the active bank (R191, R236, R298, R299). -/
def State.bankStatus (s : State) (c : Nat) : State :=
  let b := s.activeBank c
  let f := b.front
  let e := f.en
  let s := ((((s.setFlag (corStatusBlackOn c) e.black).setFlag (corStatusTrackOn c) e.track).setFlag
    (corStatusDefectOn c) e.defect).setFlag (corStatusOutlierOn c) e.outlier)
  let s := ((((s.setFlag (corStatusShadeOn c) e.shade).setFlag (corStatusMosaicOn c) e.mosaic).setFlag
    (corStatusMatrixOn c) e.matrix).setFlag (corStatusStatOn c) e.stat)
  let planes := if e.mosaic then f.planes.length else 1
  let s := (s.setFld (corStatusPlanes c) planes).setFld (corStatusChannels c) (if e.matrix then f.channels else planes)
  let s := (s.setFld (geoStatusGen c) b.geo.gen).setFld (segStatusLayers c) b.seg.layers.length
  (s.setFld (segStatusPlanes c) b.seg.planes).setFld (segStreamerF c) b.seg.streamExp

/-- T28 of every row at TI × 2^8 (R155), and the registers of R192. -/
def State.resetDark (s : State) (c : Nat) : State :=
  let ti := (s.activeBank c).front.dark.ti
  let x := s.ctx c
  let s := s.setCtx c { x with fe := { x.fe with t28 := List.replicate 4 (ti * 256) } }
  (List.range 4).foldl (fun s r => s.setFldInt (corTrackF c r) ti) s

/-- The background model of a context restarts (R253); WARMUP is set unless the bank has no layers (R298, R836).
DEDUCED: assumption 28. -/
def State.restartModel (s : State) (c : Nat) : State :=
  let x := s.ctx c
  let s := s.setCtx c { x with seg := modelRestart x.seg }
  s.setFlag (segStatusWarmup c) (!(s.activeBank c).seg.layers.isEmpty)

/-- A committed bank becomes active at the first line of strip `n` (R123, R142). -/
def State.activate (s : State) (c n : Nat) : State :=
  match (s.ctx c).num.commit with
  | none => s
  | some w =>
    if n < w.strip then s
    else
      let b := 1 - s.fld (ctxStatusActiveBank c)
      let s := (s.setFld (ctxStatusActiveBank c) b).setFld (ctxStatusBankPending c) 0
      let put (m : CtxNum) : CtxNum :=
        let m := { m with commit := none, retired := some n, stripBanks := (n, b) :: m.stripBanks.take 63 }
        if b = 0 then { m with id0 := w.id } else { m with id1 := w.id }
      let s := s.setNum c put
      let x := s.ctx c
      ((s.setCtx c { x with fe := { x.fe with bankStrip := some n } }).bankStatus c).fire (96 + 4 * c + 1)

/-- Every SRC and PH entry of a bank moves by `est` (R731), in 1/64 column; the generation rises on request (R216).
DEDUCED: assumption 102. -/
def GeoBank.shift (g : GeoBank) (width : Nat) (est : Int) (raise : Bool) : GeoBank :=
  let move (e : MapEntry) : MapEntry :=
    let v : Int := ((64 * e.src + e.ph : Nat) : Int) + est
    let u := if 0 ≤ v ∧ v < 64 * (width : Int) then v.toNat else Config.seamEntry v % 2 ^ 21
    { e with src := u / 64, ph := u % 64 }
  { g with gen := if raise then (g.gen + 1) % 256 else g.gen, entries := g.entries.map move }

/-- A correction of a context exceeds ±8 grid columns in total (R732). DEDUCED: assumption 102. -/
def State.seamFar (s : State) (c : Nat) : Bool := decide (512 < (tblGet s.cal.totals 0 c).natAbs)

/-- A plausible seam estimate waits for a strip boundary of context `c` (R731 to R733): at the first one at which no other bank
update is due and the shadow bank is free, it becomes the geometry of strip `n`. DEDUCED: assumption 102. -/
def State.seamShift (s : State) (c n : Nat) : State :=
  let est := tblGet s.cal.waiting 0 c
  let num := (s.ctx c).num
  if est = 0 ∨ num.commit.isSome = true ∨ s.flag (ctxStatusBankWritable c) = false then s
  else match s.ctxPlan c with
  | none => s
  | some cp =>
    let s := { s with cal := { s.cal with waiting := tblSet s.cal.waiting 0 c 0 } }
    if s.seamFar c then s.setFld calSeamSeamLimit 1
    else
      let act := s.activeBank c
      let b : Bank := { act with geo := act.geo.shift cp.width est true }
      let k := s.fld (ctxStatusActiveBank c)
      let put (m : CtxNum) : CtxNum :=
        let m := { m with commit := some ⟨n, max m.id0 m.id1 + 1⟩ }
        if k = 1 then { m with b0 := b } else { m with b1 := b }
      let s := { s with cal := { s.cal with totals := tblSet s.cal.totals 0 c (tblGet s.cal.totals 0 c + est), last := tblSet s.cal.last 0 c est } }
      let s := if s.seamFar c then s.setFld calSeamSeamLimit 1 else s
      ((s.setNum c put).setFld (ctxStatusBankWritable c) 0).activate c n

/-! ### Mapping lines onto strips -/

/-- A new strip `n` begins with line index `i` at offset `k` of it (R107, R108). -/
def State.beginStrip (s : State) (c n base : Nat) : State :=
  let s := (s.set64 (ctxStripLo c) n).setFld (ctxBaseF c) (base % 2 ^ 32)
  let put (m : CtxNum) : CtxNum := { m with needBase := false, nextStrip := n + 1, held := 0, bases := (n, base % 2 ^ 32) :: m.bases.take 63 }
  ((s.setNum c put).activate c n).seamShift c n

/-- A START of form 2 reaches this context with a line at web position `pos` (R113): it rebases and its slice processing
begins. -/
def State.formTwo (s : State) (c : Nat) (cp : CtxPlan) (pos : Int) : State :=
  match (s.ctx c).num.startAt with
  | none => s
  | some (y, zero) =>
    let sc := match s.pln.plan with | none => 0 | some p => p.scale
    if webY pos zero sc cp.mount < y then s
    else
      let s := s.setFld (ctxCtrlGated c) 0
      (s.setNum c (fun n => { n with startAt := none })).rebase c

/-- Map an accepted line onto a strip (R108): the new state, its strip and its offset. -/
def State.mapLine (s : State) (c : Nat) (cp : CtxPlan) (idx : Nat) : State × Nat × Nat :=
  let n := (s.ctx c).num
  let strip := s.get64 (ctxStripLo c)
  if n.needBase then (s.beginStrip c n.nextStrip idx, n.nextStrip, 0)
  else
    let base := s.fld (ctxBaseF c)
    let k := (idx + 2 ^ 32 - base) % 2 ^ 32
    if k < cp.lines then (s, strip, k)
    else
      let j := k / cp.lines
      let s := if n.held = 0 then s else (s.setCtx c ((s.ctx c).endStrip strip)).stripDone c
      (s.beginStrip c (strip + j) (base + j * cp.lines), strip + j, k % cp.lines)

/-! ### Tags -/

/-- The tag expected at line `idx`, and the applies still ahead of it (R131). -/
def expectedTag (idx tag : Nat) (as : List Apply) : Nat × List Apply :=
  let reached (a : Apply) : Bool := a.accepted && decide ((idx + 2 ^ 32 - a.line) % 2 ^ 32 < 2 ^ 31)
  (((as.filter reached).getLast?.map Apply.tag).getD tag, as.filter (fun a => !reached a))

/-- APPLY_PENDING (R138). -/
def State.applyCount (s : State) (c : Nat) : State := s.setFld (ctxStatusApplyPending c) (min 2 (s.port c).applies.length)

/-- The settings tag of an accepted line (R131, R138, R142): answers whether it is unexpected. -/
def State.takeTag (s : State) (c idx tag : Nat) : State × Bool :=
  let po := s.port c
  let e := expectedTag idx (s.ctx c).num.expectTag po.applies
  let s := ((s.setPort c { po with applies := e.2 }).setNum c (fun n => { n with expectTag := e.1 })).applyCount c
  let s := (s.setFld (ctxStatusTag c) tag).fireIf (decide (s.fld (ctxStatusTag c) ≠ tag)) (96 + 4 * c + 2)
  if tag = e.1 then (s, false) else ((s.bump (ctxCntTagMismatchF c) 1).alert c 3, true)

/-! ### Acceptance -/

/-- The port counts a line index as its last and numbers it (R67, R108). -/
def State.passIdx (s : State) (p idx abs time : Nat) (pos : Int) : State :=
  s.setPort p { s.port p with lastIdx := some idx, lastAbs := abs, fresh := false, lastTime := time, lastPos := pos }

/-- A line that the FIFO cannot hold is discarded whole (R116): a gap of cause 2. DEDUCED: assumption 19. -/
def State.overflow (s : State) (c : Nat) (ln : CamLine) : State :=
  let s := ((s.bump (ctxCntOverflowF c) 1).alert c 1).passIdx c ln.idx ln.abs ln.time ln.pos
  s.setPort c { s.port c with gaps := (s.port c).gaps ++ [⟨ln.abs, ln.abs, 2⟩] }

/-- Encoder trouble that marks the lines it touches (R311, R312): ENCODER_SUSPECT in force, or an illegal transition
since the context's last line. -/
def State.lineQuality (s : State) (c : Nat) : State × Bool × Bool :=
  let k := s.refEnc
  let n := s.fld (encCntIllegalF k)
  let ill := decide (n ≠ (s.ctx c).num.illegalSeen)
  (s.setNum c (fun m => { m with illegalSeen := n }), s.flag (encStatusEncoderSuspect k), ill)

/-- The slice of a context has data to process: a sleeping one wakes (R136). -/
def State.wakeSlice (s : State) (k : Nat) : State :=
  let v := s.slice k
  if v.asleep then s else s.setSlice k { v with idleSince := s.clock }

/-- Source `i` of engine `g` fires (R387). -/
def State.cmpFire (s : State) (g i : Nat) : State := s.fire (168 + 8 * g + i)

/-- A line that the ring does not carry (R362): counted, and its strip's entry shows the gap. -/
def State.ringSkip (s : State) (c g : Nat) (ln : CamLine) : State :=
  let mark (e : StripIdx) : StripIdx := if e.ctx = c ∧ e.strip = ln.strip then { e with gap := true } else e
  let r := s.ring
  (({ s with ring := { r with strips := r.strips.map mark } }.bump cmpCntRingSkippedF 1).setFld cmpStatusSkipping 1).cmpFire g 7

/-- A line enters its context (R108 to R116, R131): FIFO space, strip and offset, bank, tag, strip buffer. In DUSK, in
catch-up and without a slice its first consumer counts as served (R416, R497, R761); a lost engine skips it from the ring (R777). -/
def State.acceptLine (s : State) (c : Nat) (cp : CtxPlan) (ln : CamLine) : State :=
  let bytes := fifoEntry ln.rows.length (ln.rows.headD []).length ln.depth
  if s.fifoCap c < s.fifoBytes c + bytes then s.overflow c ln
  else
    let s := s.formTwo c cp ln.pos
    let m := s.mapLine c cp ln.idx
    let t := m.1.takeTag c ln.idx ln.tag
    let q := t.1.lineQuality c
    let s := q.1
    let off := m.2.2
    let last := decide (off + 1 = cp.lines)
    let ln := { ln with strip := m.2.1, off := off, mismatch := t.2, suspect := q.2.1, illegal := q.2.2, lastOfStrip := last,
                        gaps := (s.port c).gaps ++ ln.gaps }
    let s := s.passIdx c ln.idx ln.abs ln.time ln.pos
    let po := s.port c
    let s := s.setPort c { po with gaps := [], prevLine := if ln.replaced then po.prevLine else some ln }
    let catching := s.jnl.catchPos.any (fun e => decide (e.1 = c))
    let go := s.processing c && !decide (s.mode = 6) && !decide (cp.service = 0) && !catching
    let mem := decide (cp.service = 2)
    let x := s.ctx c
    let e : FifoLine := { line := ln, sliceTook := !go || mem, engineTook := !s.engineUp cp.engine, units := bytes }
    let s := s.setCtx c { x with
      fifo := x.fifo ++ [e]
      filling := if go && mem then x.filling ++ [ln] else x.filling
      num := { x.num with held := x.num.held + 1, lastAccept := s.clock, lastIdx := ln.idx } }
    let s := (s.fifoLevel c).fifoDrain c
    let s := if decide (cp.engine < 2) && !s.engineUp cp.engine then s.ringSkip c cp.engine ln else s
    let s := if last then s.stripDone c else s
    if go && (!mem || last) then s.wakeSlice cp.slice else s

/-! ### Commands on contexts -/

/-- FLUSH_TIMER (R111, R112): the context has taken no line for FLUSH_MS and holds one. -/
def execFlushTimer (c : CtxId) (s : State) : Host.Outcome State Fault Refusal :=
  let n := (s.ctx c).num
  let ms := s.fld (ctxCtrlFlushMs c)
  if ms = 0 ∨ n.held = 0 ∨ s.clock < n.lastAccept + ms * 625000 then .next s
  else
    let s := s.rebase c
    .next (match s.ctxPlan c with
      | some cp => if cp.service = 2 ∧ s.processing c = true then s.wakeSlice cp.slice else s
      | none => s)

/-- BANK_COPY_DONE (R126): once the last strip under the retired bank has left the back end, the shadow holds a copy of
the active bank and is writable. -/
def execBankCopyDone (c : CtxId) (s : State) : Host.Outcome State Fault Refusal :=
  let x := s.ctx c
  match x.num.retired with
  | none => .next s
  | some first =>
    let waits (l : CamLine) : Bool := decide (l.strip < first)
    let front := (x.fifo.any (fun l => !l.sliceTook && waits l.line)) || x.filling.any waits || x.complete.any (fun q => q.any waits) ||
      x.reading.any waits
    let back := s.inspected c && !(match x.seg.strip with | some k => decide (first ≤ k) | none => false)
    if front || back then .next s
    else
      let s := s.setNum c (fun n =>
        let b := n.bankNo first
        { n with retired := none, b0 := n.bank b, b1 := n.bank b })
      .next (s.setFld (ctxStatusBankWritable c) 1)

/-- FIFO_PEAK_CLEAR (R140): a write of CTX_FIFO with bit 31 set. -/
def execFifoPeakClear (c : CtxId) (v : Word) (s : State) : Host.Outcome State Fault Refusal :=
  .next (if v.getLsbD 31 then s.setFld (ctxFifoPeak c) (s.fld (ctxFifoLevel c)) else s)

end Sys2Proof.Machine
end

