-- ==== Sys2Proof/Machine/Ports.lean ====
section
/-! DEFINITION. Camera ports in operation (R58 to R89, R95, R127 to R129): lines and the index rule, triggers, settings
and camera registers, camera events. -/

namespace Sys2Proof.Machine

/-- Replace a port. -/
def State.modPort (s : State) (p : Nat) (f : PortSt → PortSt) : State := s.setPort p (f (s.port p))

/-- NOTICE takes a cause and CAMERA_NOTICE fires (R89, R103). -/
def State.camNotice (s : State) (p cause : Nat) : State := (s.notice p cause).fire (8 * p + 6)

/-- The port is LINKED (R99). -/
def State.linked (s : State) (p : Nat) : Bool := s.fld (zlpStatusState p) = 6

/-- The bytes of the last capability record (R102). DEDUCED: assumption 16. -/
def State.capRecord (s : State) (p : Nat) : List Byte := (List.range 16).flatMap (fun i => leBytes 4 (s.fld (zlpCapabilityF p i)))

/-! ### Packets -/

/-- The SOP's CRC-8 holds (R58, R66). -/
def sopOk (k : Pkt) : Bool := decide (k.sop.length = 8) && decide (crc8 (slice k.sop 1 6) = k.sop.getD 7 0)

/-- Packet type of a SOP (R58, R60). -/
def pktType (k : Pkt) : Nat := leAt k.sop 1 1

/-- The EOP's CRC-32C over the body without its pad holds (R59). -/
def eopOk (k : Pkt) : Bool :=
  decide (k.eop.length = 8) && decide (beAt k.eop 2 4 = (crc32c (k.body.take (k.body.length - leAt k.eop 1 1 % 8))).toNat)

/-- A framed packet of a type that is whole and checked. -/
def pktGood (k : Pkt) (type : Nat) : Bool :=
  sopOk k && decide (pktType k = type) && k.badAt.isNone && !k.cut && eopOk k && decide (beAt k.sop 3 3 * 8 = k.body.length)

/-- The module sends a framed packet on the downlink (R58 to R60). -/
def State.sendPkt (s : State) (p type : Nat) (body : List Byte) : State :=
  let q := (s.port p).txSeq
  (s.emit (.zlpPacket p type q body)).modPort p (fun x => { x with txSeq := (q + 1) % 256 })

/-! ### LINE packets -/

/-- The header of a LINE body (R62). -/
structure LineHead where
  idx : Nat
  tag : Nat
  rows : Nat
  width : Nat
  depth : Nat
  flags : Nat
  trig : Nat
  deriving DecidableEq, Repr

/-- Read a LINE header. -/
def lineHead (b : List Byte) : LineHead :=
  { idx := beAt b 0 4, tag := beAt b 4 1, rows := beAt b 5 1, width := beAt b 6 2, depth := beAt b 8 1, flags := beAt b 9 1,
    trig := beAt b 10 2 }

/-- Body bytes a header calls for (R62, R63). -/
def lineBytes (h : LineHead) : Nat := 16 + 8 * ((h.rows * h.width * h.depth + 63) / 64)

/-- The samples of a LINE body, row by row (R63). -/
def lineRows (h : LineHead) (body : List Byte) : List (List Nat) :=
  let bits := 8 * (body.length - 16)
  let v := beVal (body.drop 16)
  (List.range h.rows).map (fun r => (List.range h.width).map (fun c => v >>> (bits - (r * h.width + c + 1) * h.depth) % 2 ^ h.depth))

/-- What a LINE packet's checks say (R65): whole, damaged with or without a header to trust, or beyond the camera's declared
maxima (R64). -/
inductive LineCheck where
  | good | damaged (header : Bool) | beyond
  deriving DecidableEq, Repr

/-- The header came through (R65): all of it present, no bad block in it, and no bare CRC failure.
DEDUCED: assumption 19. -/
def headIntact (k : Pkt) : Bool :=
  decide (16 ≤ k.body.length) && (match k.badAt with | some o => decide (16 ≤ o) | none => k.cut || eopOk k)

/-- The header exceeds the declared maxima (R39, R64). -/
def beyondDeclared (cap : List Byte) (h : LineHead) : Bool :=
  let mask := beAt cap 4 2
  let deepest := if mask = 0 then 0 else mask.log2 + 8
  decide (beAt cap 6 2 < h.width) || decide (beAt cap 8 1 < h.rows) || decide (deepest < h.depth)

/-- Check a LINE packet against the planned format (R65). -/
def checkLine (cap : List Byte) (cp : CtxPlan) (k : Pkt) : LineCheck :=
  let h := lineHead k.body
  let head := headIntact k
  if k.cut || k.badAt.isSome || !eopOk k then .damaged head
  else if head && beyondDeclared cap h then .beyond
  else if k.body.length ≠ lineBytes h ∨ beAt k.sop 3 3 * 8 ≠ k.body.length ∨ h.rows ≠ cp.rows ∨ h.width ≠ cp.width ∨
      h.depth ≠ cp.depth then .damaged head
  else .good

/-- The web position of a line (R69, R70): the latch of its trigger, else the position at arrival; counts an unmatched
trigger number. -/
def State.linePos (s : State) (p : Nat) (h : LineHead) : State × Int :=
  if bitAt h.flags 0 then
    match (s.port p).trigs.find? (fun t => decide (t.num = h.trig)) with
    | some t => (s, t.pos)
    | none => (s.bump (zlpCntUnmatchedF p) 1, s.encPos s.refEnc)
  else (s, s.encPos s.refEnc)

/-- A line of the port's last good pixels with its own stamps (R65, R67). -/
def replacement (g : CamLine) (idx abs time : Nat) (pos : Int) : CamLine :=
  { g with idx := idx, abs := abs, time := time, pos := pos, replaced := true, gaps := [], poisoned := false }

/-- A line replaced under R65 or R67 is counted and LINE_REPLACED fires (R102, R103). -/
def State.countReplaced (s : State) (p : Nat) : State := (s.bump (zlpCntReplacedF p) 1).fire (8 * p + 3)

/-- Lines counted in ZLP_CNT_LOST, and LINE_LOST (R67, R68, R103). -/
def State.countLost (s : State) (p n : Nat) : State := (s.bump (zlpCntLostF p) n).fire (8 * p + 4)

/-- The `d - 1` replacement lines of the index rule, stamps interpolated between the neighbours (R67). -/
def State.fillGap (s : State) (p c : Nat) (cp : CtxPlan) (g : CamLine) (d last time : Nat) (pos : Int) : State :=
  let po := s.port p
  (List.range (d - 1)).foldl (fun s i =>
    let j : Int := ((i + 1 : Nat) : Int)
    let t := ((po.lastTime : Int) + rdiv (((time : Int) - po.lastTime) * j) d).toNat
    let x := po.lastPos + rdiv ((pos - po.lastPos) * j) d
    (s.countReplaced p).acceptLine c cp (replacement g ((last + i + 1) % 2 ^ 32) (po.lastAbs + i + 1) t x)) s

/-- The index rule (R67, R68) on a line, received or replaced, with stamps in place. DEDUCED: assumption 19. -/
def State.indexRule (s : State) (p c : Nat) (cp : CtxPlan) (ln : CamLine) : State :=
  let po := s.port p
  let count (s : State) : State := if ln.replaced then s.countReplaced p else s
  match po.fresh, po.lastIdx with
  | false, some last =>
    let d := (ln.idx + 2 ^ 32 - last) % 2 ^ 32
    if d = 0 ∨ 2 ^ 31 < d then s.bump (zlpCntDuplicateF p) 1
    else if d ≤ 64 then
      let s := match po.prevLine with | some g => s.fillGap p c cp g d last ln.time ln.pos | none => s
      (count s).acceptLine c cp { ln with abs := po.lastAbs + d }
    else
      let s := s.countLost p (d - 1)
      (count s).acceptLine c cp { ln with abs := po.lastAbs + d, gaps := [⟨po.lastAbs + 1, po.lastAbs + d - 1, 1⟩] }
  | _, _ => (count s).acceptLine c cp { ln with abs := po.lastAbs + 1 }

/-- A received line that passed its checks (R62 to R70). DEDUCED: assumption 19. -/
def State.goodLine (s : State) (p c : Nat) (cp : CtxPlan) (k : Pkt) : State :=
  let h := lineHead k.body
  let w := s.linePos p h
  w.1.indexRule p c cp
    { idx := h.idx, abs := 0, tag := h.tag, time := s.taiNs, pos := w.2, replaced := false, triggered := bitAt h.flags 0, strip := 0,
      off := 0, depth := h.depth, gaps := [], mismatch := false, suspect := false, illegal := false, lastOfStrip := false,
      poisoned := false, rows := lineRows h k.body }

/-- A damaged line (R65, R68): replaced by the last good line, or lost before the first. DEDUCED: assumption 19. -/
def State.badLine (s : State) (p c : Nat) (cp : CtxPlan) (k : Pkt) (header : Bool) : State :=
  let po := s.port p
  match po.fresh, po.prevLine, po.lastIdx with
  | false, some g, some last =>
    let h := lineHead k.body
    let w := if header then s.linePos p h else (s, s.encPos s.refEnc)
    w.1.indexRule p c cp (replacement g (if header then h.idx else (last + 1) % 2 ^ 32) 0 s.taiNs w.2)
  | _, _, _ => s.countLost p 1

/-- LINE (R58 to R70, R108 to R116): a LINE packet arrives. A port that is not LINKED or out of the plan takes none. -/
def execLine (p : PortId) (k : Pkt) (s : State) : Host.Outcome State Fault Refusal :=
  if !s.linked p then .next s
  else if !sopOk k then .next (s.bump (zlpCntBadpktF p) 1)
  else if pktType k ≠ 1 ∨ s.flag (zlpStatusCameraChanged p) = true then .next s
  else match s.ctxPlan p with
  | none => .next s
  | some cp => match checkLine (s.capRecord p) cp k with
    | .beyond => .fault (.undefinedBehaviour .lineBeyondDeclared)
    | .good => .next (s.goodLine p p cp k)
    | .damaged h => .next (s.badLine p p cp k h)

/-! ### Triggers -/

/-- A line trigger of port `p` (R69 to R76, R585): its number, its latched time and position, and its TRIG block or its
camera-trigger pulse; none is sent before the port reports LINKED (R745). -/
def State.lineTrigger (s : State) (p : Nat) : State :=
  if !s.linked p then s
  else
    let t := s.taiNs
    match s.camPlan p with
    | none => s
    | some cm =>
      if cm.trigPath ≠ 0 ∧ s.triggerMerges p = true then s.toutTrigger p t
      else
        let po := s.port p
        let latch : Trig := ⟨po.trigNum, t, s.encPos s.refEnc⟩
        let s := s.setPort p { po with trigs := latch :: po.trigs.take 1023, trigNum := (po.trigNum + 1) % 65536 }
        (if cm.trigPath = 0 then s.emit (.trig p latch.num 0) else s).toutTrigger p t

/-- TIME_TRIGGER (R73, R74): a periodic trigger of a camera with trigger source 1 falls due. DEDUCED: assumption 22. -/
def execTimeTrigger (p : PortId) (s : State) : Host.Outcome State Fault Refusal :=
  match s.camPlan p with
  | some cm => .next (if cm.trigSource = 1 then s.lineTrigger p else s)
  | none => .next s

/-! ### Camera registers -/

/-- The body of a CTRL request (R84). -/
def ctrlBody (op tag words addr : Nat) (data : List Byte) : List Byte :=
  beBytes 1 op ++ beBytes 1 tag ++ beBytes 2 words ++ beBytes 4 addr ++ data

/-- Send the next CTRL request when none is outstanding (R85); each takes a new tag (R86). DEDUCED: assumption 20. -/
def State.ctrlNext (s : State) (p : Nat) : State :=
  let po := s.port p
  match po.ctrl, po.ctrlQ with
  | none, r :: q =>
    let body := beBytes 1 r.op ++ beBytes 1 po.ctrlTag ++ r.body.drop 2
    let s := s.setPort p { po with ctrl := some { r with tag := po.ctrlTag, body := body, sends := 1 }, ctrlQ := q,
                                   ctrlTag := (po.ctrlTag + 1) % 256 }
    s.sendPkt p 2 body
  | _, _ => s

/-- Queue a CTRL request. DEDUCED: assumption 20. -/
def State.ctrlAdd (s : State) (p : Nat) (r : CtrlReq) : State := (s.modPort p (fun x => { x with ctrlQ := x.ctrlQ ++ [r] })).ctrlNext p

/-- The recipe's camera register writes (R393), sent one after another. -/
def State.recipeWrites (s : State) (p : Nat) : State :=
  match s.camPlan p with
  | none => s
  | some cm => cm.writes.foldl (fun s w => s.ctrlAdd p ⟨2, 0, 1, ctrlBody 2 0 1 w.1 (beBytes 4 w.2), 0, 0, 255, 0⟩) s

/-- The words of a byte string in the other byte order. -/
def swapWords (n : Nat) (b : List Byte) : List Byte := (List.range n).flatMap (fun i => (slice b (4 * i) 4).reverse)

/-- The data of a CTRL write has been read from the host (R84). PRESUMED: assumption 21. -/
def ctrlDataRead (n : Nat) (d : OutDesc) (bytes : List Byte) (s : State) : State :=
  let w := d.par 0x12 2
  s.ctrlAdd (d.par 0x10 1) ⟨2, 0, w, ctrlBody 2 0 w (d.par 0x14 4) (swapWords w bytes), 0, d.par 0x18 8, n, d.idx⟩

/-- The effect of a CAMERA_CTRL descriptor (R84, R555). -/
def cameraCtrlEffect (n : Nat) (d : OutDesc) (s : State) : State :=
  let p := d.par 0x10 1
  let op := d.par 0x11 1
  let w := d.par 0x12 2
  if 12 ≤ p then s.badParam n d 0x10
  else if op ≠ 1 ∧ op ≠ 2 then s.badParam n d 0x11
  else if w = 0 ∨ 64 < w then s.badParam n d 0x12
  else if !s.linked p then s.wrongState n d
  else if op = 1 then s.ctrlAdd p ⟨1, 0, w, ctrlBody 1 0 w (d.par 0x14 4) [], 0, d.par 0x18 8, n, d.idx⟩
  else
    let r := s.hostRead (d.par 0x18 8) (4 * w) (.ctrlData d.idx) 6 0
    match r.2 with
    | none => r.1
    | some _ => r.1.finishDesc n d.idx 7 (leBytes 1 0)

/-- CAMERA_CTRL (0x29). -/
def execCameraCtrl (n : SessId) (idx : Nat) (s : State) : Host.Outcome State Fault Refusal :=
  .next (s.runDesc n idx 0x29 modesMNAX (cameraCtrlEffect n))

/-- An acknowledgement ends a CTRL request of the host (R84, R557): read data go to the data address. -/
def State.ctrlDone (s : State) (r : CtrlReq) (status : Nat) (data : List Byte) : State :=
  if 4 ≤ r.sess then s
  else if r.op = 1 ∧ status = 0 then
    let w := s.hostWrite r.dest (swapWords r.words data) 6 0
    match w.2 with
    | none => w.1.finishDesc r.sess r.desc 0 (leBytes 1 status)
    | some _ => w.1.finishDesc r.sess r.desc 7 (leBytes 1 status)
  else s.finishDesc r.sess r.desc 0 (leBytes 1 status)

/-- CTRL_ACKNOWLEDGEMENT (R84): opcode with bit 7, tag and count of the outstanding request. PRESUMED: assumption 21. -/
def execCtrlAcknowledgement (p : PortId) (k : Pkt) (s : State) : Host.Outcome State Fault Refusal :=
  if !s.linked p then .next s
  else if !sopOk k then .next (s.bump (zlpCntBadpktF p) 1)
  else match (s.port p).ctrl with
  | none => .next s
  | some r =>
    let b := k.body
    if pktGood k 3 ∧ beAt b 0 1 = r.op + 128 ∧ beAt b 1 1 = r.tag ∧ beAt b 2 2 = r.words then
      let st := beAt b 4 1
      let s := s.modPort p (fun x => { x with ctrl := none })
      let s := if st = 0 then s else s.camNotice p 3
      .next ((s.ctrlDone r st (slice b 5 (4 * r.words))).ctrlNext p)
    else .next s

/-- CTRL_TIMEOUT (R85): sent again up to three times, then NOTICE cause 2 and status 13. DEDUCED: assumption 20. -/
def execCtrlTimeout (p : PortId) (s : State) : Host.Outcome State Fault Refusal :=
  match (s.port p).ctrl with
  | none => .next s
  | some r =>
    if r.sends ≤ 3 then
      .next ((s.modPort p (fun x => { x with ctrl := some { r with sends := r.sends + 1 } })).sendPkt p 2 r.body)
    else
      let s := (s.modPort p (fun x => { x with ctrl := none })).camNotice p 2
      let s := if r.sess < 4 then s.finishDesc r.sess r.desc 13 (leBytes 1 0) else s
      .next (s.ctrlNext p)

/-! ### Settings -/

/-- The apply-at line and strip of a settings request (R127, R128): form, j, M, and the lead moved by whole strips.
DEDUCED: assumption 22. -/
def State.applyAt (s : State) (p : Nat) (cp : CtxPlan) (form j m : Nat) : Nat × Nat :=
  let n := s.get64 (ctxStripLo p)
  let base := s.fld (ctxBaseF p)
  let strip := if form = 0 then n + 2 else m
  let off := if form = 2 then j else 0
  let line := (base + (strip - n) * cp.lines + off) % 2 ^ 32
  let ahead := (line + 2 ^ 32 - (s.ctx p).num.lastIdx) % 2 ^ 32
  let lead := beAt (s.capRecord p) 0x38 2
  let up := if ahead < lead then (lead - ahead + cp.lines - 1) / cp.lines else 0
  ((line + up * cp.lines) % 2 ^ 32, strip + up)

/-- The pairs are at hand: the request becomes an APPLY, or is refused (R78, R82, R127 to R129).
DEDUCED: assumption 22. -/
def settingsApply (n : Nat) (d : OutDesc) (pairs : List Byte) (s : State) : State :=
  let p := d.par 0x10 1
  match s.ctxPlan p with
  | none => s.wrongState n d
  | some cp =>
    let po := s.port p
    let a := s.applyAt p cp (d.par 0x12 1) (d.par 0x14 2) (d.par 0x18 8)
    let pending := po.applies.any (fun q => decide ((a.1 + 2 ^ 32 - q.line) % 2 ^ 32 = 0 ∨ 2 ^ 31 ≤ (a.1 + 2 ^ 32 - q.line) % 2 ^ 32))
    if 2 ≤ po.applies.length ∨ pending = true then s.wrongState n d
    else
      let count := d.par 0x11 1
      let body := beBytes 4 a.1 ++ beBytes 1 po.nextTag ++ beBytes 1 count ++ beBytes 2 0 ++ swapWords (2 * count) pairs
      let q : Apply := ⟨a.1, a.2, po.nextTag, body, 1, false, n, d.idx⟩
      let s := s.setPort p { po with applies := po.applies ++ [q], nextTag := po.nextTag % 255 + 1 }
      (s.applyCount p).sendPkt p 5 body

/-- The effect of a SETTINGS descriptor (R127 to R129, R555). -/
def settingsEffect (n : Nat) (d : OutDesc) (s : State) : State :=
  let p := d.par 0x10 1
  let count := d.par 0x11 1
  let form := d.par 0x12 1
  if 12 ≤ p then s.badParam n d 0x10
  else if 32 < count then s.badParam n d 0x11
  else if 2 < form then s.badParam n d 0x12
  else match s.ctxPlan p with
  | none => s.wrongState n d
  | some cp =>
    if form = 2 ∧ cp.lines ≤ d.par 0x14 2 then s.badParam n d 0x14
    else if !s.linked p ∨ 2 ≤ (s.port p).applies.length ∨ (form ≠ 0 ∧ d.par 0x18 8 < s.get64 (ctxStripLo p) + 2) then s.wrongState n d
    else if count = 0 then settingsApply n d [] s
    else
      let r := s.hostRead (d.par 0x20 8) (8 * count) (.pairs d.idx) 6 0
      match r.2 with
      | none => r.1
      | some _ => r.1.finishDesc n d.idx 7 []

/-- SETTINGS (0x28). -/
def execSettings (n : SessId) (idx : Nat) (s : State) : Host.Outcome State Fault Refusal :=
  .next (s.runDesc n idx 0x28 modesMNA (settingsEffect n))

/-- A settings request fails (R83, R89, R129): status 13, and its APPLY is no longer pending. DEDUCED: assumption 20. -/
def State.applyFail (s : State) (p : Nat) (a : Apply) : State :=
  let s := (s.modPort p (fun x => { x with applies := x.applies.filter (fun q => decide (q ≠ a)) })).applyCount p
  s.finishDesc a.sess a.desc 13 []

/-- APPLY_TIMEOUT (R83): sent again up to three times, then NOTICE cause 5 and the request fails.
DEDUCED: assumption 20. -/
def execApplyTimeout (p : PortId) (s : State) : Host.Outcome State Fault Refusal :=
  match (s.port p).applies.find? (fun a => !a.accepted) with
  | none => .next s
  | some a =>
    if a.sends ≤ 3 then
      let f (x : PortSt) : PortSt := { x with applies := x.applies.map (fun q => if q = a then { q with sends := q.sends + 1 } else q) }
      .next ((s.modPort p f).sendPkt p 5 a.body)
    else .next ((s.camNotice p 5).applyFail p a)

/-- The camera has accepted an APPLY (R89, R129). -/
def State.applyOk (s : State) (p : Nat) (a : Apply) : State :=
  let f (x : PortSt) : PortSt := { x with applies := x.applies.map (fun q => if q = a then { q with accepted := true } else q) }
  (s.modPort p f).finishDesc a.sess a.desc 0 (leBytes 1 a.tag ++ leBytes 3 0 ++ leBytes 4 a.line ++ leBytes 8 a.strip)

/-- Notice 0x8004 (R89, R560). -/
def State.forwardCevt (s : State) (p code a2 a4 : Nat) : State :=
  (s.camNotice p 1).noticeAll 0x8004 0xFF (code + 2 ^ 16 * a2 + 2 ^ 32 * a4)

/-- CEVT (R87, R89). DEDUCED: assumption 20. -/
def execCevt (p : PortId) (k : Pkt) (s : State) : Host.Outcome State Fault Refusal :=
  if !s.linked p then .next s
  else if !sopOk k then .next (s.bump (zlpCntBadpktF p) 1)
  else if !pktGood k 7 then .next s
  else
    let code := beAt k.body 0 2
    let a2 := beAt k.body 2 2
    let a4 := beAt k.body 4 4
    let apply := (s.port p).applies.find? (fun a => decide (a.tag = a2) && !a.accepted)
    .next (match code with
      | 1 => (match apply with | some a => s.applyOk p a | none => s)
      | 2 => (match apply with | some a => (s.camNotice p 4).applyFail p a | none => s)
      | 3 => (s.bump (zlpCntTrigOverrunF p) 1).forwardCevt p code a2 a4
      | 4 => s.forwardCevt p code a2 a4
      | 5 => s.forwardCevt p code a2 a4
      | c => if 0x8000 ≤ c then s.forwardCevt p code a2 a4 else s)

end Sys2Proof.Machine
end

