-- ==== Sys2Proof/Machine/Bringup.lean ====
section
/-! DEFINITION. Bring-up of a camera port, block and alignment lock, loss of the link, sleep and resume of its PHY
(R36 to R57, R68, R76, R90 to R98). -/

namespace Sys2Proof.Machine

/-! ### Lanes -/

/-- Lane `l` of a port. -/
def PortSt.lane (x : PortSt) (l : Nat) : LaneSt := tblGet x.lanes initLane l

/-- Replace lane `l` of a port. -/
def State.setLane (s : State) (p l : Nat) (v : LaneSt) : State := s.modPort p (fun x => { x with lanes := tblSet x.lanes initLane l v })

/-- Lane `l` of port `p`. -/
def State.lane (s : State) (p l : Nat) : LaneSt := (s.port p).lane l

/-- The field of ZLP_FOM for a lane; lanes 4 to 7 stand at the upper port (R100). -/
def fomFld (p l : Nat) : Fld := ⟨zlpFom (p + l / 4), 8 * (l % 4), 8⟩

/-- The field of ZLP_CAM_FOM for a lane (R100). -/
def camFomFld (p l : Nat) : Fld := ⟨zlpCamFom (p + l / 4), 8 * (l % 4), 8⟩

/-- Baud of a rate code (R33). -/
def baudOf (c : Nat) : Nat := natAt [1250000000, 6250000000, 10312500000, 12500000000, 25781250000] c

/-- The figure of merit of an eye (R42): width in 1/65 536 UI, height in µV. -/
def fomOf (e : Eye) : Nat := min (min (255 * e.width / 65536) (255 * e.height / 200000)) 255

/-- The module's role may run the port: a QSFP28 module is present, the port is no bonded pair's upper one, and a live plan
has it in service (R403). -/
def State.portUsable (s : State) (p : Nat) : Bool :=
  s.flag (zlpStatusPresent p) && decide (s.ctxOf p = p) && decide (s.mode ≠ 0) && (s.pln.plan.isNone || s.flag (zlpCtrlPortEn p))

/-! ### DISCOVER to SELECT -/

/-- The port enters DISCOVER (step 1 of R44); a lane adaptation of it ends (R727). DEDUCED: assumption 15. -/
def State.discover (s : State) (p : Nat) : State :=
  let s := s.calCutOn 1 p
  let s := ((s.setFld (zlpStatusState p) 1).setFld (zlpStatusRate p) 0).setFld (zlpStatusLanes p) 0
  s.modPort p (fun x => { x with wait := .none, dscSeen := 0, recSends := 0, lanes := [], deskew := [], asleep := false })

/-- SIGNAL_DETECT (R44): bring-up starts from DOWN. -/
def execSignalDetect (p : PortId) (s : State) : Host.Outcome State Fault Refusal :=
  if s.portUsable p ∧ s.fld (zlpStatusState p) = 0 ∧ (s.port p).wait = .none ∧ (s.port p).asleep = false then
    .next (s.discover p)
  else .next s

/-- DSC_INTERVAL (R36, R44): the module's DSC once per 1 µs. -/
def execDscInterval (p : PortId) (s : State) : Host.Outcome State Fault Refusal :=
  if s.fld (zlpStatusState p) = 1 then
    let q := (s.port p).dscSeq
    .next ((s.emit (.orderedSet p 0 2 2 q)).modPort p (fun x => { x with dscSeq := (q + 1) % 256 }))
  else .next s

/-- DSC (R36, R44): three consecutive DSC of the camera's role end DISCOVER. -/
def execDsc (p : PortId) (role _seq : Byte) (s : State) : Host.Outcome State Fault Refusal :=
  if s.fld (zlpStatusState p) ≠ 1 then .next s
  else if role ≠ 1 then .next (s.modPort p (fun x => { x with dscSeen := 0 }))
  else
    let n := (s.port p).dscSeen + 1
    let s := s.modPort p (fun x => { x with dscSeen := n })
    .next (if 3 ≤ n then s.setFld (zlpStatusState p) 2 else s)

/-- A capability record that the module accepts (R39): its length, version, ranges and CRC. DEDUCED: assumption 16. -/
def capOk (b : List Byte) : Bool :=
  let lanes := beAt b 1 1
  let inR (lo hi v : Nat) : Bool := decide (lo ≤ v ∧ v ≤ hi)
  decide (b.length = 64) && decide (beAt b 0x3C 4 = (crc32c (slice b 0 0x3C)).toNat) && decide (beAt b 0 1 = 1) &&
    decide (lanes = 4 ∨ lanes = 8) && decide (beAt b 2 2 % 4 = 3) && inR 1 32768 (beAt b 6 2) && inR 1 4 (beAt b 8 1) &&
    inR 1 4 (beAt b 9 1) && inR 1 8 (beAt b 10 1)

/-- The highest rate code of both masks, limited by MAX_RATE (R41). -/
def agreedRate (mask maxRate : Nat) : Nat := ((List.range (min maxRate 4 + 1)).filter (fun c => bitAt mask c)).foldl max 0

/-- Lanes that SELECT names: 8 on a bonded pair with an 8-lane camera, else 4 (R35, R41). -/
def State.selectLanes (s : State) (p : Nat) (cap : List Byte) : Nat := if s.flag (zlpCtrlBond p) ∧ beAt cap 1 1 = 8 then 8 else 4

/-- Send SELECT (R41). -/
def State.sendSelect (s : State) (p : Nat) : State :=
  let x := s.port p
  let h := beBytes 1 x.agreed ++ beBytes 1 x.declared ++ beBytes 1 p ++ beBytes 1 (b2n (decide (x.declared = 8)))
  s.emit (.zlpRecord p 2 x.recSeq (h ++ beBytes 4 (crc32c h).toNat))

/-- CAPABILITY_RECORD (R37, R39, R41, R44): ACK and SELECT, or NAK; after 8 refusals back to DISCOVER.
DEDUCED: assumption 16. -/
def execCapabilityRecord (p : PortId) (ty seq : Byte) (b : List Byte) (s : State) : Host.Outcome State Fault Refusal :=
  let st := s.fld (zlpStatusState p)
  if ty ≠ 1 ∨ (st ≠ 2 ∧ st ≠ 3) then .next s
  else if !capOk b then
    let n := (s.port p).recSends + 1
    let s := s.emit (.orderedSet p 0 4 1 seq.toNat)
    .next (if st = 3 then s else if 8 ≤ n then s.discover p else s.modPort p (fun x => { x with recSends := n }))
  else
    let s := s.emit (.orderedSet p 0 3 1 seq.toNat)
    if st = 3 then .next s
    else
      let s := (List.range 16).foldl (fun s i => s.setFld (zlpCapabilityF p i) (leAt b (4 * i) 4)) s
      let rate := agreedRate (beAt b 2 2) (s.fld (zlpCtrlMaxRate p))
      let n := s.selectLanes p b
      let s := s.modPort p (fun x => { x with agreed := rate, declared := n, recSeq := (x.recSeq + 1) % 256, recSends := 1 })
      .next ((s.setFld (zlpStatusState p) 3).sendSelect p)

/-- Send SELECT again, or after 8 sends return to DISCOVER (R44). -/
def State.resendSelect (s : State) (p : Nat) : State :=
  if 8 ≤ (s.port p).recSends then s.discover p
  else (s.modPort p (fun x => { x with recSends := x.recSends + 1 })).sendSelect p

/-! ### STEP_UP -/

/-- The rate code that a lane's step names: the next higher one, or the present one where it runs again (R45, R727). -/
def LaneSt.target (v : LaneSt) : Nat := if v.again then v.rate else v.rate + 1

/-- Send STEP for the next rate of a lane (R45). -/
def State.sendStep (s : State) (p l : Nat) : State :=
  let v := s.lane p l
  (s.setLane p l { v with phase := .stepSent, own := none, peer := none }).emit (.orderedSet p l 5 v.target l)

/-- A lane adapts again at its present rate: the step of R45 with the present rate code. -/
def State.adaptLane (s : State) (p l : Nat) : State := (s.setLane p l { s.lane p l with again := true }).sendStep p l

/-- STEP_UP begins (R44): lanes 1 to n - 1 start with TRAIN, and every lane steps. -/
def State.stepUp (s : State) (p : Nat) : State :=
  let n := (s.port p).declared
  let s := (s.setFld (zlpStatusState p) 4).modPort p (fun x => { x with lanes := [] })
  let s := (List.range n).foldl (fun s l => if l = 0 then s else s.emit (.train p l 0)) s
  (List.range n).foldl (fun s l => s.sendStep p l) s

/-- ACK (R36, R44): the camera accepts SELECT. -/
def execAck (p : PortId) (ty seq : Byte) (s : State) : Host.Outcome State Fault Refusal :=
  .next (if s.fld (zlpStatusState p) = 3 ∧ ty = 2 ∧ seq.toNat = (s.port p).recSeq then s.stepUp p else s)

/-- NAK (R36, R44): the camera refuses SELECT. -/
def execNak (p : PortId) (ty seq : Byte) (s : State) : Host.Outcome State Fault Refusal :=
  .next (if s.fld (zlpStatusState p) = 3 ∧ ty = 2 ∧ seq.toNat = (s.port p).recSeq then s.resendSelect p else s)

/-- RECORD_TIMEOUT (R44): no answer to SELECT within 1 ms. DESIGN CHOICE: assumption 6. -/
def execRecordTimeout (p : PortId) (s : State) : Host.Outcome State Fault Refusal :=
  .next (if s.fld (zlpStatusState p) = 3 then s.resendSelect p else s)

/-- STEP_ACK (R45): the 10 µs wait before the switch begins. -/
def execStepAck (p : PortId) (rate lane : Byte) (s : State) : Host.Outcome State Fault Refusal :=
  let v := s.lane p lane.toNat
  .next (if s.fld (zlpStatusState p) = 4 ∧ v.phase = .stepSent ∧ rate.toNat = v.target then
    s.setLane p lane.toNat { v with phase := .waitSwitch } else s)

/-- LANE_RATE_SWITCH (R45): the lane runs at the new rate and sends TRAIN. -/
def execLaneRateSwitch (p : PortId) (l : LaneId) (s : State) : Host.Outcome State Fault Refusal :=
  let v := s.lane p l
  .next (if s.fld (zlpStatusState p) = 4 ∧ v.phase = .waitSwitch then
    (s.setLane p l { v with phase := .adapting, rate := v.target }).emit (.train p l v.target) else s)

/-- A lane that has ended its steps: its highest rate, or `none` for an unusable one (R45, R46). -/
def LaneSt.best (v : LaneSt) : Option Nat := if v.phase = .settled then some v.rate else none

/-- The port rate over lanes 0 to n - 1: the lowest of their highest rates; `none` where one is unusable (R47). -/
def rateOver (x : PortSt) (n : Nat) : Option Nat :=
  (List.range n).foldl (fun a l => match a, (x.lane l).best with | some r, some v => some (min r v) | _, _ => none) (some 4)

/-- The lane count and rate of R47: the largest n × baud(r), ties to the larger n. -/
def chooseLanes (x : PortSt) : Option (Nat × Nat) :=
  ([1, 2, 4, 8].filter (fun n => decide (n ≤ x.declared))).foldl (fun (a : Option (Nat × Nat)) n =>
    match a, rateOver x n with
    | some b, some r => if b.1 * baudOf b.2 ≤ n * baudOf r then some (n, r) else some b
    | none, some r => some (n, r)
    | b, none => b) none

/-- SWITCH once every lane has ended its steps (steps 4 and 5 of R44). -/
def State.trySwitch (s : State) (p : Nat) : State :=
  let x := s.port p
  let ended := (List.range x.declared).all (fun l => decide ((x.lane l).phase = .settled ∨ (x.lane l).phase = .unusable))
  if !ended then s
  else match chooseLanes x with
  | none => s
  | some (n, r) =>
    let s := (List.range n).foldl (fun s l => let v := s.lane p l; s.setLane p l { v with rate := r, again := false }) s
    let s := (((s.setFld (zlpStatusState p) 5).setFld (zlpStatusRate p) r).setFld (zlpStatusLanes p) n).modPort p
      (fun x => { x with wait := .switchEcho })
    s.emit (.orderedSet p 0 8 r n)

/-- The lowest figure of merit so far; 256 before the first. -/
def lowestFom (a : Int) (o : Option Nat) : Int := match o with | some v => min a v | none => a

/-- A figure of merit of a lane calibration; one that no lane gave is free. -/
def State.fomLowest (s : State) (v : Int) : Nat × State := if v = 256 then s.takeFree 256 else (v.toNat, s)

/-- Lane adaptation (kind 1 of R727) has judged lane `l`: the next active lane follows; after the last, the quality figure of R728.
DEDUCED: assumption 97. -/
def State.calLane (s : State) (p : Nat) (r : CalRun) (own peer : Option Nat) (kept : Bool) : State :=
  let a := lowestFom (r.edges.getD 0 256) own
  let b := lowestFom (r.edges.getD 1 256) peer
  let bad := r.clipped + (if kept then 0 else 1)
  let n := s.fld (zlpStatusLanes p)
  if r.lane + 1 < n then
    (s.setCalRun 1 p (fun r => { r with lane := r.lane + 1, edges := [a, b], clipped := bad })).adaptLane p (r.lane + 1)
  else
    let f := s.fomLowest a
    let g := f.2.fomLowest b
    (g.2.calDone r (decide (bad = 0)) (f.1 + 256 * g.1 + 65536 * n) (g.2.calElapsed r)).trySwitch p

/-- A lane has ended its steps with the figures given (R44, R727). DEDUCED: assumption 97. -/
def State.laneEnds (s : State) (p : Nat) (own peer : Option Nat) (kept : Bool) : State :=
  match s.calRun 1 p with
  | some r => s.calLane p r own peer kept
  | none => s.trySwitch p

/-- A step is kept (R43, R45, R46): the next one follows up to the agreed rate. DEDUCED: assumption 97. -/
def State.stepKept (s : State) (p l : Nat) (v : LaneSt) (own : Nat) : State :=
  let s := (s.setLane p l { v with phase := .settled, keptOwn := own }).setFld (fomFld p l) own
  if v.rate < (s.port p).agreed then s.sendStep p l else s.laneEnds p v.own v.peer true

/-- A step fails (R45, R46): the lane returns to its previous rate and adaptation, or is unusable below code 1. A step at the
present rate returns to that rate. DEDUCED: assumption 97. -/
def State.stepFails (s : State) (p l : Nat) (v : LaneSt) : State :=
  let r := if v.again then v.rate else v.rate - 1
  let w := { v with rate := r, own := none, peer := none, phase := if r = 0 then .unusable else .settled }
  ((s.setLane p l w).setFld (fomFld p l) (if r = 0 then 0 else v.keptOwn)).laneEnds p v.own v.peer false

/-- Both RESULTs of a step are at hand (R45). DESIGN CHOICE: assumption 17. -/
def State.judgeStep (s : State) (p l : Nat) : State :=
  let v := s.lane p l
  match v.own, v.peer with
  | some a, some b => if 96 ≤ a ∧ 96 ≤ b then s.stepKept p l v a else s.stepFails p l v
  | _, _ => s

/-- ADAPTATION_DONE (R42, R43, R45): the receiver's figure of merit goes out as RESULT. -/
def execAdaptationDone (p : PortId) (l : LaneId) (eye : Eye) (s : State) : Host.Outcome State Fault Refusal :=
  let v := s.lane p l
  if s.fld (zlpStatusState p) = 4 ∧ v.phase = .adapting then
    let f := fomOf eye
    let s := ((s.setLane p l { v with own := some f, phase := .waitResult }).setFld (fomFld p l) f).emit (.orderedSet p l 7 f l)
    .next (s.judgeStep p l)
  else .next s

/-- RESULT (R45): the camera's figure of merit. DESIGN CHOICE: assumption 6. -/
def execResult (p : PortId) (fom lane : Byte) (s : State) : Host.Outcome State Fault Refusal :=
  let l := lane.toNat
  let v := s.lane p l
  if s.fld (zlpStatusState p) = 4 ∧ (v.phase = .adapting ∨ v.phase = .waitResult) then
    .next ((s.setLane p l { v with peer := some fom.toNat }).judgeStep p l)
  else .next s

/-- RESULT_TIMEOUT (R45, R46): 3 ms after STEP_ACK. -/
def execResultTimeout (p : PortId) (l : LaneId) (s : State) : Host.Outcome State Fault Refusal :=
  let v := s.lane p l
  .next (if s.fld (zlpStatusState p) = 4 ∧ (v.phase = .adapting ∨ v.phase = .waitResult) then s.stepFails p l v else s)

/-! ### SWITCH and LOCK -/

/-- SWITCH (R36, R44): the camera's echo. -/
def execSwitch (p : PortId) (rate lanes : Byte) (s : State) : Host.Outcome State Fault Refusal :=
  .next (if s.fld (zlpStatusState p) = 5 ∧ (s.port p).wait = .switchEcho ∧ rate.toNat = s.fld (zlpStatusRate p) ∧
      lanes.toNat = s.fld (zlpStatusLanes p) then s.modPort p (fun x => { x with wait := .codeSwitch }) else s)

/-- The planned format at its maximum line rate needs more than 95 % of the port's capacity (R34, R71).
DEDUCED: assumption 18. -/
def State.portShort (s : State) (p : Nat) : Bool :=
  match s.ctxPlan p, s.camPlan p with
  | some cp, some cm =>
    let blocks := 4 + (cp.rows * cp.width * cp.depth + 63) / 64
    decide (19 * s.fld (zlpStatusLanes p) * baudOf (s.fld (zlpStatusRate p)) * 16382 < 20 * blocks * cm.maxLineRate * 66 * 16384)
  | _, _ => false

/-- DEGRADED (R47, R71): fewer lanes than declared, or too little capacity. -/
def State.setDegraded (s : State) (p : Nat) : State :=
  s.setFlag (zlpStatusDegraded p) (decide (s.fld (zlpStatusLanes p) < (s.port p).declared) || s.portShort p)

/-- LINE_CODE_SWITCH (R44): every active lane runs 64b/66b; LOCK begins. -/
def execLineCodeSwitch (p : PortId) (s : State) : Host.Outcome State Fault Refusal :=
  if s.fld (zlpStatusState p) = 5 ∧ (s.port p).wait = .codeSwitch then
    let s := (List.range 8).foldl (fun s l =>
      let v := s.lane p l
      s.setLane p l { v with locked := false, goodMarks := 0, badMarks := 0, mark := none }) s
    .next ((s.modPort p (fun x => { x with wait := .lock })).setDegraded p)
  else .next s

/-- LOCK_TIMEOUT (R44): no lock within 1 ms. -/
def execLockTimeout (p : PortId) (s : State) : Host.Outcome State Fault Refusal :=
  .next (if s.fld (zlpStatusState p) = 5 ∧ (s.port p).wait = .lock then s.discover p else s)

/-- The link carries 64b/66b blocks: in LOCK, LINKED or RESUME. -/
def State.blocksRun (s : State) (p : Nat) : Bool :=
  let st := s.fld (zlpStatusState p)
  decide (st = 6 ∨ st = 8 ∨ (st = 5 ∧ (s.port p).wait = .lock))

/-- A valid sync header (R52). -/
def headerOk (h : BitVec 2) : Bool := decide (h = 1#2 ∨ h = 2#2)

/-- BLOCK_LOCK (R52, R53): 64 consecutive valid sync headers. -/
def execBlockLock (p : PortId) (l : LaneId) (hs : List (BitVec 2)) (s : State) : Host.Outcome State Fault Refusal :=
  .next (if s.blocksRun p && decide (64 ≤ hs.length) && (hs.drop (hs.length - 64)).all headerOk then
    s.setLane p l { s.lane p l with locked := true } else s)

/-! ### LINKED and its loss -/

/-- A newly linked camera differs from the recipe (R95, R831): serial, lanes, rows and width within the maxima, mosaic.
DEDUCED: assumption 18. -/
def State.camDiffers (s : State) (p : Nat) : Bool :=
  match s.camPlan p, s.ctxPlan p with
  | some cm, some cp =>
    let cap := s.capRecord p
    (decide (cm.serial ≠ 0) && decide (beAt cap 0x20 8 ≠ cm.serial)) || decide (beAt cap 1 1 ≠ cm.lanes) ||
      decide (beAt cap 8 1 < cp.rows) || decide (beAt cap 6 2 < cp.width) ||
      (decide (cm.record ≠ []) && decide ((cap.drop 0x14).take 8 ≠ cm.record)) ||
      (decide (cm.mosaic ≠ []) && decide ((cap.drop 9).take 2 ++ (cap.drop 0x28).take 16 ≠ cm.mosaic))
  | _, _ => false

/-- CAMERA_CHANGED follows the comparison of R95; the source fires where it is set. DEDUCED: assumption 18. -/
def State.checkCamera (s : State) (p : Nat) : State :=
  let d := s.camDiffers p
  (s.setFlag (zlpStatusCameraChanged p) d).fireIf d (8 * p + 2)

/-- Settings requests still unanswered fail; the camera is back at tag 0 (R82, R129). -/
def State.dropApplies (s : State) (p : Nat) : State :=
  let as := (s.port p).applies
  let s := as.foldl (fun s a => if a.accepted then s else s.finishDesc a.sess a.desc 13 []) s
  ((s.modPort p (fun x => { x with applies := [], nextTag := 1 })).applyCount p).setNum p (fun n => { n with expectTag := 0 })

/-- CTRL requests of a link that is gone end unanswered (R85). -/
def State.dropCtrl (s : State) (p : Nat) : State :=
  let x := s.port p
  let rs := (match x.ctrl with | some r => [r] | none => []) ++ x.ctrlQ
  let s := s.setPort p { x with ctrl := none, ctrlQ := [] }
  rs.foldl (fun s r => if r.sess < 4 then s.finishDesc r.sess r.desc 13 (leBytes 1 0) else s) s

/-- The number sync of a camera triggered on a TOUT (R72, R76). DEDUCED: assumption 22. -/
def State.numberSync (s : State) (p : Nat) : State :=
  match s.camPlan p with
  | some cm => if cm.trigPath = 0 then s else s.emit (.trig p (s.port p).trigNum 1)
  | none => s

/-- The pixel path of a context starts anew at LINKED (R68, R110, R155, R171), and its model where lock had been lost
(R253). -/
def State.linkContext (s : State) (c : Nat) : State :=
  let s := s.rebase c
  let x := s.ctx c
  let s := (s.setCtx c { x with fe := feClear true x.fe, geo := geoClear true x.geo }).resetDark c
  if (s.port c).lost then (s.restartModel c).modPort c (fun x => { x with lost := false }) else s

/-- A port reaches LINKED (R44, R68, R76, R95, R103, R421, R831). -/
def State.linkUp (s : State) (p : Nat) : State :=
  let s := (s.setFld (zlpStatusState p) 6).fire (8 * p)
  let s := s.modPort p (fun x => { x with wait := .none, asleep := false, fresh := true, lastIdx := none, prevLine := none })
  let s := ((s.dropApplies p).dropCtrl p).linkContext p
  let s := ((s.checkCamera p).setDegraded p)
  let out := s.flag (zlpStatusCameraChanged p) || s.portShort p
  let s := if out then (if (s.ctxPlan p).isSome then s.planFault (64 + p) else s) else s.portBack
  let s := (s.numberSync p).recipeWrites p
  if s.mode = 3 ∧ s.pln.plan = none ∧ s.pln.awaitCamera = true then s.selfCompile s.pwr.flash.recipe else s

/-- Block or alignment lock of a LINKED port is lost (R57, R94, R775): LINK_LOST, the fault and its fallback; bring-up
begins again. DEDUCED: assumption 15. -/
def State.linkLost (s : State) (p : Nat) : State :=
  let s := ((s.fire (8 * p + 1)).catalogue 2 p (some (64 + p))).modPort p (fun x => { x with lost := true })
  s.discover p

/-- Lock is lost in any state that has blocks. -/
def State.lockLost (s : State) (p : Nat) : State :=
  let st := s.fld (zlpStatusState p)
  if st = 6 then s.linkLost p else if st = 8 then s.discover p else s

/-- BLOCK_LOCK_LOST (R53, R94): 16 of 64 consecutive sync headers invalid. -/
def execBlockLockLost (p : PortId) (l : LaneId) (hs : List (BitVec 2)) (s : State) : Host.Outcome State Fault Refusal :=
  let bad := ((hs.take 64).filter (fun h => !headerOk h)).length
  .next (if s.blocksRun p && (s.lane p l).locked && decide (16 ≤ bad) then
    (s.setLane p l { s.lane p l with locked := false }).lockLost p else s)

/-! ### Alignment -/

/-- Lane number and marker count of a valid ALIGN block (R54). -/
def alignOf (lanes : Nat) (block : Option (List Byte)) : Option (Nat × Nat) :=
  match block with
  | none => none
  | some b =>
    let inv := (slice b 1 3).map (fun x => ~~~ x)
    if b.length = 8 ∧ leAt b 0 1 = 0xC3 ∧ slice b 4 3 = inv ∧ leAt b 7 1 = 0 ∧ leAt b 1 1 < max lanes 1 then
      some (leAt b 1 1, beAt b 2 2)
    else none

/-- The active lanes of a port. -/
def State.activeLanes (s : State) (p : Nat) : List Nat := List.range (s.fld (zlpStatusLanes p))

/-- Two markers of equal count lie within 40 ns of each other (R56). -/
def inSkew (t : Nat) (o : Option (Nat × Nat)) (count : Nat) : Bool :=
  match o with
  | some (c, u) => decide (c ≠ count) || decide (((t : Int) - u).natAbs ≤ 40000)
  | none => true

/-- A lane takes a marker (R57): in count and skew it counts toward lock, otherwise toward loss. -/
def State.takeMark (s : State) (p l : Nat) (block : Option (List Byte)) (t : Nat) : State :=
  let v := s.lane p l
  match alignOf (s.fld (zlpStatusLanes p)) block with
  | none => s.setLane p l { v with badMarks := v.badMarks + 1, goodMarks := 0, mark := none }
  | some (_, count) =>
    let others := (s.activeLanes p).filter (fun k => decide (k ≠ l))
    let skew := others.all (fun k => inSkew t (s.lane p k).mark count)
    let next := match v.mark with | some (c, _) => decide (count = (c + 1) % 65536) | none => true
    if !skew then s.setLane p l { v with badMarks := v.badMarks + 1, goodMarks := 0, mark := some (count, t) }
    else
      let g := if next then v.goodMarks + 1 else 1
      let b := if next then 0 else v.badMarks + 1
      s.setLane p l { v with goodMarks := g, badMarks := b, mark := some (count, t) }

/-- Every active lane has block lock, `n` consecutive good markers, and the same count last (R57). -/
def State.aligned (s : State) (p n : Nat) : Bool :=
  let ls := s.activeLanes p
  let c0 := ((s.lane p 0).mark).map Prod.fst
  decide (ls ≠ []) && ls.all (fun l => let v := s.lane p l
    v.locked && decide (n ≤ v.goodMarks) && decide (v.mark.map Prod.fst = c0) && c0.isSome)

/-- Arrival of every active lane's marker against the earliest, in ps. -/
def State.deskewNow (s : State) (p : Nat) : List Nat :=
  let ts := (s.activeLanes p).map (fun l => (((s.lane p l).mark).map Prod.snd).getD 0)
  let m := ts.foldl min (ts.headD 0)
  ts.map (fun t => t - m)

/-- Time of two blocks at a rate code in ps (R33, R93). -/
def twoBlocks (c : Nat) : Nat := natAt [0, 21120, 12800, 10560, 5120] c

/-- The deskew stands within two blocks of the one held before the sleep (R93). -/
def State.deskewHeld (s : State) (p : Nat) : Bool :=
  let a := s.deskewNow p
  let b := (s.port p).deskew
  decide (a.length = b.length) && (List.zip a b).all (fun q => decide (((q.1 : Int) - q.2).natAbs ≤ twoBlocks (s.fld (zlpStatusRate p))))

/-- ALIGN (R54 to R57, R68, R91, R93): a marker of a lane, or its absence or corruption. -/
def execAlign (p : PortId) (l : LaneId) (block : Option (List Byte)) (arrivalPs : Nat) (s : State) : Host.Outcome State Fault Refusal :=
  if !s.blocksRun p || !decide (l.val < s.fld (zlpStatusLanes p)) then .next s
  else
    let st := s.fld (zlpStatusState p)
    let s := s.takeMark p l block arrivalPs
    if 4 ≤ (s.lane p l).badMarks then .next (s.lockLost p)
    else if st = 5 ∧ s.aligned p 3 = true then
      .next ((s.modPort p (fun x => { x with deskew := s.deskewNow p })).linkUp p)
    else if st = 8 ∧ (s.port p).wait = .wake ∧ s.aligned p 1 = true then
      .next (if s.deskewHeld p then s.modPort p (fun x => { x with wait := .warmStatus }) else s)
    else .next s

/-! ### STATUS, sleep and resume -/

/-- Every active lane's own and camera figure of merit has come after a resume (R93): LINKED, or rediscovery. -/
def State.resumeJudge (s : State) (p : Nat) : State :=
  let ls := s.activeLanes p
  if s.fld (zlpStatusState p) = 8 ∧ (s.port p).wait = .warmStatus ∧ ls.all (fun l => (s.lane p l).camFom.isSome) then
    if ls.all (fun l => decide (96 ≤ s.fld (fomFld p l) ∧ 96 ≤ ((s.lane p l).camFom).getD 0)) then s.linkUp p
    else s.discover p
  else s

/-- STATUS (R54, R93, R100): the camera's figure of merit of a lane. -/
def execStatus (p : PortId) (l : LaneId) (b : List Byte) (s : State) : Host.Outcome State Fault Refusal :=
  if s.blocksRun p && decide (b.length = 8) && decide (leAt b 0 1 = 0x96) && decide (crc8 (slice b 1 6) = b.getD 7 0) then
    let f := leAt b 1 1
    .next (((s.setFld (camFomFld p l) f).setLane p l { s.lane p l with camFom := some f }).resumeJudge p)
  else .next s

/-- BRINGUP_TIMEOUT (R50): the failure is counted, and the port waits 100 ms. DESIGN CHOICE: assumption 17. -/
def execBringupTimeout (p : PortId) (s : State) : Host.Outcome State Fault Refusal :=
  let st := s.fld (zlpStatusState p)
  if 1 ≤ st ∧ st ≤ 5 then
    let s := (s.bump (zlpCntBringupF p) 1).discover p
    .next ((s.setFld (zlpStatusState p) 0).modPort p (fun x => { x with wait := .retry }))
  else .next s

/-- DISCOVER_RETRY (R50). DEDUCED: assumption 15. -/
def execDiscoverRetry (p : PortId) (s : State) : Host.Outcome State Fault Refusal :=
  .next (if (s.port p).wait = .retry then s.discover p else s)

/-- The PHY of a port goes to sleep (R90, R743): SLEEP, then power-down; rate and adaptation are kept.
DEDUCED: assumption 15. -/
def State.phySleep (s : State) (p : Nat) : State :=
  let s := ((s.emit (.sleep p)).emit (.phy p false)).setDomain (1 + p) false
  (s.setFld (zlpStatusState p) 0).modPort p (fun x => { x with asleep := true, wait := .none })

/-- PHY_IDLE_TIMEOUT (R90, R743): 10 ms without a trigger on an encoder-triggered port, in NOON and MORNING. -/
def execPhyIdleTimeout (p : PortId) (s : State) : Host.Outcome State Fault Refusal :=
  match s.camPlan p with
  | some cm => .next (if cm.trigSource = 0 ∧ s.linked p = true ∧ (s.mode = 3 ∨ s.mode = 4) then s.phySleep p else s)
  | none => .next s

/-- The PHY of a port is powered and its downlink resumes (R91, R93). -/
def State.phyResume (s : State) (p : Nat) (w : PortWait) : State :=
  let s := ((s.emit (.phy p true)).emit (.resume p (s.fld (zlpStatusRate p)) (s.fld (zlpStatusLanes p)))).setDomain (1 + p) true
  let s := (s.activeLanes p).foldl (fun s l =>
    let v := s.lane p l
    s.setLane p l { v with locked := true, goodMarks := 0, badMarks := 0, mark := none, camFom := none }) s
  (s.setFld (zlpStatusState p) 8).modPort p (fun x => { x with asleep := false, wait := w })

/-- PHY_WAKE (R91, R745): a wake cause of a sleeping PHY. -/
def execPhyWake (p : PortId) (s : State) : Host.Outcome State Fault Refusal :=
  .next (if (s.port p).asleep ∧ s.mode ≠ 0 then s.phyResume p .wake else s)

/-- PHY_WAKE_TIMEOUT (R93): lock or STATUS has not come within 150 µs. -/
def execPhyWakeTimeout (p : PortId) (s : State) : Host.Outcome State Fault Refusal :=
  .next (if s.fld (zlpStatusState p) = 8 ∧ ((s.port p).wait = .wake ∨ (s.port p).wait = .warmStatus) then s.discover p else s)

/-- WARM_RESUME_ADAPT_DONE (R93): the 200 µs of adaptation end; own figures of merit are known. -/
def execWarmResumeAdaptDone (p : PortId) (eyes : List Eye) (s : State) : Host.Outcome State Fault Refusal :=
  if s.fld (zlpStatusState p) = 8 ∧ (s.port p).wait = .warmAdapt then
    let s := (s.activeLanes p).foldl (fun s l => s.setFld (fomFld p l) (fomOf (eyes.getD l ⟨0, 0⟩))) s
    .next ((s.modPort p (fun x => { x with wait := .warmStatus })).resumeJudge p)
  else .next s

/-- WARM_STATUS_TIMEOUT (R93): no STATUS within 20 ms of a warm-start resume. -/
def execWarmStatusTimeout (p : PortId) (s : State) : Host.Outcome State Fault Refusal :=
  .next (if s.fld (zlpStatusState p) = 8 ∧ ((s.port p).wait = .warmStatus ∨ (s.port p).wait = .warmAdapt) then s.discover p else s)

/-- FOM_LOW (R103): a lane's figure of merit, own or the camera's, has stayed below 64 for 10 ms. -/
def execFomLow (p : PortId) (s : State) : Host.Outcome State Fault Refusal :=
  let low := (s.activeLanes p).any (fun l => decide (s.fld (fomFld p l) < 64 ∨ s.fld (camFomFld p l) < 64))
  .next (s.fireIf (s.linked p && low) (8 * p + 5))

/-- A write of ZLP_CTRL with REDISCOVER (R98): a LINKED port loses its lock. DESIGN CHOICE: assumption 17. -/
def State.rediscover (s : State) (p : Nat) : State :=
  if !s.portUsable p then s else if s.linked p then s.linkLost p else s.discover p

/-- REDISCOVER (R98). -/
def execRediscover (p : PortId) (s : State) : Host.Outcome State Fault Refusal := .next (s.rediscover p)

/-- A write of ZLP_CTRL with ADAPT (R43, R98): full adaptation of every active lane at the present rate, in MORNING and
MIDNIGHT. DESIGN CHOICE: assumption 17. -/
def State.readapt (s : State) (p : Nat) : State :=
  if (s.mode = 3 ∨ s.mode = 7) ∧ s.linked p = true then
    let r := s.fld (zlpStatusRate p)
    let s := (s.setFld (zlpStatusState p) 4).modPort p (fun x => { x with agreed := r })
    (s.activeLanes p).foldl (fun (s : State) (l : Nat) => s.adaptLane p l) s
  else s

/-- ADAPT (R98). -/
def execAdapt (p : PortId) (s : State) : Host.Outcome State Fault Refusal := .next (s.readapt p)

end Sys2Proof.Machine
end

