-- ==== Sys2Proof/Machine/Crypto.lean ====
section
/-! DEFINITION. The ciphers that the manual names: SHA-256 (R422, R606), HMAC-SHA-256 (R517), HKDF-SHA-256 and AES key
unwrap (R527). Each is computed from its definition: roots of primes, the inverse in GF(2^8). -/

namespace Sys2Proof.Machine

/-! ### SHA-256 -/

/-- The primes below `n`, in rising order. -/
def primesBelow (n : Nat) : List Nat :=
  (List.range n).filter (fun p => decide (2 ≤ p) && (List.range p).all (fun d => decide (d < 2) || decide (p % d ≠ 0)))

/-- The largest r with `r^k ≤ v`, bit by bit from bit `b - 1`. -/
def rootBits (k v : Nat) : Nat → Nat → Nat
  | 0, r => r
  | b + 1, r => let t := r + 2 ^ b; rootBits k v b (if t ^ k ≤ v then t else r)

/-- The first 32 fractional bits of the k-th root of `p`. -/
def rootFrac (k p : Nat) : BitVec 32 := BitVec.ofNat 32 (rootBits k (p * 2 ^ (32 * k)) 40 0)

/-- The round constants. -/
def shaK : List (BitVec 32) := (primesBelow 312).map (rootFrac 3)

/-- The initial hash value. -/
def shaInit : List (BitVec 32) := (primesBelow 20).map (rootFrac 2)

/-- Rotation to the right. -/
def ror (v : BitVec 32) (n : Nat) : BitVec 32 := (v >>> n) ||| (v <<< (32 - n))

/-- The word of a list, 0 past its end. -/
def wAt (l : List (BitVec 32)) (i : Nat) : BitVec 32 := l.getD i 0

/-- The next word of the message schedule, newest first. -/
def shaNext (w : List (BitVec 32)) : BitVec 32 :=
  let a := wAt w 14
  let b := wAt w 1
  (ror b 17 ^^^ ror b 19 ^^^ (b >>> 10)) + wAt w 6 + (ror a 7 ^^^ ror a 18 ^^^ (a >>> 3)) + wAt w 15

/-- The 64 words of the schedule of one block, from its 16 words. -/
def shaSchedule (b : List (BitVec 32)) : List (BitVec 32) :=
  ((List.range 48).foldl (fun (w : List (BitVec 32)) _ => shaNext w :: w) b.reverse).reverse

/-- One round on the eight working words. -/
def shaRound (v : List (BitVec 32)) (kw : BitVec 32 × BitVec 32) : List (BitVec 32) :=
  let a := wAt v 0
  let e := wAt v 4
  let t1 := wAt v 7 + (ror e 6 ^^^ ror e 11 ^^^ ror e 25) + ((e &&& wAt v 5) ^^^ (~~~e &&& wAt v 6)) + kw.1 + kw.2
  let t2 := (ror a 2 ^^^ ror a 13 ^^^ ror a 22) + ((a &&& wAt v 1) ^^^ (a &&& wAt v 2) ^^^ (wAt v 1 &&& wAt v 2))
  [t1 + t2, a, wAt v 1, wAt v 2, wAt v 3 + t1, e, wAt v 5, wAt v 6]

/-- One block of 64 bytes. -/
def shaBlock (ks h : List (BitVec 32)) (b : List Byte) : List (BitVec 32) :=
  let w := shaSchedule ((List.range 16).map (fun i => BitVec.ofNat 32 (beAt b (4 * i) 4)))
  let v := (ks.zip w).foldl shaRound h
  (h.zip v).map (fun p => p.1 + p.2)

/-- The blocks of a padded message. -/
def shaBlocks (ks : List (BitVec 32)) : Nat → List (BitVec 32) → List Byte → List (BitVec 32)
  | 0, h, _ => h
  | f + 1, h, b => if b = [] then h else shaBlocks ks f (shaBlock ks h (b.take 64)) (b.drop 64)

/-- SHA-256. -/
def sha256 (m : List Byte) : List Byte :=
  let p := m ++ [0x80#8]
  let p := p ++ List.replicate ((120 - p.length % 64) % 64) 0 ++ beBytes 8 (8 * m.length)
  (shaBlocks shaK (p.length / 64 + 1) shaInit p).flatMap (fun w => beBytes 4 w.toNat)

/-- HMAC-SHA-256 under a key of at most 64 bytes. -/
def hmac (key m : List Byte) : List Byte :=
  let k := slice key 0 64
  sha256 (k.map (fun b => b ^^^ 0x5C#8) ++ sha256 (k.map (fun b => b ^^^ 0x36#8) ++ m))

/-- HKDF-SHA-256 for one block of output (RFC 5869). -/
def hkdf (salt key info : List Byte) : List Byte := hmac (hmac salt key) (info ++ [1#8])

/-! ### AES key unwrap -/

/-- Multiply by x in the field of AES. -/
def aesTwice (a : Nat) : Nat := if 128 ≤ a then (2 * a) ^^^ 0x11B else 2 * a

/-- Product in the field of AES. -/
def aesMul (a b : Nat) : Nat :=
  ((List.range 8).foldl (fun (s : Nat × Nat) i => (if bitAt b i then s.1 ^^^ s.2 else s.1, aesTwice s.2)) (0, a)).1

/-- The inverse, 0 for 0. -/
def aesInv (a : Nat) : Nat :=
  ((List.range 7).foldl (fun (s : Nat × Nat) _ => let q := aesMul s.2 s.2; (aesMul s.1 q, q)) (1, a)).1

/-- The S-box. -/
def aesSub (a : Nat) : Nat :=
  let v := aesInv a
  (List.range 5).foldl (fun r i => r ^^^ ((v * 2 ^ i) % 256 ^^^ v * 2 ^ i / 256)) 0x63

/-- The inverse of the S-box as a table. -/
def aesInvTable : List Nat :=
  let t := (List.range 256).map (fun a => (aesSub a, a))
  (List.range 256).map (fun b => ((t.find? (fun e => decide (e.1 = b))).map Prod.snd).getD 0)

/-- The 60 words of the key schedule of a 256-bit key. -/
def aesExpand (key : List Nat) : List (List Nat) :=
  let first := (List.range 8).map (fun i => (key.drop (4 * i)).take 4)
  ((List.range 52).foldl (fun (s : List (List Nat) × Nat) n =>
    let i := n + 8
    let t := s.1.headD []
    let u := if i % 8 = 0 then
        let r := ((t.drop 1) ++ t.take 1).map aesSub
        (r.headD 0 ^^^ s.2) :: r.drop 1
      else if i % 8 = 4 then t.map aesSub
      else t
    let w := (u.zip (s.1.getD 7 [])).map (fun e => e.1 ^^^ e.2)
    (w :: s.1, if i % 8 = 0 then aesTwice s.2 else s.2)) (first.reverse, 1)).1.reverse

/-- XOR of a state with the four words of round `r`. -/
def aesAdd (ws : List (List Nat)) (r : Nat) (st : List Nat) : List Nat :=
  (st.zip ((ws.drop (4 * r)).take 4).flatten).map (fun e => e.1 ^^^ e.2)

/-- Inverse rows shift and inverse substitution. -/
def aesInvShiftSub (inv : List Nat) (st : List Nat) : List Nat :=
  (List.range 16).map (fun i => inv.getD (st.getD ((i + 16 - 4 * (i % 4)) % 16) 0) 0)

/-- Inverse mixing of the columns. -/
def aesInvMix (st : List Nat) : List Nat :=
  (List.range 16).map (fun i =>
    let c := 4 * (i / 4)
    let at' (k : Nat) : Nat := st.getD (c + (i + k) % 4) 0
    aesMul 14 (at' 0) ^^^ aesMul 11 (at' 1) ^^^ aesMul 13 (at' 2) ^^^ aesMul 9 (at' 3))

/-- AES-256 decryption of one block. -/
def aesDecrypt (inv : List Nat) (ws : List (List Nat)) (b : List Nat) : List Nat :=
  let st := (List.range 13).foldl (fun st n => aesInvMix (aesAdd ws (13 - n) (aesInvShiftSub inv st))) (aesAdd ws 14 b)
  aesAdd ws 0 (aesInvShiftSub inv st)

/-- One step of the key unwrap: t from 6n down to 1. -/
def unwrapStep (inv : List Nat) (ws : List (List Nat)) (n t : Nat) (s : List Nat × List (List Nat)) : List Nat × List (List Nat) :=
  let i := (t - 1) % n
  let a := (s.1.zip ((beBytes 8 t).map BitVec.toNat)).map (fun e => e.1 ^^^ e.2)
  let d := aesDecrypt inv ws (a ++ s.2.getD i [])
  (d.take 8, s.2.set i (d.drop 8))

/-- AES key unwrap of 40 bytes (RFC 3394): none where the integrity check fails. -/
def keyUnwrap (kek c : List Byte) : Option (List Byte) :=
  let v := c.map BitVec.toNat
  let ws := aesExpand (kek.map BitVec.toNat)
  let inv := aesInvTable
  let r := (List.range 24).foldl (fun s k => unwrapStep inv ws 4 (24 - k) s) (v.take 8, (List.range 4).map (fun i => (v.drop (8 + 8 * i)).take 8))
  if r.1 = List.replicate 8 0xA6 then some (r.2.flatten.map (BitVec.ofNat 8)) else none

end Sys2Proof.Machine
end

