-- ==== Sys2Proof/Machine/FrontEnd.lean ====
section
/-! DEFINITION. The front end of a slice as commands drive it (R119, R120, R132 to R136, R148, R154, R185): slots,
sleep, source lines, statistics records. -/

namespace Sys2Proof.Machine

/-! ### Slots and sleep -/

/-- The granule of a slice that runs at a cycle of the schedule frame (R119). -/
def granuleAt (tick : Nat) : Nat := tick * 2 / 4875 % 32

/-- The live context that owns a granule of a slice (R119). -/
def State.granuleOwner (s : State) (k g : Nat) : Option Nat :=
  match s.pln.plan with
  | none => none
  | some p => (p.ctxs.find? (fun e => decide (e.2.slice = k) && e.2.granules.contains g)).map (fun e => e.1)

/-- A memory-borne context takes its next complete strip when its slot comes (R117, R118). -/
def State.takeStrip (s : State) (c : Nat) : State :=
  let x := s.ctx c
  match x.reading, x.complete with
  | [], q :: rest => s.setCtx c { x with reading := q, complete := rest }
  | _, _ => s

/-- GRANULE_BOUNDARY (R118, R120): the slice saves and restores context state and turns to the granule's owner. -/
def execGranuleBoundary (k : SliceId) (s : State) : Host.Outcome State Fault Refusal :=
  let v := s.slice k
  if v.asleep || v.lost then .next s
  else
    let g := granuleAt s.frameTick
    let o := s.granuleOwner k g
    let s := s.setSlice k { v with granule := g, owner := o }
    .next (match o with
      | some c => if s.processing c then s.takeStrip c else s
      | none => s)

/-- The contexts of a slice in the live plan. -/
def State.sliceCtxs (s : State) (k : Nat) : List (Nat × CtxPlan) :=
  match s.pln.plan with
  | none => []
  | some p => p.ctxs.filter (fun e => decide (e.2.slice = k))

/-- A context is idle (R135): no line accepted for 1 ms, no open strip, no memory-borne strip waiting. -/
def State.ctxIdle (s : State) (c : Nat) : Bool :=
  let x := s.ctx c
  decide (x.num.held = 0 ∧ x.num.lastAccept + 625000 ≤ s.clock) && x.filling.isEmpty && x.complete.isEmpty && x.reading.isEmpty &&
    !x.fifo.any (fun l => !l.sliceTook)

/-- SLICE_IDLE_TIMEOUT (R135): the slice's two domains power down and its state stays. -/
def execSliceIdleTimeout (k : SliceId) (s : State) : Host.Outcome State Fault Refusal :=
  let v := s.slice k
  if v.asleep || v.lost || !decide (v.idleSince + 625000 ≤ s.clock) || !(s.sliceCtxs k).all (fun e => s.ctxIdle e.1) then .next s
  else .next (((s.setSlice k { v with asleep := true }).setDomain (13 + k) false).setDomain (17 + k) false)

/-- A slice is ordered awake (R136). -/
def State.sliceUp (s : State) (k : Nat) : State :=
  let v := s.slice k
  ((s.setSlice k { v with asleep := false, idleSince := s.clock }).setDomain (13 + k) true).setDomain (17 + k) true

/-- SLICE_WAKE (R136): the slice wakes for its input, or because the host or the Planner orders it. -/
def execSliceWake (k : SliceId) (s : State) : Host.Outcome State Fault Refusal :=
  let v := s.slice k
  .next (if v.asleep && !v.lost then s.sliceUp k else s)

/-! ### Statistics records -/

/-- Header up to the CRC, and body, of a statistics record, its alive counter still 0 (R134, R185). -/
def statRaw (c : Nat) (d : StatDone) (i : Nat) (short : Bool) (a : StatAcc) : List Byte × List Byte :=
  let i32 (v : Int) : List Byte := leBytes 4 (ofSigned 32 (satS 32 v))
  let n := a.lines * d.cols
  let width (b : Nat) : Nat := min (2 ^ d.colbin) (d.cols - b * 2 ^ d.colbin)
  let chan (k : Nat) : List Byte := match a.chans[k]? with
    | some q => i32 (rdiv q.sum n) ++ leBytes 4 q.clipped ++ leBytes 4 q.overs ++ leBytes 4 0
    | none => List.replicate 16 0
  let body := leBytes 4 n ++ leBytes 1 a.chans.length ++ leBytes 1 d.colbin ++ leBytes 2 d.bins ++ leBytes 2 d.first ++
    leBytes 2 (b2n a.trackLimit + 2 * b2n a.regClamped + 4 * b2n (decide (countMax ≤ a.outliers))) ++ leBytes 4 (min a.outliers countMax) ++
    (List.range 4).flatMap (fun r => i32 (intAt a.trk r)) ++ (List.range 4).flatMap chan ++
    a.chans.flatMap (fun (q : ChanStat) => q.hist.flatMap (leBytes 4)) ++
    a.chans.flatMap (fun (q : ChanStat) => (q.bins.mapIdx (fun b v => i32 (rdiv v (a.lines * width b : Nat)))).flatten)
  let split := decide (1 < d.recs.length)
  let flags := b2n split + 2 * b2n short + 4 * b2n a.replaced + 8 * b2n a.gap + 16 * b2n d.overflow + 32 * b2n a.mismatch
  let head := leBytes 8 a.strip ++ leBytes 8 a.time ++ leBytes 4 a.idx ++ leBytes 2 a.off ++ leBytes 2 a.lines ++ leBytes 1 c ++
    leBytes 1 a.tag ++ leBytes 1 i ++ leBytes 1 d.recs.length ++ leBytes 2 flags ++ leBytes 2 0 ++ leBytes 4 body.length ++ leBytes 8 0
  (head, body)

/-- The record with its alive counter and CRC, padded to 64 bytes (R134, R540). DEDUCED: assumption 29. -/
def statSeal (raw : List Byte) (alive : Nat) : List Byte :=
  let h := slice raw 0 0x1E ++ leBytes 1 alive ++ slice raw 0x1F 0x0D
  let body := raw.drop 0x2C
  padTo 64 (h ++ leBytes 4 (crc32c (h ++ body)).toNat ++ body)

/-- The wrap marker of R541. -/
def statWrap : List Byte := List.replicate 8 0xFF ++ List.replicate 36 0

/-- Write one held record of context `c` into its buffer, after a wrap marker where it would pass the end (R541); none
where there is no room or no page. DEDUCED: assumption 29. -/
def State.statPut (s : State) (c n : Nat) (raw : List Byte) : State × Bool :=
  let h := s.hring n (16 + c)
  let units := (0x30 + (raw.length - 0x2C) + 63) / 64
  let left := h.entries - slotOf h.prod h.entries
  let skip := if left < units then left else 0
  if h.entries < units ∨ h.free < skip + units then (s, false)
  else
    let at' (p : Nat) : Nat := h.addr + 64 * slotOf p h.entries
    let m := if skip = 0 then (s, (none : Option (Nat × Nat)))
      else s.hostWrite (at' h.prod) (statSeal statWrap (aliveOf h.prod h.entries)) 5 0
    match m.2 with
    | some _ => (m.1, false)
    | none =>
      let p := h.prod + skip
      let w := m.1.hostWrite (at' p) (statSeal raw (aliveOf p h.entries)) 5 0
      match w.2 with
      | some _ => (w.1, false)
      | none => ((w.1.setHring n (16 + c) { w.1.hring n (16 + c) with prod := p + units }).mirror n (16 + c), true)

/-- Write the held records of a context in order, as far as they go (R134, R472, R542). -/
def State.statFlush (s : State) (c n : Nat) : Nat → State
  | 0 => s
  | f + 1 =>
    match tblGet s.statHeld [] c with
    | [] => s
    | r :: rest =>
      let w := s.statPut c n r
      if w.2 then ({ w.1 with statHeld := tblSet w.1.statHeld [] c rest }).statFlush c n f else w.1

/-- A record is ready (R134, R472, R542): held behind the others, at most 256, and written as far as there is room. -/
def State.statAddRec (s : State) (c : Nat) (raw : List Byte) : State :=
  match s.pln.plan with
  | none => s
  | some p => match planEntry p.statBuf c with
  | none => s
  | some b =>
    let held := tblGet s.statHeld [] c
    let s := if 256 ≤ held.length then s.bump jnlCntStatDroppedF 1
      else { s with statHeld := tblSet s.statHeld [] c (held ++ [raw]) }
    s.statFlush c (devSess b.1) 257

/-- The records of a closed strip are written (R132 to R134, R138, R833). DEDUCED: assumption 29. -/
def State.statDone (s : State) (c : Nat) (d : StatDone) : State :=
  let short := (s.ctx c).num.shorts.contains d.strip
  let s := if d.overflow then s.alert c 4 else s
  d.recs.zipIdx.foldl (fun s r =>
    let raw := statRaw c d r.2 short r.1
    let s := s.statAddRec c (raw.1 ++ raw.2)
    if r.1.trackLimit || r.1.regClamped then s.alert c 6 else s) s

/-! ### Source lines -/

/-- A line of the look-back ring as an accepted line (R354). -/
def camOfRing (last : Bool) (r : RingLine) : CamLine :=
  { idx := r.idx, abs := r.abs, tag := r.tag, time := r.time, pos := r.pos, replaced := r.replaced, triggered := r.triggered, strip := r.strip,
    off := r.off, depth := r.depth, gaps := r.gaps, mismatch := r.mismatch, suspect := r.suspect, illegal := r.illegal,
    lastOfStrip := last, poisoned := r.poisoned, rows := r.rows }

/-- A ring line ends its strip: the strip is full, or the ring holds a later strip of the context and no later line of
this one. -/
def ringLast (lines : Nat) (ring : List RingLine) (r : RingLine) : Bool :=
  decide (r.off + 1 = lines) ||
    (ring.any (fun q => decide (q.ctx = r.ctx ∧ r.strip < q.strip)) && !ring.any (fun q => decide (q.ctx = r.ctx ∧ q.strip = r.strip ∧ r.off < q.off)))

/-- The catch-up position of a context (R497). -/
def State.catchAt (s : State) (c : Nat) : Option Nat := (s.jnl.catchPos.find? (fun e => decide (e.1 = c))).map Prod.snd

/-- Move a context's catch-up position. -/
def State.setCatch (s : State) (c n : Nat) : State :=
  { s with jnl := { s.jnl with catchPos := s.jnl.catchPos.map (fun e => if e.1 = c then (c, n) else e) } }

/-- The next line of a context in catch-up (R497, R499): lines the ring does not hold are missing with cause 8. -/
def State.catchLine (s : State) (c : Nat) (cp : CtxPlan) (pos : Nat) : Option (CamLine × State) :=
  let here := s.ring.lines.filter (fun r => decide (r.ctx = c ∧ pos ≤ r.abs))
  match here with
  | [] => none
  | h :: t =>
    let r := t.foldl (fun b q => if q.abs < b.abs then q else b) h
    let ln := camOfRing (ringLast cp.lines s.ring.lines r) r
    let gaps := if pos < r.abs then ⟨pos, r.abs - 1, 8⟩ :: ln.gaps else ln.gaps
    some ({ ln with gaps := gaps }, s.setCatch c (r.abs + 1))

/-- A poisoned strip-buffer line is read again from its ring line record (R492). DEDUCED: assumption 33. -/
def State.healLine (s : State) (c : Nat) (ln : CamLine) : CamLine :=
  if !ln.poisoned then ln
  else match s.ring.lines.find? (fun r => decide (r.ctx = c ∧ r.abs = ln.abs) && !r.poisoned) with
  | some r => { ln with poisoned := false, rows := r.rows }
  | none => ln

/-- The next line for the front end of a context, and the state that has taken it (R115, R118, R497).
DEDUCED: assumption 33. -/
def State.feSource (s : State) (c : Nat) (cp : CtxPlan) : Option (CamLine × State) :=
  match s.catchAt c with
  | some pos => s.catchLine c cp pos
  | none =>
    let x := s.ctx c
    if cp.service = 2 then
      match x.reading with
      | [] => none
      | ln :: rest => some (s.healLine c ln, (s.setCtx c { x with reading := rest }))
    else
      match x.fifo.find? (fun l => !l.sliceTook) with
      | none => none
      | some l =>
        let took (q : FifoLine) : FifoLine := if q.line.abs = l.line.abs then { q with sliceTook := true } else q
        some (l.line, (s.setCtx c { x with fifo := x.fifo.map took }).fifoDrain c)

/-! ### FRONT_END_LINE -/

/-- The bank that a strip of a context runs under; in catch-up, the bank that the ring's strip index records (R123, R497). -/
def State.bankFor (s : State) (c strip : Nat) : Bank :=
  let dflt := (s.ctx c).num.bankOf strip
  if (s.catchAt c).isSome then
    match s.ring.strips.find? (fun e => decide (e.ctx = c ∧ e.strip = strip)) with
    | some e => (((s.coder c).banks.find? (fun b => decide (b.1 = e.bank))).map Prod.snd).getD dflt
    | none => dflt
  else dflt

/-- One registered line enters the geometry stage (R228, R236). -/
def State.feedGeo (s : State) (c : Nat) (cp : CtxPlan) (r : RegLine) : State :=
  let x := s.ctx c
  let g := geoFeed cp (s.bankFor c r.src.strip).geo s.pitchY x.geo x.fe.gaps r
  let s := s.setCtx c { x with geo := g.1 }
  if g.2 then (s.bump (geoCntReverseF c) 1).setFld (geoStatusDwReverse c) 1 else s

/-- COR status and counters after one line (R154, R167, R191 to R193). -/
def State.corCount (s : State) (c : Nat) (o : FeOut) : State :=
  let px := o.regs.flatMap (fun r => r.chans.flatten)
  let s := s.bump (corCntOutlierF c) o.outliers
  let s := (s.bump (corCntClippedF c) (px.filter Prod.snd).length).bump (corCntOverF c) (px.filter (fun q => decide (fullScale < q.1))).length
  let s := if o.limited then s.setFld (corStatusTrackLimit c) 1 else s
  let s := if o.regs.any RegLine.clamped then s.setFld (corStatusRegClamped c) 1 else s
  (List.range 4).foldl (fun s r => s.setFldInt (corTrackF c r) (rnd (intAt o.st.t28 r) 8)) s

/-- One line through the front end of a context (R148, R153). -/
def State.feRun (s : State) (c : Nat) (cp : CtxPlan) (scale : Nat) (ln : CamLine) : State :=
  let x := s.ctx c
  let o := feLine cp (fun n => (s.bankFor c n).front) (fun l => webY l.pos s.zero scale cp.mount) x.fe ln
  let s := s.setCtx c { x with fe := o.st, trackLog := (ln.abs, x.fe.t28) :: x.trackLog }
  let s := o.regs.foldl (fun s r => s.feedGeo c cp r) (s.corCount c o)
  o.stats.foldl (fun s d => s.statDone c d) s

/-- A line of a flat-field acquisition (R734, R735): x2 is summed, and only dark tracking moves. -/
def State.feFlatRun (s : State) (c : Nat) (cp : CtxPlan) (r : CalRun) (ln : CamLine) : State :=
  if ln.strip < r.nextStrip ∨ r.nextStrip + r.strips ≤ ln.strip then s
  else
    let x := s.ctx c
    let bk := (x.num.bankOf ln.strip).front
    let o := feFlat cp bk x.fe.t28 r.prev ln
    let add (a : List Int) (b : List Px) : List Int := b.mapIdx (fun i p => intAt a i + p.1)
    let r' : CalRun := { r with
      lines := r.lines + 1, clipped := r.clipped + o.2.2.2, prev := o.1, sums := o.1.mapIdx (fun k row => add (r.sums.getD k []) row) }
    let s := s.setCtx c { x with fe := { x.fe with t28 := o.2.1 } }
    let s := { s with cal := { s.cal with runs := s.cal.runs.map (fun q => if q = r then r' else q) } }
    if o.2.2.1 then s.setFld (corStatusTrackLimit c) 1 else s

/-- A line that cannot be read is missing with cause 3, and CONTEXT_ALERT takes cause 5 (R138, R318). -/
def State.feMissing (s : State) (c : Nat) (ln : CamLine) : State :=
  let x := s.ctx c
  (s.setCtx c { x with fe := { x.fe with gaps := x.fe.gaps ++ ⟨ln.abs, ln.abs, 3⟩ :: ln.gaps } }).alert c 5

/-- The slice runs the context: it is awake and not lost, and the running granule is the context's (R120). -/
def State.sliceRuns (s : State) (c k : Nat) : Bool :=
  let v := s.slice k
  !v.asleep && !v.lost && decide (v.owner = some c)

/-- FRONT_END_LINE (R148): the front end takes the next line of the context that owns the granule. -/
def execFrontEndLine (c : CtxId) (s : State) : Host.Outcome State Fault Refusal :=
  match s.ctxPlan c, s.pln.plan with
  | some cp, some p =>
    if !s.processing c || !s.sliceRuns c cp.slice then .next s
    else match s.feSource c cp with
    | none => .next s
    | some (ln, s) =>
      let s := s.setSlice cp.slice { s.slice cp.slice with idleSince := s.clock }
      if ln.poisoned then .next (s.feMissing c ln)
      else match s.flatRun c with
      | some r => .next (s.feFlatRun c cp r ln)
      | none => .next (s.feRun c cp p.scale ln)
  | _, _ => .next s

end Sys2Proof.Machine
end

