-- ==== Sys2Proof/Machine/Overview.lean ====
section
/-! DEFINITION. The overview unit (R229 to R242): assembly of grid lines, decimation and resampling, the records of
the overview ring. -/

namespace Sys2Proof.Machine

/-! ### Filters -/

/-- The half-band coefficients at offsets −5 to 5 (R230). DEDUCED: assumptions 24 and 31. -/
def halfBand : List Int := [195, 0, -1134, 0, 5035, 8192, 5035, 0, -1134, 0, 195]

/-- One cross-web half-band stage (R230): every second output, columns beyond an end taken from the nearest.
DEDUCED: assumption 24. -/
def halfX (xs : List Int) : List Int :=
  let n := xs.length
  (List.range ((n + 1) / 2)).map (fun i =>
    sat (rnd (sumInt (halfBand.mapIdx (fun j k => k * intAt xs (clampInt 0 ((n : Int) - 1) (2 * i + j - 5 : Int)).toNat))) 14))

/-- The scale of a resampling ratio with 32 fractional bits, in sixteenths (R231). DEDUCED: assumption 24. -/
def sigma16 (r : Nat) : Nat := (rdiv (r * 16) (2 ^ 32)).toNat

/-- The final cross-web resampler (R231): source position k × r with 32 fractional bits, 64 phases.
DEDUCED: assumption 24. -/
def resampleX (r width : Nat) (xs : List Int) : List Int :=
  let n := xs.length
  (List.range width).map (fun k =>
    let pos := k * r
    let ks := kernelArea (sigma16 r) (pos % 2 ^ 32 / 2 ^ 26)
    sat (rnd (sumInt (ks.mapIdx (fun j c => c * intAt xs (clampInt 0 ((n : Int) - 1) ((pos / 2 ^ 32 : Nat) + j - 3 : Int)).toNat))) 14))

/-- Rows combined with coefficients (R230, R231): a row of coefficient 0 contributes nothing, neither value nor flag. -/
def rowsMix (taps : List (Int × OvwRow)) (centre : OvwRow) : OvwRow :=
  let ts := taps.filter (fun t => decide (t.1 ≠ 0))
  let width (k : Nat) := (centre.chans.getD k []).length
  { centre with
    gap := ts.any (fun t => t.2.gap)
    sat := ts.any (fun t => t.2.sat)
    replaced := ts.any (fun t => t.2.replaced)
    chans := (List.range centre.chans.length).map (fun k => (List.range (width k)).map (fun i =>
      sat (rnd (sumInt (ts.map (fun t => t.1 * intAt (t.2.chans.getD k []) i))) 14))) }

/-- One down-web half-band stage takes a row (R230). It keeps the outputs centred on its input rows 6, 8, …, the first
whose 11 taps all exist (assumption 31). -/
def halfY (st : Nat × List OvwRow) (r : OvwRow) : (Nat × List OvwRow) × Option OvwRow :=
  let h := (st.2 ++ [r]).drop (st.2.length + 1 - 11)
  let n := st.1 + 1
  if h.length = 11 ∧ n % 2 = 0 ∧ 12 ≤ n then ((n, h), some (rowsMix (List.zip halfBand h) (h.getD 5 r))) else ((n, h), none)

/-- A row passes the down-web stages in order. DEDUCED: assumption 31. -/
def halfYs : List (Nat × List OvwRow) → OvwRow → List (Nat × List OvwRow) × Option OvwRow
  | [], r => ([], some r)
  | st :: rest, r =>
    let q := halfY st r
    match q.2 with
    | none => (q.1 :: rest, none)
    | some r' => let t := halfYs rest r'; (q.1 :: t.1, t.2)

/-- The 8-bit code of a sample (R232). -/
def ovwCode (g : Nat) (o v : Int) : Byte := BitVec.ofNat 8 (clampInt 0 255 (rnd (v * g) 16 + o)).toNat

/-- The pixels of a line, channels interleaved (R232, R233). -/
def ovwPixels (p : OvwPlan) (r : OvwRow) : List Byte :=
  (List.range p.width).flatMap (fun i => (List.range p.chans.length).map (fun k =>
    ovwCode (natAt p.gains k) (intAt p.offs k) (intAt (r.chans.getD k []) i)))

/-- Lines of the final down-web resampler (R231) from the rows at hand; `base` is the number of the first row kept.
DEDUCED: assumptions 24 and 31. -/
def resampleY (p : OvwPlan) (pitchY : Nat) (rows : List OvwRow) (base : Nat) (times : List (Int × Nat)) :
    Nat → Nat → Nat × List OvwLine
  | 0, pos => (pos, [])
  | f + 1, pos =>
    let src := pos / 2 ^ 32
    if base + rows.length ≤ src + 4 then (pos, [])
    else
      let frac := pos % 2 ^ 32
      let ks := kernelArea (sigma16 p.ratioY) (frac / 2 ^ 26)
      let dflt : OvwRow := ⟨0, 0, false, false, false, []⟩
      let row (k : Nat) : OvwRow := rows.getD (k - base) dflt
      let r := rowsMix (ks.mapIdx (fun j c => (c, row (src + j - 3)))) (row src)
      let centre : Int := (row src).m * 2 ^ 32 + frac * ((row (src + 1)).m - (row src).m)
      let near := (centre + 2 ^ 31 - 1) / 2 ^ 32
      let t := ((times.find? (fun e => decide (e.1 = near))).map Prod.snd).getD (row src).time
      let line : OvwLine := ⟨rnd (centre * pitchY) 32, t, r.gap, r.sat, r.replaced, ovwPixels p r⟩
      let q := resampleY p pitchY rows base times f (pos + p.ratioY)
      (q.1, line :: q.2)

/-! ### Assembly -/

/-- An assembled grid line goes through the filters (R230, R231). DEDUCED: assumption 31. -/
def ovwFilter (p : OvwPlan) (pitchY : Nat) (st : OvwSt) (r0 : OvwRow) : OvwSt :=
  let r := { r0 with chans := r0.chans.map (Nat.repeat halfX p.hx) }
  let q := halfYs st.stages r
  let times := ((r0.m, r0.time) :: st.times).take 32768
  match q.2 with
  | none => { st with stages := q.1, times := times }
  | some r' =>
    let rx := { r' with chans := r'.chans.map (resampleX p.ratioX p.width) }
    let fed := st.fed + 1
    let rows := (st.resample ++ [rx]).drop (st.resample.length + 1 - 12)
    let o := resampleY p pitchY rows (fed - rows.length) times 4 st.srcPos
    { st with stages := q.1, times := times, fed := fed, resample := rows, srcPos := o.1, ready := st.ready ++ o.2 }

/-- A context has given its columns of a line, or gives no more of it because it has moved on (R229).
DEDUCED: assumption 25. -/
def partDone (ctxs : List Nat) (p : OvwPart) (later : List OvwPart) : Bool :=
  ctxs.all (fun c => p.ctxs.contains c || later.any (fun q => q.ctxs.contains c))

/-- Completed grid lines leave the assembly in rising order. DEDUCED: assumption 25. -/
def ovwComplete (p : OvwPlan) (pitchY : Nat) (ctxs : List Nat) : Nat → OvwSt → OvwSt
  | 0, st => st
  | f + 1, st =>
    match st.parts with
    | [] => st
    | h :: t =>
      if partDone ctxs h t then
        let missing := ctxs.any (fun c => !h.ctxs.contains c)
        ovwComplete p pitchY ctxs f (ovwFilter p pitchY { st with parts := t } { h.row with gap := h.row.gap || missing })
      else st

/-- Put the owned columns of a line in place: value 0 where it is uninspected (R235). -/
def ovwPut (p : OvwPlan) (cp : CtxPlan) (o : OutLine) (row : OvwRow) : OvwRow :=
  if o.missing ≠ 0 then { row with gap := true, replaced := row.replaced || o.replaced }
  else
    let gone (g : Nat) : Bool := o.colGaps.any (fun k => decide (k.first ≤ (g : Int) ∧ (g : Int) ≤ k.last))
    let own := (List.range (cp.oHi + 1 - cp.oLo)).map (· + cp.oLo)
    let px (k g : Nat) : Px := (o.vals.getD k []).getD (g - cp.gLo) (0, false)
    { row with
      time := o.time
      gap := row.gap || own.any gone
      sat := row.sat || p.chans.any (fun k => own.any (fun g => (px k g).2 && !gone g))
      replaced := row.replaced || o.replaced
      chans := row.chans.mapIdx (fun i xs =>
        let k := natAt p.chans i
        xs.take cp.oLo ++ own.map (fun g => if gone g then 0 else (px k g).1) ++ xs.drop (cp.oHi + 1)) }

/-- Insert a part in the order of its line. -/
def partInsert (x : OvwPart) : List OvwPart → List OvwPart
  | [] => [x]
  | h :: t => if x.m < h.m then x :: h :: t else h :: partInsert x t

/-- An output line of context `c` enters the overview unit. -/
def ovwLine (pl : Plan) (c : Nat) (cp : CtxPlan) (o : OutLine) (st : OvwSt) : OvwSt :=
  let p := pl.ovw
  let st := if st.stages.length = p.hy then st else { st with stages := List.replicate p.hy (0, []), srcPos := 3 * 2 ^ 32 }
  let blank : OvwRow := ⟨o.m, o.time, false, false, false, p.chans.map (fun _ => List.replicate pl.columns 0)⟩
  let parts :=
    if st.parts.any (fun q => decide (q.m = o.m)) then
      st.parts.map (fun q => if q.m = o.m then { q with ctxs := c :: q.ctxs, row := ovwPut p cp o q.row } else q)
    else partInsert ⟨o.m, [c], ovwPut p cp o blank⟩ st.parts
  let ctxs := pl.ctxs.map (fun e => e.1)
  ovwComplete p pl.pitchY ctxs (parts.length + 1) { st with parts := parts }

/-- A blended output line reaches the overview unit while it runs. DEDUCED: assumption 25. -/
def State.ovwTake (s : State) (c : Nat) (cp : CtxPlan) (o : OutLine) : State :=
  match s.pln.plan with
  | none => s
  | some p => if s.flag ovwStatusRunning then { s with ovw := ovwLine p c cp o s.ovw } else s

/-- RUNNING becomes 1 (R240, R241). -/
def State.ovwStart (s : State) : State :=
  match s.pln.plan with
  | none => s
  | some p =>
    if p.ovw.width = 0 ∨ s.flag ovwStatusRunning = true then s
    else ({ s with ovw := { s.ovw with parts := [] } }.setFld ovwStatusRunning 1).fire 144

/-- RUNNING becomes 0 (R240, R241). -/
def State.ovwStop (s : State) : State :=
  if s.flag ovwStatusRunning then (s.setFld ovwStatusRunning 0).fire 145 else s

/-- A new plan's overview parameters take effect (R235, R241): the filters restart and the line number continues. -/
def State.ovwPlan (s : State) : State :=
  let o := s.ovw
  ({ s with ovw := { o with parts := [], stages := [], resample := [], fed := 0, srcPos := 3 * 2 ^ 32, ready := [], times := [],
                            limited := false } }).fire 151

/-! ### The overview ring -/

/-- The open session that takes the overview (R532). DEDUCED: assumption 25. -/
def State.ovwSess (s : State) : Option Nat := (List.range 4).find? (fun n => s.isOpen n && s.flag (hssSessionOverview n))

/-- The record of an overview line (R233). -/
def ovwRecord (p : OvwPlan) (num alive : Nat) (dropped : Bool) (l : OvwLine) : List Byte :=
  let h := leBytes 8 num ++ leBytes 8 (ofSigned 64 l.y) ++ leBytes 8 l.time ++ leBytes 2 p.width ++ leBytes 1 p.chans.length ++
    leBytes 1 (b2n l.gap + 2 * b2n dropped + 4 * b2n l.sat + 8 * b2n l.replaced) ++ leBytes 1 alive ++ leBytes 3 0 ++
    leBytes 4 l.pixels.length
  padTo 64 (h ++ leBytes 4 (crc32c (h ++ l.pixels)).toNat ++ l.pixels)

/-- The next line is dropped or skipped: its number is used up (R234, R242). DEDUCED: assumption 25. -/
def State.ovwDrop (s : State) (rest : List OvwLine) : State :=
  { s with ovw := { s.ovw with ready := rest, number := s.ovw.number + 1, dropped := true } }

/-- Counters and events of a written line (R240, R241). -/
def State.ovwWritten (s : State) (p : OvwPlan) (l : OvwLine) (rest : List OvwLine) : State :=
  let o := s.ovw
  let s := { s with ovw := { o with ready := rest, number := o.number + 1, dropped := false, lastAt := s.clock, lines := o.lines + 1 } }
  let s := (s.bump ovwCntLinesF 1).fireIf (decide (s.ovw.lines % 2 ^ p.blockExp = 0)) 146
  if l.gap then (s.bump ovwCntGapF 1).fire 148 else s

/-- OVERVIEW_LINE (R233, R234, R242, R472): the next finished line is written, dropped, or skipped while the rate limit
holds and less than 50 µs have passed since the last. -/
def execOverviewLine (s : State) : Host.Outcome State Fault Refusal :=
  match s.ovw.ready, s.pln.plan with
  | l :: rest, some pl =>
    let close := decide (s.clock < s.ovw.lastAt + 31250)
    if s.ovw.limited && close then .next (s.ovwDrop rest)
    else
      let s := if s.ovw.limited then { s with ovw := { s.ovw with limited := false } } else s
      match s.ovwSess with
      | none => .next (((s.bump ovwCntDroppedF 1).ovwDrop rest).fire 147)
      | some n =>
        let h := s.hring n 4
        if h.free = 0 then .next (((s.bump ovwCntDroppedF 1).ovwDrop rest).fire 147)
        else
          let w := s.ringPut n 4 (ovwRecord pl.ovw s.ovw.number (aliveOf h.prod h.entries) s.ovw.dropped l) 4 0
          match w.2 with
          | none => .next (w.1.ovwWritten pl.ovw l rest)
          | some _ => .next (((w.1.bump ovwCntDroppedF 1).ovwDrop rest).fire 150)
  | _, _ => .next s

/-- OVW_RATE_LIMIT (R241, R242): the overview line rate has passed 20 000 lines/s for 10 ms. DEDUCED: assumption 25. -/
def execOvwRateLimit (s : State) : Host.Outcome State Fault Refusal :=
  .next (if s.flag ovwStatusRunning then ({ s with ovw := { s.ovw with limited := true } }).fire 149 else s)

end Sys2Proof.Machine
end

