-- ==== Sys2Proof/Machine/SeamMerge.lean ====
section
/-! DEFINITION. The seam merge unit (R278 to R290) as functions of its own state: edge runs, parts, coverage,
components, split halves. -/

namespace Sys2Proof.Machine

/-- A joined set of parts ready to be handed over (R282, R283, R285). -/
structure Comp where
  acc : Acc
  attr : Nat
  seed : Bool
  firstAddr : Nat
  firstCtx : Nat
  suspect : Bool
  uncertain : Bool
  parts : List Part
  deriving DecidableEq, Repr

/-- What the seam merge unit hands on. -/
inductive SeamOut where
  | whole (c : Comp)
  | split (c : Comp)
  | forward (bs : List Bunt)
  | late
  | alert (cause : Nat)
  deriving DecidableEq, Repr

/-- The owner of edge `edge'` of context `ctx'` at `addr'` is what part edge `(e, n)` faces (R277, R281). -/
def facesEdge (self : Nat) (e : Nat) (n : Nbr) (addr' ctx' edge' : Nat) : Bool :=
  decide (edge' = 1 - e) && (match n with
    | .none => false
    | .ctx c => decide (addr' = self ∧ ctx' = c)
    | .fabric a => decide (addr' = a))

/-- The edge runs of a part. -/
def runsOf (st : SeamSt) (p : Part) : List EdgeRun :=
  st.runs.filter (fun r => decide (r.addr = p.addr ∧ r.ctx = p.ctx ∧ r.label = p.label))

/-- Two line ranges join across a cut (R281). -/
def rangesJoin (a b c e : Int) : Bool := decide (c ≤ b + 1 ∧ a - 1 ≤ e)

/-- The runs that face a part and join one of its own (R281), each with the number of common lines. -/
def joiningRuns (self : Nat) (st : SeamSt) (p : Part) : List (EdgeRun × Nat) :=
  (runsOf st p).flatMap (fun r =>
    match p.edges.find? (fun e => e.1 = r.edge) with
    | none => []
    | some e =>
      (st.runs.filter (fun q => facesEdge self e.1 e.2 q.addr q.ctx q.edge && decide (q.first ≤ q.last) &&
        rangesJoin r.first r.last q.first q.last)).map (fun q => (q, overlap r.first r.last q.first q.last)))

/-- A run belongs to a part. -/
def runIsOf (r : EdgeRun) (p : Part) : Bool := decide (r.addr = p.addr ∧ r.ctx = p.ctx ∧ r.label = p.label)

/-- Same part. -/
def samePart (p q : Part) : Bool := decide (p.addr = q.addr ∧ p.ctx = q.ctx ∧ p.label = q.label)

/-- Grow a set of parts by those joined to it (union-find closure, R281). -/
def growComp (self : Nat) (st : SeamSt) : Nat → List Part → List Part
  | 0, ps => ps
  | f + 1, ps =>
    let js := ps.flatMap (fun p => (joiningRuns self st p).map Prod.fst)
    let more := st.parts.filter (fun q => !ps.any (samePart q) && js.any (fun r => runIsOf r q))
    if more.isEmpty then ps else growComp self st f (ps ++ more)

/-- A joining run of the set belongs to no part held: its part has not closed yet. -/
def compOpen (self : Nat) (st : SeamSt) (ps : List Part) : Bool :=
  (ps.flatMap (fun p => (joiningRuns self st p).map Prod.fst)).any
    (fun r => !r.gone && !r.cut && !ps.any (runIsOf r))

/-- Lines up to which coverage of a cover record extends through its ranges (R282). -/
def coverExtend : Nat → Int → List (Int × Int) → Int
  | 0, u, _ => u
  | f + 1, u, rs =>
    match rs.find? (fun r => decide (r.1 ≤ u + 1 ∧ u < r.2)) with
    | some r => coverExtend f r.2 rs
    | none => u

/-- One edge of a part is covered up to `m_last + 1` (R282); an edge toward the module that owns the seam
needs no coverage here, since the part is forwarded (R278). -/
def edgeCovered (self : Nat) (st : SeamSt) (p : Part) (e : Nat × Nbr) : Bool :=
  (match e.2 with | .fabric _ => decide (e.1 = 1 ∧ p.addr = self) | _ => false) ||
  st.cover.any (fun c => facesEdge self e.1 e.2 c.addr c.ctx c.edge &&
    (decide (p.acc.mLast + 1 ≤ coverExtend 64 c.upTo c.ranges) ||
     c.ranges.any (fun r => decide (r.1 ≤ p.acc.mFirst ∧ p.acc.mLast + 1 ≤ coverExtend 64 r.2 c.ranges))))

/-- Common lines of every joined cut among the parts, each pair of runs counted once (R283). -/
def commonLines (self : Nat) (st : SeamSt) (ps : List Part) : Nat :=
  (ps.flatMap (fun p => (joiningRuns self st p).filterMap (fun j =>
    if ps.any (runIsOf j.1) && decide (j.1.edge = 0) then some j.2 else none))).foldl (· + ·) 0

/-- The component of a set of joined parts (R283, R308). -/
def compOf (self : Nat) (st : SeamSt) (ps : List Part) : Option Comp :=
  match ps.mergeSort (fun a b => decide (a.acc.yRef < b.acc.yRef ∨ (a.acc.yRef = b.acc.yRef ∧ a.acc.xRef ≤ b.acc.xRef))) with
  | [] => none
  | f :: rest =>
    let j := commonLines self st ps
    let a := rest.foldl (fun x p => accJoin x p.acc) f.acc
    let attr := ps.foldl (fun x p => x ||| p.attr) 0 ||| (if rest.isEmpty then 0 else 8)
    some { acc := { a with runs := a.runs - j, crack := a.crack - 2 * j }
           attr := attr
           seed := ps.any Part.seed
           firstAddr := f.addr
           firstCtx := f.ctx
           suspect := ps.any Part.suspect
           uncertain := ps.any Part.uncertain
           parts := ps }

/-- Drop the parts of a component and mark their runs gone (`keep`, after a split half) or drop them. -/
def removeParts (keep : Bool) (ps : List Part) (st : SeamSt) : SeamSt :=
  { st with
    parts := st.parts.filter (fun p => !ps.any (samePart p))
    runs := if keep then st.runs.map (fun r => if ps.any (runIsOf r) then { r with gone := true } else r)
      else st.runs.filter (fun r => !ps.any (runIsOf r)) }

/-- A part toward the right fabric edge travels on to the module that owns that seam (R278). -/
def goesOn (self : Nat) (ps : List Part) : Bool :=
  ps.any (fun p => decide (p.addr = self) && p.edges.any (fun e => decide (e.1 = 1) &&
    (match e.2 with | .fabric _ => true | _ => false)))

/-- The bunting that forwards a component: its right-edge runs under one label, then its PART (R278, R280). -/
def forwardOf (self : Nat) (st : SeamSt) (c : Comp) : List Bunt :=
  let p := (c.parts.find? (fun p => goesOn self [p])).getD (c.parts.headD ⟨self, 0, 0, c.acc, 0, false, 0, false, false, false, []⟩)
  let rs := (c.parts.flatMap (runsOf st)).filter (fun r => decide (r.edge = 1) && goesOn self (c.parts.filter (runIsOf r)))
  let mk (k : Nat) (a b : Int) : Bunt :=
    { kind := k, edge := 1, ctx := p.ctx, addr := self, label := p.label, first := a, last := b, attr := 0,
      seed := false, streamer := false, suspect := false, uncertain := false, body := none }
  ((rs.mergeSort (fun x y => decide (x.first ≤ y.first))).map (fun r => mk 2 r.first r.last)) ++
    [{ mk 3 c.acc.mFirst c.acc.mLast with
        attr := c.attr, seed := c.seed, suspect := c.suspect, uncertain := c.uncertain, body := some c.acc }]

/-- Hand a finished set of parts over: whole, forwarded, or as a split half (R278, R282, R285). -/
def finish (self : Nat) (isSplit : Bool) (ps : List Part) (st : SeamSt) : SeamSt × List SeamOut :=
  match compOf self st ps with
  | none => (st, [])
  | some c =>
    if isSplit then (removeParts true ps st, [.split c])
    else if goesOn self ps then
      let bs := forwardOf self st c
      (removeParts false ps st, [.forward bs])
    else (removeParts false ps st, [.whole c])

/-- Hand over every component that is complete, or that holds a part joined to a cut or gone one. -/
def settle (self : Nat) : Nat → List Part → SeamSt → SeamSt × List SeamOut
  | 0, _, st => (st, [])
  | _, [], st => (st, [])
  | f + 1, p :: rest, st =>
    if !st.parts.any (samePart p) then settle self f rest st else
      let ps := growComp self st 64 [p]
      let must := ps.any (fun q => q.mustSplit || (joiningRuns self st q).any (fun j => j.1.cut || j.1.gone))
      let done := !compOpen self st ps && ps.all (fun q => q.edges.all (edgeCovered self st q))
      let r := if must then finish self true ps st else if done then finish self false ps st else (st, [])
      let r2 := settle self f rest r.1
      (r2.1, r.2 ++ r2.2)

/-- A cover record takes a PROGRESS, MISSING or STORM (R280, R282). -/
def coverTake (st : SeamSt) (b : Bunt) : SeamSt :=
  let isIt (c : Cover) : Bool := decide (c.addr = b.addr ∧ c.ctx = b.ctx ∧ c.edge = b.edge)
  let upd (c : Cover) : Cover :=
    if b.kind = 1 then { c with upTo := max c.upTo b.first, ranges := c.ranges.filter (fun r => decide (b.first < r.2)) }
    else match c.ranges with
      | (x, y) :: t => if y + 1 = b.first then { c with ranges := (x, b.last) :: t } else { c with ranges := (b.first, b.last) :: c.ranges }
      | [] => { c with ranges := [(b.first, b.last)] }
  if st.cover.any isIt then { st with cover := st.cover.map (fun c => if isIt c then upd c else c) }
  else { st with cover := st.cover ++ [upd ⟨b.addr, b.ctx, b.edge, if b.kind = 1 then b.first else b.first - 1, []⟩] }

/-- Bunting for a label whose part was already emitted as a split half (R286). -/
def isLate (st : SeamSt) (b : Bunt) : Bool :=
  st.runs.any (fun r => r.gone && decide (r.addr = b.addr ∧ r.ctx = b.ctx ∧ r.label = b.label))

/-- A held edge run (R280). -/
def edgeRunOf (st : SeamSt) (b : Bunt) : EdgeRun :=
  { addr := b.addr, ctx := b.ctx, label := b.label, edge := b.edge, first := b.first, last := b.last,
    cut := st.runs.any (fun r => r.cut && decide (r.addr = b.addr ∧ r.ctx = b.ctx ∧ r.label = b.label)), gone := false }

/-- The part a PART record brings (R277, R280). `nbrOf` gives what lies beyond each edge. -/
def partOf (nbrOf : Nat → Nbr) (strip : Nat) (st : SeamSt) (b : Bunt) (a : Acc) : Part :=
  let own := st.runs.filter (fun r => decide (r.addr = b.addr ∧ r.ctx = b.ctx ∧ r.label = b.label))
  let es := ([0, 1] : List Nat).filter (fun e => own.any (fun r => r.edge = e))
  { addr := b.addr, ctx := b.ctx, label := b.label, acc := a, attr := b.attr, seed := b.seed, strip := strip,
    mustSplit := false, suspect := b.suspect, uncertain := b.uncertain, edges := es.map (fun e => (e, nbrOf e)) }

/-- The seam merge unit takes one bunting record (R280 to R289). -/
def seamTake (self : Nat) (nbrOf : Nat → Nbr) (strip : Nat) (st : SeamSt) (b : Bunt) : SeamSt × List SeamOut :=
  let fwd := decide (b.addr = self ∧ b.edge = 1) && (match nbrOf 1 with | .fabric _ => true | _ => false)
  if b.kind = 1 ∨ b.kind = 4 ∨ b.kind = 5 then
    if fwd then
      let held := st.runs.filter (fun r => decide (r.addr = self ∧ r.ctx = b.ctx ∧ r.edge = 1) && !r.gone)
      let lim := held.foldl (fun l r => min l (r.first - 1)) b.first
      let b' := if b.kind = 1 then { b with first := lim } else b
      (st, [.forward [b']])
    else
      let st1 := coverTake st b
      settle self (st1.parts.length + 1) st1.parts st1
  else if isLate st b then (st, [.late, .alert 2])
  else if b.kind = 2 then
    let r := edgeRunOf st b
    let facing := (nbrOf b.edge)
    let gone := st.runs.any (fun q => q.gone && facesEdge self b.edge facing q.addr q.ctx q.edge && rangesJoin r.first r.last q.first q.last)
    if gone then ({ st with runs := st.runs ++ [{ r with gone := false, cut := r.cut }] }, [.late, .alert 2])
    else
      let st1 := { st with runs := st.runs ++ [r] }
      if fwd && r.cut then (st1, [.forward [b]])
      else settle self (st1.parts.length + 1) st1.parts st1
  else if b.kind = 6 then
    let mark : EdgeRun := { addr := b.addr, ctx := b.ctx, label := b.label, edge := b.edge, first := 1, last := 0, cut := true, gone := false }
    let st1 := { st with runs := (st.runs.map (fun r =>
      if r.addr = b.addr ∧ r.ctx = b.ctx ∧ r.label = b.label then { r with cut := true } else r)) ++ [mark] }
    if fwd then (st1, [.forward [b]])
    else settle self (st1.parts.length + 1) st1.parts st1
  else if b.kind = 3 then
    match b.body with
    | none => (st, [])
    | some a =>
      let p := partOf nbrOf strip st b a
      let st1 := { st with parts := st.parts ++ [p] }
      if 16384 ≤ st.parts.length then
        let r := finish self true [p] st1
        (r.1, .alert 1 :: r.2)
      else settle self (st1.parts.length + 1) (p :: st1.parts) st1
  else (st, [])

/-- Split halves that the end of strip `s` of context `ctx` brings (R285). -/
def splitDue (self ctx s : Nat) (st : SeamSt) : SeamSt × List SeamOut :=
  (st.parts.filter (fun p => decide (p.addr = self ∧ p.ctx = ctx ∧ p.strip + 2 ≤ s))).foldl
    (fun acc p =>
      if acc.1.parts.any (samePart p) then
        let r := finish self true (growComp self acc.1 64 [p]) acc.1
        (r.1, acc.2 ++ r.2)
      else acc) (st, [])

/-- Split halves for every held part that a test names (R285, R290). -/
def splitWhere (self : Nat) (q : Part → Bool) (st : SeamSt) : SeamSt × List SeamOut :=
  (st.parts.filter q).foldl
    (fun acc p =>
      if acc.1.parts.any (samePart p) then
        let r := finish self true (growComp self acc.1 64 [p]) acc.1
        (r.1, acc.2 ++ r.2)
      else acc) (st, [])

end Sys2Proof.Machine
end

