-- ==== Sys2Proof/Machine/FabSend.lean ====
section
/-! DEFINITION. What leaves through the fabric (R615 to R623): sequences, retained messages, bunting and seam
strips. -/

namespace Sys2Proof.Machine

/-! ### Messages -/

/-- The key of a destination's sequence for one message type (R618). -/
def fabKey (dest type : Nat) : Nat := 256 * dest + type

/-- The sequence after `q` (R618): it wraps past 2^32 − 1 to 1. -/
def fabNext (q : Nat) : Nat := q % (2 ^ 32 - 1) + 1

/-- The port toward a module (R608, R615); port A where no ensign has shown it. DEDUCED: assumption 91. -/
def State.fabPort (s : State) (dest : Nat) : Nat :=
  match s.fab.peers.find? (fun p => decide (p.addr = dest) && !p.gone) with
  | some p => p.port
  | none => 0

/-- Message types that the sender keeps until they are acknowledged (R619). -/
def fabAcked (type : Nat) : Bool := [0x01, 0x10, 0x20, 0x40].contains type

/-- A message leaves a port: an ORDER of timed orders through launch queue 6, now its planned instant (R590, R620). -/
def State.fabOut (s : State) (port type : Nat) (b : List Byte) : State :=
  let q := s.queue port 6
  if type = 0x10 ∧ s.flag fabCtrlTimedOrders ∧ q.length < 16 then s.setQueue port 6 (q ++ [⟨s.taiNs, 255, 1, b⟩])
  else s.emit (.fabric port b)

/-- A message leaves (R615): to one module, or to every module out of both ports of a chain and port A of a star.
DEDUCED: assumption 91. -/
def State.fabEmit (s : State) (dest type flags seq ref : Nat) (body : List Byte) : State :=
  let b := fabBytes type s.selfAddr dest 31 flags seq ref body
  if dest = 0xFF then
    let s := s.fabOut 0 type b
    if s.flag fabCtrlBridge then s.fabOut 1 type b else s
  else s.fabOut (s.fabPort dest) type b

/-! ### Neighbours that are away -/

/-- The context of this module that owns the seam toward a fabric address (R308, R309); `c` where none does. -/
def State.seamCtx (s : State) (addr c : Nat) : Nat :=
  match s.pln.plan with
  | none => c
  | some p => ((p.ctxs.find? (fun e => decide (e.2.left = .fabric addr ∨ e.2.right = .fabric addr))).map (fun e => e.1)).getD c

/-- Seam exchange with a neighbour rests (R630, R632): from its loss to the next strip boundary of the seam context after it is heard
again. -/
def State.seamAway (s : State) (a : Nat) : Bool :=
  match s.fab.lost.find? (fun e => decide (e.1 = a)) with
  | none => false
  | some (_, none) => true
  | some (_, some k) => decide ((s.ctx (s.seamCtx a 0)).num.nextStrip ≤ k)

/-- The neighbour's plan has another fabric hash than this module's (R628). -/
def State.seamDiffers (s : State) (a : Nat) : Bool :=
  s.fab.hash ≠ [] && s.fab.peers.any (fun p => decide (p.addr = a ∧ p.hash ≠ s.fab.hash) && p.hash.any (fun b => decide (b ≠ 0#8)) && !p.gone)

/-- A new message takes the next sequence, and is kept where it is acknowledged (R618, R619). DEDUCED: assumption 91. -/
def State.fabSend (s : State) (dest type ref : Nat) (body : List Byte) : State :=
  let k := fabKey dest type
  let q := fabNext (tblGet s.fab.sent 0 k)
  let s := { s with fab := { s.fab with sent := tblSet s.fab.sent 0 k q } }
  let s := if fabAcked type then { s with fab := { s.fab with outs := s.fab.outs ++ [⟨dest, type, q, body⟩] } } else s
  s.fabEmit dest type 0 q ref body

/-! ### Orders -/

/-- This module coordinates its fabric (R607). -/
def State.coordinates (s : State) : Bool := s.flag fabStatusCoordinator

/-- An operation is queued for its frame boundary. -/
def State.queueDue (s : State) (o : DueOp) : State := { s with pln := { s.pln with due := s.pln.due ++ [o] } }

/-- The coordinator orders a global operation (R624, R625): T, the ORDER to every module, and the operation due here. `time` is
the time that form 1 names; `pos` the web position of form 2. DEDUCED: assumption 55. -/
def State.issueOrder (s : State) (op form time : Nat) (pos : Int) (hash : List Byte) (sess desc : Nat) : State :=
  let t0 := s.taiNs + 20000 + 6000 * s.fld fabStatusHops
  let t := if form = 1 then max t0 time else t0
  let seq := fabNext (tblGet s.fab.sent 0 (fabKey 0xFF 0x10))
  let body := beBytes 1 op ++ beBytes 1 form ++ beBytes 6 0 ++ beBytes 8 t ++ beBytes 8 (ofSigned 64 pos) ++ (hash ++ List.replicate 32 0).take 32
  let s := s.fabSend 0xFF 0x10 0 body
  let others := (s.fab.members.filter (fun m => decide (m.addr ≠ s.selfAddr))).map Member.addr
  let g : GlobalOp := ⟨op, form, t, seq, sess, desc, others, none⟩
  let s := { s with fab := { s.fab with orders := s.fab.orders ++ [g] } }
  s.queueDue ⟨op, if form = 2 then 2 else 1, if form = 2 then pos else (t : Int), s.zero, sess, desc, seq⟩

/-- The coordinator orders the plan switch once every module is ready with one fabric hash (R624). -/
def State.readyCheck (s : State) : State :=
  let hash (e : Nat × List Byte) : List Byte := (e.2.drop 32).take 32
  match s.fab.ready with
  | [] => s
  | r :: _ =>
    if s.coordinates && s.fab.members.all (fun m => s.fab.ready.any (fun e => decide (e.1 = m.addr ∧ hash e = hash r))) then
      let own := match s.pln.compiled with | some p => p.hash | none => []
      ({ s with fab := { s.fab with ready := [] } }).issueOrder 5 0 0 0 own 255 0
    else s

/-- The fabric engine discovers anew (R608): it gives up its address and everything that rests on it. -/
def State.fabDiscover (s : State) : State :=
  let f := s.fab
  let s := { s with fab := { f with members := [], sent := [], got := [], ahead := [], outs := [], orders := [], ready := [], lost := [], lostGaps := [],
                                    strips := [], snaps := [], snapDesc := none, aligned := false } }
  ((((s.setFld fabStatusState 1).setFld fabStatusAddress 63).setFld fabStatusHops 0).setFld fabNeighboursLowLost 0).setFld fabNeighboursHighLost 0

/-! ### Bunting records -/

/-- The 192-byte body of a PART record (R280). -/
def accBytes (a : Acc) : List Byte :=
  let i (n : Nat) (v : Int) : List Byte := beBytes n (ofSigned (8 * n) v)
  beBytes 4 a.a ++ beBytes 4 a.runs ++ i 8 a.mFirst ++ i 8 a.mLast ++ i 8 a.gMin ++ i 8 a.gMax ++ i 8 a.xRef ++ i 8 a.yRef ++
    i 8 a.sx ++ i 8 a.sy ++ i 16 a.sxx ++ i 16 a.syy ++ i 16 a.sxy ++ i 8 a.sc ++ i 8 (intAt a.scq 0) ++ i 8 (intAt a.scq 1) ++
    i 8 (intAt a.scq 2) ++ i 8 (intAt a.scq 3) ++ beBytes 8 a.crack ++ i 4 a.peak ++ beBytes 4 0 ++ i 8 a.peakM ++ i 8 a.peakG

/-- Read the 192-byte body of a PART record (R280). -/
def accOf (b : List Byte) : Acc :=
  let i (o n : Nat) : Int := toSigned (8 * n) (beAt b o n)
  { a := beAt b 0 4, runs := beAt b 4 4, mFirst := i 0x08 8, mLast := i 0x10 8, gMin := i 0x18 8, gMax := i 0x20 8,
    xRef := i 0x28 8, yRef := i 0x30 8, sx := i 0x38 8, sy := i 0x40 8, sxx := i 0x48 16, syy := i 0x58 16, sxy := i 0x68 16,
    sc := i 0x78 8, scq := [i 0x80 8, i 0x88 8, i 0x90 8, i 0x98 8], crack := beAt b 0xA0 8, peak := i 0xA8 4,
    peakM := i 0xB0 8, peakG := i 0xB8 8 }

/-- A bunting record as it stands in a message (R279). Bits [7:2] of byte 0x1A are reserved: the quality of the lines
of a part does not travel. DEDUCED: assumption 34. -/
def buntBytes (b : Bunt) : List Byte :=
  let i (v : Int) : List Byte := beBytes 8 (ofSigned 64 v)
  let tail := if b.kind = 3 then beBytes 2 b.attr ++ beBytes 1 (b2n b.seed + 2 * b2n b.streamer) ++ beBytes 5 0 else beBytes 8 0
  beBytes 1 b.kind ++ beBytes 1 b.edge ++ beBytes 1 b.ctx ++ beBytes 1 b.addr ++ beBytes 4 b.label ++ i b.first ++
    i (if b.kind = 1 then 0 else b.last) ++ tail ++ (match b.body with | some a => accBytes a | none => [])

/-- Read the bunting records of a message body (R279, R280); an unused type ends the reading. -/
def buntsOf : Nat → List Byte → List Bunt
  | 0, _ => []
  | f + 1, b =>
    let k := beAt b 0 1
    if b.length < 32 ∨ k = 0 ∨ 6 < k ∨ (k = 3 ∧ b.length < 224) then []
    else
      let part := decide (k = 3)
      let i (o : Nat) : Int := toSigned 64 (beAt b o 8)
      let r : Bunt := {
        kind := k, edge := beAt b 1 1, ctx := beAt b 2 1, addr := beAt b 3 1, label := beAt b 4 4, first := i 8, last := i 16,
        attr := if part then beAt b 0x18 2 else 0, seed := part && bitAt (beAt b 0x1A 1) 0,
        streamer := part && bitAt (beAt b 0x1A 1) 1, suspect := false, uncertain := false,
        body := if part then some (accOf (b.drop 32)) else none }
      r :: buntsOf f (b.drop (if part then 224 else 32))

/-- Records gathered into messages of at most 4 096 bytes and 127 records (R617, R622). -/
def buntGroups : List Bunt → List Byte → Nat → List (List Byte)
  | [], cur, _ => if cur = [] then [] else [cur]
  | b :: r, cur, n =>
    let x := buntBytes b
    if cur ≠ [] ∧ (4096 < cur.length + x.length ∨ 127 ≤ n) then cur :: buntGroups r x 1 else buntGroups r (cur ++ x) (n + 1)

/-- The module forwards bunting to the owner of the seam above (R278, R621). DEDUCED: assumption 34. -/
def State.fabBunting (s : State) (bs : List Bunt) : State :=
  (buntGroups bs [] 0).foldl (fun s b => s.fabSend (s.selfAddr + 1) 0x20 0 b) s

/-! ### Seam strips -/

/-- One line's samples for a seam strip (R623). DEDUCED: assumption 92. -/
def seamRow (cp : CtxPlan) (lo w chans : Nat) (o : OutLine) : List Byte :=
  (List.range w).flatMap (fun i => (List.range chans).flatMap (fun k =>
    let v := ((o.vals.getD k []).getD (lo + i - cp.gLo) (0, false)).1
    beBytes 2 (clampInt 0 65535 (rnd v 2)).toNat))

/-- Bit i set when row i is inspected (R623). -/
def validBits (rs : List (Bool × List Byte)) : Nat :=
  (rs.zipIdx.map (fun r => if r.1.1 then 2 ^ r.2 else 0)).foldl (· + ·) 0

/-- Send a collected seam strip to the neighbour of a side (R617, R623). -/
def State.seamStripSend (s : State) (a : SeamOutAcc) (dest w chans : Nat) (column : Int) : State :=
  let body := beBytes 8 (ofSigned 64 a.first) ++ beBytes 8 (ofSigned 64 column) ++ beBytes 2 w ++ beBytes 1 a.rows.length ++
    beBytes 1 chans ++ beBytes 4 0 ++ beBytes 8 (validBits a.rows) ++ (a.rows.flatMap Prod.snd)
  s.fabSend dest 0x22 0 body

/-- One output line of a seam context enters the strip of one side (R621, R623). -/
def State.seamSide (s : State) (cp : CtxPlan) (o : OutLine) (side dest lo w : Nat) : State :=
  let chans := match s.pln.plan with
    | some p => (match p.outs.fab with | some f => f.chans | none => 1)
    | none => 1
  if w = 0 ∨ s.seamAway dest = true then s
  else
    let col := s.gridColumn + lo
    let row := (decide (o.missing = 0), if o.missing = 0 then seamRow cp lo w chans o else List.replicate (2 * w * chans) 0)
    let old := s.fab.stripOut.find? (fun a => decide (a.side = side))
    let keep := s.fab.stripOut.filter (fun a => decide (a.side ≠ side))
    let n := min 64 (4064 / (2 * w * chans))
    let put (s : State) (a : SeamOutAcc) : State :=
      if n ≤ a.rows.length then
        let t := s.seamStripSend a dest w chans col
        { t with fab := { t.fab with stripOut := keep } }
      else { s with fab := { s.fab with stripOut := keep ++ [a] } }
    match old with
    | some a =>
      if a.first + a.rows.length = o.m then put s { a with rows := a.rows ++ [row] }
      else put (s.seamStripSend a dest w chans col) ⟨side, o.m, [row]⟩
    | none => put s ⟨side, o.m, [row]⟩

/-- An output line enters the seam strips of its context's fabric edges (R217, R621). -/
def State.seamLine (s : State) (cp : CtxPlan) (o : OutLine) : State :=
  let s := match cp.left with
    | .fabric a => s.seamSide cp o 0 a cp.oLo (s.fld fabSeamWLow)
    | _ => s
  match cp.right with
  | .fabric a => s.seamSide cp o 1 a (cp.oHi + 1 - s.fld fabSeamWHigh) (s.fld fabSeamWHigh)
  | _ => s

end Sys2Proof.Machine
end

