-- ==== Sys2Proof/Machine/JobStart.lean ====
section
/-! DEFINITION. Held jobs (R368, R376 to R383): their table, their numbers, and how one begins. -/

namespace Sys2Proof.Machine

/-- A job record before its parameters are known. -/
def initJob : Job :=
  { id := 0, sess := 0, tag := 0, desc := 0, auto := false, pennant := 0,
    par := { kind := .crop, format := 0, chans := 0, ctxMask := 0, defaultX := false, bankSel := 0, yLo := 0, yHi := 0, xLo := 0,
             xHi := 0, offs := 0, gain := 64, unit := 0, source := 0, srcLen := 0 },
    phase := .queued, opened := false, fresh := true, out := 0, outLen := 0, outPos := 0, produced := 0, consumed := 0,
    exported := 0, gapLines := 0, todo := [], runs := [], recs := [], logged := 0, carry := [], cur := ⟨[], 0, 0⟩, sect := [],
    tables := [], pipes := [], seam := initSeam, nextM := 0, hiM := 0, ring := 0, firstSeq := 0, lastSeq := 0, units := 0,
    fault := 0, faultWin := 0, faultOff := 0 }

/-- Job `j`, where it is held. -/
def State.job (s : State) (j : Nat) : Option Job := s.jobs.find? (fun x => decide (x.id = j))

/-- CMP_JOBS (R385) follows the table of jobs. -/
def State.jobCounts (s : State) : State :=
  (s.setFld cmpJobsJobs s.jobs.length).setFld cmpJobsAuto (s.jobs.filter Job.auto).length

/-- Replace a held job. -/
def State.setJob (s : State) (j : Job) : State := { s with jobs := s.jobs.map (fun x => if x.id = j.id then j else x) }

/-- A job ends. -/
def State.dropJob (s : State) (j : Nat) : State := ({ s with jobs := s.jobs.filter (fun x => decide (x.id ≠ j)) }).jobCounts

/-- The lowest job number that is free. -/
def freeJobId (js : List Job) : Nat :=
  ((List.range (js.length + 1)).find? (fun i => !js.any (fun j => decide (j.id = i)))).getD js.length

/-- A job is taken on in order of acceptance (R383): it waits for its turn. -/
def State.addJob (s : State) (j : Job) : State := ({ s with jobs := s.jobs ++ [{ j with id := freeJobId s.jobs }] }).jobCounts

/-- Jobs of the host (R383). -/
def State.hostJobs (s : State) : Nat := (s.jobs.filter (fun j => !j.auto)).length

/-- An automatic export of a blob (R332, R333, R379): `a` is the blob, `seq` its pennant's number, 0 where suppressed. -/
def State.autoExport (s : State) (prof seq : Nat) (a : Acc) : State :=
  match s.pln.plan with
  | none => s
  | some p => match planEntry p.profiles prof with
  | none => s
  | some f =>
    if 256 ≤ (s.jobs.filter Job.auto).length then (s.bump penCntExportSkippedF 1).fire 166
    else
      let hx : Int := (p.pitchX / 2 : Nat)
      let hy : Int := (p.pitchY / 2 : Nat)
      s.addJob { initJob with
        auto := true, pennant := seq, sess := devSess f.ring
        par := { initJob.par with
          format := f.format, chans := f.chans, gain := f.gain, offs := f.offs
          yLo := a.mFirst * p.pitchY - hy - f.marginY, yHi := a.mLast * p.pitchY + hy + f.marginY
          xLo := a.gMin * p.pitchX - hx - f.marginX, xHi := a.gMax * p.pitchX + hx + f.marginX }
        ring := 32 + prof }

end Sys2Proof.Machine
end

