-- ==== Sys2Proof/Machine/Report.lean ====
section
/-! DEFINITION. From a finished blob, component or tile to its pennant and its class actions (R284, R291 to R296, R302 to
R309, R327, R331, R332), for the live path and for reprocess jobs alike. -/

namespace Sys2Proof.Machine

/-! ### Pennants of found defects -/

/-- A blob, streamer segment, component or split half ready to be classified. `parts` lists the contexts of this module
that hold a part, each with the part's first and last line. -/
structure Found where
  kind : Nat
  acc : Acc
  attr : Nat
  firstAddr : Nat
  firstCtx : Nat
  suspect : Bool
  uncertain : Bool
  split : Bool
  parts : List (Nat × Int × Int)
  deriving DecidableEq, Repr

/-- What a pennant needs to know of the grid. -/
structure PenGrid where
  self : Nat
  pitchX : Nat
  pitchY : Nat
  deriving DecidableEq, Repr

/-- The inspected line `m` of a list, where it stands there. -/
def lineAt (ls : List LineInfo) (m : Int) : Option LineInfo := ls.find? (fun l => decide (l.m = m) && !l.missing)

/-- The inspected line of a list nearest to `m`, the earlier one on a tie (R309). -/
def lineNear (ls : List LineInfo) (m : Int) : Option LineInfo :=
  (ls.filter (fun l => !l.missing)).foldl (fun (b : Option LineInfo) (l : LineInfo) =>
    match b with
    | none => some l
    | some k =>
      if (l.m - m).natAbs < (k.m - m).natAbs ∨ ((l.m - m).natAbs = (k.m - m).natAbs ∧ l.m < k.m) then some l else b) none

/-- The context and line that give a pennant its time (R309). -/
def timeLine (linesOf : Nat → List LineInfo) (named : Nat) (parts : List (Nat × Int × Int)) (m : Int) : Nat × Option LineInfo :=
  match lineAt (linesOf named) m with
  | some l => (named, some l)
  | none =>
    let held := parts.filter (fun p => decide (p.2.1 ≤ m ∧ m ≤ p.2.2) && (lineAt (linesOf p.1) m).isSome)
    match held with
    | [] => (named, lineNear (linesOf named) m)
    | p :: rest =>
      let c := rest.foldl (fun a q => min a q.1) p.1
      (c, lineAt (linesOf c) m)

/-- The strip of output line `m`, or of the latest line before it that has one (R274, R307). -/
def stripOf (ls : List LineInfo) (m : Int) : Nat :=
  (((ls.find? (fun l => decide (l.m ≤ m) && l.strip.isSome)).map (fun l => l.strip.getD 0))).getD 0

/-- The arrival of the last camera line that output line `m` uses (R327). -/
def arriveOf (ls : List LineInfo) (m : Int) : Nat := ((ls.find? (fun l => decide (l.m ≤ m))).map LineInfo.arrive).getD 0

/-- The pennant of a classified defect (R302 to R309, R327). `named` is the context of the time rule; `bound` the latency
bound in ns. -/
def foundPennant (g : PenGrid) (linesOf : Nat → List LineInfo) (named : Nat) (f : Found) (cls bound : Nat) : Pennant :=
  let fs := features f.acc
  let t := timeLine linesOf named f.parts (rdiv (intAt fs 4) 256)
  { seq := 0, time := (t.2.map LineInfo.time).getD 0
    y := satS 64 (rdiv (intAt fs 4 * g.pitchY) 256), x := satS 64 (rdiv (intAt fs 3 * g.pitchX) 256)
    len := satU 32 (rdiv (intAt fs 1 * g.pitchY) 1000), wid := satU 32 (rdiv (intAt fs 2 * g.pitchX) 1000)
    area := satU 32 (intAt fs 0), cls := cls, addr := g.self
    ctxByte := f.firstCtx % 16 + (if f.firstAddr = g.self then 0 else 128), kind := f.kind
    flags := qualityFlags f.suspect f.uncertain (bitAt f.attr 1) + 32 * b2n (bitAt f.attr 0) + 2 * b2n (f.split || decide (f.kind = 6))
    peak := satS 16 (rnd (intAt fs 8) 4), mean := satS 16 (rnd (intAt fs 9) 4)
    low := stripOf (linesOf t.1) f.acc.mLast % 2 ^ 32, due := arriveOf (linesOf t.1) f.acc.mLast + bound }

/-- A storm tile (R275, R307). -/
structure TileRec where
  first : Int
  last : Int
  gLo : Int
  gHi : Int
  count : Nat
  strip : Nat
  replaced : Bool
  suspect : Bool
  uncertain : Bool
  deriving DecidableEq, Repr

/-- The pennant of a storm tile (R303, R304, R307). -/
def tilePennant (g : PenGrid) (linesOf : Nat → List LineInfo) (c : Nat) (t : TileRec) : Pennant :=
  let cx := 128 * (t.gLo + t.gHi)
  let cy := 128 * (t.first + t.last)
  let l := timeLine linesOf c [] (rdiv cy 256)
  { seq := 0, time := (l.2.map LineInfo.time).getD 0, y := rdiv (cy * g.pitchY) 256, x := rdiv (cx * g.pitchX) 256
    len := satU 32 (rdiv ((t.last + 1 - t.first) * g.pitchY) 1000), wid := satU 32 (rdiv ((t.gHi + 1 - t.gLo) * g.pitchX) 1000)
    area := t.count, cls := 0, addr := g.self, ctxByte := c, kind := 3
    flags := qualityFlags t.suspect t.uncertain t.replaced + 64, peak := 0, mean := 0, low := t.strip % 2 ^ 32, due := 0 }

/-- A piece that a context hands over by itself (R263, R270, R287). -/
def foundOfPiece (self c kind : Nat) (p : Piece) (split : Bool) : Found :=
  { kind := kind, acc := p.acc, attr := p.attr, firstAddr := self, firstCtx := c, suspect := p.suspect, uncertain := p.uncertain,
    split := split, parts := [(c, p.acc.mFirst, p.acc.mLast)] }

/-- A component or split half of the seam merge unit (R282, R285, R288). -/
def foundOfComp (self : Nat) (kind : Nat) (k : Comp) : Found :=
  { kind := kind, acc := k.acc, attr := k.attr, firstAddr := k.firstAddr, firstCtx := k.firstCtx, suspect := k.suspect,
    uncertain := k.uncertain, split := decide (kind = 6),
    parts := (k.parts.filter (fun p => decide (p.addr = self))).map (fun p => (p.ctx, p.acc.mFirst, p.acc.mLast)) }

/-! ### Live reporting -/

/-- The grid as the live plan lays it out. -/
def State.penGrid (s : State) : PenGrid := ⟨s.selfAddr, s.pitchX, s.pitchY⟩

/-- The labelled lines of a context. -/
def State.linesOf (s : State) (c : Nat) : List LineInfo := (s.ctx c).seg.lines

/-- The context whose output line gives the time of a defect (R309). -/
def State.namedCtx (s : State) (f : Found) : Nat := if f.firstAddr = s.selfAddr then f.firstCtx else s.seamCtx f.firstAddr f.firstCtx

/-- The bank whose tables classify a defect: the one active in the named context at its last line (R284). -/
def State.classBank (s : State) (f : Found) : SegBank :=
  let c := s.namedCtx f
  segBankAt (s.ctx c).seg f.acc.mLast (s.activeBank c).seg

/-- The latency bound of a defect in ns (R327). -/
def State.boundOf (s : State) (f : Found) : Nat :=
  let of (c : Nat) : Nat := ((s.ctxPlan c).map CtxPlan.boundNs).getD 0
  let fab := decide (f.firstAddr ≠ s.selfAddr)
  (f.parts.foldl (fun b p => max b (of p.1)) (of (s.namedCtx f))) + (if fab then 249600 else 0)

/-- Mark requests of a class action (R331, R695): AX0 and AX1. DEDUCED: assumption 26. -/
def State.markActions (s : State) (act : Nat) (p : Pennant) (low : Nat) : State :=
  let m : Mark := ⟨p.y, p.x, low, p.cls, p.ctxByte⟩
  let s := if bitAt act 1 then s.markRequest 0 m else s
  if bitAt act 2 then s.markRequest 1 m else s

/-- The automatic export of a class action (R332). DEDUCED: assumption 26. -/
def State.exportAction (s : State) (act seq : Nat) (a : Acc) : State := if bitAt act 6 then s.autoExport (bitsAt act 7 4) seq a else s

/-- A classified defect takes its actions (R294, R295, R299, R315, R322, R331, R332). DEDUCED: assumption 26. -/
def State.report (s : State) (f : Found) : State :=
  let bk := s.classBank f
  let c := s.namedCtx f
  let cls := classify bk (features f.acc) f.attr
  let act := actionOf bk cls
  let p := foundPennant s.penGrid s.linesOf c f cls (s.boundOf f)
  let s := s.fireIf (bitAt act 3) (152 + bitsAt act 4 2)
  if bitAt act 0 then
    let s := s.bump (segCntBlobsF c) 1
    if penStagingMax - penReserve ≤ s.pen.staging.length then s.penDiscard p f.acc.mFirst f.acc.mLast
    else
      let seq := s.penLiveSeq.1
      let s := s.penEnter p f.acc.mFirst f.acc.mLast
      (s.markActions act p (seq % 2 ^ 32)).exportAction act seq f.acc
  else
    let s := s.bump (segCntSuppressedF c) 1
    (s.markActions act p 0xFFFFFFFF).exportAction act 0 f.acc

/-! ### Seam merge -/

/-- PARTS and its peak (R300). -/
def State.semLevel (s : State) : State :=
  let n := s.seam.parts.length
  (s.setFld semPartsParts n).setFld semPartsPartsPeak (max n (s.fld semPartsPartsPeak))

/-- A component that is complete (R282, R288). -/
def State.wholeOut (s : State) (k : Comp) : State :=
  let f := foundOfComp s.selfAddr 0 k
  if !k.seed then s.bump (segCntNoseedF (s.namedCtx f)) 1
  else
    let long := decide ((2 ^ (s.classBank f).streamExp : Nat) < k.acc.mLast - k.acc.mFirst + 1)
    s.report { f with kind := if long then 2 else 0 }

/-- A split half (R285). -/
def State.splitOut (s : State) (k : Comp) : State :=
  let f := foundOfComp s.selfAddr 6 k
  if !k.seed then s.bump (segCntNoseedF (s.namedCtx f)) 1
  else (((s.bump (segCntSplitF (s.namedCtx f)) 1).fire 158)).report f

/-- The component that a PART record on its way to the neighbour stands for. -/
def compOfPart (b : Bunt) : Option Comp :=
  b.body.map (fun a =>
    { acc := a, attr := b.attr, seed := b.seed, firstAddr := b.addr, firstCtx := b.ctx, suspect := b.suspect, uncertain := b.uncertain,
      parts := [{ addr := b.addr, ctx := b.ctx, label := b.label, acc := a, attr := b.attr, seed := b.seed, strip := 0, mustSplit := false,
                  suspect := b.suspect, uncertain := b.uncertain, edges := [] }] })

/-- Records for the seam above (R278): they travel; toward a neighbour that is lost the parts end here against MISSING (R630), toward one
with another fabric hash as split halves (R628). -/
def State.forwardOut (s : State) (bs : List Bunt) : State :=
  let a := s.selfAddr + 1
  if s.seamDiffers a then (bs.filterMap compOfPart).foldl State.splitOut s
  else if s.seamAway a then (bs.filterMap compOfPart).foldl State.wholeOut s
  else s.fabBunting bs

/-- What the seam merge unit hands on (R282, R285, R286, R288, R289, R300, R301). -/
def State.seamOut (s : State) (o : SeamOut) : State :=
  match o with
  | .forward bs => s.forwardOut bs
  | .late => s.bump semCntLateBuntingF 1
  | .alert k => (s.setFld semAlertF k).fire 159
  | .whole k => s.wholeOut k
  | .split k => s.splitOut k

/-- Take the seam merge unit's new state and what it hands on. -/
def State.seamApply (s : State) (r : SeamSt × List SeamOut) : State :=
  (r.2.foldl State.seamOut ({ s with seam := r.1 }.semLevel))

end Sys2Proof.Machine
end

