-- ==== Sys2Proof/Machine/Lines.lean ====
section
/-! DEFINITION. Output lines and the back end as commands drive them (R210 to R214, R224, R227, R243 to R290, R317, R486,
R498): blending, labelling, hand-over, strips, bunting. -/

namespace Sys2Proof.Machine

/-! ### Blending and output lines -/

/-- The columns of this context that a partner's band touches, from the partner's contribution (R208). -/
def ownedBands (cp : CtxPlan) : List Band := cp.bands.filter Band.owner

/-- A band's partner line `m` is at hand, or the owner has given it up (R213, R214). -/
def bandReady (g : GeoSt) (m : Int) (b : Band) : Bool :=
  g.contrib.any (fun l => decide (l.partner = b.partner ∧ l.m = m)) || g.gave.contains b.partner

/-- Blend one owned band of a line (R211 to R213). -/
def State.blendOne (c : Nat) (cp : CtxPlan) (gb : GeoBank) (g : GeoSt) (a : State × OutLine) (b : Band) : State × OutLine :=
  let pl := g.contrib.find? (fun l => decide (l.partner = b.partner ∧ l.m = a.2.m))
  let r := blendBand cp gb a.2 b pl
  let s := a.1
  let s := if r.2.1 then (s.bump (geoCntMixedF c) 1).setFld (geoStatusBandMixed c) 1 else s
  let s := if r.2.2 then (s.bump (geoCntMissingF c) 1).setFld (geoStatusBandMissing c) 1 else s
  (s, r.1)

/-- Owner's lines whose bands are settled go on to the back end, the overview and the seam strips, in order (R214, R229). -/
def State.flushWaiting (s : State) (c : Nat) (cp : CtxPlan) : Nat → State
  | 0 => s
  | f + 1 =>
    let x := s.ctx c
    match x.geo.waiting with
    | [] => s
    | o :: rest =>
      let bands := ownedBands cp
      if o.missing = 0 ∧ ¬ (bands.all (bandReady x.geo o.m) = true) then s
      else
        let gb := match o.strip with
          | some n => (s.bankFor c n).geo
          | none => (s.activeBank c).geo
        let r := bands.foldl (State.blendOne c cp gb x.geo) (s, o)
        let x := r.1.ctx c
        let g : GeoSt := { x.geo with waiting := rest, gave := [], contrib := x.geo.contrib.filter (fun l => decide (o.m < l.m)) }
        let s := r.1.setCtx c { x with geo := g, segq := x.segq ++ [r.2] }
        ((s.ovwTake c cp r.2).seamLine cp r.2).flushWaiting c cp f

/-- The partner's contribution words go into the owner's blend memory, where the owner still waits for the line (R210). -/
def State.giveBand (s : State) (c : Nat) (cp : CtxPlan) (o : OutLine) (b : Band) : State :=
  match s.ctxPlan b.partner with
  | none => s
  | some op =>
    let gb := match o.strip with
      | some n => (s.bankFor c n).geo
      | none => (s.activeBank c).geo
    let x := s.ctx b.partner
    let late := match x.geo.waiting, x.geo.nextM with
      | w :: _, _ => decide (o.m < w.m)
      | [], some m => decide (o.m < m)
      | [], none => false
    if late then s
    else
      let s := s.setCtx b.partner { x with geo := { x.geo with contrib := x.geo.contrib ++ [contribution cp gb c o b] } }
      s.flushWaiting b.partner op (x.geo.waiting.length + 1)

/-- An output line leaves the down-web stage (R210, R226, R238): counters, contributions, the owner's wait. -/
def State.putLine (s : State) (c : Nat) (cp : CtxPlan) (o : OutLine) (phaseErr : Bool) : State :=
  let s := s.setInt64 (geoLineLo c) o.m
  let s := if phaseErr then (s.bump (geoCntPhaseF c) 1).setFld (geoStatusPhaseErr c) 1 else s
  let s := (cp.bands.filter (fun b => !b.owner)).foldl (fun s b => s.giveBand c cp o b) s
  let x := s.ctx c
  let s := s.setCtx c { x with geo := { x.geo with waiting := x.geo.waiting ++ [o] } }
  s.flushWaiting c cp (x.geo.waiting.length + 2)

/-- The geometry stage and back end of a context run: it is inspected and its slice is awake and not lost. -/
def State.backRuns (s : State) (c : Nat) (cp : CtxPlan) : Bool :=
  let v := s.slice cp.slice
  s.inspected c && !v.asleep && !v.lost

/-- OUTPUT_LINE (R224): the next output line, once every camera line it needs has arrived. -/
def execOutputLine (c : CtxId) (s : State) : Host.Outcome State Fault Refusal :=
  match s.ctxPlan c with
  | none => .next s
  | some cp =>
    if !s.backRuns c cp then .next s
    else
      let x := s.ctx c
      match geoEmit cp s.pitchY x.geo with
      | none => .next s
      | some (o, e, g) => .next ((s.setCtx c { x with geo := g }).putLine c cp o e)

/-- BAND_DEADLINE (R213, R214): the owner goes on without the partner's line. -/
def execBandDeadline (c partner : CtxId) (s : State) : Host.Outcome State Fault Refusal :=
  match s.ctxPlan c with
  | none => .next s
  | some cp =>
    let x := s.ctx c
    if x.geo.waiting.isEmpty || !(ownedBands cp).any (fun b => decide (b.partner = partner.val)) then .next s
    else
      let s := s.setCtx c { x with geo := { x.geo with gave := partner.val :: x.geo.gave } }
      .next (s.flushWaiting c cp (x.geo.waiting.length + 1))

/-! ### Lines passing a port that is down -/

/-- A context whose camera lines do not come (R317): its port is not LINKED or its slice is lost, and nothing is left to
process, or a slice fallback has left it out (R416). DEDUCED: assumption 27. -/
def State.passing (s : State) (c : Nat) (cp : CtxPlan) : Bool :=
  let x := s.ctx c
  let lost := (s.slice cp.slice).lost || decide (cp.service = 0)
  s.inspected c && (lost || !decide (s.fld (zlpStatusState c) = 6)) &&
    (lost || (!x.fifo.any (fun l => !l.sliceTook) && x.filling.isEmpty && x.complete.isEmpty && x.reading.isEmpty))

/-- Output lines from `m` on that have passed the scan line at `y`, each missing with cause 6 (R317, R318). -/
def State.passLines (s : State) (c : Nat) (cp : CtxPlan) (y : Int) : Nat → Int → State
  | 0, _ => s
  | f + 1, m =>
    if m * s.pitchY ≤ y then
      let x := s.ctx c
      let s := s.setCtx c { x with geo := { x.geo with nextM := some (m + 1) } }
      (s.putLine c cp (missingLine m 6 s.taiNs none s.taiNs 0 (s.flag (encStatusEncoderSuspect s.refEnc)) false) false).passLines c cp y f (m + 1)
    else s

/-- One context counts the lines that passed it (R317); counting begins with the first line to pass after its start.
DEDUCED: assumption 27. -/
def State.passCtx (s : State) (c : Nat) (cp : CtxPlan) : State :=
  if s.pitchY = 0 ∨ ¬ (s.passing c cp = true) then s
  else
    let y := s.webPos - cp.mount
    let s := s.wakeSlice cp.slice
    let x := s.ctx c
    match x.geo.nextM with
    | none => s.setCtx c { x with geo := { x.geo with nextM := some (y / s.pitchY + 1) } }
    | some m => s.passLines c cp y (y / s.pitchY - m + 1).toNat m

/-- Every context whose port is down counts the output lines passing by the reference encoder (R317).
DEDUCED: assumption 27. -/
def State.passDown (s : State) : State :=
  match s.pln.plan with
  | none => s
  | some p => p.ctxs.foldl (fun s e => s.passCtx e.1 e.2) s

/-! ### The back end -/

/-- What the back end of a context knows of its place (R244, R277). -/
def State.segEnv (s : State) (c : Nat) (cp : CtxPlan) : SegEnv :=
  { ctx := c, addr := s.selfAddr, oLo := s.gridColumn + cp.oLo, oHi := s.gridColumn + cp.oHi, left := decide (cp.left ≠ .none),
    right := decide (cp.right ≠ .none), share := cp.share }

/-- A record of a context in catch-up that the journal already holds is dropped (R498); a new one is counted (R499).
DEDUCED: assumption 32. -/
def State.catchGate (s : State) (c : Nat) (parts : Bool) : State × Bool :=
  if (s.catchAt c).isNone then (s, false)
  else
    let l := if parts then s.jnl.matchParts else s.jnl.matchLeft
    match l.find? (fun e => decide (e.1 = c)) with
    | some (_, n + 1) =>
      let l' := l.map (fun e => if e.1 = c then (c, n) else e)
      (if parts then { s with jnl := { s.jnl with matchParts := l' } } else { s with jnl := { s.jnl with matchLeft := l' } }, true)
    | _ => (if parts then s else s.bump jnlCntCatchupNewF 1, false)

/-- One more bunting record since the last snapshot (R498). -/
def State.countPart (s : State) (c : Nat) : State :=
  let l := s.jnl.partsSince
  let l' := if l.any (fun e => decide (e.1 = c)) then l.map (fun e => if e.1 = c then (c, e.2 + 1) else e) else l ++ [(c, 1)]
  { s with jnl := { s.jnl with partsSince := l' } }

/-- The J of a context's snapshots (R486). DEDUCED: assumption 28. -/
def State.snapEvery (s : State) (c : Nat) : Nat :=
  match s.pln.plan with
  | none => 1
  | some p => max 1 (natAt p.outs.snapJ c)

/-- The STRIP entry of a finished strip, with a snapshot every J-th time (R482, R486). The snapshot's address in module
memory is a free value (assumption 3). DEDUCED: assumption 28. -/
def State.stripEntry (s : State) (c strip : Nat) (m : Int) : State :=
  let x := s.ctx c
  let k := tblGet s.jnl.snapCount 0 c + 1
  let base := ((x.num.bases.find? (fun b => decide (b.1 = strip))).map Prod.snd).getD 0
  let b := x.num.bankNo strip
  let id := if b = 1 then x.num.id1 else x.num.id0
  if k < s.snapEvery c then
    let s := { s with jnl := { s.jnl with snapCount := tblSet s.jnl.snapCount 0 c k } }
    s.journal 0x05 0xFF c [strip, base, ofSigned 64 m, id, 0] []
  else
    let a := s.takeFree (2 ^ 40)
    let s := a.2
    let snaps := (c, strip, x.fe, x.geo, x.seg) :: s.jnl.snaps.filter (fun e => decide (e.1 ≠ c))
    let parts := s.jnl.partsSince.filter (fun e => decide (e.1 ≠ c))
    let s := { s with jnl := { s.jnl with snapCount := tblSet s.jnl.snapCount 0 c 0, snaps := snaps, partsSince := parts } }
    s.journal 0x05 0xFF c [strip, base, ofSigned 64 m, id, a.1 + 1] []

/-- A strip of a context has been labelled to its end (R285, R486). DEDUCED: assumption 60. -/
def State.stripLabelled (s : State) (c strip : Nat) (m : Int) : State :=
  let s := s.stripEntry c strip m
  s.seamApply (splitDue s.selfAddr c strip s.seam)

/-- One thing the back end of a context hands on (R262, R270, R273, R275, R277, R280, R298, R299, R301, R320). -/
def State.segOut (c : Nat) (m : Int) (s : State) (o : SegOut) : State :=
  match o with
  | .piece k p split =>
    let g := s.catchGate c false
    if g.2 then g.1 else g.1.report (foundOfPiece s.selfAddr c k p split)
  | .tile f l a b n strip rep sus unc =>
    let g := s.catchGate c false
    if g.2 then g.1 else g.1.penEnter (tilePennant s.penGrid s.linesOf c ⟨f, l, a, b, n, strip, rep, sus, unc⟩) f l
  | .gap r =>
    let g := s.catchGate c false
    if g.2 then g.1 else g.1.gapEnter c r
  | .bunt b =>
    let g := (s.countPart c).catchGate c true
    if g.2 then g.1 else { g.1 with seam := { g.1.seam with inq := g.1.seam.inq ++ [b] } }
  | .noseed => s.bump (segCntNoseedF c) 1
  | .stormIn => ((s.bump (segCntStormF c) 1).setFld (segStatusStorm c) 1).fire 156
  | .stormOut => s.setFld (segStatusStorm c) 0
  | .streamer => s.fire 157
  | .relearn => (s.bump (segCntRelearnF c) 1).setFld (segStatusRelearn c) 1
  | .runsOver => s.setFld (segStatusRunsOver c) 1
  | .blobsOver => s.setFld (segStatusBlobsOver c) 1
  | .stripDone n => s.stripLabelled c n m

/-- OPEN and WARMUP (R298, R299) after output line `m`. -/
def State.segRegs (s : State) (c : Nat) (layers : Nat) (m : Int) : State :=
  let g := (s.ctx c).seg
  let warm (q : ColModel) : Bool := match q.warmEnd with | none => true | some w => decide (m + 1 < w)
  let w := decide (layers ≠ 0) && (g.model.isEmpty || g.model.any warm)
  (s.setFld (segBlobsOpen c) g.blobs.length).setFlag (segStatusWarmup c) w

/-- Hand on everything the back end of a context yields, from its new state. -/
def State.segApply (s : State) (c layers : Nat) (m : Int) (r : SegSt × List SegOut) : State :=
  let x := s.ctx c
  let s := s.setCtx c { x with seg := r.1 }
  (r.2.foldl (State.segOut c m) s).segRegs c layers m

/-- The model restarts at the first strip of a bank with model reset set, or with other planes or weights (R253). -/
def bankRestarts (st : SegSt) (sb : SegBank) : Bool :=
  match st.banks with
  | (_, b) :: _ => decide (b ≠ sb) && (sb.resetModel || decide (b.planes ≠ sb.planes ∨ b.weights ≠ sb.weights))
  | [] => false

/-- The lines of a gap, cut at each multiple of 1 024 (R319). -/
def gapCuts : Nat → Int → Int → List (Int × Int)
  | 0, _, _ => []
  | f + 1, a, b => if b < a then [] else let e := min b (a / 1024 * 1024 + 1023); (a, e) :: gapCuts f (e + 1) b

/-- Gap pennants of one cause over a range of output lines of a context (R319, R320). -/
def State.gapRange (s : State) (c : Nat) (a b : Int) (cause : Nat) : State :=
  let g := s.ownedG c
  let sus := s.flag (encStatusEncoderSuspect s.refEnc)
  (gapCuts ((b - a) / 1024 + 2).toNat a b).foldl (fun s r => s.gapEnter c ⟨r.1, r.2, cause, g.1, g.2, s.taiNs, sus, false, false⟩) s

/-- The first output line that a context inspects after a warm start ends the gap of cause 8 since its last STRIP entry (R495).
DEDUCED: assumption 60. -/
def State.restartGap (s : State) (c : Nat) (m : Int) : State :=
  match s.jnl.restartGaps.find? (fun e => decide (e.1 = c)) with
  | none => s
  | some e => ({ s with jnl := { s.jnl with restartGaps := s.jnl.restartGaps.filter (fun q => decide (q.1 ≠ c)) } }).gapRange c e.2 (m - 1) 8

/-- One output line through the back end of a context (R243 to R276). -/
def State.labelOne (s : State) (c : Nat) (cp : CtxPlan) (o : OutLine) : State :=
  let s := s.restartGap c o.m
  let x := s.ctx c
  let sb := match o.strip with
    | some n => (s.bankFor c n).seg
    | none => match x.seg.banks with
      | (_, b) :: _ => b
      | [] => (s.activeBank c).seg
  let st := if bankRestarts x.seg sb then modelRestart x.seg else x.seg
  let g := s.gridColumn
  let o := { o with colGaps := o.colGaps.map (fun k => ⟨k.first + g, k.last + g, k.cause⟩) }
  let vals := o.vals.map (spanCols cp.gLo cp.oLo cp.oHi)
  let s := s.segApply c sb.layers.length o.m (segLine (s.segEnv c cp) sb vals o st)
  s.penDiscardGaps c o.m

/-- LABEL_LINE (R261): the back end takes the next output line of a context. -/
def execLabelLine (c : CtxId) (s : State) : Host.Outcome State Fault Refusal :=
  match s.ctxPlan c with
  | none => .next s
  | some cp =>
    let x := s.ctx c
    match x.segq with
    | [] => .next s
    | o :: rest =>
      if !s.inspected c || (s.slice cp.slice).asleep then .next s
      else .next ((s.setCtx c { x with segq := rest }).labelOne c cp o)

/-- The back end of a context closes every open blob at its last line and ends its gap runs and its strip (R109, R285,
R398, R555, R829). -/
def State.closeCtx (s : State) (c : Nat) (cp : CtxPlan) : State :=
  let x := s.ctx c
  let env := s.segEnv c cp
  let m := x.seg.prevM.getD 0
  let a := closeAll env false x.seg
  let b := gapsEnd a.1
  let e := stripEnd env b.1
  s.segApply c (s.activeBank c).seg.layers.length m (e.1, a.2 ++ b.2 ++ e.2)

/-- Every pending output line of a context is labelled before its blobs close, since the lines stand before the change. -/
def State.labelAll (s : State) (c : Nat) (cp : CtxPlan) : Nat → State
  | 0 => s
  | f + 1 =>
    let x := s.ctx c
    match x.segq with
    | [] => s
    | o :: rest => ((s.setCtx c { x with segq := rest }).labelOne c cp o).labelAll c cp f

/-! ### Bunting -/

/-- What lies beyond edge `e` of the sender of a record (R277, R278). -/
def State.nbrOf (s : State) (b : Bunt) (e : Nat) : Nbr :=
  if b.addr = s.selfAddr then
    match s.ctxPlan b.ctx with
    | some cp => if e = 0 then cp.left else cp.right
    | none => .none
  else if e = 1 then .ctx (s.seamCtx b.addr b.ctx) else .none

/-- The seam merge unit takes one record (R280 to R290). -/
def State.buntTake (s : State) (b : Bunt) : State :=
  let strip := if b.addr = s.selfAddr then stripOf (s.linesOf b.ctx) b.last else 0
  let s := s.seamApply (seamTake s.selfAddr (s.nbrOf b) strip s.seam b)
  let low := s.selfAddr - 1
  if b.addr = s.selfAddr ∧ b.kind = 3 ∧ s.selfAddr ≠ 0 ∧ s.seamDiffers low = true then
    s.seamApply (splitWhere s.selfAddr (fun p => p.edges.any (fun e => decide (e.2 = .fabric low))) s.seam)
  else s

/-- BUNTING_RECORD (R281): the seam merge unit takes the next record. -/
def execBuntingRecord (s : State) : Host.Outcome State Fault Refusal :=
  match s.seam.inq with
  | [] => .next s
  | b :: rest => .next (({ s with seam := { s.seam with inq := rest } }).buntTake b)

/-- PARTS_PEAK_CLEAR (R300). -/
def execPartsPeakClear (v : Word) (s : State) : Host.Outcome State Fault Refusal :=
  .next (if v.getLsbD 31 then s.setFld semPartsPartsPeak (s.fld semPartsParts) else s)

end Sys2Proof.Machine
end

