-- ==== Sys2Proof/Machine/Coding.lean ====
section
/-! DEFINITION. The look-back coder (R339 to R354) as functions: prediction, residues, classes, code words, blocks, line and
table records. -/

namespace Sys2Proof.Machine

/-- The median of three. -/
def median3 (a b c : Int) : Int := max (min a b) (min (max a b) c)

/-- The prediction of a sample from its available neighbours (R339). -/
def predict (d : Nat) (a b q : Option Int) : Int :=
  match a, b, q with
  | some a, some b, some q => median3 a b (a + b - q)
  | some a, _, _ => a
  | none, some b, _ => b
  | none, none, _ => 2 ^ (d - 1)

/-- The unsigned residue of a sample (R341). -/
def residue (d : Nat) (x p : Int) : Nat :=
  let e := (x - p + 2 ^ (d - 1)) % 2 ^ d - 2 ^ (d - 1)
  if 0 ≤ e then (2 * e).toNat else (-2 * e - 1).toNat

/-- The class of a residue (R342). -/
def classOf (u : Nat) : Nat := if u = 0 then 0 else Nat.log2 u + 1

/-- The residues of one sensor row with its mosaic period (R339, R340); `prev` is the row of the line before, none in a key
line. -/
def rowResidues (d pc : Nat) (prev : Option (List Nat)) (xs : List Nat) : List Nat :=
  let n (l : List Nat) (i : Nat) : Int := (natAt l i : Int)
  (List.range xs.length).map (fun c =>
    let left := decide (pc ≤ c)
    let a := if left then some (n xs (c - pc)) else none
    let b := prev.map (fun p => n p c)
    let q := if left then prev.map (fun p => n p (c - pc)) else none
    residue d (natAt xs c) (predict d a b q))

/-- Counts of the code lengths of a sub-table (R344). -/
def lenCount (lens : List Nat) (l : Nat) : Nat := if l = 0 then 0 else (lens.filter (fun x => decide (x = l))).length

/-- The first code word of each length (R344). -/
def firstCodes (lens : List Nat) : List Nat :=
  ((List.range 15).foldl (fun (a : Nat × List Nat) l =>
    let code := 2 * (a.1 + lenCount lens l)
    (code, a.2 ++ [code])) (0, [0])).2

/-- The canonical code word of class `k` (R344). -/
def codeWord (lens : List Nat) (k : Nat) : Nat :=
  let l := natAt lens k
  natAt (firstCodes lens) l + ((lens.take k).filter (fun x => decide (x = l))).length

/-- The Kraft condition of R345. -/
def kraftOk (lens : List Nat) : Bool :=
  decide (((lens.filter (fun l => decide (l ≠ 0))).map (fun l => 2 ^ (15 - l))).foldl (· + ·) 0 ≤ 2 ^ 15)

/-- A table that may be used: five sub-tables of 17 lengths from 0 to 15 that meet R345. -/
def tableOk (lens : List (List Nat)) : Bool :=
  decide (lens.length = 5) && lens.all (fun t => decide (t.length = 17) && t.all (fun l => decide (l ≤ 15)) && kraftOk t)

/-- A bit string as a number with its length, growing at its low end. -/
abbrev Bits := Nat × Nat

/-- Append the low `n` bits of `v`. -/
def Bits.push (b : Bits) (v n : Nat) : Bits := (b.1 * 2 ^ n + v % 2 ^ n, b.2 + n)

/-- The bytes of a bit string, from bit 7 downward, padded with zero bits to 8-byte words (R348). -/
def Bits.words (b : Bits) : List Byte :=
  let w := (b.2 + 63) / 64
  beBytes (8 * w) (b.1 * 2 ^ (64 * w - b.2))

/-- Bits of a coded residue: code word and low bits (R342). -/
def codeBits (lens : List Nat) (u : Nat) : Nat := let k := classOf u; natAt lens k + (if 2 ≤ k then k - 1 else 0)

/-- One coded residue. -/
def pushCode (words : List (List Nat × List Nat)) (b : Bits) (s : Nat × Nat) : Bits :=
  let t := words.getD s.1 ([], [])
  let k := classOf s.2
  let b := b.push (natAt t.2 k) (natAt t.1 k)
  if 2 ≤ k then b.push s.2 (k - 1) else b

/-- A sample to code: sub-table, residue, raw value. -/
structure CodeSample where
  sub : Nat
  u : Nat
  x : Nat
  deriving DecidableEq, Repr

/-- One block (R346 to R348): its bytes and whether it is raw. -/
def codeBlock (d : Nat) (lens : List (List Nat)) (ss : List CodeSample) : List Byte × Bool :=
  let bits := (ss.map (fun s => codeBits (lens.getD s.sub []) s.u)).foldl (· + ·) 0
  let gap := ss.any (fun s => decide (natAt (lens.getD s.sub []) (classOf s.u) = 0))
  let raw := gap || decide ((ss.length * d + 63) / 64 ≤ (bits + 63) / 64)
  let words := lens.map (fun t => (t, (List.range 17).map (codeWord t)))
  let b : Bits :=
    if raw then ss.foldl (fun b s => b.push s.x d) (0, 0)
    else ss.foldl (fun b s => pushCode words b (s.sub, s.u)) (0, 0)
  let w := (b.2 + 63) / 64
  (leBytes 8 (ss.length + 2 ^ 13 * b2n raw + 2 ^ 14 * w) ++ b.words, raw)

/-- Cut samples into blocks of 4 096 (R346). -/
def cutBlocks : Nat → List CodeSample → List (List CodeSample)
  | 0, _ => []
  | f + 1, ss => if ss = [] then [] else ss.take 4096 :: cutBlocks f (ss.drop 4096)

/-- The samples of a line in the order of R63, with their sub-tables (R343). -/
def lineSamples (bk : FrontBank) (d : Nat) (prev : List (List Nat)) (key : Bool) (rows : List (List Nat)) : List CodeSample :=
  (rows.mapIdx (fun r xs =>
    let us := rowResidues d bk.mosCols (if key then none else some (prev.getD r [])) xs
    xs.mapIdx (fun c x => (⟨bk.cells.getD (r % bk.mosRows * 8 + c % bk.mosCols) 0 % 5, natAt us c, x⟩ : CodeSample)))).flatten

/-- A coded line (R354): its record, its blocks, its raw blocks and its samples. -/
structure CodedLine where
  record : List Byte
  blocks : Nat
  raws : Nat
  samples : List CodeSample
  deriving DecidableEq, Repr

/-- The line record of R354. -/
def lineRecord (ln : CamLine) (key : Bool) (tableId : Nat) (blocks : List (List Byte × Bool)) : List Byte :=
  let body := blocks.flatMap Prod.fst
  let len := 0x28 + body.length + 8
  let h := leBytes 4 ln.idx ++ leBytes 1 ln.tag ++ leBytes 1 ln.rows.length ++ leBytes 2 (ln.rows.headD []).length ++ leBytes 1 ln.depth ++
    leBytes 1 (b2n key + 2 * b2n ln.replaced + 4 * b2n ln.triggered) ++ leBytes 2 blocks.length ++ leBytes 4 len ++ leBytes 8 ln.time ++
    leBytes 8 (ofSigned 64 ln.pos) ++ leBytes 4 tableId ++ leBytes 4 0 ++ body
  h ++ leBytes 4 (crc32c h).toNat ++ leBytes 4 0

/-- Code a line (R339 to R354). -/
def codeLine (bk : FrontBank) (tb : CodeTable) (prev : List (List Nat)) (key : Bool) (ln : CamLine) : CodedLine :=
  let ss := lineSamples bk ln.depth prev key ln.rows
  let bs := (cutBlocks (ss.length / 4096 + 1) ss).map (codeBlock ln.depth tb.lens)
  { record := lineRecord ln key tb.id bs, blocks := bs.length, raws := (bs.filter Prod.snd).length, samples := ss }

/-- Two lengths to a byte, high nibble first. -/
def nibbles : List Nat → List Byte
  | [] => []
  | [a] => [BitVec.ofNat 8 (16 * a)]
  | a :: b :: r => BitVec.ofNat 8 (16 * a + b) :: nibbles r

/-- The table record of R353. -/
def tableRecord (c : Nat) (t : CodeTable) : List Byte :=
  let subs := (List.range 5).flatMap (fun i => nibbles ((List.range 17).map (fun k => natAt (t.lens.getD i []) k)))
  let h := leBytes 4 t.id ++ leBytes 1 c ++ leBytes 1 (b2n t.dynamic) ++ leBytes 2 0 ++ subs ++ leBytes 7 0
  h ++ leBytes 4 (crc32c h).toNat

end Sys2Proof.Machine
end

