-- ==== Sys2Proof/Machine/Compression.lean ====
section
/-! DEFINITION. The compression engines and the look-back ring as commands drive them (R350 to R367, R384 to R387). -/

namespace Sys2Proof.Machine

/-! ### Events and status -/

/-- RING_VALID and FREE follow the ring (R384, R385). -/
def State.ringRegs (s : State) : State :=
  (s.setFlag cmpStatusRingValid (!s.ring.strips.isEmpty)).setFld cmpChunksFree (s.fld cmpChunksTotal - s.ring.chunks.length)

/-! ### Chunks -/

/-- Strips that a test names leave the index with all their lines (R360): each line is remembered for GAP records. -/
def ringInvalid (q : StripIdx → Bool) (r : RingSt) : RingSt :=
  let out := r.strips.filter q
  let hit (l : RingLine) : Bool := out.any (fun e => decide (e.ctx = l.ctx ∧ e.strip = l.strip))
  { r with
    strips := r.strips.filter (fun e => !q e)
    lines := r.lines.filter (fun l => !hit l)
    gone := r.gone ++ (r.lines.filter hit).map (fun l => ⟨l.ctx, l.strip, l.idx, l.y⟩) }

/-- A chunk is reclaimed (R359, R360, R374): strips whose first line it holds become invalid, and its other lines are gone. -/
def ringReclaim (no : Nat) (r : RingSt) : RingSt :=
  let r1 := ringInvalid (fun e => decide (e.chunk = no)) r
  let lost := r1.lines.filter (fun l => decide (l.chunk = no))
  { r1 with
    chunks := r1.chunks.filter (fun k => decide (k.no ≠ no))
    lines := r1.lines.filter (fun l => decide (l.chunk ≠ no))
    strips := r1.strips.map (fun e => if lost.any (fun l => decide (l.ctx = e.ctx ∧ l.strip = e.strip)) then { e with gap := true } else e)
    gone := r1.gone ++ lost.map (fun l => ⟨l.ctx, l.strip, l.idx, l.y⟩) }

/-- The chunk to reclaim (R359): oldest first record, the lower address on a tie. -/
def oldestChunk (cs : List Chunk) : Option Chunk :=
  cs.foldl (fun (b : Option Chunk) (k : Chunk) =>
    match b with
    | none => some k
    | some h => if k.firstTime < h.firstTime ∨ (k.firstTime = h.firstTime ∧ k.no < h.no) then some k else b) none

/-- A new chunk for a context (R359): the lowest free one, else the oldest is reclaimed. -/
def newChunk (total c time : Nat) (r : RingSt) : RingSt × Option Nat :=
  let close (r : RingSt) : RingSt := { r with chunks := r.chunks.map (fun k => if k.ctx = c then { k with opened := false } else k) }
  match (List.range total).find? (fun i => !r.chunks.any (fun k => decide (k.no = i))) with
  | some i => ({ close r with chunks := (close r).chunks ++ [⟨i, c, true, 0, time⟩] }, some i)
  | none =>
    match oldestChunk r.chunks with
    | none => (r, none)
    | some k =>
      let r := close (ringReclaim k.no r)
      ({ r with chunks := r.chunks ++ [⟨k.no, c, true, 0, time⟩] }, some k.no)

/-- The chunk that takes a record of `len` bytes (R358). -/
def chunkFor (total c len time : Nat) (r : RingSt) : RingSt × Option Nat :=
  match r.chunks.find? (fun k => decide (k.ctx = c) && k.opened) with
  | some k => if k.used + len ≤ 67108864 then (r, some k.no) else newChunk total c time r
  | none => newChunk total c time r

/-! ### Banks and tables kept -/

/-- Keep the bank of a strip (R363): the 65th bank of a context drops its oldest, with the strips that name it. -/
def State.keepBank (s : State) (c id : Nat) (b : Bank) : State :=
  let k := s.coder c
  if k.banks.any (fun e => decide (e.1 = id)) then s
  else
    let bs := k.banks ++ [(id, b)]
    match bs with
    | (old, _) :: rest =>
      if 64 < bs.length then
        let hit (e : StripIdx) : Bool := decide (e.ctx = c ∧ e.bank = old)
        let n := (s.ring.strips.filter hit).length
        let s := s.setCoder c { k with banks := rest }
        ({ s with ring := ringInvalid hit s.ring }).bump cmpCntEvictedEarlyF n
      else s.setCoder c { k with banks := bs }
    | [] => s

/-- A table record is kept while a line of the ring names it (R363). DEDUCED: assumption 30. -/
def State.keepTables (s : State) (c : Nat) : State :=
  let k := s.coder c
  let used (t : CodeTable) : Bool := s.ring.lines.any (fun l => decide (l.ctx = c ∧ l.table = t.id))
  let all := if k.kept.any (fun t => decide (t.id = k.table.id)) then k.kept else k.kept ++ [k.table]
  s.setCoder c { k with kept := all.filter (fun t => used t || decide (t.id = k.table.id)) }

/-! ### Strips of the coder -/

/-- More than a quarter of a strip's blocks were raw (R387). -/
def State.rawCheck (s : State) (c g : Nat) : State :=
  let k := s.coder c
  if k.blocks < 4 * k.rawBlocks then s.cmpFire g 2 else s

/-- The first line of a strip reaches the engine (R350, R351, R386, R387): a table due for it takes effect, and counting
starts again. -/
def State.coderStrip (s : State) (c g strip : Nat) : State :=
  let s := s.rawCheck c g
  let k := s.coder c
  let ready := k.due.filter (fun e => decide (e.1 ≤ strip))
  let rest := k.due.filter (fun e => !decide (e.1 ≤ strip))
  let k := { k with due := rest, blocks := 0, rawBlocks := 0, counts := List.replicate 5 (List.replicate 17 0) }
  match ready.getLast? with
  | none => s.setCoder c k
  | some (_, t) =>
    let t := { t with id := k.nextTable }
    let s := s.setCoder c { k with table := t, nextTable := k.nextTable + 1 }
    (s.setFld (cmpTableTableId c) (t.id % 2 ^ 28)).cmpFire g 0

/-- The residues of a line enter the class counts (R350). -/
def countSamples (counts : List (List Nat)) (ss : List CodeSample) : List (List Nat) :=
  ss.foldl (fun t s => listModify t s.sub (fun row => listModify row (classOf s.u) (· + 1))) counts

/-! ### LINE_COMPRESS -/

/-- The strip index entry of a stored line (R361). -/
def stripAdd (c : Nat) (ln : CamLine) (y : Int) (bank chunk : Nat) (gap : Bool) (r : RingSt) : RingSt :=
  let isIt (e : StripIdx) : Bool := decide (e.ctx = c ∧ e.strip = ln.strip)
  if r.strips.any isIt then
    let upd (e : StripIdx) : StripIdx := { e with gap := e.gap || gap, lines := e.lines + 1, yLast := y, tLast := ln.time }
    { r with strips := r.strips.map (fun e => if isIt e then upd e else e), dirNext := r.dirNext + 1 }
  else
    { r with
      strips := r.strips ++ [⟨ln.strip, c, false, gap, false, 1, ln.idx, y, y, ln.time, ln.time, bank, 8 * r.dirNext, chunk⟩]
      dirNext := r.dirNext + 1 }

/-- Whether a line is a key line (R340), and whether lines before it in its strip are absent (R361). -/
def keyOf (k : Coder) (ln : CamLine) : Bool × Bool :=
  match k.prevIdx with
  | some (n, i) =>
    if n = ln.strip then (let gap := decide ((i + 1) % 2 ^ 32 ≠ ln.idx); (gap, gap)) else (true, decide (ln.off ≠ 0))
  | none => (true, decide (ln.off ≠ 0))

/-- Short strips of the context show it in their entries (R361). -/
def State.shortMarks (s : State) (c : Nat) : State :=
  let hit (e : StripIdx) : Bool := decide (e.ctx = c) && (s.ctx c).num.shorts.contains e.strip
  { s with ring := { s.ring with strips := s.ring.strips.map (fun e => if hit e then { e with short := true } else e) } }

/-- The engine codes a line and appends its record (R357, R358, R361). -/
def State.ringAppend (s : State) (c g : Nat) (cp : CtxPlan) (ln : CamLine) : State :=
  let n := (s.ctx c).num
  let b := n.bankNo ln.strip
  let id := if b = 1 then n.id1 else n.id0
  let bank := n.bank b
  let k0 := s.coder c
  let kg := keyOf k0 ln
  let s := if k0.prevIdx.map Prod.fst = some ln.strip then s else s.coderStrip c g ln.strip
  let k := s.coder c
  let q := codeLine bank.front k.table k.prevRows kg.1 ln
  let ch := chunkFor (s.fld cmpChunksTotal) c q.record.length ln.time s.ring
  match ch.2 with
  | none => s
  | some no =>
    let sc := match s.pln.plan with | none => 0 | some p => p.scale
    let y := webY ln.pos s.zero sc cp.mount
    let off := (((ch.1.chunks.find? (fun x => decide (x.no = no))).map Chunk.used).getD 0)
    let line : RingLine := {
      ctx := c, strip := ln.strip, idx := ln.idx, abs := ln.abs, off := ln.off, tag := ln.tag, time := ln.time, pos := ln.pos, y := y,
      replaced := ln.replaced, depth := ln.depth, table := k.table.id, chunk := no, poisoned := false, suspect := ln.suspect,
      illegal := ln.illegal, mismatch := ln.mismatch, triggered := ln.triggered, gaps := ln.gaps, rows := ln.rows, record := q.record }
    let r := { ch.1 with
      chunks := ch.1.chunks.map (fun x => if x.no = no then { x with used := off + q.record.length } else x)
      lines := ch.1.lines ++ [line]
      rawBytes := ch.1.rawBytes + (ln.rows.length * (ln.rows.headD []).length * ln.depth + 7) / 8
      codedBytes := ch.1.codedBytes + q.record.length }
    let r := stripAdd c ln y id no (kg.2 || !ln.gaps.isEmpty) r
    let s := s.setCoder c { k with
      prevIdx := some (ln.strip, ln.idx), prevRows := ln.rows, blocks := k.blocks + q.blocks, rawBlocks := k.rawBlocks + q.raws
      counts := countSamples k.counts q.samples }
    let s := ((({ s with ring := r }).bump cmpCntBlocksF q.blocks).bump cmpCntRawF q.raws).setFld cmpStatusSkipping 0
    (((s.keepBank c id bank).keepTables c).shortMarks c).ringRegs

/-- LINE_COMPRESS (R115, R357, R362): the engine takes the oldest line of a context that it has not taken; `carried` says
whether the ring's bandwidth carries it. -/
def execLineCompress (c : CtxId) (carried : Bool) (s : State) : Host.Outcome State Fault Refusal :=
  match s.ctxPlan c with
  | none => .next s
  | some cp =>
    let x := s.ctx c
    match x.fifo.find? (fun l => !l.engineTook) with
    | none => .next s
    | some l =>
      if !s.engineUp cp.engine then .next s
      else
        let took (q : FifoLine) : FifoLine := if q.line.abs = l.line.abs then { q with engineTook := true } else q
        let s := s.setCtx c { x with fifo := x.fifo.map took }
        let s := if carried then s.ringAppend c cp.engine cp l.line else s.ringSkip c cp.engine l.line
        .next (s.fifoDrain c)

/-! ### Tables, depth and ratio -/

/-- TABLE_DELIVERY (R345, R350, R351): the table built from strip N waits for strip N + 2, or is late. Static tables take
no delivery (R349), and a table that R345 forbids is refused. DEDUCED: assumption 30. -/
def execTableDelivery (c : CtxId) (strip : Nat) (lens : List (List Nat)) (s : State) : Host.Outcome State Fault Refusal :=
  match s.ctxPlan c with
  | none => .next s
  | some cp =>
    if !s.flag (cmpTableDynamic c) || !tableOk lens || lens.any (fun t => t.contains 0) then .next s
    else
      let k := s.coder c
      let begun := match k.prevIdx with | some (n, _) => decide (strip + 2 ≤ n) | none => false
      if begun then .next ((s.bump cmpCntTableLateF 1).cmpFire cp.engine 1)
      else .next (s.setCoder c { k with due := k.due ++ [(strip + 2, ⟨0, true, lens⟩)] })

/-- The depth of a context's part of the ring in ms (R364); 0 while it has no valid strip. DEDUCED: assumption 30. -/
def State.ctxDepth (s : State) (c : Nat) : Nat :=
  match s.ring.strips.filter (fun e => decide (e.ctx = c)) with
  | [] => 0
  | e :: r => (s.taiNs - r.foldl (fun t q => min t q.tFirst) e.tFirst) / 1000000

/-- DEPTH_UPDATE (R364, R387). -/
def execDepthUpdate (s : State) : Host.Outcome State Fault Refusal :=
  match s.pln.plan, s.liveCtxs with
  | some p, c :: r =>
    let d := r.foldl (fun m x => min m (s.ctxDepth x)) (s.ctxDepth c)
    let low := decide (d < p.minDepth)
    let was := s.flag cmpStatusDepthLow
    let s := (s.setFld cmpDepthF (min d countMax)).setFlag cmpStatusDepthLow low
    .next (if low && !was then s.cmpFire 0 4 else s)
  | _, _ => .next s

/-- RATIO_UPDATE (R365, R384, R385): bytes of the second just past, as 8.8, cut to 16 bits. Without a compressed byte in
that second the manual states no ratio: a free value (assumption 3). DEDUCED: assumption 30. -/
def execRatioUpdate (s : State) : Host.Outcome State Fault Refusal :=
  match s.pln.plan with
  | none => .next s
  | some p =>
    let r := s.ring
    let v : Nat × State := if r.codedBytes = 0 then s.takeFree 65536 else (min (r.rawBytes * 256 / r.codedBytes) 65535, s)
    let s := v.2
    let s := ({ s with ring := { r with rawBytes := 0, codedBytes := 0 } }).setFld cmpRatioF v.1
    .next (if v.1 < p.minRatio then (s.setFld cmpStatusRatioLow 1).cmpFire 0 3 else s)

end Sys2Proof.Machine
end

