-- ==== Sys2Proof/Machine/PlanRegs.lean ====
section
/-! DEFINITION. What a plan lays into registers, outputs, axes, event routing, rings and claims when it goes live (the
`plan` entries of the Cold and Warm columns, R17; R700, R713, R715). -/

namespace Sys2Proof.Machine

/-! ### Registers -/

/-- Store several fields. -/
def State.setFlds (s : State) (l : List (Fld × Nat)) : State := l.foldl (fun s e => s.setFld e.1 e.2) s

/-- Store the words of a digest, byte 0 first (R425). -/
def State.setDigest (s : State) (f : Nat → Fld) (h : List Byte) : State :=
  (List.range 8).foldl (fun s i => s.setFld (f i) (leAt h (4 * i) 4)) s

/-- Line part of the down-web delay in 1/256 output line (R225, R237). -/
def delayLines (mode : Nat) : Nat := if mode = 1 then 1024 else if mode = 2 then 448 else 0

/-- Time part of the down-web delay in ns (R225). -/
def delayNs (cp : CtxPlan) : Nat :=
  cp.look * cp.maxLinePeriod + ((cp.bands.filter Band.owner).map Band.deadline).foldl max 0

/-- The registers of context `c` as its plan entry lays them out; off where it has none (R98, R137, R191, R236, R237, R299, R386). -/
def State.planCtx (s : State) (p : Plan) (c : Nat) : State :=
  let bond := match planEntry p.cams c with | some m => decide (m.lanes = 8) | none => false
  let upper := decide (c % 2 = 1) && (match planEntry p.cams (c - 1) with | some m => decide (m.lanes = 8) | none => false)
  match planEntry p.ctxs c with
  | none =>
    s.setFlds [(zlpCtrlPortEn c, b2n upper), (zlpCtrlBond c, 0), (ctxCtrlService c, 0), (ctxCtrlSlice c, 0), (ctxCtrlStripLines c, 0),
      (ctxCtrlFlushMs c, 0), (corStatusRefRow c, 0), (corStatusLookahead c, 0), (geoStatusDwMode c, 0), (geoOwnedFirstF c, 0),
      (geoOwnedLastF c, 0), (geoDelayF c, 0), (geoDelayTimeF c, 0), (segBlobsShare c, 0), (cmpTableDynamic c, 0), (cmpTableEngine c, 0)]
  | some cp =>
    let dyn := match p.outs.tables.find? (fun e => decide (e.1 = c)) with | some (_, d, _) => d | none => true
    let s := s.setFlds [(zlpCtrlPortEn c, 1), (zlpCtrlBond c, b2n bond), (ctxCtrlService c, cp.service), (ctxCtrlSlice c, cp.slice),
      (ctxCtrlStripLines c, Nat.log2 (cp.lines / 64)), (ctxCtrlFlushMs c, cp.flushMs), (corStatusRefRow c, cp.refRow),
      (corStatusLookahead c, cp.look), (geoStatusDwMode c, cp.dwMode), (geoOwnedFirstF c, cp.oLo), (geoOwnedLastF c, cp.oHi),
      (geoDelayF c, delayLines cp.dwMode), (geoDelayTimeF c, delayNs cp), (segBlobsShare c, cp.share), (cmpTableDynamic c, b2n dyn),
      (cmpTableEngine c, cp.engine)]
    s.bankStatus c

/-- Planned compression load of an engine in % of 32 Gsamples/s (R385). -/
def planLoad (p : Plan) (g : Nat) : Nat :=
  let rate (e : Nat × CtxPlan) : Nat := match planEntry p.cams e.1 with | some m => e.2.rows * e.2.width * m.maxLineRate | none => 0
  ((p.ctxs.filter (fun e => decide (e.2.engine = g))).map rate).foldl (· + ·) 0 * 100 / 32000000000

/-- Channel `v` of the event routing (R700, R722): the owner's code is 0 firmware, 1 to 4 a session. -/
def chanWord (k : ChanPlan) : Nat :=
  k.source % 512 + 2 ^ 9 * (k.consumer % 256) + 2 ^ 17 * (k.owner % 8) + 2 ^ 20 * b2n k.secure + 2 ^ 21

/-- LC_INPUTS of a cell (R723). -/
def cellInputs (k : CellPlan) : Nat :=
  ((List.range 4).map (fun i => 2 ^ (8 * i) * (natAt k.modes i % 8 + 8 * (natAt k.pins i % 4)))).foldl (· + ·) 0

/-- LC_CFG of a cell (R723). -/
def cellCfg (k : CellPlan) : Nat :=
  k.table % 65536 + 2 ^ 16 * b2n k.ff + 2 ^ 17 * (k.filter % 256) + 2 ^ 25 * b2n k.secure + 2 ^ 26

/-- A resource passes to the plan (R715): a former owner other than the plan is recorded as the claimant that lost it. -/
def State.planClaim (s : State) (kind idx : Nat) : State :=
  match s.claimOf kind idx with
  | some o => if o = 5 then s else (s.conflict kind idx 5 o).setClaim kind idx (some 5)
  | none => s.setClaim kind idx (some 5)

/-- Every claim of the plan ends (R715). -/
def State.planUnclaim (s : State) : State :=
  { s with evt := { s.evt with claims := s.evt.claims.filter (fun e => decide (e.2 ≠ 6)) } }

/-- Cell `l` takes a new configuration: its levels and its output start at 0 (R708). -/
def State.cellLoad (s : State) (l inputs cfg : Nat) : State :=
  let t := (s.setReg (lcInputs l) (BitVec.ofNat 32 inputs)).setReg (lcCfg l) (BitVec.ofNat 32 cfg)
  if t.reg (lcInputs l) = s.reg (lcInputs l) ∧ t.reg (lcCfg l) = s.reg (lcCfg l) then t
  else (t.setCell l initCell).setFld (lcStatusOut l) 0

/-- Event channels and logic cells of the plan (R700, R708, R715). -/
def State.planEvents (s : State) (p : Plan) : State :=
  let s := (List.range 64).foldl (fun s v =>
    s.setReg (evcChanCfg v) (BitVec.ofNat 32 (((p.outs.chans[v]?).map chanWord).getD 0))) s
  (List.range 32).foldl (fun s l =>
    match p.outs.cells[l]? with
    | some k => (s.cellLoad l (cellInputs k) (cellCfg k)).planClaim 2 l
    | none => if (s.claimOf 2 l).isSome then s else s.cellLoad l 0 0) s

/-- TOUT `t` under the plan (R585, R715): a function of the plan takes it from any other owner; a periodic one starts. -/
def State.planTout (s : State) (p : Plan) (t : Nat) : State :=
  let q : Option ToutPlan := match planEntry p.outs.touts t with | some q => if q.func = 0 then none else some q | none => none
  let marks := p.outs.axes.any (fun e => decide (e.2.tout = t))
  let o := s.tout t
  let s :=
    if q.isSome ∨ marks = true then
      let nx := match q with | some f => if f.func = 1 then nextPeriodic f.phase f.period s.taiNs else none | none => none
      (s.setTout t { o with plan := q, arm := none, dues := [], next := nx }).planClaim 0 t
    else
      let armed := o.arm.isSome
      s.setTout t { o with plan := none, dues := if armed then o.dues else [], next := if armed then o.next else none }
  s.toutActive t

/-- Axis `x` under the plan (R694 to R696, R743): off without a MARKER record. -/
def State.planAxis (s : State) (p : Plan) (x : Nat) : State :=
  match planEntry p.outs.axes x with
  | some a =>
    let s := s.setFlds [(axCtrlEnable x, 1), (axCtrlLowRamped x, b2n a.lowRamped), (axCtrlHighRamped x, b2n a.highRamped),
      (axCtrlDrop x, b2n a.drop), (axCtrlFeedback x, if a.feedback < 4 then a.feedback else 7), (axCtrlMarkTout x, a.tout),
      (axCurrentRunMa x, a.run), (axCurrentHoldMa x, a.hold)]
    let s := (List.range 4).foldl (fun s u => s.planClaim 1 (8 * x + u)) s
    if s.axIs x 0 then s.setFld (axStatusState x) 1 else s
  | none =>
    let s := if s.axMoving x then s.hardStop x [] else s.skipMarks x
    let s := (s.ax x).compares.foldl (fun s c => s.missCompare x c) s
    let s := s.setFlds [(axCtrlEnable x, 0), (axCtrlLowRamped x, 0), (axCtrlHighRamped x, 0), (axCtrlDrop x, 0), (axCtrlFeedback x, 0),
      (axCtrlMarkTout x, 0), (axCurrentRunMa x, 0), (axCurrentHoldMa x, 0)]
    (s.setFld (axStatusState x) 0).axRegs x

/-- The fields of feedback channel `k` as the plan lays them down (R660, R662). -/
def State.planEncRegs (s : State) (p : Plan) (k : Nat) : State :=
  match planEntry p.outs.encs k with
  | some e => s.setFlds [(encCtrlMode k, e.mode), (encCtrlInvert k, b2n e.invert), (encCtrlFilter k, e.filter), (encCtrlRezero k, b2n e.rezero),
      (encNominalF k, e.nominal), (encTolF k, e.tol), (encWindowF k, e.window), (encWakeF k, e.wake)]
  | none => s.setFlds [(encCtrlMode k, 0), (encCtrlInvert k, 0), (encCtrlFilter k, 0), (encCtrlRezero k, 0), (encNominalF k, 0), (encTolF k, 0),
      (encWindowF k, 0), (encWakeF k, 0)]

/-- Feedback channel `k` under the plan: a changed ENCODER record begins its re-qualification (R643). -/
def State.planEnc (s : State) (p : Plan) (k : Nat) : State :=
  let ws (s : State) : List Word := [s.reg (encCtrl k), s.reg (encNominal k), s.reg (encTol k), s.reg (encWindow k), s.reg (encWake k)]
  let t := s.planEncRegs p k
  if ws t = ws s then t else (t.setFld (encStatusRequalifying k) 1).setEnc k { t.enc k with index := none }

/-- FABRIC record and seams of the plan (R601, R626, R633): the exchanged widths of the fabric plan hold where a context owns a fabric
seam edge. -/
def State.planFabric (s : State) (p : Plan) : State :=
  let seam (side : CtxPlan → Nbr) (w : Nat) : Nat := if p.ctxs.any (fun e => match side e.2 with | .fabric _ => true | _ => false) then w else 0
  match p.outs.fab with
  | none => (s.setFlds [(fabCtrlEnable, 0), (fabCtrlBridge, 0), (fabSeamWLow, 0), (fabSeamWHigh, 0), (fabStatusState, 0)]).setDomain 43 false
  | some f =>
    let port (a : Nat) : Nat := ((s.fab.peers.find? (fun q => decide (q.addr = a) && !q.gone)).map Peer.port).getD 0
    let s := s.setFlds [(fabCtrlEnable, 1), (fabCtrlBridge, b2n (decide (f.topology = 0))), (fabNeighboursLowPort, port (s.selfAddr - 1)),
      (fabNeighboursHighPort, port (s.selfAddr + 1)), (fabSeamWLow, seam CtxPlan.left s.fab.wLow), (fabSeamWHigh, seam CtxPlan.right s.fab.wHigh)]
    let s := if s.fld fabStatusAddress = 63 then s else ({ s with fab := { s.fab with aligned := true } }).setFld fabStatusState 3
    s.setDomain 43 true

/-! ### Rings that the recipe names -/

/-- A ring of the recipe (R134, R379, R541): it keeps its indices while its place and size stay. -/
def State.planRing (s : State) (r addr entries unit : Nat) : State :=
  let n := devSess addr
  let h := s.hring n r
  if h.addr = addr ∧ h.entries = entries ∧ h.unit = unit then s else s.setHring n r { addr, entries, unit, prod := 0, cons := 0, alive := none }

/-- Statistics buffers and export rings of the plan. -/
def State.planRings (s : State) (p : Plan) : State :=
  let s := p.statBuf.foldl (fun s e => if e.2.2 = 0 then s else s.planRing (16 + e.1) e.2.1 (e.2.2 / 64) 64) s
  p.profiles.foldl (fun s e => s.planRing (32 + e.1) e.2.ring e.2.slots e.2.slotSize) s

/-! ### Code tables -/

/-- A context takes the code table the plan gives it (R349, R353): always in static mode, and as its first table in dynamic
mode. -/
def State.planTable (s : State) (e : Nat × Bool × List (List Nat)) : State :=
  let k := s.coder e.1
  if e.2.1 ∧ k.table.lens ≠ [] then s.setCoder e.1 { k with table := { k.table with dynamic := true } }
  else
    let t : CodeTable := ⟨k.nextTable, e.2.1, e.2.2⟩
    ((s.setCoder e.1 { k with table := t, nextTable := k.nextTable + 1, due := [] }).keepTables e.1).setFld (cmpTableTableId e.1) (t.id % 2 ^ 28)

/-! ### Ports -/

/-- A port that the plan puts out of service is powered off (R403, R743); one that it takes in is powered and looks for its
camera, as does one that is bonded otherwise than before (R44). -/
def State.planPort (s : State) (was bond : Bool) (c : Nat) : State :=
  let now := s.flag (zlpCtrlPortEn c)
  if was = now then (if now && decide (bond ≠ s.flag (zlpCtrlBond c)) then s.rediscover c else s)
  else if now then (s.emit (.phy c true)).setDomain (1 + c) true
  else
    let s := ((s.emit (.phy c false)).setDomain (1 + c) false).setFld (zlpStatusState c) 0
    s.modPort c (fun x => { x with wait := .none, asleep := false })

/-! ### Spare ranks -/

/-- The spare rank of channel `m` under the plan (R405, R457); 4 stands for none. A migrating channel keeps its own. -/
def State.planSpare (s : State) (p : Plan) (m : Nat) : State :=
  let v := p.outs.spares.getD m 4
  let rank (k : Nat) : Fld := ⟨mcStatus m, 8 + 2 * k, 2⟩
  if (s.mc m).migration.isSome then s
  else
    let ok := decide (v < 4) && decide (s.fld (rank v) < 2)
    let s := (List.range 4).foldl (fun s k => if 2 ≤ s.fld (rank k) then s else s.setFld (rank k) (if k = v then 1 else 0)) s
    (if v < 4 then s.setFld (mcStatusSpare m) v else s).setFlag (mcStatusSpareValid m) ok

/-! ### Trigger dividers -/

/-- The dividers of the ports with trigger source 0 in the live plan, in port order (R656). -/
def State.dividerPorts (s : State) : List (Nat × Nat) :=
  match s.pln.plan with
  | none => []
  | some p => (p.cams.filter (fun e => decide (e.2.trigSource = 0 ∧ 0 < e.2.divider))).map (fun e => (e.1, e.2.divider))

/-- Every divider is aligned to E_zero (R657). -/
def State.alignDividers (s : State) : State :=
  let d := s.encPos s.refEnc - s.zero
  s.dividerPorts.foldl (fun (s : State) (e : Nat × Nat) => s.setDivider e.1 (d * 2 ^ 32 % (e.2 : Int))) s

/-! ### All of it -/

/-- Every field that a plan sets, from plan `p`, the live one (R17). -/
def State.planRegs (s : State) (p : Plan) : State :=
  let en := (List.range 12).map (fun c => s.flag (zlpCtrlPortEn c))
  let bond := (List.range 12).map (fun c => s.flag (zlpCtrlBond c))
  let first := decide (s.fld plnPlanIdF = 0)
  let s := (List.range 12).foldl (fun s c => s.planCtx p c) s
  let s := (List.range 12).foldl (fun s c => s.planPort (en.getD c false || first) (bond.getD c false) c) s
  let s := s.setFlds [(plnStatusState, 2), (plnStatusBgCapped, b2n (decide (p.outs.bgCap < 250))),
    (plnStatusFifoShort, b2n (!p.outs.fifoShort.isEmpty)), (plnCapF, p.outs.bgCap),
    (gegPitchXF, p.pitchX), (gegPitchYF, p.pitchY), (gegColumnsF, p.columns), (cmpChunksTotal, p.chunks),
    (cmpEnginePlanned 0, planLoad p 0), (cmpEnginePlanned 1, planLoad p 1), (ovwStatusChannels, p.ovw.chans.length), (ovwStatusHx, p.ovw.hx),
    (ovwStatusHy, p.ovw.hy), (ovwWidthF, p.ovw.width), (ovwPitchF, p.ovw.pitch), (penStatusDelivery, b2n p.outs.delivery),
    (penStatusBlockExp, p.outs.blockExp)]
  let s := (List.range 12).foldl (fun s c => s.setFld ⟨jnlSnap (c / 8), 4 * (c % 8), 4⟩ (natAt p.outs.snapJ c - 1)) s
  let s := (List.range 16).foldl (fun s m => s.planSpare p m) s
  let s := ((s.setInt64 gegOriginLo p.originX).setDigest plnPlanHashF p.hash).setDigest plnRecipeHashF p.recipeHash
  let s := p.outs.tables.foldl State.planTable (s.ringRegs)
  let s := (List.range 4).foldl (fun s k => s.planEnc p k) s
  let s := s.planUnclaim
  let s := (List.range 16).foldl (fun s t => s.planTout p t) s
  let s := (List.range 2).foldl (fun s x => s.planAxis p x) s
  let mark := !p.outs.axes.isEmpty
  (((((s.planEvents p).planFabric p).planRings p).setDomain 46 mark).setDomain 47 mark).alignDividers

end Sys2Proof.Machine
end

