-- ==== Sys2Proof/Machine/CheckUnits.lean ====
section
/-! DEFINITION. The check-value units (R716 to R721, R725). -/

namespace Sys2Proof.Machine

/-- The parameters of a unit (R716, R725). -/
structure CrcParams where
  w : Nat
  poly : Nat
  init : Nat
  xorout : Nat
  refin : Bool
  refout : Bool
  deriving DecidableEq, Repr

/-- Reverse the low `n` bits of a number (R716). -/
def reflectBits (x n : Nat) : Nat := (List.range n).foldl (fun a i => 2 * a + b2n (bitAt x i)) 0

/-- The parameters in a unit's registers; bits above the width are ignored (R716). -/
def State.crcParams (s : State) (u : Nat) : CrcParams :=
  let w := s.fld (crcCfgWidth u)
  { w := w, poly := s.get64 (crcPolyLo u) % 2 ^ w, init := s.get64 (crcInitLo u) % 2 ^ w, xorout := s.get64 (crcXoroutLo u) % 2 ^ w,
    refin := s.flag (crcCfgRefin u), refout := s.flag (crcCfgRefout u) }

/-- One bit enters the running value (R716). -/
def crcBit (p : CrcParams) (v : Nat) (b : Bool) : Nat :=
  let top := bitAt v (p.w - 1)
  let s := (2 * v) % 2 ^ p.w
  if top != b then s ^^^ p.poly else s

/-- One byte enters the running value, most significant bit first after reflection (R716). -/
def crcByte (p : CrcParams) (v : Nat) (b : Byte) : Nat :=
  let x := if p.refin then reflectBits b.toNat 8 else b.toNat
  (List.range 8).foldl (fun v i => crcBit p v (bitAt x (7 - i))) v

/-- Bytes enter the running value. -/
def crcRun (p : CrcParams) (v : Nat) (bs : List Byte) : Nat := bs.foldl (crcByte p) v

/-- The final value (R716). -/
def crcFinal (p : CrcParams) (v : Nat) : Nat := (if p.refout then reflectBits v p.w else v) ^^^ p.xorout

/-- A unit's source fires with a cause (R721): 1 run completed, 2 repeat, 3 load while busy. -/
def State.crcFire (s : State) (u cause : Nat) : State := (s.setFld (crcStatusCause u) cause).fire (372 + u)

/-- V in force is what CRC_VALUE reads (R719). -/
def State.crcShow (s : State) (u v : Nat) : State := (s.setCrc u { s.crc u with v := v }).set64 (crcValueLo u) v

/-- A run of a unit ends, with or without its result (R717, R721). -/
def State.crcEnd (s : State) (u job : Nat) : State :=
  ((s.setCrc u { s.crc u with job := none }).setFld (crcStatusBusy u) 0).dropJob job

/-- A check job asks for its next 4 KB of input (R476, R717), one read at a time. -/
def State.checkUnit (s : State) (j : Job) : State :=
  if j.outPos ≠ j.consumed then s.setJob { j with phase := .running }
  else
    let n := min 4096 (j.par.srcLen - j.consumed)
    let w := s.hostRead (j.par.source + j.consumed) n (.jobInput j.id) 0 j.id
    match w.2 with
    | some _ => (w.1.finishDesc j.sess j.desc 7 []).crcEnd j.par.unit j.id
    | none => w.1.setJob { j with phase := .running, outPos := j.outPos + n, units := j.units + 1 }

/-- Bytes of a check job arrive (R717): V advances, and the last ones complete the run. DEDUCED: assumption 37. -/
def State.checkData (s : State) (j : Job) (bs : List Byte) : State :=
  let u := j.par.unit
  let p := s.crcParams u
  let v := crcRun p (s.crc u).v bs
  let s := s.crcShow u v
  let n := j.consumed + bs.length
  if n < j.par.srcLen then s.setJob { j with consumed := n }
  else
    let r := crcFinal p v
    let s := s.set64 (crcResultLo u) r
    ((s.finishDesc j.sess j.desc 0 (leBytes 8 r ++ leBytes 8 v)).crcEnd u j.id).crcFire u 1

/-- CHECK_RUN (R555, R717). DEDUCED: assumption 37. -/
def execCheckRun (s : SessId) (idx : Nat) (st : State) : Host.Outcome State Fault Refusal :=
  .next (st.runDesc s idx 0x4A modesMNAX (fun d st =>
    let u := d.par 0x10 1; let len := d.par 0x28 8
    if 7 < u then st.badParam s d 0x10
    else if ¬ devHost (d.par 0x20 8) then st.badParam s d 0x20
    else if len = 0 ∨ 2 ^ 32 < len then st.badParam s d 0x28
    else if (st.crc u).job.isSome ∨ 256 ≤ st.hostJobs then st.wrongState s d
    else
      let p := st.crcParams u
      let v := if bitAt (d.par 0x11 1) 0 then d.par 0x18 8 % 2 ^ p.w else p.init
      let id := freeJobId st.jobs
      let st := ((st.crcShow u v).setFld (crcStatusBusy u) 1)
      let st := st.setCrc u { st.crc u with job := some id }
      st.addJob { initJob with
        sess := s, tag := d.tagGen, desc := d.idx, par := { initJob.par with kind := .check, unit := u, source := d.par 0x20 8, srcLen := len } }))

/-- A write of CRC_LOAD (R719, R720): a load commits the staged value, unless its alive counter repeats or a run is active. -/
def State.loadWrite (s : State) (u : Nat) (v : Word) : State :=
  if ¬ v.getLsbD 4 then s
  else
    let a := v.toNat % 16
    let c := s.crc u
    if c.loads ≠ 0 ∧ s.fld (crcStatusLastAlive u) = a then
      ((s.setFld (crcStatusRepeat u) 1).bump (crcCntRepeatF u) 1).crcFire u 2
    else if c.job.isSome then (s.setFld (crcStatusWriteBusy u) 1).crcFire u 3
    else
      let w := s.fld (crcCfgWidth u)
      let s := s.setCrc u { c with loads := c.loads + 1 }
      (s.crcShow u (c.staged % 2 ^ w)).setFld (crcStatusLastAlive u) a

/-- CRC_LOAD (R719, R720). DEDUCED: assumption 37. -/
def execCrcLoad (u : UnitId) (v : Word) (s : State) : Host.Outcome State Fault Refusal := .next (s.loadWrite u v)

end Sys2Proof.Machine
end

