-- ==== Sys2Proof/Machine/JobForm.lean ====
section
/-! DEFINITION. What a background job is asked for and what it writes (R368 to R372): its lines, its columns and its
records. -/

namespace Sys2Proof.Machine

/-! ### Records -/

/-- The header of a record (R371). -/
def recHead (ty len : Nat) : List Byte := leBytes 1 ty ++ leBytes 3 0 ++ leBytes 4 len

/-- The JOB record (R371); `cont` for CONTINUED. -/
def jobRecord (j : Job) (cont : Bool) : List Byte :=
  recHead 1 56 ++ leBytes 1 1 ++ leBytes 1 j.par.format ++ leBytes 1 j.par.chans ++ leBytes 1 (b2n cont + 2 * b2n j.auto) ++ leBytes 4 0 ++
    leBytes 8 j.pennant ++ leBytes 8 (ofSigned 64 j.par.yLo) ++ leBytes 8 (ofSigned 64 j.par.yHi) ++ leBytes 8 (ofSigned 64 j.par.xLo) ++
    leBytes 8 (ofSigned 64 j.par.xHi)

/-- A SECTION record (R371): context, rows or channels, depth, mosaic period, columns, first column, cells, row width.
DEDUCED: assumption 35. -/
def sectionRecord (c rows depth pr pc cols : Nat) (first : Int) (cells : List Byte) (width : Nat) : List Byte :=
  recHead 2 48 ++ leBytes 1 c ++ leBytes 1 rows ++ leBytes 1 depth ++ leBytes 1 (16 * pr + pc) ++ leBytes 4 cols ++ leBytes 8 (ofSigned 64 first) ++
    (cells ++ List.replicate 16 0).take 16 ++ leBytes 4 width ++ leBytes 4 0

/-- A LINE record (R371). -/
def cropLine (n time : Nat) (y : Int) (tag flags : Nat) (samples : List Byte) : List Byte :=
  let body := padTo 8 samples
  recHead 3 (40 + body.length) ++ leBytes 8 n ++ leBytes 8 time ++ leBytes 8 (ofSigned 64 y) ++ leBytes 1 tag ++ leBytes 1 flags ++ leBytes 6 0 ++ body

/-- A GAP record (R371). -/
def gapRecord (g : JobGap) : List Byte :=
  recHead 4 32 ++ leBytes 1 g.ctx ++ leBytes 1 g.cause ++ leBytes 6 0 ++ leBytes 8 (ofSigned 64 g.first) ++ leBytes 8 (ofSigned 64 g.last)

/-- A TABLE record (R371). -/
def tableRec (c : Nat) (t : CodeTable) : List Byte := recHead 5 72 ++ tableRecord c t

/-- A CLINE record (R371). -/
def clineRec (bs : List Byte) : List Byte := recHead 6 (8 + bs.length) ++ bs

/-- The END record (R371): status, lines exported, lines in GAP records, bytes produced with END itself. -/
def endRecord (j : Job) (status : Nat) : List Byte :=
  recHead 7 40 ++ leBytes 1 status ++ leBytes 7 0 ++ leBytes 8 j.exported ++ leBytes 8 j.gapLines ++ leBytes 8 (j.produced + 40)

/-! ### What a job reads -/

/-- A mask that is 0 selects everything. -/
def masked (mask i : Nat) : Bool := decide (mask = 0) || bitAt mask i

/-- Grid columns of the live plan, as positions in nm (R195). -/
def State.columnX (s : State) (g : Nat) : Int := (s.gridColumn + g) * s.pitchX

/-- A span column lies in a job's cross-web range (R368, R369); the default range is the module's owned columns. -/
def State.inX (s : State) (j : Job) (g : Nat) : Bool :=
  if j.par.defaultX ∨ j.par.kind = .reprocess then
    s.liveCtxs.any (fun c => match s.ctxPlan c with | some cp => decide (cp.oLo ≤ g ∧ g ≤ cp.oHi) | none => false)
  else decide (j.par.xLo ≤ s.columnX g ∧ s.columnX g < j.par.xHi)

/-- The contexts a job reads, in rising order (R368): the mask's, else those whose span meets the range. -/
def State.jobCtxs (s : State) (j : Job) : List Nat :=
  s.liveCtxs.filter (fun c =>
    if j.par.ctxMask ≠ 0 then bitAt j.par.ctxMask c
    else match s.ctxPlan c with
      | some cp => (List.range (cp.gHi + 1 - cp.gLo)).any (fun i => s.inX j (cp.gLo + i))
      | none => false)

/-- The bank that a strip of a context is read under (R368, R363): a loaded slot, or the kept bank that the strip index
names. -/
def State.jobBank (s : State) (j : Job) (c strip : Nat) : Bank :=
  if j.par.bankSel = 0 then
    let dflt := s.activeBank c
    match s.ring.strips.find? (fun e => decide (e.ctx = c ∧ e.strip = strip)) with
    | some e => (((s.coder c).banks.find? (fun b => decide (b.1 = e.bank))).map Prod.snd).getD dflt
    | none => dflt
  else
    let slot := ((s.pln.slots.find? (fun e => decide (e.1 = j.par.bankSel))).map Prod.snd).getD []
    ((slot.find? (fun e => decide (e.1 = c))).map Prod.snd).getD initBank

/-- Put an element before the first of larger key. -/
def insertKey {α : Type} (key : α → Int) (x : α) : List α → List α
  | [] => [x]
  | y :: r => if key x < key y then x :: y :: r else y :: insertKey key x r

/-- Stable sort by a key. -/
def sortKey {α : Type} (key : α → Int) (l : List α) : List α := l.foldl (fun acc x => insertKey key x acc) []

/-- Items for the camera lines of a context from first to last in line order: lines gone from the ring, stored lines, and
between stored lines those absent at ingest (R371). -/
def ringItems (c : Nat) (ls : List RingLine) (gone : List GoneLine) : List JobItem :=
  let old : List (Int × JobItem) := (gone.filter (fun g => decide (g.ctx = c))).map (fun g => ((g.strip : Int), JobItem.absent c g.idx g.idx 1))
  let step (a : List (Int × JobItem) × Option RingLine) (r : RingLine) : List (Int × JobItem) × Option RingLine :=
    let hole : List (Int × JobItem) := match a.2 with
      | some p => if p.abs + 1 < r.abs then [((r.strip : Int), JobItem.absent c ((p.idx + 1) % 2 ^ 32) ((r.idx + 2 ^ 32 - 1) % 2 ^ 32) 2)] else []
      | none => []
    (a.1 ++ hole ++ [((r.strip : Int), JobItem.read c r.strip r.idx r.abs)], some r)
  let new := (ls.foldl step (([] : List (Int × JobItem)), (none : Option RingLine))).1
  (sortKey (fun e => e.1) (old ++ new)).map Prod.snd

/-- The stored lines of a context in a down-web range (R369), in line order. -/
def State.linesIn (s : State) (c : Nat) (lo hi : Int) : List RingLine :=
  s.ring.lines.filter (fun r => decide (r.ctx = c ∧ lo ≤ r.y ∧ r.y < hi))

/-- The source columns of a raw crop (R369): first and last camera column, none where no grid column of the range is the
context's. -/
def State.rawColumns (s : State) (j : Job) (cp : CtxPlan) (bk : Bank) : Option (Nat × Nat) :=
  let cols := (List.range (cp.gHi + 1 - cp.gLo)).filter (fun i => s.inX j (cp.gLo + i))
  let srcs : List Int := cols.filterMap (fun i => (bk.geo.entries[i]?).map (fun e => (e.src : Int)))
  match srcs with
  | [] => none
  | a :: r =>
    let lo := r.foldl min a; let hi := r.foldl max a
    let top : Int := (cp.width : Int) - 1
    some ((clampInt 0 top (lo - 3)).toNat, (clampInt 0 top (hi + 4)).toNat)

/-- The columns of a raw crop of a context under the bank of its first line. -/
def State.rawRange (s : State) (j : Job) (c : Nat) : Nat × Nat :=
  match s.ctxPlan c with
  | none => (0, 0)
  | some cp =>
    let strip := (((s.linesIn c j.par.yLo j.par.yHi).head?).map RingLine.strip).getD 0
    (s.rawColumns j cp (s.jobBank j c strip)).getD (0, cp.width - 1)

/-- Mosaic period and cells of a camera (R39, R371). -/
def State.mosaicOf (s : State) (c : Nat) (bk : FrontBank) : Nat × Nat × List Byte :=
  (bk.mosRows, bk.mosCols, match s.camPlan c with | some k => k.mosaic | none => [])

/-- The SECTION of a context in a raw or compressed output (R371, R372). -/
def State.ctxSection (s : State) (j : Job) (c : Nat) : List Byte :=
  match s.ctxPlan c with
  | none => sectionRecord c 0 0 0 0 0 0 [] 0
  | some cp =>
    let ls := s.linesIn c j.par.yLo j.par.yHi
    let bk := (s.jobBank j c ((ls.head?.map RingLine.strip).getD 0)).front
    let ms := s.mosaicOf c bk
    if j.par.format = 2 then sectionRecord c cp.rows 0 ms.1 ms.2.1 cp.width 0 ms.2.2 cp.width
    else
      let r := s.rawRange j c
      let rows := ((List.range cp.rows).filter (masked j.par.chans)).length
      let d := (ls.head?.map RingLine.depth).getD cp.depth
      sectionRecord c rows d ms.1 ms.2.1 (r.2 + 1 - r.1) r.1 ms.2.2 cp.width

/-- Channels that a bank's front end yields (R176, R178). -/
def chanCount (bk : FrontBank) : Nat := if bk.en.matrix then bk.channels else if bk.en.mosaic then bk.planes.length else 1

/-- The owned grid columns of a grid crop, from first to last (R369). -/
def State.gridCols (s : State) (j : Job) : List Nat :=
  let cs := s.jobCtxs j
  (List.range ((s.pln.plan.map Plan.columns).getD 0)).filter (fun g =>
    s.inX j g && cs.any (fun c => match s.ctxPlan c with | some cp => decide (cp.oLo ≤ g ∧ g ≤ cp.oHi) | none => false))

/-- The samples of a raw LINE record: the selected rows, 16 bits a value, row-major (R371). -/
def rawSamples (rows : List (List Nat)) (chans lo hi : Nat) : List Byte :=
  ((List.range rows.length).filter (masked chans)).flatMap (fun r => (((rows.getD r []).drop lo).take (hi + 1 - lo)).flatMap (leBytes 2))

/-- A corrected sample on the 16-bit scale, or a display sample (R370). -/
def gridSample (par : JobParams) (v : Int) : List Byte :=
  if par.format = 3 then [ovwCode par.gain par.offs v] else leBytes 2 (clampInt 0 65535 (rnd v 2)).toNat

end Sys2Proof.Machine
end

