-- ==== Sys2Proof/Machine/JobPipes.lean ====
section
/-! DEFINITION. The pipelines of corrected, display and reprocess jobs (R297, R370, R373): the front end and geometry stage
of the live path over lines of the look-back ring, with their blends, and the back end of reprocess. -/

namespace Sys2Proof.Machine

/-! ### Front end and geometry -/

/-- What the pipelines of a job know: pitch, contexts, banks. -/
structure PipeEnv where
  pitchY : Nat
  planOf : Nat → Option CtxPlan
  bankOf : Nat → Nat → Bank

/-- The pipelines of a job's state. -/
def State.pipeEnv (s : State) (j : Job) : PipeEnv := ⟨s.pitchY, s.ctxPlan, s.jobBank j⟩

/-- Replace the pipe of a context. -/
def putPipe (p : JobPipe) (ps : List JobPipe) : List JobPipe := ps.map (fun q => if q.ctx = p.ctx then p else q)

/-- The pipe of a context. -/
def pipeAt (ps : List JobPipe) (c : Nat) : Option JobPipe := ps.find? (fun p => decide (p.ctx = c))

/-- The bank of an output line's geometry stage. -/
def geoBankOf (e : PipeEnv) (c : Nat) (o : OutLine) : GeoBank := (e.bankOf c (o.strip.getD 0)).geo

/-- The owner of a band waits no longer: the contribution is there, or the partner has no pipe, has passed the line, or
will send no more (`final`). -/
def pipeBandReady (ps : List JobPipe) (final : Bool) (g : GeoSt) (m : Int) (b : Band) : Bool :=
  final || g.contrib.any (fun l => decide (l.partner = b.partner ∧ l.m = m)) ||
    (match pipeAt ps b.partner with
     | none => true
     | some q => match q.geo.nextM with
       | some n => decide (m < n)
       | none => false)

/-- Blend the settled lines of a pipe (R210 to R214). -/
def pipeFlush (e : PipeEnv) (cp : CtxPlan) (ps : List JobPipe) (final : Bool) : Nat → JobPipe → JobPipe
  | 0, p => p
  | f + 1, p =>
    match p.geo.waiting with
    | [] => p
    | o :: rest =>
      let bands := ownedBands cp
      if o.missing = 0 ∧ ¬ (bands.all (pipeBandReady ps final p.geo o.m) = true) then p
      else
        let gb := geoBankOf e p.ctx o
        let one (a : OutLine) (b : Band) : OutLine :=
          (blendBand cp gb a b (p.geo.contrib.find? (fun l => decide (l.partner = b.partner ∧ l.m = a.m)))).1
        let o' := bands.foldl one o
        let g : GeoSt := { p.geo with waiting := rest, contrib := p.geo.contrib.filter (fun l => decide (o.m < l.m)) }
        pipeFlush e cp ps final f { p with geo := g, outq := if p.main then p.outq ++ [o'] else p.outq }

/-- Blend the settled lines of every pipe. -/
def pipesFlush (e : PipeEnv) (final : Bool) (ps : List JobPipe) : List JobPipe :=
  ps.map (fun p => match e.planOf p.ctx with
    | some cp => pipeFlush e cp ps final (p.geo.waiting.length + 1) p
    | none => p)

/-- An output line leaves the down-web stage of a pipe: its contributions, then its wait (R210, R224). -/
def pipeOut (e : PipeEnv) (cp : CtxPlan) (c : Nat) (o : OutLine) (ps : List JobPipe) : List JobPipe :=
  let give (ps : List JobPipe) (b : Band) : List JobPipe :=
    match pipeAt ps b.partner with
    | none => ps
    | some q => putPipe { q with geo := { q.geo with contrib := q.geo.contrib ++ [contribution cp (geoBankOf e c o) c o b] } } ps
  let ps := (cp.bands.filter (fun b => !b.owner)).foldl give ps
  match pipeAt ps c with
  | none => ps
  | some p => putPipe { p with geo := { p.geo with waiting := p.geo.waiting ++ [o] } } ps

/-- Every output line that a pipe can form now (R224). -/
def pipeEmit (e : PipeEnv) (cp : CtxPlan) (c : Nat) : Nat → List JobPipe → List JobPipe
  | 0, ps => ps
  | f + 1, ps =>
    match pipeAt ps c with
    | none => ps
    | some p =>
      match geoEmit cp e.pitchY p.geo with
      | none => ps
      | some (o, _, g) => pipeEmit e cp c f (pipeOut e cp c o (putPipe { p with geo := g } ps))

/-- A line of the ring enters the pipe of its context (R370, R373). -/
def pipeFeed (e : PipeEnv) (y : Int) (ln : CamLine) (c : Nat) (ps : List JobPipe) : List JobPipe :=
  match e.planOf c, pipeAt ps c with
  | some cp, some p =>
    let o := feLine cp (fun n => (e.bankOf c n).front) (fun _ => y) p.fe ln
    let g := o.regs.foldl (fun g r => (geoFeed cp (e.bankOf c r.src.strip).geo e.pitchY g o.st.gaps r).1) p.geo
    pipesFlush e false (pipeEmit e cp c (4096 + ln.abs % 4096) (putPipe { p with fe := o.st, geo := g } ps))
  | _, _ => ps

/-- Camera lines that a pipe's context lacks, with their cause. -/
def pipeGap (c first last cause : Nat) (ps : List JobPipe) : List JobPipe :=
  match pipeAt ps c with
  | none => ps
  | some p => putPipe { p with fe := { p.fe with gaps := p.fe.gaps ++ [⟨first, last, cause⟩] } } ps

/-! ### Rows of a grid crop -/

/-- A main pipe has nothing before line `m` still to come. -/
def pipePast (m : Int) (p : JobPipe) : Bool := !p.main || p.outq.any (fun o => decide (m ≤ o.m))

/-- The line `m` of a pipe, where it is inspected. -/
def pipeLine (m : Int) (p : JobPipe) : Option OutLine := p.outq.find? (fun o => decide (o.m = m ∧ o.missing = 0))

/-- Why a pipe has no line `m` (R371): the cause noted with it, cause 1 where the ring reaches no further. -/
def pipeCause (m : Int) (p : JobPipe) : Nat :=
  match p.outq.find? (fun o => decide (o.m = m)) with
  | some o => if 1 ≤ o.missing ∧ o.missing ≤ 4 then o.missing else 1
  | none => 1

/-- The values of one grid column in a row, all selected channels (R369, R371). -/
def rowColumn (e : PipeEnv) (par : JobParams) (nch : Nat) (ps : List JobPipe) (m : Int) (g : Nat) : List Byte × Bool :=
  let own (p : JobPipe) : Option (List Px) :=
    match e.planOf p.ctx, pipeLine m p with
    | some cp, some o => if p.main ∧ cp.oLo ≤ g ∧ g ≤ cp.oHi then some (o.vals.map (fun ch => ch.getD (g - cp.gLo) (0, false))) else none
    | _, _ => none
  let v := (ps.findSome? own).getD (List.replicate nch (0, false))
  let sel := (List.range nch).filter (masked par.chans)
  (sel.flatMap (fun k => gridSample par (v.getD k (0, false)).1), sel.any (fun k => (v.getD k (0, false)).2))

/-- The LINE record of output line `m`, none where no context has it (R371). -/
def rowRecord (e : PipeEnv) (par : JobParams) (nch : Nat) (cols : List Nat) (ps : List JobPipe) (m : Int) : Option JobRec :=
  match ps.filterMap (fun p => if p.main then pipeLine m p else none) with
  | [] => none
  | o :: rest =>
    let xs := cols.map (rowColumn e par nch ps m)
    let rep := (o :: rest).any OutLine.replaced
    some ⟨cropLine (ofSigned 64 m) o.time (m * e.pitchY) 0 (b2n rep + 2 * b2n (xs.any Prod.snd)) (xs.flatMap Prod.fst), 1, 0⟩

/-! ### The back end of reprocess -/

/-- What lies beyond an edge of a context inside a reprocess job: only another context of the job.
DEDUCED: assumption 36. -/
def jobNbr (ps : List JobPipe) (n : Nbr) : Nbr :=
  match n with
  | .ctx c => if ps.any (fun p => decide (p.ctx = c) && p.main) then .ctx c else .none
  | _ => .none

/-- The labelled lines of a job's context. -/
def jobLines (ps : List JobPipe) (c : Nat) : List LineInfo := match pipeAt ps c with | some p => p.seg.lines | none => []

/-- A pennant of a reprocess job takes the next reprocess number and waits to be journaled and written (R315, R373). -/
def State.jobPen (a : State × Job) (p : Pennant) : State × Job :=
  let n := a.1.penReproSeq
  let j := a.2
  (n.2, { j with recs := j.recs ++ [⟨penBytes { p with seq := n.1 }, 0, 0⟩], firstSeq := if j.firstSeq = 0 then n.1 else j.firstSeq, lastSeq := n.1 })

/-- A defect found by a reprocess job, where the live path would report it (R373). -/
def State.jobFound (a : State × Job) (f : Found) : State × Job :=
  let s := a.1
  let c := f.firstCtx
  let seg := match pipeAt a.2.pipes c with | some p => p.seg | none => initSeg
  let bk := segBankAt seg f.acc.mLast initBank.seg
  let cls := classify bk (features f.acc) f.attr
  if bitAt (actionOf bk cls) 0 then State.jobPen a (foundPennant s.penGrid (jobLines a.2.pipes) c f cls 0) else a

/-- A gap of a reprocess job, clipped to its range (R373): cause 4 for warm-up, else 8. -/
def State.jobGap (c : Nat) (a : State × Job) (g : GapRun) : State × Job :=
  let lo := max g.first a.2.nextM; let hi := min g.last (a.2.hiM - 1)
  if hi < lo then a else State.jobPen a (a.1.gapPennant c { g with first := lo, last := hi, cause := if g.cause = 4 then 4 else 8 })

/-- What the seam merge of a reprocess job hands on. -/
def State.jobSeamOut (a : State × Job) (o : SeamOut) : State × Job :=
  match o with
  | .whole k =>
    if !k.seed then a
    else
      let f := foundOfComp a.1.selfAddr 0 k
      let seg := match pipeAt a.2.pipes f.firstCtx with | some p => p.seg | none => initSeg
      let long := decide ((2 ^ (segBankAt seg k.acc.mLast initBank.seg).streamExp : Nat) < k.acc.mLast - k.acc.mFirst + 1)
      State.jobFound a { f with kind := if long then 2 else 0 }
  | .split k => if !k.seed then a else State.jobFound a (foundOfComp a.1.selfAddr 6 k)
  | _ => a

/-- Take the seam merge's new state and what it hands on. -/
def State.jobSeam (a : State × Job) (r : SeamSt × List SeamOut) : State × Job := r.2.foldl State.jobSeamOut (a.1, { a.2 with seam := r.1 })

/-- One bunting record inside a job. -/
def State.jobBunt (a : State × Job) (b : Bunt) : State × Job :=
  let nbr (e : Nat) : Nbr := match a.1.ctxPlan b.ctx with
    | some cp => jobNbr a.2.pipes (if e = 0 then cp.left else cp.right)
    | none => .none
  State.jobSeam a (seamTake a.1.selfAddr nbr (stripOf (jobLines a.2.pipes b.ctx) b.last) a.2.seam b)

/-- One thing the back end of a job's context hands on (R373). -/
def State.jobSegOut (c : Nat) (a : State × Job) (o : SegOut) : State × Job :=
  match o with
  | .piece k p split => State.jobFound a (foundOfPiece a.1.selfAddr c k p split)
  | .tile f l x y n strip rep sus unc =>
    State.jobPen a (tilePennant a.1.penGrid (jobLines a.2.pipes) c ⟨f, l, x, y, n, strip, rep, sus, unc⟩)
  | .gap r => State.jobGap c a r
  | .bunt b => State.jobBunt a b
  | .stripDone n => State.jobSeam a (splitDue a.1.selfAddr c n a.2.seam)
  | _ => a

/-- The place of a job's context for its back end. -/
def State.jobSegEnv (s : State) (c : Nat) (cp : CtxPlan) (ps : List JobPipe) : SegEnv :=
  { s.segEnv c cp with left := decide (jobNbr ps cp.left ≠ .none), right := decide (jobNbr ps cp.right ≠ .none) }

/-- Put a new back-end state into a job and hand on what it yields. -/
def State.jobSegApply (c : Nat) (a : State × Job) (r : SegSt × List SegOut) : State × Job :=
  match pipeAt a.2.pipes c with
  | none => a
  | some p => r.2.foldl (State.jobSegOut c) (a.1, { a.2 with pipes := putPipe { p with seg := r.1 } a.2.pipes })

/-- One output line through the back end of a job's context (R297). -/
def State.jobLabel (c : Nat) (cp : CtxPlan) (a : State × Job) (o : OutLine) : State × Job :=
  match pipeAt a.2.pipes c with
  | none => a
  | some p =>
    let sb := match o.strip, p.seg.banks with
      | some n, _ => (a.1.jobBank a.2 c n).seg
      | none, (_, b) :: _ => b
      | none, [] => (a.1.jobBank a.2 c 0).seg
    let st := if bankRestarts p.seg sb then modelRestart p.seg else p.seg
    let g := a.1.gridColumn
    let o := { o with colGaps := o.colGaps.map (fun k => ⟨k.first + g, k.last + g, k.cause⟩) }
    State.jobSegApply c a (segLine (a.1.jobSegEnv c cp a.2.pipes) sb (o.vals.map (spanCols cp.gLo cp.oLo cp.oHi)) o st)

/-- Lines `m` on that the ring gives no pixels for, as cause-8 lines (R373); the manual states no time for such a line (assumption 3).
DEDUCED: assumption 36. -/
def State.jobAbsent (c : Nat) (cp : CtxPlan) : Nat → Int → State × Job → State × Job
  | 0, _, a => a
  | n + 1, m, a =>
    let t := a.1.takeFree (2 ^ 64)
    State.jobAbsent c cp n (m + 1) (State.jobLabel c cp (t.2, a.2) (missingLine m 8 t.1 none 0 0 false false))

/-- The W_u lines before the range over which the background model starts (R297). DEDUCED: assumption 36. -/
def State.jobWarm (s : State) (j : Job) (c : Nat) (o : OutLine) : Nat := (s.jobBank j c (o.strip.getD 0)).seg.warmup

/-- The back end of a reprocess job takes one line of a context (R297): the model starts W_u lines before the range where
the ring still holds them, else with the range; lines before the start and past the range are dropped. -/
def State.jobTake (c : Nat) (cp : CtxPlan) (a : State × Job) (o : OutLine) : State × Job :=
  match pipeAt a.2.pipes c with
  | none => a
  | some p =>
    if a.2.hiM ≤ o.m then a
    else match p.seg.prevM with
    | some _ => State.jobLabel c cp a o
    | none =>
      if o.m < a.2.nextM ∧ o.m ≠ a.2.nextM - (a.1.jobWarm a.2 c o : Nat) then a
      else State.jobLabel c cp (State.jobAbsent c cp (o.m - a.2.nextM).toNat a.2.nextM a) o

/-- Every line that waits in the pipes of a reprocess job goes through its back end. -/
def State.jobLabelAll (a : State × Job) : State × Job :=
  a.2.pipes.foldl (fun a p =>
    match a.1.ctxPlan p.ctx with
    | none => a
    | some cp =>
      let a := (a.1, { a.2 with pipes := putPipe { ((pipeAt a.2.pipes p.ctx).getD p) with outq := [] } a.2.pipes })
      if p.main then p.outq.foldl (State.jobTake p.ctx cp) a else a) a

/-- The end of a reprocess range (R373): lines the ring did not give, then every open blob, gap and strip closes.
DEDUCED: assumption 36. -/
def State.jobClose (a : State × Job) : State × Job :=
  let a := a.2.pipes.foldl (fun a p =>
    match a.1.ctxPlan p.ctx, pipeAt a.2.pipes p.ctx with
    | some cp, some q =>
      if !p.main then a
      else
        let m := match q.seg.prevM with | some m => m + 1 | none => a.2.nextM
        State.jobAbsent p.ctx cp (a.2.hiM - m).toNat m a
    | _, _ => a) a
  a.2.pipes.foldl (fun a p =>
    match a.1.ctxPlan p.ctx, pipeAt a.2.pipes p.ctx with
    | some cp, some q =>
      if !p.main then a
      else
        let env := a.1.jobSegEnv p.ctx cp a.2.pipes
        let c := closeAll env false q.seg
        let g := gapsEnd c.1
        let e := stripEnd env g.1
        State.jobSegApply p.ctx a (e.1, c.2 ++ g.2 ++ e.2 ++ progressOuts env a.2.hiM [])
    | _, _ => a) a

end Sys2Proof.Machine
end

