-- ==== Sys2Proof/Machine/Jobs.lean ====
section
/-! DEFINITION. Background jobs as commands drive them (R368 to R383, R472 to R480): opening, 4 KB units, suspension,
pre-emption, and the descriptors EXPORT, REPROCESS, RESUME and CANCEL. -/

namespace Sys2Proof.Machine

/-! ### Opening -/

/-- A pipe before its first line; the tracking state starts where the live path stood, or at T_I under a slot (R153). -/
def State.newPipe (s : State) (j : Job) (main : Bool) (c : Nat) (first : Option RingLine) : JobPipe :=
  let ti (strip : Nat) : List Int := List.replicate 4 ((s.jobBank j c strip).front.dark.ti * 256)
  let t28 : List Int := match first with
    | none => []
    | some r =>
      if j.par.bankSel = 0 then (((s.ctx c).trackLog.find? (fun e => decide (e.1 = r.abs))).map Prod.snd).getD (ti r.strip) else ti r.strip
  { ctx := c, main := main, fe := { initFe with linkStart := false, t28 := t28 }, geo := { initGeo with linkStart := false }, seg := initSeg, outq := [] }

/-- The stored lines that a pipe reads: those in `[lo, hi)` with the lines around them that its filters reach.
DEDUCED: assumption 36. -/
def State.pipeLines (s : State) (c : Nat) (look : Nat) (lo hi : Int) : List RingLine :=
  match s.linesIn c lo hi with
  | [] => []
  | r :: rest =>
    let a := (r :: rest).foldl (fun m q => min m q.abs) r.abs; let b := (r :: rest).foldl (fun m q => max m q.abs) r.abs
    s.ring.lines.filter (fun q => decide (q.ctx = c ∧ a ≤ q.abs + (64 + look + 16) ∧ q.abs ≤ b + look + 16))

/-- Lines of a pipe missing between two stored ones enter as gaps: cause 2 of R371 for a crop, 8 of R318 for reprocess. -/
def pipeItems (c cause : Nat) : Option Nat → List RingLine → List (Int × JobItem)
  | _, [] => []
  | prev, r :: rest =>
    let hole : List (Int × JobItem) := match prev with
      | some p => if p + 1 < r.abs then [(r.y, JobItem.absent c (p + 1) (r.abs - 1) cause)] else []
      | none => []
    hole ++ (r.y, JobItem.read c r.strip r.idx r.abs) :: pipeItems c cause (some r.abs) rest

/-- The contexts whose blends a crop's contexts need (R370): partners outside its mask. -/
def State.jobPartners (s : State) (cs : List Nat) : List Nat :=
  s.liveCtxs.filter (fun c => !cs.contains c && cs.any (fun d => match s.ctxPlan d with
    | some cp => cp.bands.any (fun b => decide (b.partner = c) && b.owner)
    | none => false))

/-- Ceiling of a division by a pitch. -/
def ceilDiv (y : Int) (p : Nat) : Int := -((-y) / (p : Int))

/-- A crop in corrected or display form, or a reprocess job, opens (R369, R372, R373): its pipes and the lines they read in
down-web order. -/
def State.openPipes (s : State) (j : Job) : State × Job :=
  let cs := s.jobCtxs j
  let repro := decide (j.par.kind = .reprocess)
  let mLo := ceilDiv j.par.yLo s.pitchY; let mHi := ceilDiv j.par.yHi s.pitchY
  let warm (c : Nat) : Nat := (s.jobBank j c (((s.linesIn c j.par.yLo j.par.yHi).head?.map RingLine.strip).getD 0)).seg.warmup
  let all := cs ++ (if repro then [] else s.jobPartners cs)
  let per (c : Nat) : List RingLine := match s.ctxPlan c with
    | some cp => s.pipeLines c cp.look (j.par.yLo - (if repro then warm c * s.pitchY else 0 : Nat)) j.par.yHi
    | none => []
  let pipes := all.map (fun c => s.newPipe j (cs.contains c) c (per c).head?)
  let items := sortKey (fun e => e.1) (all.flatMap (fun c => pipeItems c (if repro then 8 else 2) none (per c)))
  let j := { j with opened := true, pipes := pipes, todo := items.map Prod.snd ++ [.drain, .finish], nextM := mLo, hiM := mHi }
  if repro then (s, j)
  else
    let cols := s.gridCols j
    let bk := (s.jobBank j (cs.headD 0) (((s.linesIn (cs.headD 0) j.par.yLo j.par.yHi).head?.map RingLine.strip).getD 0)).front
    let n := ((List.range (chanCount bk)).filter (masked j.par.chans)).length
    let depth := if j.par.format = 3 then 8 else 16
    let f := s.takeFree (2 ^ 168)
    let cells := leBytes 16 (f.1 / 2 ^ 40)
    let first : Int := f.2.gridColumn + (cols.headD 0)
    let sec := sectionRecord 0xFF n depth (bitsAt f.1 4 4) (bitsAt f.1 0 4) cols.length first cells (bitsAt f.1 8 32)
    (f.2, { j with sect := sec, recs := [⟨jobRecord j false, 0, 0⟩, ⟨sec, 0, 0⟩] })

/-- A raw or compressed crop opens (R369, R372). -/
def State.openRaw (s : State) (j : Job) : Job :=
  let per (c : Nat) : List JobItem :=
    let gone := s.ring.gone.filter (fun g => decide (j.par.yLo ≤ g.y ∧ g.y < j.par.yHi))
    JobItem.sect c :: ringItems c (s.linesIn c j.par.yLo j.par.yHi) gone
  { j with opened := true, todo := (s.jobCtxs j).flatMap per ++ [.finish], recs := [⟨jobRecord j false, 0, 0⟩] }

/-- A job opens at its first unit. Where the plan names no mosaic or row width for grid output, R371 states no value for
those SECTION fields (assumption 3). -/
def State.jobOpen (s : State) (j : Job) : State × Job :=
  if j.par.kind = .reprocess ∨ j.par.format % 2 = 1 then s.openPipes j else (s, s.openRaw j)

/-! ### Lines -/

/-- Absent lines join the run before them or start one (R372). A run that they do not continue is written first.
DEDUCED: assumption 35. -/
def gapJoin (c cause : Nat) (first last : Int) (n : Nat) (j : Job) : Job :=
  let flush (g : JobGap) : JobRec := ⟨gapRecord g, 0, (g.last - g.first + 1).toNat⟩
  match j.runs.find? (fun g => decide (g.ctx = c)) with
  | some g =>
    if g.cause = cause ∧ (g.last + 1 = first ∨ (g.last = 2 ^ 32 - 1 ∧ first = 0)) then
      { j with runs := j.runs.map (fun q => if q.ctx = c then { q with last := if g.last + 1 = first then last else g.last + n } else q) }
    else { j with runs := j.runs.filter (fun q => decide (q.ctx ≠ c)) ++ [⟨c, cause, first, last⟩], recs := j.recs ++ [flush g] }
  | none => { j with runs := j.runs ++ [⟨c, cause, first, last⟩] }

/-- The runs of contexts that a test names are written (R372). DEDUCED: assumption 35. -/
def gapFlush (q : JobGap → Bool) (j : Job) : Job :=
  let rec_ (g : JobGap) : JobRec := ⟨gapRecord { g with last := g.last % 2 ^ 32 }, 0, (g.last - g.first + 1).toNat⟩
  { j with runs := j.runs.filter (fun g => !q g), recs := j.recs ++ (j.runs.filter q).map rec_ }

/-- The engine that a job belongs to for its events (R387): that of its lowest context. -/
def State.jobEngine (s : State) (j : Job) : Nat := (((s.jobCtxs j).head?.bind s.ctxPlan).map CtxPlan.engine).getD 0

/-- A line that was reclaimed before or while the job read it (R374). -/
def State.jobOverrun (s : State) (j : Job) : State := (s.bump cmpCntJobOverrunF 1).fire (168 + 8 * s.jobEngine j + 7)

/-- The records of a stored line in a raw or compressed crop (R371, R372). DEDUCED: assumption 35. -/
def State.lineRecs (s : State) (j : Job) (r : RingLine) : Job :=
  let j := gapFlush (fun g => decide (g.ctx = r.ctx)) j
  if j.par.format = 2 then
    let named := j.tables.contains (r.ctx, r.table)
    let k := s.coder r.ctx
    let t := ((k.kept ++ [k.table]).find? (fun t => decide (t.id = r.table))).getD k.table
    let pre : List JobRec := if named then [] else [⟨tableRec r.ctx t, 0, 0⟩]
    { j with tables := if named then j.tables else (r.ctx, r.table) :: j.tables, recs := j.recs ++ pre ++ [⟨clineRec r.record, 1, 0⟩] }
  else
    let c := s.rawRange j r.ctx
    { j with recs := j.recs ++ [⟨cropLine r.idx r.time r.y r.tag (b2n r.replaced) (rawSamples r.rows j.par.chans c.1 c.2), 1, 0⟩] }

/-- Grid rows up to the first that a pipe has not reached (R372): each is written, its absent contexts joining their runs.
DEDUCED: assumption 35. -/
def State.gridRows (s : State) (final : Bool) : Nat → Job → Job
  | 0, j => j
  | f + 1, j =>
    if j.hiM ≤ j.nextM ∨ ¬ (final ∨ j.pipes.all (pipePast j.nextM) = true) then j
    else
      let m := j.nextM
      let e := s.pipeEnv j
      let bk := (s.jobBank j ((s.jobCtxs j).headD 0) 0).front
      let mains := j.pipes.filter JobPipe.main
      let nch := mains.foldl (fun n p => match pipeLine m p with | some o => max n o.vals.length | none => n) (chanCount bk)
      let row := rowRecord e j.par nch (s.gridCols j) j.pipes m
      let lost := mains.filter (fun p => (pipeLine m p).isNone)
      let has (g : JobGap) : Bool := mains.any (fun p => decide (p.ctx = g.ctx) && (pipeLine m p).isSome)
      let j := gapFlush has j
      let j := lost.foldl (fun j p => gapJoin p.ctx (pipeCause m p) m m 1 j) j
      let j := match row with | some r => { j with recs := j.recs ++ [r] } | none => j
      let drop (p : JobPipe) : JobPipe := { p with outq := p.outq.filter (fun o => decide (m < o.m)) }
      State.gridRows s final f { j with nextM := m + 1, pipes := j.pipes.map drop }

/-- What new lines in the pipes lead to: rows of a crop, or labelled lines of reprocess. -/
def State.pipesOn (s : State) (final : Bool) (j : Job) : State × Job :=
  if j.par.kind = .reprocess then State.jobLabelAll (s, j)
  else (s, s.gridRows final (j.pipes.foldl (fun n p => n + p.outq.length) 1 + (if final then (j.hiM - j.nextM).toNat else 0)) j)

/-- One item of a job that works through pipes. -/
def State.pipeItem (s : State) (j : Job) (it : JobItem) : State × Job :=
  let repro := decide (j.par.kind = .reprocess)
  match it with
  | .read c strip idx abs =>
    match s.ring.lines.find? (fun r => decide (r.ctx = c ∧ r.strip = strip ∧ r.idx = idx)) with
    | none => ((s.jobOverrun j), { j with pipes := pipeGap c abs abs (if repro then 8 else 4) j.pipes })
    | some r =>
      if r.poisoned then (s, { j with pipes := pipeGap c abs abs (if repro then 8 else 3) j.pipes })
      else
        let lines := ((s.ctxPlan c).map CtxPlan.lines).getD 0
        let ln := { camOfRing (ringLast lines s.ring.lines r) r with gaps := [] }
        s.pipesOn false { j with pipes := pipeFeed (s.pipeEnv j) r.y ln c j.pipes, consumed := if repro then j.consumed + 1 else j.consumed }
  | .absent c first last cause => (s, { j with pipes := pipeGap c first last cause j.pipes })
  | .drain =>
    let r := s.pipesOn true { j with pipes := pipesFlush (s.pipeEnv j) true j.pipes }
    if repro then State.jobClose r else r
  | _ => (s, j)

/-- One item of a raw or compressed crop. -/
def State.rawItem (s : State) (j : Job) (it : JobItem) : State × Job :=
  match it with
  | .read c strip idx _ =>
    match s.ring.lines.find? (fun r => decide (r.ctx = c ∧ r.strip = strip ∧ r.idx = idx)) with
    | none => (s.jobOverrun j, gapJoin c 4 idx idx 1 j)
    | some r => if r.poisoned then (s, gapJoin c 3 idx idx 1 j) else (s, s.lineRecs j r)
  | .absent c first last cause => (s, gapJoin c cause first (first + ((last + 2 ^ 32 - first) % 2 ^ 32 : Nat)) ((last + 2 ^ 32 - first) % 2 ^ 32 + 1) j)
  | .sect c =>
    let sec := s.ctxSection j c
    let j := gapFlush (fun _ => true) j
    (s, { j with sect := sec, recs := j.recs ++ [⟨sec, 0, 0⟩] })
  | _ => (s, j)

/-- The job works on its next item; END is formed once every other record is written (R372). -/
def State.jobItem (s : State) (j : Job) : State × Job :=
  match j.todo with
  | [] => (s, j)
  | .finish :: rest =>
    if !j.runs.isEmpty then (s, gapFlush (fun _ => true) j)
    else if j.par.kind = .reprocess then (s, { j with todo := rest })
    else (s, { j with todo := rest, recs := [⟨endRecord j 0, 0, 0⟩] })
  | it :: rest =>
    let j := { j with todo := rest }
    if j.par.kind = .reprocess ∨ j.par.format % 2 = 1 then s.pipeItem j it else s.rawItem j it

/-! ### Filling a unit -/

/-- Why a unit's filling stopped. -/
inductive FillEnd where
  | room | full | done
  deriving DecidableEq, Repr

/-- A record has been written whole: its lines and bytes count (R376). -/
def recDone (j : Job) : Job :=
  { j with carry := [], produced := j.produced + j.cur.bytes.length, consumed := j.consumed + j.cur.lines + j.cur.gaps,
           exported := j.exported + j.cur.lines, gapLines := j.gapLines + j.cur.gaps,
           fresh := j.fresh && (decide (leAt j.cur.bytes 0 1 ≤ 2) || decide (leAt j.cur.bytes 0 1 = 5)), cur := ⟨[], 0, 0⟩ }

/-- Is a record the END record? -/
def isEnd (r : JobRec) : Bool := decide (leAt r.bytes 0 1 = 7)

/-- Fill up to `room` bytes with whole records as far as the buffer holds them (R376, R380, R476). -/
def State.fill : Nat → Nat → List Byte → State × Job → State × Job × List Byte × FillEnd
  | 0, _, buf, (s, j) => (s, j, buf, .room)
  | f + 1, room, buf, (s, j) =>
    if room = 0 then (s, j, buf, .room)
    else if !j.carry.isEmpty then
      let n := min room j.carry.length
      let j' := { j with carry := j.carry.drop n, outPos := j.outPos + n }
      let j'' := if j'.carry.isEmpty then recDone j' else j'
      State.fill f (room - n) (buf ++ j.carry.take n) (s, j'')
    else
      match j.recs with
      | r :: rest =>
        let need := r.bytes.length + (if j.auto ∧ ¬ (isEnd r = true) then 40 else 0)
        if j.outLen < j.outPos + need then (s, j, buf, .full)
        else State.fill f room buf (s, { j with recs := rest, cur := r, carry := r.bytes })
      | [] => if j.todo.isEmpty then (s, j, buf, .done) else State.fill f room buf (s.jobItem j)

/-- Steps enough to fill a unit: every item and record takes one, and a byte at least one of a piece. -/
def fillFuel (j : Job) : Nat := 3 * (4096 + j.todo.length + j.recs.length + j.pipes.length) + (j.hiM - j.nextM).toNat + 16

/-- A record that a fault cut off is written again whole (R473). -/
def recBack (j : Job) : Job :=
  if j.carry.isEmpty then j
  else { j with recs := j.cur :: j.recs, outPos := j.outPos - (j.cur.bytes.length - j.carry.length), carry := [], cur := ⟨[], 0, 0⟩ }

/-! ### Ends of a job -/

/-- The result of a job's descriptor (R557). -/
def jobResult (j : Job) : List Byte :=
  leBytes 8 j.consumed ++ leBytes 8 j.produced ++ leBytes 1 j.fault ++ leBytes 1 (if j.fault = 0 then 0 else 32 * j.sess + j.faultWin) ++ leBytes 6 0 ++
    leBytes 8 j.faultOff ++ leBytes 8 j.firstSeq ++ leBytes 8 j.lastSeq

/-- The context record and its JOB_CHECKPOINT (R479, R484, R485). The record's address in the working space is a free value
(assumption 3). DEDUCED: assumption 113. -/
def State.checkpoint (s : State) (j : Job) : State :=
  let a := s.takeFree (2 ^ 40)
  a.2.journal 0x04 j.sess 0xFF [j.id, j.consumed, j.produced, a.1, j.out + j.outPos] []

/-- A job of the host suspends with its counts (R376, R472). -/
def State.jobSuspend (s : State) (j : Job) (status : Nat) : State :=
  let s := (s.setJob { j with phase := .suspended }).checkpoint j
  (s.finishDesc j.sess j.desc status (jobResult j)).fire (168 + 8 * s.jobEngine j + 6)

/-- A job of the host ends with a status. -/
def State.jobEnd (s : State) (j : Job) (status : Nat) : State :=
  let s := s.fireIf (decide (status = 0)) (168 + 8 * s.jobEngine j + 5)
  ((s.checkpoint j).finishDesc j.sess j.desc status (jobResult j)).dropJob j.id

/-- An automatic export has written END: its slot goes to the host (R380). -/
def State.autoEnd (s : State) (j : Job) : State :=
  let h := s.hring j.sess j.ring
  let s := (s.setHring j.sess j.ring { h with prod := h.prod + 1 }).mirror j.sess j.ring
  ((s.checkpoint j).fire (168 + 8 * s.jobEngine j + 5)).dropJob j.id

/-- A full slot ends an automatic export with END of status 2 (R380). -/
def State.autoOverflow (s : State) (j : Job) : State :=
  let e := endRecord j 2
  let w := s.hostWrite (j.out + j.outPos) e 3 0
  match w.2 with
  | some _ => w.1.setJob { j with phase := .ringWait, recs := [⟨e, 0, 0⟩], todo := [] }
  | none => w.1.autoEnd { j with produced := j.produced + 40, outPos := j.outPos + 40 }

/-! ### Units -/

/-- One unit of a crop (R376, R472, R473, R476). -/
def State.cropUnit (s : State) (j : Job) : State :=
  let start := j.out + j.outPos
  let who := if j.auto then 3 else 0
  let r := State.fill (fillFuel j) 4096 [] (s, j)
  let sp := r.1.spans (devSess start) (devWin start) (devOff start) r.2.2.1.length true
  match sp.2 with
  | some (c, o) =>
    let q := State.fill (fillFuel j) (o - devOff start) [] (s, j)
    let w := q.1.hostWrite start r.2.2.1 who j.id
    let k := recBack q.2.1
    if j.auto then w.1.setJob { k with phase := .ringWait }
    else w.1.jobSuspend { k with fault := c, faultWin := devWin start, faultOff := o } 7
  | none =>
    let w := r.1.hostWrite start r.2.2.1 who j.id
    let k := { r.2.1 with units := r.2.1.units + 1, phase := .running }
    match r.2.2.2 with
    | .done => if j.auto then w.1.autoEnd k else w.1.jobEnd k 0
    | .full =>
      if j.auto then w.1.autoOverflow k
      else if k.fresh then w.1.jobEnd k 9
      else w.1.jobSuspend k 8
    | .room =>
      let s := w.1.setJob k
      if k.units % 256 = 0 then s.checkpoint k else s

/-- The number of a pennant record. DEDUCED: assumption 113. -/
def recSeq (r : JobRec) : Nat := leAt r.bytes 0 8

/-- The number stands in a durable PENNANTS entry of ring `ring` (R484). DEDUCED: assumption 113. -/
def State.jobDurable (s : State) (ring : Nat) (r : JobRec) : Bool :=
  s.jnl.entries.any (fun e => decide (e.ty = 6 ∧ e.durable = true ∧ natAt e.fields 0 = ring ∧
    leAt e.payload 0 8 ≤ recSeq r ∧ recSeq r < leAt e.payload 0 8 + natAt e.fields 2))

/-- Journal the formed pennants of a reprocess job that no entry holds (R482, R484). -/
def State.jobJournal (s : State) (j : Job) : Nat → State × Job
  | 0 => (s, j)
  | f + 1 =>
    match (j.recs.drop j.logged).take 63 with
    | [] => (s, j)
    | p :: ps =>
      let h := s.hring j.sess j.ring
      let slot := slotOf (h.prod + j.logged) h.entries
      let s := s.journal 0x06 0xFF 0xFF [j.ring, slot, ps.length + 1] ((p :: ps).flatMap JobRec.bytes)
      s.jobJournal { j with logged := j.logged + ps.length + 1 } f

/-- Items of a reprocess job until a unit's 64 pennants are formed. -/
def State.reproItems : Nat → State × Job → State × Job
  | 0, a => a
  | f + 1, (s, j) => if 64 ≤ j.recs.length ∨ j.todo.isEmpty then (s, j) else State.reproItems f (s.jobItem j)

/-- One unit of a reprocess job (R373, R472, R484): its lines are read until a unit of 64 pennants is formed, and the durable
ones are written where the ring has room. -/
def State.reproUnit (s : State) (j : Job) : State :=
  let a := State.reproItems (j.todo.length + 4) (s, j)
  let b := a.1.jobJournal a.2 ((a.2.recs.length - a.2.logged) / 63 + 1)
  let s := b.1; let j := b.2
  let h := s.hring j.sess j.ring
  let room := min (min 64 h.free) (h.entries - slotOf h.prod h.entries)
  let out := (j.recs.take room).takeWhile (s.jobDurable j.ring)
  let at' := h.addr + 64 * slotOf h.prod h.entries
  let w := if out.isEmpty then (s, none) else s.hostWrite at' (out.flatMap JobRec.bytes) 2 j.id
  match w.2 with
  | some (c, o) => w.1.jobSuspend { j with fault := c, faultWin := devWin at', faultOff := o } 7
  | none =>
    let n := out.length
    let j := { j with recs := j.recs.drop n, logged := j.logged - n, produced := j.produced + 64 * n, units := j.units + 1, phase := .running }
    let s := if n = 0 then w.1 else (w.1.setHring j.sess j.ring { w.1.hring j.sess j.ring with prod := h.prod + n }).mirror j.sess j.ring
    if j.todo.isEmpty ∧ j.recs.isEmpty then s.jobEnd j 0
    else
      let s := s.setJob j
      if j.units % 256 = 0 then s.checkpoint j else s

/-- The free slot of its ring that an automatic export takes (R380, R381). -/
def State.autoSlot (s : State) (j : Job) : Option Job :=
  let h := s.hring j.sess j.ring
  if h.free = 0 then none else some { j with out := h.addr + h.unit * slotOf h.prod h.entries, outLen := h.unit, outPos := 0 }

/-- Jobs on the running set (R383). -/
def State.running (s : State) : Nat := (s.jobs.filter (fun j => decide (j.phase = .running))).length

/-- A job takes its place on the running set, at most 8 at a time (R383); an automatic export needs a slot (R381). -/
def State.jobStart (s : State) (j : Job) : Option (State × Job) :=
  if j.phase = .running then some (s, j)
  else if 8 ≤ s.running ∨ j.phase = .suspended then none
  else
    let k := if j.auto ∧ j.outLen = 0 then s.autoSlot j else some j
    match k with
    | none => none
    | some j => if j.opened ∨ j.par.kind = .check then some (s, { j with phase := .running })
      else let r := s.jobOpen j; some (r.1, { r.2 with phase := .running })

/-- The bytes of host memory that a job writes, as device addresses: its output buffer, or its reprocess ring. -/
def State.jobRange (s : State) (j : Job) : Nat × Nat :=
  match j.par.kind with
  | .check => (0, 0)
  | .reprocess => let h := s.hring j.sess j.ring; (h.addr, h.addr + h.unit * h.entries)
  | _ => (j.out, j.out + j.outLen)

/-- Another running job writes into the bytes that this one writes, which R375 leaves undefined.
DEDUCED: assumption 5. -/
def State.jobOverlaps (s : State) (j : Job) : Bool :=
  let r := s.jobRange j
  s.jobs.any (fun x =>
    let q := s.jobRange x
    decide (x.id ≠ j.id ∧ x.phase = .running ∧ r.1 < r.2 ∧ q.1 < q.2 ∧ r.1 < q.2 ∧ q.1 < r.2))

/-- JOB_UNIT (R356, R383, R476): a job that has its turn advances by one unit. -/
def execJobUnit (job : Nat) (s : State) : Host.Outcome State Fault Refusal :=
  match s.job job with
  | none => .next s
  | some j =>
    if (s.pln.plan.isNone ∧ j.par.kind ≠ .check) ∨ (j.sess < 4 ∧ s.flag (hssSessionResumable j.sess) = true) then .next s
    else match s.jobStart j with
    | none => .next (if j.auto ∧ j.phase = .queued then s.setJob { j with phase := .ringWait } else s)
    | some (s, j) =>
      if s.jobOverlaps j then .fault (.undefinedBehaviour .jobOverlap)
      else .next (match j.par.kind with
        | .check => s.checkUnit j
        | .reprocess => s.reproUnit j
        | _ => s.cropUnit j)

/-- JOB_PREEMPT (R478): the work since the last unit boundary is discarded, which here is none, since a unit is one command;
the job goes to the end of the rotation (R383). DEDUCED: assumption 36. -/
def execJobPreempt (job : Nat) (s : State) : Host.Outcome State Fault Refusal :=
  match s.job job with
  | none => .next s
  | some j =>
    if j.phase ≠ .running then .next s
    else
      let rest := s.jobs.filter (fun (x : Job) => decide (x.id ≠ job))
      let s := { s with jobs := rest ++ [{ j with phase := .queued }] }
      .next (((s.checkpoint j).bump jnlCntPreemptF 1).fire 402)

/-! ### Descriptors -/

/-- The checks on what EXPORT and REPROCESS share (R555): the offset of the first bad parameter.
DEDUCED: assumption 37. -/
def jobParamBad (d : OutDesc) (repro : Bool) : Option Nat :=
  let out := d.par 0x40 8; let len := d.par 0x48 8
  if ¬ repro ∧ 3 < d.par 0x10 1 then some 0x10
  else if ¬ repro ∧ 16 ≤ d.par 0x11 1 then some 0x11
  else if 4096 ≤ d.par 0x12 2 then some 0x12
  else if 4 < d.par 0x14 1 then some 0x14
  else if d.parInt 0x28 ≤ d.parInt 0x20 then some 0x20
  else if ¬ repro ∧ bitAt (d.par 0x15 1) 0 = false ∧ d.parInt 0x38 ≤ d.parInt 0x30 then some 0x30
  else if ¬ devHost out then some 0x40
  else if ¬ repro ∧ (len % 4096 ≠ 0 ∨ len < 4096 ∨ 2 ^ 40 < len) then some 0x48
  else if repro ∧ (d.par 0x48 4 < 2 ^ 10 ∨ 2 ^ 24 < d.par 0x48 4 ∨ 2 ^ (Nat.log2 (d.par 0x48 4)) ≠ d.par 0x48 4) then some 0x48
  else if repro ∧ 7 < d.par 0x4C 1 then some 0x4C
  else none

/-- A job cannot start now (R383, R555): no plan, 256 jobs of the host held, or an empty bank slot. -/
def State.jobBlocked (s : State) (sel : Nat) : Bool :=
  s.pln.plan.isNone || decide (256 ≤ s.hostJobs) || (decide (sel ≠ 0) && !s.pln.slots.any (fun e => decide (e.1 = sel)))

/-- The parameters of R368 from a descriptor (R555). -/
def jobParams (d : OutDesc) (kind : JobKind) : JobParams :=
  { kind := kind, format := if kind = .reprocess then 1 else d.par 0x10 1, chans := d.par 0x11 1, ctxMask := d.par 0x12 2, defaultX := bitAt (d.par 0x15 1) 0,
    bankSel := d.par 0x14 1, yLo := d.parInt 0x20, yHi := d.parInt 0x28, xLo := d.parInt 0x30, xHi := d.parInt 0x38,
    offs := toSigned 16 (d.par 0x16 2), gain := d.par 0x18 2, unit := 0, source := 0, srcLen := 0 }

/-- EXPORT (R368, R555): a crop export is taken on. -/
def execExportJob (s : SessId) (idx : Nat) (st : State) : Host.Outcome State Fault Refusal :=
  .next (st.runDesc s idx 0x30 modesMNA (fun d st =>
    match jobParamBad d false with
    | some o => st.badParam s d o
    | none =>
      if st.jobBlocked (d.par 0x14 1) then st.wrongState s d
      else st.addJob { initJob with
        sess := s, tag := d.tagGen, desc := d.idx, par := jobParams d .crop, out := d.par 0x40 8, outLen := d.par 0x48 8, fresh := false }))

/-- REPROCESS (R373, R555): a reprocess job is taken on with its ring. -/
def execReprocess (s : SessId) (idx : Nat) (st : State) : Host.Outcome State Fault Refusal :=
  .next (st.runDesc s idx 0x31 modesMNA (fun d st =>
    match jobParamBad d true with
    | some o => st.badParam s d o
    | none =>
      let ring := 8 + d.par 0x4C 1
      if st.jobBlocked (d.par 0x14 1) ∨ st.jobs.any (fun j => decide (j.sess = s ∧ j.ring = ring ∧ j.par.kind = .reprocess)) then st.wrongState s d
      else
        let st := st.setHring s ring { initHRing with addr := d.par 0x40 8, entries := d.par 0x48 4, unit := 64 }
        st.addJob { initJob with sess := s, tag := d.tagGen, desc := d.idx, par := jobParams d .reprocess, ring := ring }))

/-- The job that a tag and generation name in a session. -/
def State.jobOf (s : State) (n tag : Nat) : Option Job := s.jobs.find? (fun j => decide (j.sess = n ∧ j.tag = tag) && !j.auto)

/-- The records a resumed job writes first (R377): JOB with CONTINUED, the SECTION in progress, and the tables that the next
lines name. DEDUCED: assumption 113. -/
def State.resumeRecs (s : State) (j : Job) : Job :=
  let pend := j.recs.filter (fun r => decide (1 < leAt r.bytes 0 1))
  let pend := match pend with
    | r :: rest => if leAt r.bytes 0 8 = leAt j.sect 0 8 ∧ r.bytes = j.sect then rest else r :: rest
    | [] => []
  let c := leAt j.sect 8 1
  let k := s.coder c
  let tabs : List JobRec × List (Nat × Nat) := match pend with
    | r :: _ =>
      if leAt r.bytes 0 1 = 6 then
        let id := leAt r.bytes 0x28 4
        let t := ((k.kept ++ [k.table]).find? (fun t => decide (t.id = id))).getD k.table
        ([⟨tableRec c t, 0, 0⟩], [(c, id)])
      else if leAt r.bytes 0 1 = 5 then ([], [(c, leAt r.bytes 8 4)])
      else ([], [])
    | [] => ([], [])
  let head : List JobRec := ⟨jobRecord j true, 0, 0⟩ :: (if j.sect.isEmpty then [] else [⟨j.sect, 0, 0⟩])
  { j with recs := head ++ tabs.1 ++ pend, tables := tabs.2 }

/-- RESUME (R377, R378, R555): a suspended job goes on in a new buffer, or from its next output address.
DEDUCED: assumption 113. -/
def execResume (s : SessId) (idx : Nat) (st : State) : Host.Outcome State Fault Refusal :=
  .next (st.runDesc s idx 0x32 modesMNA (fun d st =>
    let out := d.par 0x18 8; let len := d.par 0x20 8
    match st.jobOf s (d.par 0x10 2) with
    | none => st.finishDesc s d.idx 14 []
    | some j =>
      if j.phase ≠ .suspended then st.wrongState s d
      else
        let k := { j with desc := d.idx, phase := .queued, units := 0, fault := 0, faultWin := 0, faultOff := 0 }
        if j.par.kind ≠ .crop then st.setJob k
        else if out ≠ 0 ∧ ¬ devHost out then st.badParam s d 0x18
        else if len % 4096 ≠ 0 ∨ len < 4096 ∨ 2 ^ 40 < len then st.badParam s d 0x20
        else st.setJob { (st.resumeRecs k) with out := if out = 0 then j.out + j.outPos else out, outLen := len, outPos := 0, fresh := true }))

/-- CANCEL (R378, R555): END with status 1 where room remains; the job's own descriptor, where it is outstanding, completes
with status 10. -/
def execCancel (s : SessId) (idx : Nat) (st : State) : Host.Outcome State Fault Refusal :=
  .next (st.runDesc s idx 0x33 modesAll (fun d st =>
    match st.jobOf s (d.par 0x10 2) with
    | none => st.finishDesc s d.idx 14 []
    | some j =>
      let j := recBack j
      let room := decide (j.par.kind = .crop ∧ j.opened = true ∧ j.outPos + 40 ≤ j.outLen)
      let st := if room then (st.hostWrite (j.out + j.outPos) (endRecord j 1) 0 j.id).1 else st
      let k := if room then { j with produced := j.produced + 40 } else j
      let st := if j.phase = .suspended then st else st.finishDesc s j.desc 10 (jobResult k)
      (st.dropJob j.id).doneDesc s d (jobResult k)))

end Sys2Proof.Machine
end

