-- ==== Sys2Proof/Machine/Journal.lean ====
section
/-! DEFINITION. The work journal as commands drive it (R481 to R499): durability, reclaiming, the loss of copies, replay, catch-up
after a lost slice. -/

namespace Sys2Proof.Machine

/-! ### Reclaiming -/

/-- Tag and generation that a DESC or COMPLETION entry stands for. -/
def JEntry.tagGen (e : JEntry) : Nat := leAt e.payload (if e.ty = 1 then 2 else 0) 2

/-- The number of the last pennant of a PENNANTS entry. -/
def JEntry.lastSeq (e : JEntry) : Nat := leAt e.payload 0 8 + natAt e.fields 2 - 1

/-- Every pennant of a PENNANTS entry is acknowledged (R487); in datagram delivery, where nothing is acknowledged, sent. -/
def State.penAcked (s : State) (e : JEntry) : Bool :=
  s.jnl.entries.any (fun a => decide (a.ty = 7 ∧ natAt a.fields 0 = natAt e.fields 0 ∧ e.lastSeq ≤ natAt a.fields 1) && a.durable) ||
    (s.flag penStatusDelivery && decide (natAt e.fields 0 = 3 ∧ e.lastSeq ≤ s.get64 penSeqLastLo))

/-- An entry is no longer needed (R487); entries without a rule there are not needed once durable.
DEDUCED: assumption 38. -/
def State.entryDead (s : State) (e : JEntry) : Bool :=
  let later (q : JEntry → Bool) : Bool := s.jnl.entries.any (fun a => decide (e.num < a.num) && a.durable && q a)
  e.durable && (match e.ty with
    | 1 => later (fun a => decide (a.ty = 3 ∧ a.sess = e.sess ∧ natAt a.fields 0 = e.tagGen))
    | 2 => later (fun a => decide (a.ty = 3 ∧ a.sess = e.sess ∧ natAt a.fields 0 = e.tagGen))
    | 4 => later (fun a => decide (a.ty = 4 ∧ natAt a.fields 0 = natAt e.fields 0)) || !s.jobs.any (fun j => decide (j.id = natAt e.fields 0))
    | 5 => later (fun a => decide (a.ty = 5 ∧ a.ctx = e.ctx ∧ natAt a.fields 4 ≠ 0))
    | 6 => s.penAcked e
    | _ => true)

/-- The module reclaims entries from the log's oldest end (R487, R488). DEDUCED: assumption 38. -/
def State.jnlReclaim (s : State) : State :=
  let out := s.jnl.entries.takeWhile s.entryDead
  if out.isEmpty then s
  else
    let freed := (out.map (fun e => entrySize e.payload)).foldl (· + ·) 0
    ({ s with jnl := { s.jnl with entries := s.jnl.entries.drop out.length } }).jnlSpace (s.jnl.freeBytes + freed)

/-! ### Durability -/

/-- Work that waited on an entry goes on (R484): its descriptor may start, its completion may be written.
DEDUCED: assumption 38. -/
def State.entryReleased (s : State) (e : JEntry) : State :=
  if e.ty = 1 ∧ e.sess < 4 then
    let ss := s.session e.sess
    let slot := natAt e.fields 3
    let n := (s.hring e.sess 0).entries
    s.setSession e.sess { ss with descs := ss.descs.map (fun d => if d.bytes = e.payload ∧ slotOf d.idx n = slot then { d with durable := true } else d) }
  else if e.ty = 2 ∧ e.sess < 4 then
    let ss := s.session e.sess
    match ss.waitCpl.find? (fun w => decide (w.1 = e.num)) with
    | none => s
    | some w =>
      let ss := { ss with waitCpl := ss.waitCpl.filter (fun v => decide (v.1 ≠ e.num)), heldCpl := ss.heldCpl ++ [w.2] }
      (s.setSession e.sess ss).flushCpl e.sess 257
  else s

/-- Entries up to number `n` stand in every copy without error (R483, R502). -/
def State.jnlDurable (s : State) (n : Nat) : State :=
  let now := s.jnl.entries.filter (fun e => decide (e.num ≤ n) && !e.durable)
  match now.getLast? with
  | none => s
  | some l =>
    let mark (e : JEntry) : JEntry := if e.num ≤ n then { e with durable := true } else e
    let s := { s with jnl := { s.jnl with entries := s.jnl.entries.map mark } }
    (now.foldl State.entryReleased (s.set64 jnlEntryLo l.num)).jnlReclaim

/-- JOURNAL_DURABLE (R483, R502). DEDUCED: assumption 38. -/
def execJournalDurable (n : Nat) (s : State) : Host.Outcome State Fault Refusal := .next (s.jnlDurable n)

/-! ### Copies -/

/-- The last output line of a context's last STRIP entry (R486). DEDUCED: assumption 39. -/
def State.lastStripLine (s : State) (c : Nat) : Option Int :=
  ((s.jnl.entries.filter (fun e => decide (e.ty = 5 ∧ e.ctx = c))).getLast?).map (fun e => toSigned 64 (natAt e.fields 2))

/-- The journal's last copy is lost (R490): every accepted descriptor fails, the lines that no later fault can replay are
gaps of cause 8, and a new journal starts. DEDUCED: assumption 39. -/
def State.journalLost (s : State) : State :=
  let gaps := s.liveCtxs.filterMap (fun c =>
    match s.lastStripLine c, (s.ctx c).seg.prevM with
    | some a, some b => if s.inspected c then some (c, a + 1, b) else none
    | _, _ => none)
  let s := ((s.setFld jnlStatusLost 1).setFld jnlStatusSingle 0).fire 405
  let js : List Job := s.jobs.map (fun (j : Job) => { j with logged := 0 })
  let s := ({ s with jnl := { s.jnl with entries := [] }, pen := { s.pen with gathered := 0 }, jobs := js }).jnlSpace 2147483648
  let s := (List.range 4).foldl (fun s n =>
    let ss := s.session n
    let s := s.setSession n { ss with waitCpl := [] }
    let s := ss.waitCpl.foldl (fun (s : State) (w : Nat × List Byte) =>
      let num := s.jnl.next
      let s := s.journal 0x02 n 0xFF [0] w.2
      let t := s.session n
      s.setSession n { t with waitCpl := t.waitCpl ++ [(num, w.2)] }) s
    let js := s.jobs.filter (fun j => decide (j.sess = n) && !j.auto)
    let s := js.foldl (fun s j => s.dropJob j.id) s
    ss.descs.foldl (fun s d => s.finishDesc n d.idx 11 []) s) s
  gaps.foldl (fun s g => s.gapRange g.1 g.2.1 g.2.2 8) s

/-- A fault takes away a journal copy on channel `m` (R489, R490, R775 kind 6). DEDUCED: assumption 39. -/
def State.journalCopyLost (s : State) (m : Nat) : State :=
  if s.flag jnlStatusSingle then s.journalLost
  else ((s.setFld jnlStatusSingle 1).fire 403).catalogue 6 m none

/-- JOURNAL_REBUILD_DONE (R489): both copies stand again. DEDUCED: assumption 39. -/
def execJournalRebuildDone (s : State) : Host.Outcome State Fault Refusal := .next (s.setFld jnlStatusSingle 0)

/-! ### Return from AFTERNOON -/

/-- What keeps an inspecting module in AFTERNOON (R26, R421, R746): a replay, a catch-up, a migration, or the fallback of a port
or slice. DEDUCED: assumption 57. -/
def State.troubled (s : State) : Bool :=
  s.flag jnlStatusReplaying || s.flag jnlStatusCatchup || s.mem.chans.any (fun e => e.2.migration.isSome) ||
    (s.flag plnStatusOnFallback && decide (64 ≤ s.fld plnActiveF) && decide (s.fld plnActiveF < 80))

/-- The module returns from AFTERNOON to NOON when nothing keeps it there (R421). -/
def State.rankReturn (s : State) : State := if s.mode = 5 ∧ s.troubled = false then s.enterMode 4 else s

/-- The module goes from NOON to AFTERNOON (R746). DEDUCED: assumption 57. -/
def State.toAfternoon (s : State) : State := if s.mode = 4 ∧ s.troubled = true then s.enterMode 5 else s

/-! ### Replay -/

/-- A replay starts (R496, R746): its cause is recorded, and an inspecting module is in AFTERNOON. -/
def State.replayStart (s : State) (cause : Nat) : State :=
  (((s.setFld jnlStatusReplaying 1).setFld jnlStatusLastFault cause).fire 406).toAfternoon

/-- REPLAYING and CATCHUP have both cleared (R496). DEDUCED: assumption 40. -/
def State.replayEnds (s : State) : State :=
  if s.flag jnlStatusReplaying ∨ s.flag jnlStatusCatchup then s else (s.fire 407).rankReturn

/-- REPLAY_DONE (R496): every replayed entry has been written. DEDUCED: assumption 57. -/
def execReplayDone (s : State) : Host.Outcome State Fault Refusal :=
  if !s.flag jnlStatusReplaying || !s.jnl.replayPen.isEmpty then .next s
  else .next (s.setFld jnlStatusReplaying 0).replayEnds

/-! ### Catch-up after a lost slice -/

/-- Pennants of a context in the journal after entry `n` (R498): the records that catch-up will repeat.
DEDUCED: assumption 32. -/
def State.pennantsAfter (s : State) (c n : Nat) : Nat :=
  let ctxAt (b : List Byte) (i : Nat) : Bool := decide (leAt b (64 * i + 0x2E) 1 = c)
  ((s.jnl.entries.filter (fun e => decide (e.ty = 6 ∧ n < e.num ∧ natAt e.fields 0 = 3))).map (fun e =>
    ((List.range (natAt e.fields 2)).filter (ctxAt e.payload)).length)).foldl (· + ·) 0

/-- One context of a lost slice begins its catch-up (R497, R498): its last snapshot, and the ring from the strip after it.
DEDUCED: assumptions 28 and 32. -/
def State.catchStart (s : State) (c : Nat) : State :=
  match s.jnl.snaps.find? (fun e => decide (e.1 = c)) with
  | none =>
    let x := s.ctx c
    s.setCtx c { x with fe := feClear false x.fe, geo := geoClear false x.geo, seg := { x.seg with blobs := [], prev := [] }, segq := [] }
  | some (_, strip, fe, geo, seg) =>
    let x := s.ctx c
    let s := s.setCtx c { x with fe := fe, geo := geo, seg := seg, segq := [], filling := [], complete := [], reading := [],
                                 fifo := x.fifo.map (fun l => { l with sliceTook := true }) }
    let later := s.ring.lines.filter (fun r => decide (r.ctx = c ∧ strip < r.strip))
    match later with
    | [] => s
    | r :: rest =>
      let pos := rest.foldl (fun m q => min m q.abs) r.abs
      let entry := ((s.jnl.entries.filter (fun e => decide (e.ty = 5 ∧ e.ctx = c ∧ natAt e.fields 4 ≠ 0))).getLast?.map JEntry.num).getD 0
      let queued := (s.pen.queue.drop s.pen.gathered ++ s.pen.staging).filter (fun p => decide (p.ctxByte = c))
      let left := s.pennantsAfter c entry + queued.length
      let parts := ((s.jnl.partsSince.find? (fun e => decide (e.1 = c))).map Prod.snd).getD 0
      let s := { s with jnl := { s.jnl with catchPos := s.jnl.catchPos ++ [(c, pos)], matchLeft := s.jnl.matchLeft ++ [(c, left)],
                                            matchParts := s.jnl.matchParts ++ [(c, parts)] } }
      (s.setFld ⟨jnlCatchup, c, 1⟩ 1).fifoDrain c

/-- The contexts of a lost slice that the fallback places elsewhere catch up (R492, R496, R497). -/
def State.catchUp (s : State) (cs : List Nat) : State :=
  let s := cs.foldl State.catchStart s
  if s.jnl.catchPos.isEmpty then s else ((s.setFld jnlStatusCatchup 1).setFld jnlStatusLastFault 2).fire 406

/-- CATCHUP_RETURN (R497): at a strip boundary with less than one strip left in the ring, the context takes the rest of it and
returns to service. DEDUCED: assumption 40. -/
def execCatchupReturn (c : CtxId) (s : State) : Host.Outcome State Fault Refusal :=
  match s.catchAt c, s.ctxPlan c with
  | some pos, some cp =>
    let left := sortKey (fun (r : RingLine) => (r.abs : Int)) (s.ring.lines.filter (fun r => decide (r.ctx = c.val ∧ pos ≤ r.abs)))
    let x := s.ctx c
    if cp.lines ≤ left.length ∨ x.num.held ≠ 0 then .next s
    else
      let ls := left.map (fun r => camOfRing (ringLast cp.lines s.ring.lines r) r)
      let x := if cp.service = 2 then { x with complete := if ls.isEmpty then x.complete else x.complete ++ [ls] }
        else { x with fifo := ls.map (fun l => ⟨l, false, true, 0⟩) ++ x.fifo }
      let keep (l : List (Nat × Nat)) : List (Nat × Nat) := l.filter (fun e => decide (e.1 ≠ c.val))
      let s := { s.setCtx c x with jnl := { s.jnl with catchPos := keep s.jnl.catchPos, matchLeft := keep s.jnl.matchLeft,
                                                       matchParts := keep s.jnl.matchParts } }
      let s := s.setFld ⟨jnlCatchup, c, 1⟩ 0
      .next (if s.jnl.catchPos.isEmpty then (s.setFld jnlStatusCatchup 0).replayEnds else s)
  | _, _ => .next s

end Sys2Proof.Machine
end

