-- ==== Sys2Proof/Machine/MemCode.lean ====
section
/-! DEFINITION. The memory code (R428 to R436): RS(80,64) over GF(2^8), correction of up to 8 symbol errors, erasure of a
retired device, poison. -/

namespace Sys2Proof.Machine

/-! ### GF(2^8) -/

/-- Multiply by α (R429). -/
def gfTwice (a : Nat) : Nat := if 128 ≤ a then (2 * a) ^^^ 0x11D else 2 * a

/-- Product in GF(2^8) (R429). -/
def gfMul (a b : Nat) : Nat :=
  ((List.range 8).foldl (fun (s : Nat × Nat) i => (if bitAt b i then s.1 ^^^ s.2 else s.1, gfTwice s.2)) (0, a)).1

/-- α^n. -/
def gfPow (n : Nat) : Nat := Nat.repeat gfTwice (n % 255) 1

/-- The inverse of a non-zero element: its 254th power. -/
def gfInv (a : Nat) : Nat := (List.range 7).foldl (fun (s : Nat × Nat) _ => let q := gfMul s.2 s.2; (gfMul s.1 q, q)) (1, a) |>.1

/-- A polynomial, lowest coefficient first, at a point. -/
def gfEval (p : List Nat) (x : Nat) : Nat := p.foldr (fun c a => c ^^^ gfMul a x) 0

/-- Coefficient `i`. -/
def gfCoef (p : List Nat) (i : Nat) : Nat := p.getD i 0

/-- Sum of two polynomials. -/
def gfAdd (p q : List Nat) : List Nat := (List.range (max p.length q.length)).map (fun i => gfCoef p i ^^^ gfCoef q i)

/-- Product of two polynomials. -/
def gfPolyMul (p q : List Nat) : List Nat :=
  (List.range (p.length + q.length - 1)).map (fun n =>
    (List.range (n + 1)).foldl (fun a i => a ^^^ gfMul (gfCoef p i) (gfCoef q (n - i))) 0)

/-! ### Code words -/

/-- The 16 syndromes of 80 symbols (R429): symbol s is the coefficient of degree 79 − s. -/
def syndromes (w : List Nat) : List Nat :=
  (List.range 16).map (fun i => let a := gfPow i; w.foldl (fun v x => gfMul v a ^^^ x) 0)

/-- One step of the generator division: the remainder's 16 coefficients, highest first. -/
def rsStep (g r : List Nat) (x : Nat) : List Nat :=
  let f := x ^^^ r.headD 0
  let t := r.drop 1 ++ [0]
  (List.range 16).map (fun i => gfCoef t i ^^^ gfMul f (gfCoef g (15 - i)))

/-- g(x) of R429, lowest coefficient first. -/
def rsGen : List Nat := (List.range 16).foldl (fun p i => gfPolyMul p [gfPow i, 1]) [1]

/-- The check symbols of 64 data symbols (R429). -/
def rsCheck (d : List Nat) : List Nat := let g := rsGen; d.foldl (rsStep g) (List.replicate 16 0)

/-- The 80 bytes of a burst of 64 data bytes. -/
def rsEncode (d : List Byte) : List Byte := d ++ (rsCheck (d.map BitVec.toNat)).map (BitVec.ofNat 8)

/-- A burst stored as poisoned (R436). DESIGN CHOICE: assumption 42. -/
def rsPoison (d : List Byte) : List Byte := d ++ (rsCheck (d.map BitVec.toNat)).map (fun c => BitVec.ofNat 8 (c ^^^ 0xA5))

/-- The syndromes of the poison pattern (R436). -/
def poisonSyndromes : List Nat := syndromes (List.replicate 64 0 ++ List.replicate 16 0xA5)

/-- The device that carries a symbol (R426, R428). -/
def deviceOf (s : Nat) : Nat := if s < 64 then s % 32 / 8 else 4

/-- The state of the Berlekamp and Massey iteration. -/
structure Bm where
  c : List Nat
  b : List Nat
  l : Nat
  m : Nat
  d : Nat
  deriving DecidableEq, Repr

/-- One step of the iteration, at syndrome `n`. -/
def bmStep (syn : List Nat) (z : Bm) (n : Nat) : Bm :=
  let d := (List.range (z.l + 1)).foldl (fun a i => if i ≤ n then a ^^^ gfMul (gfCoef z.c i) (gfCoef syn (n - i)) else a) 0
  if d = 0 then { z with m := z.m + 1 }
  else
    let f := gfMul d (gfInv z.d)
    let c := gfAdd z.c (List.replicate z.m 0 ++ z.b.map (gfMul f))
    if 2 * z.l ≤ n then ⟨c, z.c, n + 1 - z.l, 1, d⟩ else { z with c := c, m := z.m + 1 }

/-- The error locator of 16 syndromes and its degree. -/
def locator (syn : List Nat) : List Nat × Nat :=
  let z := (List.range 16).foldl (bmStep syn) ⟨[1], [1], 0, 1, 1⟩
  (z.c.take (z.l + 1), z.l)

/-- The value at symbol `s` for a locator (Forney): X · Ω(X⁻¹) / σ′(X⁻¹) with X = α^(79 − s). -/
def rsValue (syn sigma : List Nat) (s : Nat) : Nat :=
  let x := gfPow (79 - s); let xi := gfInv x
  let om := (gfPolyMul syn sigma).take 16
  let der := (List.range (sigma.length - 1)).map (fun i => if i % 2 = 0 then gfCoef sigma (i + 1) else 0)
  gfMul (gfMul x (gfEval om xi)) (gfInv (gfEval der xi))

/-- Add the values at the located symbols. -/
def rsApply (w syn sigma : List Nat) (at' : List Nat) : List Nat :=
  at'.foldl (fun w s => w.set s (w.getD s 0 ^^^ rsValue syn sigma s)) w

/-- What reading a burst finds (R430, R431, R433, R436). -/
inductive RsResult where
  | clean (data : List Byte)
  | corrected (data : List Byte) (symbols : List Nat)
  | poisoned
  | uncorrectable
  deriving DecidableEq, Repr

/-- The data bytes of 80 symbols. -/
def rsData (w : List Nat) : List Byte := (w.take 64).map (BitVec.ofNat 8)

/-- Decode a burst. `retired` is the rank's retired device, whose 16 symbols are erasures and use up the code (R433). -/
def rsDecode (retired : Option Nat) (bs : List Byte) : RsResult :=
  let w := bs.map BitVec.toNat
  let syn := syndromes w
  if syn.all (fun x => decide (x = 0)) then .clean (rsData w)
  else if syn = poisonSyndromes then .poisoned
  else match retired with
  | some d =>
    let es := (List.range 80).filter (fun s => decide (deviceOf s = d))
    let sigma := es.foldl (fun p s => gfPolyMul p [1, gfPow (79 - s)]) [1]
    .clean (rsData (rsApply w syn sigma es))
  | none =>
    let q := locator syn
    let es := (List.range 80).filter (fun s => decide (gfEval q.1 (gfInv (gfPow (79 - s))) = 0))
    if 8 < q.2 ∨ es.length ≠ q.2 then .uncorrectable
    else
      let v := rsApply w syn q.1 es
      if (syndromes v).all (fun x => decide (x = 0)) then .corrected (rsData v) es else .uncorrectable

end Sys2Proof.Machine
end

