-- ==== Sys2Proof/Machine/Memory.lean ====
section
/-! DEFINITION. Module memory as commands drive it (R426 to R463): code words read, devices retired, ranks out of service,
migration, refresh, temperature, training. -/

namespace Sys2Proof.Machine

/-! ### Ranks -/

/-- The state of rank `k` of channel `m` (R457): 0 active, 1 spare, 2 OUT, 3 FAILED. -/
abbrev rankFld (m k : Nat) : Fld := ⟨mcStatus m, 8 + 2 * k, 2⟩

/-- The retired device of a rank (R458): 0 none, else device + 1. -/
abbrev retiredFld (m k : Nat) : Fld := ⟨mcRetired m, 3 * k, 3⟩

/-- Change the record of a channel. -/
def State.modMc (s : State) (m : Nat) (f : McSt → McSt) : State := s.setMc m (f (s.mc m))

/-- The rank into which channel `m` migrates, or has migrated. -/
def State.spareOf (s : State) (m : Nat) : Nat := s.fld (mcStatusSpare m)

/-- Take rank `k` of channel `m` out of service (R449 steps 1 and 3, R453, R455, R489): OUT, ALERT cause 2, RANK_FAILED, the
FAULT entry and the fallback; a journal copy on the rank is lost. A rank that is out already stays so. -/
def State.rankOut (s : State) (m k : Nat) : State :=
  if 2 ≤ s.fld (rankFld m k) then s
  else
    let spare := decide (s.fld (rankFld m k) = 1)
    let into := (s.mc m).migration.isSome && decide (s.spareOf m = k)
    let s := (((s.setFld (rankFld m k) 2).mcAlert m 2).fire (184 + 4 * m + 2))
    let s := if spare then s.setFld (mcStatusSpareValid m) 0 else s
    let s := if into then (s.modMc m (fun x => { x with migration := none })).setFld (mcStatusState m) 2 else s
    let s := s.catalogue 1 (4 * m + k) (some (4 * m + k))
    match s.pln.plan with
    | some p => if p.outs.journal.contains (4 * m + k) then s.journalCopyLost m else s
    | none => s

/-- Record a FAILED mark in flash (R452). -/
def State.flashFailed (s : State) (m mask : Nat) : State :=
  { s with pwr := { s.pwr with flash := { s.pwr.flash with failed := tblSet s.pwr.flash.failed 0 m mask } } }

/-- Migration of a channel ends (R452): the rank is FAILED and ALERT takes cause 3. -/
def State.migrationDone (s : State) (m : Nat) : State :=
  match (s.mc m).migration with
  | none => s
  | some g =>
    let s := s.modMc m (fun x => { x with migration := none })
    let s := ((s.setFld (rankFld m g.rank) 3).setFld (mcStatusState m) 2).setFld (mcMigratePermille m) 1000
    ((s.flashFailed m (tblGet s.pwr.flash.failed 0 m ||| 2 ^ g.rank)).mcAlert m 3).rankReturn

/-- Every strip of the ring becomes invalid (R366, R454). -/
def State.ringLost (s : State) : State :=
  let s := { s with ring := { ringInvalid (fun _ => true) s.ring with chunks := [] } }
  (s.setFld cmpDepthF 0).ringRegs

/-- The switch for rank `k` of channel `m` (R449 steps 3 and 4, R453, R454, R492): migration into the spare, none for an
unused spare, and a shorter ring where the channel has no spare. DESIGN CHOICE: assumption 41. -/
def State.rankSwitch (s : State) (m k : Nat) (wasSpare : Bool) : State :=
  if wasSpare then s
  else
    let sp := s.spareOf m
    if s.flag (mcStatusSpareValid m) ∧ s.fld (rankFld m sp) = 1 then
      let alloc := match s.pln.plan with | some p => tblGet p.outs.allocated 0 (4 * m + k) | none => 0
      let s := ((s.setFld (rankFld m sp) 0).setFld (mcStatusSpareValid m) 0).setFld (mcStatusState m) 3
      let s := (s.setFld (mcMigrateRank m) k).setFld (mcMigratePermille m) 0
      let s := (s.modMc m (fun x => { x with migration := some ⟨k, alloc, 0, 0, []⟩ })).replayStart 1
      if alloc = 0 then s.migrationDone m else s
    else (((s.setFld (rankFld m k) 3).flashFailed m (tblGet s.pwr.flash.failed 0 m ||| 2 ^ k)).ringLost).replayStart 1

/-! ### Devices -/

/-- A device is retired (R432 to R434). -/
def State.retire (s : State) (m k d : Nat) : State :=
  if s.fld (retiredFld m k) ≠ 0 then s
  else
    let s := (s.setFld (retiredFld m k) (d + 1)).fire (184 + 4 * m + 1)
    if s.fld (rankFld m k) ≠ 0 then s
    else if s.flag (mcStatusSpareValid m) then s.rankOut m k
    else (s.setFld (mcStatusUnprotected m) 1).mcAlert m 4

/-- A corrected code word counts against one device (R432). -/
def State.deviceError (s : State) (m k d : Nat) : State :=
  let i := 5 * k + d
  let s := s.bump (mcDevErrF m i) 1
  let x := s.mc m
  let ts := s.clock :: (tblGet x.errTimes [] i).filter (fun t => decide (s.clock < t + 625000000))
  let s := s.setMc m { x with errTimes := tblSet x.errTimes [] i ts }
  if s.fld (mcLimitsRetireLimit m) ≤ ts.length then s.retire m k d else s

/-- A corrected code word (R432, R463). -/
def State.correctedWord (s : State) (m k : Nat) (symbols : List Nat) : State :=
  let n := (s.mc m).corrected + 1
  let s := ((s.modMc m (fun x => { x with corrected := n })).bump (mcCntCorrectedF m) 1).fireIf
    (decide (n % 2 ^ s.fld (mcLimitsCeExp m) = 0)) (184 + 4 * m)
  ((List.range 5).filter (fun d => symbols.any (fun q => decide (deviceOf q = d)))).foldl (fun s d => s.deviceError m k d) s

/-- The record that an unreadable burst belongs to is poisoned (R367, R436). -/
def State.poisonUse (s : State) (u : MemUse) : State :=
  match u with
  | .strip c n i =>
    let hit (l : CamLine) : CamLine := if l.strip = n ∧ l.idx = i then { l with poisoned := true } else l
    let x := s.ctx c
    s.setCtx c { x with filling := x.filling.map hit, complete := x.complete.map (fun q => q.map hit), reading := x.reading.map hit }
  | .ring c n i =>
    let on (l : RingLine) : Bool := decide (l.ctx = c.val ∧ l.strip = n ∧ l.idx = i)
    if s.ring.lines.any on then
      { s with ring := { s.ring with
          lines := s.ring.lines.map (fun l => if on l then { l with poisoned := true } else l)
          strips := s.ring.strips.map (fun e => if e.ctx = c.val ∧ e.strip = n then { e with poisoned := true } else e) } }
    else s
  | .journal n =>
    if s.flag jnlStatusSingle then { s with jnl := { s.jnl with entries := s.jnl.entries.filter (fun e => decide (e.num ≠ n)) } } else s
  | .image _ => s
  | .tables => s
  | .free => s

/-- CODEWORD_READ (R430 to R436): a burst of rank `k` is decoded for the record it serves.
DESIGN CHOICE: assumption 42. -/
def execCodewordRead (m : ChanId) (k : Fin 4) (_burst : Nat) (word : List Byte) (u : MemUse) (s : State) : Host.Outcome State Fault Refusal :=
  let rd := s.fld (retiredFld m k)
  .next (match rsDecode (if rd = 0 then none else some (rd - 1)) word with
    | .clean _ => s
    | .corrected _ symbols => s.correctedWord m k symbols
    | .poisoned => (s.mcAlert m 6).poisonUse u
    | .uncorrectable => (((s.bump (mcCntUncorrectableF m) 1).poisonUse u).rankOut m k))

/-- COMMAND_ADDRESS_PARITY (R449). -/
def execCommandAddressParity (m : ChanId) (k : Fin 4) (s : State) : Host.Outcome State Fault Refusal :=
  .next ((s.bump (mcCntParityF m) 1).rankOut m k)

/-! ### Migration -/

/-- Advance the migration of a channel past its next burst. DESIGN CHOICE: assumption 41. -/
def State.migrateOn (s : State) (m : Nat) (g : Migration) : State :=
  let s := (s.modMc m (fun x => { x with migration := some g })).setFld (mcMigratePermille m) (g.copied * 1000 / g.alloc)
  if g.alloc ≤ g.next then s.migrationDone m else s

/-- The key of a burst of the spare in the table of migrated bursts. -/
def burstKey (m k b : Nat) : Nat := (4 * m + k) * 2 ^ 28 + b

/-- MIGRATION_BURST (R450, R451): the next allocated burst, read from the failed rank, goes to the spare, poisoned where it
cannot be read. Whether a write has taken the burst since the switch, so that its bit is set, is a free value: where the
regions' bursts lie is the Planner's (assumption 3). DESIGN CHOICE: assumption 41. -/
def execMigrationBurst (m : ChanId) (word : List Byte) (s : State) : Host.Outcome State Fault Refusal :=
  match (s.mc m).migration with
  | none => .next s
  | some g =>
    let f := s.takeFree 2
    let s := f.2
    if f.1 = 1 then .next (s.migrateOn m { g with next := g.next + 1, written := g.next :: g.written })
    else
      let rd := s.fld (retiredFld m g.rank)
      let bad : List Byte := rsPoison (slice (Config.poisonData s.freeIdx) 0 64)
      let r := match rsDecode (if rd = 0 then none else some (rd - 1)) word with
        | .clean d => (s, rsEncode d)
        | .corrected d symbols => (s.correctedWord m g.rank symbols, rsEncode d)
        | .poisoned => (s.bump (mcCntPoisonedF m) 1, bad)
        | .uncorrectable => ((s.bump (mcCntUncorrectableF m) 1).bump (mcCntPoisonedF m) 1, bad)
      let s := { r.1 with mem := { r.1.mem with bursts := tblSet r.1.mem.bursts [] (burstKey m (s.spareOf m) g.next) r.2 } }
      .next (s.migrateOn m { g with next := g.next + 1, copied := g.copied + 1 })

/-! ### Refresh and temperature -/

/-- The channel is powered and in service, training or migrating. -/
def State.mcUp (s : State) (m : Nat) : Bool := let v := s.fld (mcStatusState m); decide (v = 1 ∨ v = 2 ∨ v = 3)

/-- REFRESH (R437): the all-bank refresh of every rank of the channel. -/
def execRefresh (m : ChanId) (s : State) : Host.Outcome State Fault Refusal :=
  .next (if s.mcUp m then s.modMc m (fun x => { x with refreshes := x.refreshes + 1 }) else s)

/-- REFRESH_VARIANT_SWITCH (R408, R438): the variant that is due takes effect at the frame boundary. -/
def execRefreshVariantSwitch (s : State) : Host.Outcome State Fault Refusal :=
  match s.mem.hotDue with
  | none => .next s
  | some b => .next ((({ s with mem := { s.mem with hotDue := none } }).setFlag mcgStatusHot b).setFlag plnStatusHot b)

/-- The highest die of a list. -/
def hottest (ds : List Int) : Int := match ds with | [] => 0 | d :: r => r.foldl max d

/-- The readings of one channel (R438, R439, R459): ALERT cause 5 when 95 °C is reached. -/
def State.mcTemp (s : State) (m : Nat) (ds : List Int) : State :=
  let old := hottest (s.mc m).dies; let t := hottest ds
  let s := (s.modMc m (fun x => { x with dies := ds })).setFldInt (mcTempF m) t
  if 95 ≤ t ∧ old < 95 then s.mcAlert m 5 else s

/-- DRAM_TEMPERATURE_READ (R438, R439): every die of every rank, once per millisecond. -/
def execDramTemperatureRead (dies : List (List Int)) (s : State) : Host.Outcome State Fault Refusal :=
  let s := dies.zipIdx.foldl (fun s d => s.mcTemp d.2 d.1) s
  let all := dies.flatten
  let s := if all.any (fun t => decide (83 ≤ t)) ∧ s.flag mcgStatusHot = false then { s with mem := { s.mem with hotDue := some true } } else s
  let cool := if all.all (fun t => decide (t ≤ 78)) then some (s.mem.coolSince.getD s.clock) else none
  .next { s with mem := { s.mem with coolSince := cool } }

/-- HOT_EXIT_TIMER (R438): every reading has stayed at or below 78 °C for 1 s. -/
def execHotExitTimer (s : State) : Host.Outcome State Fault Refusal :=
  match s.mem.coolSince with
  | some t => .next (if s.flag mcgStatusHot ∧ t + 625000000 ≤ s.clock then { s with mem := { s.mem with hotDue := some false } } else s)
  | none => .next s

/-! ### Training -/

/-- RETRAIN (R411, R448): the periodic retrain of a channel, in NOON and AFTERNOON. -/
def execRetrain (m : ChanId) (corrections : List Int) (errors : Bool) (s : State) : Host.Outcome State Fault Refusal :=
  if !s.inspecting || !s.mcUp m then .next s
  else if corrections.all (fun c => decide (-2 ≤ c ∧ c ≤ 2)) && !errors then
    .next (s.modMc m (fun x => { x with trimmed := corrections.mapIdx (fun i c => intAt x.trimmed i + c) }))
  else .next (((s.modMc m (fun x => { x with retrainDue := true })).bump (mcCntRetrainFailF m) 1).mcAlert m 1)

/-- The plausibility check of R446: every eye at least 0.30 UI wide, every Vref centre within ±8 % of its stored value. -/
def trainingOk (width : Nat) (vref : Int) : Bool := decide (1920 ≤ 100 * width ∧ -16 ≤ vref ∧ vref ≤ 16)

/-- A channel is in service or not (R446, R457, R462). DEDUCED: assumption 98. -/
def State.mcService (s : State) (m : Nat) (on : Bool) : State :=
  ((s.setFld (mcStatusState m) (if on then 2 else 0)).setFlag ⟨mcgStatus, m, 1⟩ on).setDomain (25 + m) on

/-- A calibration of kind 2 on the channel, in MIDNIGHT, has its result (R727, R728). DEDUCED: assumption 98. -/
def State.calTrained (s : State) (m width height : Nat) (vref : Int) : State :=
  match s.calRun 2 m with
  | none => s
  | some r => s.calDone r (trainingOk width vref) (width % 256 + 256 * (height % 256) + 65536 * (vref % 256).toNat) (s.calElapsed r)

/-- DRAM_TRAINING_DONE (R444 to R447): the result of a full training is kept or refused. In DAWN a refused one disables the
channel; in SUNRISE it does so unless the old values passed the verify at 0 UI offset. DEDUCED: assumption 98. -/
def execDramTrainingDone (m : ChanId) (width height : Nat) (vref : Int) (s : State) : Host.Outcome State Fault Refusal :=
  if s.fld (mcStatusState m) ≠ 1 then .next s
  else if trainingOk width vref then
    let s := ((s.setFld (mcEyeWidth m) width).setFld (mcEyeHeight m) height).setFldInt (mcEyeVrefDev m) vref
    .next (((s.modMc m (fun x => { x with storedVref := x.storedVref + vref, trimmed := [], retrainDue := false, tested := true })).mcService m true).calTrained m width height vref)
  else if s.mode = 1 ∨ (s.mc m).tested = false then .next ((s.mcService m false).calTrained m width height vref)
  else .next (((s.modMc m (fun x => { x with retrainDue := false })).mcService m true).calTrained m width height vref)

/-- RETIRED_CLEAR (R434, R452, R458): a write of MC_RETIRED with CLEAR, in MIDNIGHT. DESIGN CHOICE: assumption 41. -/
def State.retiredClear (s : State) (m : Nat) : State :=
  if s.mode ≠ 7 then s
  else
    let s := (((s.setReg (mcRetired m) 0).setFld (mcStatusUnprotected m) 0).flashFailed m 0)
    (List.range 4).foldl (fun s k => if s.fld (rankFld m k) = 3 then s.setFld (rankFld m k) 0 else s) s

/-- RETIRED_CLEAR (R458). -/
def execRetiredClear (m : ChanId) (v : Word) (s : State) : Host.Outcome State Fault Refusal :=
  .next (if v.getLsbD 12 then s.retiredClear m else s)

end Sys2Proof.Machine
end

