-- ==== Sys2Proof/Machine/GoLive.lean ====
section
/-! DEFINITION. A plan goes live (R398 to R402, R415 to R421): by commit, or as the fallback of a fault. -/

namespace Sys2Proof.Machine

/-! ### Contexts under a new plan -/

/-- The first bank of a context under a new plan: loaded into the shadow and active from the next strip.
DEDUCED: assumption 43. -/
def State.bankLive (s : State) (c : Nat) (b : Bank) : State :=
  let x := s.ctx c
  let n := x.num
  let k := 1 - s.fld (ctxStatusActiveBank c)
  let id := max n.id0 n.id1 + 1
  let m : CtxNum := { n with commit := none, retired := some n.nextStrip, stripBanks := (n.nextStrip, k) :: n.stripBanks.take 63 }
  let m : CtxNum := if k = 0 then { m with b0 := b, id0 := id } else { m with b1 := b, id1 := id }
  let s := s.setCtx c { x with num := m, fe := { x.fe with bankStrip := some n.nextStrip } }
  let s := s.setFlds [(ctxStatusActiveBank c, k), (ctxStatusBankPending c, 0), (ctxStatusBankWritable c, 0)]
  s.bankStatus c

/-- Lines of the old format or pitch cannot run under the new plan: what no slice has taken is dropped, histories restart.
DEDUCED: assumption 43. -/
def State.dropLines (s : State) (c : Nat) : State :=
  let x := s.ctx c
  (s.setCtx c { x with
    fifo := x.fifo.map (fun l => { l with sliceTook := true }), filling := [], complete := [], reading := [], segq := []
    fe := feClear false x.fe, geo := geoClear false x.geo }).fifoDrain c

/-- The plan's shape of a context's lines is unchanged. DEDUCED: assumption 43. -/
def sameShape (old new : Plan) (c : Nat) : Bool :=
  match planEntry old.ctxs c, planEntry new.ctxs c with
  | some a, some b => decide (a.rows = b.rows ∧ a.width = b.width ∧ a.depth = b.depth ∧ a.gLo = b.gLo ∧ a.gHi = b.gHi ∧ a.dwMode = b.dwMode ∧
      a.look = b.look ∧ a.mount = b.mount ∧ old.pitchY = new.pitchY ∧ old.scale = new.scale)
  | _, _ => false

/-- Output lines that wait for a blend partner go on with the owner's own values: nothing written before a boundary is paired
with what follows it (R214, R829). -/
def State.flushBands (s : State) (c : Nat) (cp : CtxPlan) : Nat → State
  | 0 => s
  | f + 1 =>
    let x := s.ctx c
    if x.geo.waiting.isEmpty then s.setCtx c { x with geo := { x.geo with contrib := [], gave := [] } }
    else ((s.setCtx c { x with geo := { x.geo with gave := (ownedBands cp).map Band.partner } }).flushWaiting c cp 1).flushBands c cp f

/-- The output lines formed so far are labelled, and every open blob of the context closes at the last of them (R398, R555, R829). -/
def State.closeInspect (s : State) (c : Nat) (cp : CtxPlan) : State :=
  let s := s.flushBands c cp ((s.ctx c).geo.waiting.length + 1)
  (s.labelAll c cp ((s.ctx c).segq.length + 1)).closeCtx c cp

/-- Open blobs of an inspected context close at its last output line under the old plan (R398). -/
def State.closeLive (s : State) (c : Nat) (cp : CtxPlan) : State := if s.inspected c then s.closeInspect c cp else s

/-- A held part keeps waiting where the new plan keeps its seam (R285). -/
def partKept (self : Nat) (new : Plan) (p : Part) : Bool :=
  if p.addr ≠ self then true
  else match planEntry new.ctxs p.ctx with
  | none => false
  | some cp => p.edges.all (fun e => decide (e.2 = (if e.1 = 0 then cp.left else cp.right)))

/-- Parts that the new plan gives no seam are emitted as split halves (R285). -/
def State.splitLost (s : State) (new : Plan) : State :=
  s.seamApply (splitWhere s.selfAddr (fun p => !partKept s.selfAddr new p) s.seam)

/-! ### Fallbacks ready -/

/-- A fallback that departs from the live plan in nothing (R416): its rank holds no region, its port is off, its slice serves
no context. DESIGN CHOICE: assumption 45. -/
def fallbackTrivial (p : Plan) (n : Nat) : Bool :=
  if n < 64 then decide (tblGet p.outs.allocated 0 n = 0)
  else if n < 76 then
    (planEntry p.ctxs (n - 64)).isNone && !(decide (n % 2 = 1) && (match planEntry p.cams (n - 65) with | some m => decide (m.lanes = 8) | none => false))
  else !p.ctxs.any (fun e => decide (e.2.slice = n - 76 ∧ e.2.service ≠ 0))

/-- A fallback is ready (R417); when all 80 are, FALLBACKS_READY and its notice. -/
def State.fallbackDone (s : State) (n : Nat) (p : Plan) : State :=
  let s := { s with pln := { s.pln with fallbacks := (n, p) :: s.pln.fallbacks.filter (fun e => decide (e.1 ≠ n)) } }
  let s := s.setFld ⟨plnFbReady (n / 32), n % 32, 1⟩ 1
  if (List.range 80).all s.fallbackReady ∧ s.flag plnStatusFallbacksReady = false then
    (s.setFld plnStatusFallbacksReady 1).noticeAll 0x8002 0xFF (s.fld plnPlanIdF)
  else s

/-- A new plan has gone live (R417, R425): its number, and fallbacks compiled anew. -/
def State.planNumber (s : State) (p : Plan) : State :=
  let s := (s.setFld plnPlanIdF (s.fld plnPlanIdF + 1)).setFlds [(plnStatusFallbacksReady, 0), (plnFbReadyF 0, 0), (plnFbReadyF 1, 0), (plnFbReadyF 2, 0)]
  let s := { s with pln := { s.pln with fallbacks := [] } }
  ((List.range 80).filter (fallbackTrivial p)).foldl (fun s n => s.fallbackDone n p) s

/-! ### A commit goes live -/

/-- One context of a new main plan (R110, R253, R398): bank, rebase, model, gating. -/
def State.ctxLive (s : State) (old : Option Plan) (p : Plan) (c : Nat) : State :=
  let fresh := match old with | some o => !sameShape o p c | none => true
  let added := match old with | some o => (planEntry o.ctxs c).isNone | none => true
  let s := ((s.rebase c).bankLive c ((planEntry p.banks c).getD initBank)).restartModel c
  let s := if fresh then s.resetDark c else s
  if s.inspecting && added then s.setFld (ctxCtrlGated c) 0 else s

/-- Every context of a new main plan. -/
def State.ctxsLive (s : State) (old : Option Plan) (p : Plan) : State :=
  let s := match old with
    | none => s
    | some o => o.ctxs.foldl (fun (s : State) (e : Nat × CtxPlan) => if sameShape o p e.1 then s else s.dropLines e.1) s
  p.ctxs.foldl (fun (s : State) (e : Nat × CtxPlan) => s.ctxLive old p e.1) s

/-- STORE of the recipe (R401). -/
def State.storeRecipe (s : State) (p : Plan) : State :=
  if p.outs.store then
    ({ s with pwr := { s.pwr with flash := { s.pwr.flash with recipe := s.pln.lastRecipe } } }).setFld plnStatusStoredValid 1
  else s

/-- Plan `p` goes live as a main plan (R398, R401). DEDUCED: assumptions 43 and 103. -/
def State.goLive (s : State) (p : Plan) : State :=
  let old := s.pln.plan
  let s := s.calCutAll
  let s := { s with cal := { s.cal with totals := [], waiting := [], last := [], residuals := [] } }
  let s := match old with | some o => o.ctxs.foldl (fun (s : State) (e : Nat × CtxPlan) => s.closeLive e.1 e.2) s | none => s
  let s := s.splitLost p
  let s := { s with pln := { s.pln with plan := some p, original := none, lastRecipe := s.pln.staged }, fab := { s.fab with hash := (p.outs.fab.map FabPlan.hash).getD [] } }
  let s := (s.ctxsLive old p).planRegs p
  let s := ((s.setFld plnActiveF 127).setFld plnStatusOnFallback 0).planNumber p
  let s := if (old.map Plan.ovw) = some p.ovw then s else s.ovwPlan
  let s := if p.ovw.width = 0 then s.ovwStop else if s.ovwSess.isSome then s.ovwStart else s
  let id := s.fld plnPlanIdF
  let s := ((s.journal 0x09 0xFF 0xFF [id, 127] []).noticeAll 0x8000 0xFF id).storeRecipe p
  s.rankReturn

/-- PLAN_GO_LIVE (R398, R402): the committed plan goes live at the frame boundary, unless a fault switch is pending, to
which it yields. -/
def State.commitLive (s : State) : State :=
  match s.pln.commit, s.pln.compiled with
  | some w, some p =>
    if s.pln.fault.isSome then s.dropCommit
    else
      let s := { s with pln := { s.pln with commit := none, compiled := none } }
      let s := (s.goLive p).planStatus 0
      if w.sess < 4 then
        s.finishDesc w.sess w.desc 0 (planBlock ⟨0, 0, 0, 0⟩ ++ leBytes 4 (s.fld plnPlanIdF) ++ leBytes 4 0 ++ leBytes 8 s.frameNo)
      else s
  | _, _ => s

/-! ### A fallback goes live -/

/-- The model list of a context after its owned columns move (R216, R248): columns it had keep their model. -/
def remapModel (a b : CtxPlan) (m : List ColModel) : List ColModel :=
  if m.isEmpty then [] else
  (List.range (b.oHi + 1 - b.oLo)).map (fun i =>
    let g := b.oLo + i
    if a.oLo ≤ g ∧ g ≤ a.oHi then m.getD (g - a.oLo) ⟨[], [], 0, none⟩ else ⟨[], [], 0, none⟩)

/-- A context under a fallback (R416): unchanged, off, or with other columns and a new bank of the same generation rule. -/
def State.ctxFallback (s : State) (o p : Plan) (c : Nat) (a : CtxPlan) : State :=
  match planEntry p.ctxs c with
  | none =>
    (s.closeInspect c a).dropLines c
  | some b =>
    let s :=
      if a.oLo = b.oLo ∧ a.oHi = b.oHi then s
      else
        let x := s.ctx c
        s.setCtx c { x with seg := { x.seg with model := remapModel a b x.seg.model } }
    match planEntry p.banks c, planEntry o.banks c with
    | some nb, some ob => if nb = ob then s else (s.rebase c).bankLive c nb
    | some nb, none => (s.rebase c).bankLive c nb
    | none, _ => s

/-- Rank n mod 4 of channel n / 4 is its spare, unused so far. -/
def State.spareRank (s : State) (o : Plan) (n : Nat) : Bool :=
  decide (n < 64) && decide (s.fld (mcStatusSpare (n / 4)) = n % 4) && (s.mc (n / 4)).migration.isNone && !s.flag (mcStatusSpareValid (n / 4))
    && decide (tblGet o.outs.allocated 0 n = 0)

/-- The contexts of a lost slice that another slice takes over catch up there (R418, R492).
DESIGN CHOICE: assumption 45. -/
def State.sliceFallback (s : State) (o p : Plan) (n : Nat) : State :=
  let cs := (o.ctxs.filter (fun (e : Nat × CtxPlan) => decide (e.2.slice = n - 76))).map (fun (e : Nat × CtxPlan) => e.1)
  let cs := cs.filter (fun (c : Nat) => s.inspected c && (match planEntry p.ctxs c with | some cp => decide (cp.service ≠ 0) | none => false))
  let s := cs.foldl (fun (s : State) (c : Nat) => match planEntry p.ctxs c with | some cp => s.wakeSlice cp.slice | none => s) s
  s.catchUp cs

/-- Number, notice and mode of a fallback switch (R416, R421). -/
def State.fallbackDown (s : State) (n : Nat) (keep : Plan) : State :=
  let s := s.setFlds [(plnActiveF, n), (plnStatusOnFallback, 1)]
  let s := (s.bump plnCntSwitchesF 1).planNumber keep
  let s := s.journal 0x09 0xFF 0xFF [s.fld plnPlanIdF, n] []
  let s := s.noticeAll 0x8001 0xFF n
  if s.mode = 4 then s.enterMode 5 else s

/-- Fallback plan `p` of fault `n` goes live (R416, R418, R421, R449, R492). -/
def State.fallbackLive (s : State) (n : Nat) (p : Plan) : State :=
  match s.pln.plan with
  | none => s
  | some o =>
    let s := s.calCutAll
    let spare := s.spareRank o n
    let s := o.ctxs.foldl (fun (s : State) (e : Nat × CtxPlan) => if s.inspected e.1 then s.ctxFallback o p e.1 e.2 else s) s
    let s := if 64 ≤ n then s.splitLost p else s
    let keep : Plan := { p with outs := { p.outs with spares := (List.range 16).map (fun (m : Nat) => s.fld (mcStatusSpare m)) } }
    let s := { s with pln := { s.pln with plan := some keep, original := some (s.pln.original.getD o) } }
    let s := (s.setFld plnStatusState 4).planRegs keep
    let s := if n < 64 then s.rankSwitch (n / 4) (n % 4) spare else s
    let s := if 76 ≤ n then s.sliceFallback o p n else s
    s.fallbackDown n keep

/-- FALLBACK_LOAD_DONE (R418): the image of the pending fault's fallback is in the inactive banks; a fallback that is not ready
has no image yet. -/
def execFallbackLoadDone (s : State) : Host.Outcome State Fault Refusal :=
  match s.pln.fault with
  | none => .next s
  | some n => .next (if s.fallbackReady n then { s with pln := { s.pln with loaded := true } } else s)

/-- FALLBACK_SWITCH (R418 to R421): at a frame boundary the loaded fallback goes live; a fault that waited comes next. -/
def execFallbackSwitch (s : State) : Host.Outcome State Fault Refusal :=
  match s.pln.fault with
  | none => .next s
  | some n =>
    if !s.pln.loaded then .next s
    else match planEntry s.pln.fallbacks n with
    | none => .next s
    | some p =>
      let s := s.fallbackLive n p
      let q := s.pln.queued
      let s := { s with pln := { s.pln with fault := none, loaded := false, queued := [] } }
      .next (match q with
        | [] => s
        | m :: rest => let t := s.planFault m; { t with pln := { t.pln with queued := rest } })

/-- FALLBACK_COMPILED (R417, R420): a fallback of the live plan is ready. -/
def execFallbackCompiled (n : Fin 80) (plan : Plan) (tenMs : Nat) (s : State) : Host.Outcome State Fault Refusal :=
  if s.pln.plan.isNone then .next s
  else .next ((s.fallbackDone n plan).setFld plnCompileFallback10ms tenMs)

end Sys2Proof.Machine
end

