-- ==== Sys2Proof/Machine/Wake.lean ====
section
/-! DEFINITION. What every change of power state shares (R741 to R751, R757, R759, R765): what a loss of the die takes away, NIGHT
and its wake sources, the beginning of a start. -/

namespace Sys2Proof.Machine

/-! ### The journal at a loss of the die -/

/-- Every pennant of the queue stands in the journal. DEDUCED: assumption 61. -/
def State.penGatherAll (s : State) : Nat → State
  | 0 => s
  | f + 1 => if s.pen.queue.length ≤ s.pen.gathered then s else s.penGather.penGatherAll f

/-- The journal's tail reaches both copies (R491, R761 step 6). DEDUCED: assumption 61. -/
def State.jnlMerge (s : State) : State :=
  let s := s.penGatherAll (s.pen.queue.length + 1)
  s.jnlDurable (s.jnl.next - 1)

/-! ### Counting in the always-on domain -/

/-- The channel's own counter runs: not in NIGHT, nor in SUNRISE before its handover at step 2 (R659).
DEDUCED: assumption 61. -/
def State.mainCounts (s : State) : Bool := s.mode ≠ 0 && (s.mode ≠ 2 || s.pwr.done.contains 2)

/-- The always-on domain counts channel `k` (R658, R659): in NIGHT, in a warm start, and through the handover. -/
def State.aoCounts (s : State) (k : Nat) : Bool := !s.mainCounts || (s.enc k).handover

/-- The always-on domain takes the counts over from the channels (R658, R659). -/
def State.aoTake (s : State) : State :=
  if !s.mainCounts then s
  else (List.range 4).foldl (fun (s : State) (k : Nat) => s.setEnc k { s.enc k with ao := s.encPos k }) s

/-- The channels take the counts back (R659): both count together until HANDOVER_COMPARE. -/
def State.aoHandover (s : State) : State :=
  (List.range 4).foldl (fun (s : State) (k : Nat) =>
    if s.fld (encCtrlMode k) = 0 then s
    else
      let e := s.enc k
      let c := ofSigned 32 e.ao
      ((s.setFld (encCountF k) c).setEnc k { e with base := e.ao, rawBase := c, handover := true, index := none, run := 0, window := 0 }).setInt64
        (encPosLo k) e.ao) s

/-! ### Loss of the die -/

/-- A session loses its queue pair with the die (R492, R533): a host resumes it. Descriptors that hold no job start again. -/
def State.sessDown (s : State) (n : Nat) : State :=
  let up := decide (s.fld (hssSessionState n) ≠ 0) || s.flag (hssSessionResumable n)
  let s := (s.setFld (hssSessionState n) 0).setFlag (hssSessionResumable n) up
  let ss := s.session n
  let held (d : OutDesc) : Bool := s.jobs.any (fun j => decide (j.sess = n ∧ j.desc = d.idx) && !j.auto)
  let ds : List OutDesc := ss.descs.map (fun d => { d with started := held d })
  let qp : QpSt := { ss.qp with ops := [], retries := 0, rate := 2000, lastCnp := none }
  s.setSession n { ss with qp := qp, descs := ds, fetching := false, refetch := none, heldEvt := [], heldWrites := [], fences := [], reply := [],
                           dropped := ss.dropped || !ss.heldEvt.isEmpty, authFails := [], lockUntil := none }

/-- What a context keeps in module memory: its numbering and banks. -/
def CtxSt.lost (x : CtxSt) : CtxSt :=
  { initCtx with num := { x.num with held := 0, needBase := true, expectTag := 0, commit := none, retired := none, shorts := [], startAt := none } }

/-- What a camera port keeps (R93): rate, adaptation and deskew. DEDUCED: assumption 73. -/
def PortSt.lostDie (x : PortSt) : PortSt :=
  { initPort with lanes := x.lanes, deskew := x.deskew, agreed := x.agreed, declared := x.declared }

/-- A coder keeps the tables in force (R366). -/
def Coder.lost (k : Coder) : Coder :=
  { k with counts := [], due := [], prevIdx := none, prevRows := [], blocks := 0, rawBlocks := 0 }

/-- Contexts, ports, slices and coders lose their running state. -/
def State.pathLost (s : State) : State :=
  let s := (List.range 12).foldl (fun (s : State) (c : Nat) =>
    let s := (s.setCtx c (s.ctx c).lost).setPort c (s.port c).lostDie
    (s.setCoder c (s.coder c).lost).setFld (zlpStatusState c) 0) s
  let s := (List.range 4).foldl (fun (s : State) (k : Nat) =>
    s.setSlice k { initSlice with lost := (s.slice k).lost, idleSince := s.clock }) s
  let cs := s.ring.chunks.map (fun (k : Chunk) => { k with opened := false })
  { s with ring := { s.ring with chunks := cs }, seam := initSeam, ovw := { initOvw with number := s.ovw.number }, statHeld := [] }

/-- Running jobs go back to their last unit boundary (R478, R479); a check job asks again for what had not come.
DEDUCED: assumption 61. -/
def State.jobsParked (s : State) : State :=
  let g (j : Job) : Job := if j.par.kind = .check then { j with outPos := j.consumed } else j
  let f (j : Job) : Job := if j.phase = .running ∨ j.phase = .ringWait then { g j with phase := .queued } else j
  { s with jobs := s.jobs.map f }

/-- Pennants, journal and Planner lose what stood on the die. DEDUCED: assumption 61. -/
def State.workLost (s : State) : State :=
  let mark (p : Pennant) : Pennant := { p with flags := p.flags ||| 4 }
  { s with
    pen := { s.pen with queue := s.pen.queue.map mark, gathered := s.pen.queue.length, discards := [] }
    jnl := { s.jnl with snaps := [], catchPos := [], matchLeft := [], matchParts := [], partsSince := [], restartGaps := [],
                        replayPen := [] }
    pln := { s.pln with compiling := none, sets := [], commit := none, fault := none, loaded := false, queued := [], due := [],
                        fallbacks := [], awaitCamera := false }
    mem := { s.mem with hotDue := none, coolSince := none }
    cal := { s.cal with runs := [] }
    crcs := s.crcs.filter (fun e => e.2.job.isSome) }

/-- A timed output goes to its inactive level and forgets its edges. -/
def State.toutLost (s : State) (t : Nat) : State :=
  let o := s.tout t
  let s := s.setTout t { initTout with plan := o.plan }
  if o.high.isSome then s.emit (.tout t (s.toutLevel t false) s.taiNs) else s

/-- Time unit, event routing, fabric engine and encoders lose what stood on the die; host claims end (R715). -/
def State.timingLost (s : State) : State :=
  let s := (List.range 16).foldl State.toutLost s
  let s := (List.range 4).foldl (fun (s : State) (k : Nat) =>
    s.setEnc k { s.enc k with index := none, run := 0, window := 0, redRef := none, agree := 0, handover := false }) s
  let s := (List.range 2).foldl (fun (s : State) (e : Nat) => (s.setEth e { s.eth e with downSince := none, pausedAt := none, wireUntil := 0 }).setFld (hspPortLink e) 0) s
  { s with
    latches := []
    tim := { s.tim with f := 0, r := 0, streak := 0, master := none, foreign := [], asMaster := false, step := none, ports := [],
                        residence := [], queues := [], paceNext := 0 }
    evt := { s.evt with flights := [], waiting := [], ringBusy := [], cells := [], sync0 := s.evt.pins, sync1 := s.evt.pins,
                        claims := s.evt.claims.filter (fun e => decide (e.2 < 2 ∨ 5 < e.2)) }
    fab := { s.fab with stripOut := [], peers := [], seen := [], outs := [], orders := [], ready := [], lost := [], lostGaps := [], strips := [],
                        snaps := [], snapDesc := none, prevCoord := s.get64 fabCoordLo } }

/-- The registers of power control, which the always-on domain keeps. -/
def inPwr (a : Nat) : Bool := decide (0x1000 ≤ a ∧ a < 0x103C)

/-- The numeric entries of the Warm column (R17); PWR_MODE follows the modes themselves, and the other power registers take
theirs when SUNRISE completes. DEDUCED: assumption 62. -/
def State.regsWarm (s : State) (power : Bool) : State :=
  s.regs.foldl (fun (t : State) (e : Nat × Word) =>
    if e.1 = pwrMode ∨ (inPwr e.1 && !power) = true then t else t.setReg e.1 (warmWord e.1 e.2)) s

/-- The die loses its state (R492): every journal entry has reached memory, every unit forgets what it held on the die.
DEDUCED: assumption 62. -/
def State.dieLost (s : State) : State :=
  let s := s.aoTake.jnlMerge
  let s := (List.range 4).foldl State.sessDown s
  (s.pathLost.jobsParked.workLost.timingLost).regsWarm false

/-! ### Axes without power -/

/-- The motor bridges turn off at once (R765 step 1, R671, R687): motion ends, compares are missed, marks skipped. -/
def State.axisOff (s : State) (x : Nat) : State :=
  if s.axIs x 0 then s
  else
    let s := s.hardStop x []
    let s := (s.ax x).compares.foldl (fun (s : State) c => s.missCompare x c) s
    ((s.setAx x { s.ax x with coilsOn := false }).axUncertain x).axCoils x

/-- Both axes lose motor power. -/
def State.bridgesOff (s : State) : State := ((s.axisOff 0).axisOff 1).emit (.power 0 false)

/-- Both axes stop where motion logic loses its clock (R671, R741). -/
def State.axesHalt (s : State) : State :=
  [0, 1].foldl (fun (s : State) (x : Nat) =>
    if s.axIs x 0 then s
    else
      let s := s.hardStop x []
      (s.ax x).compares.foldl (fun (s : State) c => s.missCompare x c) s) s

/-! ### Starts -/

/-- A start step has not ended yet. -/
def State.startClear (s : State) : State :=
  { s with pwr := { s.pwr with step := 0, done := [], retry := false, duskStep := 0, duskDesc := none, afterStop := none, latched := [] } }

/-- SUNRISE begins (R750, R759). -/
def State.startSunrise (s : State) (before : Nat) : State :=
  let s := (s.startClear.setFld pwrModeBeforeStart before).setFld pwrModeTarget 7
  ({ s with pwr := { s.pwr with resumeStart := false } }).enterMode 2

/-- Fields that show what is fitted or measured, which a start does not change. DEDUCED: assumption 65. -/
def measuredFlds : List Fld :=
  (List.range 12).map zlpStatusPresent ++ [hspPortPresent 0, hspPortMedia 0, hspPortPresent 1, hspPortMedia 1, axStatusLowActive 0,
    axStatusHighActive 0, axStatusLowActive 1, axStatusHighActive 1]

/-- Every register outside power control at its cold start (R17). DEDUCED: assumptions 62 and 65. -/
def State.regsCold (s : State) : State :=
  let keep := measuredFlds.map (fun f => (f, s.fld f))
  let s := s.regs.foldl (fun (t : State) (e : Nat × Word) => if inPwr e.1 then t else t.setReg e.1 (coldStartWord e.1 e.2)) s
  s.setFlds keep

/-- What flash gives the registers at a cold start (R434, R594, R597). -/
def State.flashRegs (s : State) : State :=
  let f := s.pwr.flash
  let s := (s.setFldInt (timAsymF 0) (intAt f.asym 0)).setFldInt (timAsymF 1) (intAt f.asym 1)
  s.setFldInt timAoTrimF f.aoTrim

/-- A memory channel at a cold start: the training values of flash (R446). -/
def flashMc (f : Flash) : Tbl McSt :=
  f.training.foldl (fun (t : Tbl McSt) (e : Nat × Nat × Int) => tblSet t initMc e.1 { initMc with storedVref := e.2.2 }) []

/-- The inputs of a feedback channel outlast every start; its count does not outlast a cold one (R17).
DEDUCED: assumption 65. -/
def EncSt.levels (e : EncSt) : EncSt := { initEnc with a := e.a, b := e.b, z := e.z }

/-- A session after a cold start: its key, from flash. -/
def Sess.cold (x : Sess) : Sess := { initSess with key := x.key }

/-- Everything volatile is lost and power control begins DAWN (R757, R766). DEDUCED: assumption 65. -/
def State.startDawn (s : State) : State :=
  let pwr : PwrSt := { s.pwr with
    step := 0, done := [], retry := false, resumeStart := false, faultMode := 0, duskStep := 0, duskDesc := none, afterStop := none,
    critical := false, latched := [], dramKept := false, recordValid := false, holding := false, freset := false, limiting := false,
    engineLost := [], watchdog := List.replicate 4 s.clock }
  let servo := if s.pwr.inserted then 0 else 1
  let ss := (List.range 4).foldl (fun (t : Tbl Sess) (n : Nat) => tblSet t initSess n (s.session n).cold) []
  let es := (List.range 4).foldl (fun (t : Tbl EncSt) (k : Nat) => tblSet t initEnc k (s.enc k).levels) []
  let z : State := { State.reset with
    pending := s.pending, clock := s.clock, freeIdx := s.freeIdx, out := s.out, regs := s.regs, sess := ss, encs := es, pwr := pwr
    tim := { initTim with tai := s.tim.tai, aoTrim := s.pwr.flash.aoTrim }
    evt := { initEvt with pins := s.evt.pins, sync0 := s.evt.pins, sync1 := s.evt.pins }
    mem := { initMem with chans := flashMc s.pwr.flash } }
  let z := (z.regsCold.flashRegs.setFld timStatusServo servo).setFld pwrModeTarget 7
  let z := (z.setReg pwrDomainsLo 1#32).setReg pwrDomainsHi 0#32
  z.enterMode 1

/-- A fault that only a warm start mends (R742, R750, R778): DUSK is not passed. -/
def State.warmFault (s : State) : State :=
  let before := s.mode
  let s := s.axesHalt.dieLost
  ({ s with pwr := { s.pwr with faultMode := before } }).startSunrise before

/-! ### NIGHT -/

/-- A wake source of R751 is heeded: bit 1 is always enabled, but not while a critical temperature cools down; after a failed
DAWN no other source is. DEDUCED: assumption 66. -/
def State.wakeHeeded (s : State) (b : Nat) : Bool :=
  s.pwr.supply && !s.pwr.holding && (decide (b = 1) || bitAt (s.fld pwrCtrlWakeEn) b) && (decide (b = 1) || !s.pwr.blocked) &&
    (decide (b ≠ 1) || !s.pwr.ignoreWake)

/-- NIGHT is left on a wake source (R746). -/
def State.leaveNight (s : State) : State :=
  let s := s.fire 381
  if s.pwr.recordValid ∧ s.pwr.dramKept ∧ s.pwr.blocked = false then s.startSunrise s.pwr.faultMode else s.startDawn

/-- DUSK leads to NIGHT. -/
def State.duskToNight (s : State) : Bool := s.mode = 6 && decide (2 ≤ s.fld pwrModeTarget ∧ s.fld pwrModeTarget ≤ 4)

/-- A wake source arises (R751): in NIGHT it ends it; in DUSK toward NIGHT it is latched. -/
def State.wakeSource (s : State) (b : Nat) : State :=
  if s.duskToNight then
    if s.pwr.latched.contains b then s else { s with pwr := { s.pwr with latched := s.pwr.latched ++ [b] } }
  else if s.mode = 0 ∧ s.wakeHeeded b = true then s.leaveNight
  else s

/-- Encoder motion in NIGHT wakes the module (R658, R751 bit 0). -/
def State.wakeMotion (s : State) : State := s.wakeSource 0

/-- NIGHT is entered, with DRAM in self-refresh or without (R456, R743, R746, R751). -/
def State.toNight (s : State) (dram : Bool) : State :=
  let latched := s.pwr.latched
  let s := s.dieLost
  let s := (List.range 4).foldl (fun (s : State) (k : Nat) => s.setEnc k { s.enc k with aoEntry := (s.enc k).ao, lastEdge := none }) s
  let s := (List.range 16).foldl (fun (s : State) (m : Nat) =>
    s.setFld (mcStatusState m) (if dram ∧ s.fld (mcStatusState m) ≠ 0 then 4 else 0)) s
  let s := (s.setReg pwrDomainsLo 1#32).setReg pwrDomainsHi 0#32
  let s := (s.startClear.emit (.power 2 false)).setFld pwrModeTarget 7
  let s := ({ s with pwr := { s.pwr with dramKept := dram } }).enterMode 0
  match latched.find? s.wakeHeeded with
  | none => s
  | some _ => s.leaveNight

/-! ### Power domains -/

/-- Domain `d` is on once a start has ended (R743). DEDUCED: assumption 77. -/
def State.domainDue (s : State) (d : Nat) : Bool :=
  if d ≤ 12 then decide (d = 0) || s.pln.plan.isNone || s.flag (zlpCtrlPortEn (d - 1))
  else if d ≤ 16 then !(s.slice (d - 13)).lost
  else if d ≤ 20 then !(s.slice (d - 17)).lost
  else if d = 21 then s.ovwSess.isSome && s.pln.plan.isSome && decide (s.fld ovwWidthF ≠ 0)
  else if d = 22 then true
  else if d ≤ 24 then !s.pwr.engineLost.contains (d - 23)
  else if d ≤ 40 then decide (s.fld (mcStatusState (d - 25)) ≠ 0)
  else if d ≤ 42 then s.flag (hspPortPresent (d - 41))
  else if d = 43 then s.flag fabCtrlEnable
  else if d ≤ 45 then true
  else match s.pln.plan with | some p => !p.outs.axes.isEmpty | none => false

/-- Every domain as R743 has it once a start has ended. -/
def State.domainsUp (s : State) : State := (List.range 48).foldl (fun (s : State) (d : Nat) => s.setDomain d (s.domainDue d)) s

/-- The watchdogs of the control cores begin anew. DEDUCED: assumption 66. -/
def State.watchdogsServed (s : State) : State := { s with pwr := { s.pwr with watchdog := List.replicate 4 s.clock } }

end Sys2Proof.Machine
end

