-- ==== Sys2Proof/Machine/Encoders.lean ====
section
/-! DEFINITION. Web encoders and feedback inputs (R635 to R659): decoding, the count and its extension, the index
check, trigger dividers, counting in NIGHT. -/

namespace Sys2Proof.Machine

/-! ### Decoding -/

/-- Position of a quadrature state in the forward order 00, 01, 11, 10 (R636). -/
def quadPos (a b : Bool) : Nat := match a, b with | false, false => 0 | false, true => 1 | true, true => 2 | true, false => 3

/-- Number, from 1, of a valid Hall state in the forward order 100, 110, 010, 011, 001, 101; 0 for 000 and 111 (R637). -/
def hallPos (u v w : Bool) : Nat :=
  match u, v, w with
  | true, false, false => 1
  | true, true, false => 2
  | false, true, false => 3
  | false, true, true => 4
  | false, false, true => 5
  | true, false, true => 6
  | _, _, _ => 0

/-- What a change of the inputs is: nothing to count, a legal step, an illegal transition with its size and, for a
Hall change that skips one state, its direction, or an invalid Hall state (R636 to R640). -/
inductive EncChange where
  | none
  | step (d : Int)
  | illegal (size : Nat) (dir : Option Int)
  | invalid
  deriving DecidableEq, Repr

/-- Decode a quadrature change (R636). -/
def quadChange (a b a' b' : Bool) : EncChange :=
  match (quadPos a' b' + 4 - quadPos a b) % 4 with
  | 0 => .none
  | 1 => .step 1
  | 3 => .step (-1)
  | _ => .illegal 2 none

/-- Decode a Hall change from the last valid state `h` (R637, R638, R640). -/
def hallChange (h h' : Nat) : EncChange :=
  if h' = 0 then .invalid
  else if h = 0 then .none
  else match (h' + 6 - h) % 6 with
  | 0 => .none
  | 1 => .step 1
  | 5 => .step (-1)
  | 2 => .illegal 2 (some 1)
  | 4 => .illegal 2 (some (-1))
  | _ => .illegal 3 none

/-- The change that new levels bring to a channel in its mode. -/
def encDecode (mode : Nat) (e : EncSt) (a b z : Bool) : EncChange :=
  match mode with
  | 1 => quadChange e.a e.b a b
  | 2 => hallChange e.hall (hallPos a b z)
  | _ => .none

/-- The channel after it has taken the new levels. -/
def EncSt.take (e : EncSt) (a b z : Bool) : EncSt :=
  let h := hallPos a b z
  { e with a := a, b := b, z := z, hall := if h = 0 then e.hall else h }

/-! ### Counting -/

/-- Direction invert (R636). -/
def State.encSign (s : State) (k : Nat) : Int := if s.flag (encCtrlInvert k) then -1 else 1

/-- The prevailing direction (R642). -/
def State.prevailing (s : State) (k : Nat) : Int := if s.flag (encStatusDirection k) then -1 else 1

/-- One divider takes a count change (R656, R651): at most one trigger, then below D. -/
def State.divide (s : State) (k : Nat) (first : Bool) (pd : Nat × Nat) (d : Int) : State :=
  let acc := s.divider pd.1 + d * 2 ^ 32
  if (pd.2 : Int) ≤ acc then
    ((s.setDivider pd.1 (acc % pd.2)).lineTrigger pd.1).fireIf first (296 + 6 * k + 5)
  else s.setDivider pd.1 acc

/-- A count change reaches what the reference web encoder drives: dividers, web compares, lines that pass a port that
is down (R317, R656, R689). -/
def State.encDrives (s : State) (k : Nat) (d : Int) : State :=
  if k ≠ s.refEnc then s
  else
    let ps := s.dividerPorts
    let low := (ps.map Prod.fst).headD 12
    let s := ps.foldl (fun s pd => s.divide k (decide (pd.1 = low)) pd d) s
    (if 0 < d then s.webCompares else s).passDown

/-- The count changes by `d` (R644, R645): ENC_COUNT, ENC_POS, the speed window, and what it drives. -/
def State.encCount (s : State) (k : Nat) (d : Int) : State :=
  let c := ofSigned 32 ((s.fld (encCountF k) : Int) + d)
  let e := s.enc k
  let s := (s.setFld (encCountF k) c).setEnc k { e with window := e.window + d }
  (s.setInt64 (encPosLo k) (s.encPos k)).encDrives k d

/-- A legal step sets the prevailing direction; a change of it fires REVERSED (R642, R663). -/
def State.encDirection (s : State) (k : Nat) (d : Int) : State :=
  let r := decide (d < 0)
  (s.setFlag (encStatusDirection k) r).fireIf (r != s.flag (encStatusDirection k)) (296 + 6 * k + 4)

/-- ENCODER_SUSPECT becomes 1 (R652, R663). DEDUCED: assumptions 27 and 77. -/
def State.encSuspect (s : State) (k : Nat) : State :=
  (s.setFld (encStatusEncoderSuspect k) 1).fireIf (!s.flag (encStatusEncoderSuspect k)) (296 + 6 * k + 2)

/-- An illegal transition is flagged and counted (R640, R641). -/
def State.encIllegal (s : State) (k : Nat) : State :=
  ((s.setFld (encStatusIllegalStep k) 1).bump (encCntIllegalF k) 1).fire (296 + 6 * k + 3)

/-- An invalid Hall state is flagged and counted (R638). -/
def State.encInvalid (s : State) (k : Nat) : State :=
  ((s.setFld (encStatusHallInvalid k) 1).bump (encCntHallInvalidF k) 1).fire (296 + 6 * k + 3)

/-- An illegal transition advances the count in NOON and AFTERNOON outside re-qualification (R640), elsewhere not (R641). -/
def State.encGuess (s : State) (k size : Nat) (dir : Option Int) : State :=
  let s := s.encIllegal k
  if s.inspecting && !s.flag (encStatusRequalifying k) then
    let d := match dir with | some v => v * s.encSign k | none => s.prevailing k
    s.encCount k (d * size)
  else s

/-- The always-on domain counts an edge (R658, R659); its wake rules apply in NIGHT only. DEDUCED: assumption 109. -/
def State.aoCount (s : State) (k : Nat) (d : Int) : State :=
  let e := s.enc k
  let fast : Bool := match e.lastEdge with | some t => decide (s.clock < t + 313) | none => false
  let s := s.setEnc k { e with ao := e.ao + d, lastEdge := some s.clock }
  let s := if fast then (s.setFld (encStatusNightOverspeed k) 1).encSuspect k else s
  let moved := decide (s.fld (encWakeF k) < ((e.ao + d) - e.aoEntry).natAbs)
  if s.mode = 0 ∧ (fast ∨ moved) then s.wakeMotion else s

/-- ENCODER_EDGE (R635 to R642, R656, R658, R689): accepted levels of a channel's inputs. DEDUCED: assumption 112. -/
def execEncoderEdge (k : EncId) (a b z : Bool) (s : State) : Host.Outcome State Fault Refusal :=
  let e := s.enc k
  let ch := encDecode (s.fld (encCtrlMode k)) e a b z
  let s := s.setEnc k (e.take a b z)
  let main := s.mainCounts
  let ao := s.aoCounts k
  .next (match ch with
    | .none => s
    | .step d =>
      let d := d * s.encSign k
      let s := s.encDirection k d
      let s := if main then s.encCount k d else s
      if ao then s.aoCount k d else s
    | .illegal size dir =>
      let s := if main then s.encGuess k size dir else s.encIllegal k
      if ao then s.aoCount k 0 else s
    | .invalid => s.encInvalid k)

/-! ### Index check -/

/-- d of R650 is off its nominal by more than the tolerance. -/
def State.encMismatch (s : State) (k : Nat) (d : Int) : Bool :=
  let n := s.fld (encNominalF k)
  decide (n ≠ 0 ∧ s.fld (encTolF k) < ((d.natAbs : Int) - n).natAbs)

/-- A mismatch is flagged and counted; the second in a row sets ENCODER_SUSPECT (R650, R652). -/
def State.encMiss (s : State) (k : Nat) : State :=
  let s := ((s.setFld (encStatusIndexMismatch k) 1).bump (encCntMismatchF k) 1).fire (296 + 6 * k + 1)
  let e := s.enc k
  let s := s.setEnc k { e with run := e.run + 1 }
  if 2 ≤ e.run + 1 then s.encSuspect k else s

/-- The redundant encoder confirms the reference at its own index pulses (R653): two consecutive revolutions on which
the reference advanced by its nominal count clear the reference's ENCODER_SUSPECT. -/
def State.redConfirm (s : State) (k : Nat) : State :=
  let isRed := match s.pln.plan with | some p => decide (p.redEnc = some k) | none => false
  if !isRed || decide (s.fld (encNominalF k) = 0) || s.flag (encStatusEncoderSuspect k) then s
  else
    let r := s.refEnc
    let c := s.fld (encCountF r)
    let e := s.enc k
    let good := match e.redRef with
      | none => false
      | some p => decide (s.fld (encNominalF r) ≠ 0) && !s.encMismatch r (toSigned 32 (ofSigned 32 ((c : Int) - p)))
    let n := if good then e.agree + 1 else 0
    let s := s.setEnc k { e with redRef := some c, agree := n }
    if 2 ≤ n then s.setFld (encStatusEncoderSuspect r) 0 else s

/-- The check of one index pulse (R650 to R652). DEDUCED: assumption 112. -/
def State.indexCheck (s : State) (k prev : Nat) : State :=
  let c := s.fld (encCountF k)
  let d := toSigned 32 (ofSigned 32 ((c : Int) - prev))
  let s := s.setFldInt (encIndexDeltaF k) d
  if s.encMismatch k d then
    let s := s.encMiss k
    if s.flag (encCtrlRezero k) then
      let want := (prev : Int) + s.fld (encNominalF k) * (if d < 0 then -1 else if d = 0 then 0 else 1)
      s.encCount k (toSigned 32 (ofSigned 32 (want - c)))
    else s
  else s.setEnc k { s.enc k with run := 0 }

/-- INDEX_PULSE (R643, R650 to R653): a rising edge of Z in quadrature mode; it ends re-qualification.
DEDUCED: assumption 112. -/
def execIndexPulse (k : EncId) (s : State) : Host.Outcome State Fault Refusal :=
  if s.fld (encCtrlMode k) ≠ 1 ∨ s.mainCounts = false then .next s
  else
    let s := s.fire (296 + 6 * k)
    let s := match (s.enc k).index with
      | none => s
      | some p => s.indexCheck k p
    let c := s.fld (encCountF k)
    let s := ((s.setEnc k { s.enc k with index := some c }).setFld (encIndexPosF k) c).setFld (encStatusRequalifying k) 0
    .next (s.redConfirm k)

/-- EXTENSION_READ (R645): firmware reads the count and moves its base pair. -/
def execExtensionRead (k : EncId) (s : State) : Host.Outcome State Fault Refusal :=
  if s.fld (encCtrlMode k) = 0 then .next s
  else
    let p := s.encPos k
    .next ((s.setEnc k { s.enc k with base := p, rawBase := s.fld (encCountF k) }).setInt64 (encPosLo k) p)

/-- SPEED_WINDOW (R649): net count over T_w, rounded toward zero, in counts/s. -/
def execSpeedWindow (k : EncId) (s : State) : Host.Outcome State Fault Refusal :=
  let w := s.fld (encWindowF k)
  if w = 0 then .next s
  else
    let n := (s.enc k).window
    .next ((s.setFldInt (encSpeedF k) (satS 32 (Int.tdiv (n * 1000000) w))).setEnc k { s.enc k with window := 0 })

/-- REQUALIFICATION_END (R643): after 1 ms on a channel whose index check is off. -/
def execRequalificationEnd (k : EncId) (s : State) : Host.Outcome State Fault Refusal :=
  if s.fld (encCtrlMode k) = 2 ∨ s.fld (encNominalF k) = 0 then .next (s.setFld (encStatusRequalifying k) 0) else .next s

/-- HANDOVER_COMPARE (R659): 1 ms after the handover both counters must agree; re-qualification follows. -/
def execHandoverCompare (k : EncId) (s : State) : Host.Outcome State Fault Refusal :=
  if (s.enc k).handover then
    let s1 := if s.encPos k = (s.enc k).ao then s else s.encSuspect k
    .next ((s1.setEnc k { s1.enc k with handover := false, index := none }).setFld (encStatusRequalifying k) 1)
  else .next s

/-- The effect of an ENCODER_CLEAR descriptor (R653, R655). -/
def encoderClearEffect (n : Nat) (d : OutDesc) (s : State) : State :=
  let k := d.par 0x10 1
  if 4 ≤ k then s.badParam n d 0x10
  else ((s.setEnc k { s.enc k with run := 0 }).setFld (encStatusEncoderSuspect k) 0).doneDesc n d []

/-- ENCODER_CLEAR (0x4B). -/
def execEncoderClear (n : SessId) (idx : Nat) (s : State) : Host.Outcome State Fault Refusal :=
  .next (s.runDesc n idx 0x4B modesMNA (encoderClearEffect n))

end Sys2Proof.Machine
end

