-- ==== Sys2Proof/Machine/Recipe.lean ====
section
/-! DEFINITION. Recipes (R388 to R396): records, their structure and ranges, and what a plan takes from the records whose
bodies the manual lays out byte by byte. -/

namespace Sys2Proof.Machine

/-- A record of a recipe (R388). -/
structure Rec where
  ty : Nat
  inst : Nat
  bytes : List Byte
  deriving DecidableEq, Repr

/-- The RECIPE record at an offset (R389, R413). -/
def recipeAt (st off : Nat) : PlanStatus := ⟨st, 1, 0xFF, off⟩

/-- Cut a recipe into records; the refusal of a length field that no record can have, or that passes the recipe's end. -/
def cutRecs : Nat → List Byte → List Rec × Option PlanStatus
  | 0, _ => ([], none)
  | f + 1, b =>
    if b = [] then ([], none)
    else
      let n := leAt b 4 4
      let ty := leAt b 0 2
      let inst := leAt b 2 1
      if b.length < 16 then ([], some (recipeAt 4 0x18))
      else if n < 16 ∨ n % 8 ≠ 0 then ([], some ⟨3, ty, inst, 4⟩)
      else if b.length < n then ([], some (recipeAt 4 0x18))
      else
        let r := cutRecs f (b.drop n)
        (⟨ty, inst, b.take n⟩ :: r.1, r.2)

/-- Record `ty` of instance `inst`. -/
def findRec (rs : List Rec) (ty inst : Nat) : Option Rec := rs.find? (fun r => decide (r.ty = ty ∧ r.inst = inst))

/-- Instances of a record type (R390): none for an unused type. -/
def recInstances (ty : Nat) : Option (Nat → Bool) :=
  let port (i : Nat) : Bool := decide (i < 12)
  if [0x0001, 0x0002, 0x0060, 0x0080, 0x0090].contains ty then some (fun i => decide (i = 0xFF))
  else if [0x0010, 0x0011, 0x0020, 0x0021, 0x0022, 0x0023, 0x0024, 0x0025, 0x0030, 0x0040, 0x0050].contains ty then some port
  else if [0x0041, 0x0042, 0x0043].contains ty then some (fun i => port i || decide (i = 0xFF))
  else if [0x0051, 0x0072].contains ty then some (fun i => decide (i < 16))
  else if ty = 0x0070 then some (fun i => decide (i < 4))
  else if ty = 0x0071 then some (fun i => decide (i < 2))
  else none

/-- Bank-class record types (R390). -/
def bankClass (ty : Nat) : Bool := [0x20, 0x21, 0x22, 0x23, 0x25, 0x30, 0x40, 0x41, 0x42, 0x43].contains ty

/-- The first defect of a record by itself (R388, R389, R390). DEDUCED: assumption 46. -/
def recDefect (r : Rec) : Option PlanStatus :=
  match recInstances r.ty with
  | none => some ⟨2, r.ty, r.inst, 0⟩
  | some ok =>
    if leAt r.bytes 3 1 ≠ 1 then some ⟨2, r.ty, r.inst, 3⟩
    else if leAt r.bytes 12 4 ≠ (crc32c (r.bytes.drop 16)).toNat then some ⟨1, r.ty, r.inst, 12⟩
    else if ok r.inst then none
    else some ⟨3, r.ty, r.inst, 2⟩

/-- The first record whose type and instance an earlier one has. -/
def recTwice : List (Nat × Nat) → List Rec → Option PlanStatus
  | _, [] => none
  | seen, r :: rs => if seen.contains (r.ty, r.inst) then some ⟨4, r.ty, r.inst, 0⟩ else recTwice ((r.ty, r.inst) :: seen) rs

/-- The first of several checks that refuses. DEDUCED: assumption 46. -/
def firstRefusal (l : List (Option PlanStatus)) : Option PlanStatus := (l.filterMap id).head?

/-- Refuse where a condition holds. -/
def refuseIf (b : Bool) (st : PlanStatus) : Option PlanStatus := if b then some st else none

/-! ### Fields -/

/-- A field of a record body: type, offset, size, signed, default (absent: none), ranges (R391 to R396). -/
structure RecField where
  ty : Nat
  off : Nat
  size : Nat
  signed : Bool
  dflt : Option Int
  ranges : List (Int × Int)
  deriving DecidableEq, Repr

/-- The value of a field; a record too short to hold it takes the default. DEDUCED: assumption 46. -/
def RecField.value (f : RecField) (r : Rec) : Option Int :=
  if f.off + f.size ≤ r.bytes.length then
    let v := leAt r.bytes f.off f.size
    some (if f.signed then toSigned (8 * f.size) v else (v : Int))
  else f.dflt

/-- Fields of the RECIPE and WEB records (R391, R392). -/
def webFields : List RecField := [
  ⟨0x01, 0x10, 2, false, some 0, []⟩, ⟨0x01, 0x14, 4, false, none, [(4, 4096)]⟩, ⟨0x01, 0x18, 8, false, none, []⟩,
  ⟨0x01, 0x40, 4, false, some 0, [(0, 0), (50, 10000000)]⟩, ⟨0x01, 0x44, 4, false, some 10000, [(0, 600000)]⟩,
  ⟨0x01, 0x48, 2, false, some 0x200, [(0x100, 0x1000)]⟩,
  ⟨0x02, 0x10, 4, false, none, [(1000, 1000000)]⟩, ⟨0x02, 0x14, 4, false, some 0, [(0, 0), (1000, 1000000)]⟩,
  ⟨0x02, 0x18, 8, false, none, [(1, 18446744073709551615)]⟩, ⟨0x02, 0x20, 1, false, some 0, [(0, 3)]⟩,
  ⟨0x02, 0x21, 1, false, some 1, [(0, 3), (255, 255)]⟩, ⟨0x02, 0x24, 4, false, none, [(1, 50000)]⟩,
  ⟨0x02, 0x28, 4, false, none, []⟩, ⟨0x02, 0x2C, 4, false, some 0, []⟩, ⟨0x02, 0x30, 8, true, none, []⟩, ⟨0x02, 0x38, 8, true, none, []⟩]

/-- Fields of the CAMERA and MOUNT records (R393, R394). -/
def camFields : List RecField := [
  ⟨0x10, 0x10, 8, false, some 0, []⟩, ⟨0x10, 0x18, 1, false, some 4, [(4, 4), (8, 8)]⟩, ⟨0x10, 0x19, 1, false, none, [(1, 4)]⟩,
  ⟨0x10, 0x1A, 2, false, none, [(1, 32768)]⟩, ⟨0x10, 0x1C, 1, false, none, [(8, 16)]⟩, ⟨0x10, 0x1D, 1, false, some 0, [(0, 2)]⟩,
  ⟨0x10, 0x1E, 1, false, some 0, [(0, 16)]⟩, ⟨0x10, 0x1F, 1, false, some 8, [(0, 15)]⟩, ⟨0x10, 0x20, 4, false, none, []⟩,
  ⟨0x10, 0x24, 8, false, some 0, []⟩, ⟨0x10, 0x2C, 4, false, some 0, []⟩, ⟨0x10, 0x30, 1, false, some 2, [(0, 4)]⟩,
  ⟨0x10, 0x31, 1, false, some 10, []⟩, ⟨0x10, 0x32, 2, false, some 0, [(0, 256)]⟩,
  ⟨0x11, 0x10, 8, true, none, []⟩, ⟨0x11, 0x18, 1, false, none, [(0, 3)]⟩, ⟨0x11, 0x19, 1, false, none, [(1, 7)]⟩]

/-- Fields of the OUTPUTS (its statistics buffers), ENCODER, MARKER, TOUT and FABRIC records (R396). -/
def ioFields : List RecField :=
  (List.range 12).map (fun p => (⟨0x60, 0x18 + 16 * p, 8, false, some 0, []⟩ : RecField)) ++ [
  ⟨0x70, 0x10, 8, false, some 1, [(0, 2)]⟩, ⟨0x70, 0x18, 8, false, some 20, [(0, 1000)]⟩, ⟨0x70, 0x20, 8, false, some 0, [(0, 1)]⟩,
  ⟨0x70, 0x28, 8, false, some 0, [(0, 4294967295)]⟩, ⟨0x70, 0x30, 8, false, some 4, [(0, 65535)]⟩, ⟨0x70, 0x38, 8, false, some 0, [(0, 1)]⟩,
  ⟨0x70, 0x40, 8, false, some 100, [(10, 10000)]⟩, ⟨0x70, 0x48, 8, false, some 64, [(1, 2147483647)]⟩,
  ⟨0x71, 0x10, 8, true, none, []⟩, ⟨0x71, 0x18, 8, false, none, [(0, 4294967295)]⟩,
  ⟨0x71, 0x20, 8, true, none, [(-549755813888, 549755813887)]⟩, ⟨0x71, 0x28, 8, true, none, [(-549755813888, 549755813887)]⟩,
  ⟨0x71, 0x30, 8, false, none, []⟩, ⟨0x71, 0x38, 8, false, none, []⟩, ⟨0x71, 0x40, 8, false, none, []⟩,
  ⟨0x71, 0x48, 8, false, none, [(0, 3000)]⟩, ⟨0x71, 0x50, 8, false, none, [(0, 3000)]⟩, ⟨0x71, 0x58, 8, false, some 255, [(0, 3), (255, 255)]⟩,
  ⟨0x71, 0x60, 8, false, some 0, [(0, 1)]⟩, ⟨0x71, 0x68, 8, false, some 0, [(0, 1)]⟩, ⟨0x71, 0x70, 8, false, some 0, [(0, 1)]⟩,
  ⟨0x71, 0x78, 8, false, none, [(0, 15)]⟩, ⟨0x71, 0x80, 8, false, some 10000, [(100, 100000000)]⟩,
  ⟨0x72, 0x10, 8, false, none, [(0, 5)]⟩, ⟨0x72, 0x18, 8, false, some 0, []⟩, ⟨0x72, 0x20, 8, false, some 0, []⟩,
  ⟨0x72, 0x28, 8, false, some 0, []⟩, ⟨0x72, 0x30, 8, false, some 0, []⟩, ⟨0x72, 0x38, 8, false, some 0, [(0, 1)]⟩,
  ⟨0x90, 0x10, 8, false, none, [(0, 1)]⟩, ⟨0x90, 0x18, 8, false, none, [(1, 32)]⟩, ⟨0x90, 0x20, 8, false, some 0, []⟩,
  ⟨0x90, 0x28, 8, false, some 256, [(16, 1024)]⟩]

/-- Every field whose place the manual gives. -/
def recFields : List RecField := webFields ++ camFields ++ ioFields

/-- The field of type `ty` at offset `off`, 0 where it is absent. -/
def Rec.int (r : Rec) (off : Nat) : Int :=
  match recFields.find? (fun f => decide (f.ty = r.ty ∧ f.off = off)) with
  | some f => (f.value r).getD 0
  | none => 0

/-- The field as a natural number. -/
def Rec.nat (r : Rec) (off : Nat) : Nat := (r.int off).toNat

/-- Minimum inspection speed (R392): a hundredth of the maximum where the record does not hold it.
DEDUCED: assumption 46. -/
def Rec.minSpeed (r : Rec) : Nat := if 0x2C ≤ r.bytes.length then r.nat 0x28 else r.nat 0x24 / 100

/-- The first field of a record outside its range (R413 status 3). -/
def rangeDefect (r : Rec) : Option PlanStatus :=
  firstRefusal ((recFields.filter (fun f => decide (f.ty = r.ty))).map (fun f =>
    match f.value r with
    | none => if f.ty = 2 ∧ f.off = 0x28 then none else some ⟨3, r.ty, r.inst, f.off⟩
    | some v => refuseIf (!f.ranges.isEmpty && !f.ranges.any (fun q => decide (q.1 ≤ v ∧ v ≤ q.2))) ⟨3, r.ty, r.inst, f.off⟩))

/-- The ranges of the WEB record that span fields (R392). -/
def webDefect (r : Rec) : Option PlanStatus :=
  firstRefusal [refuseIf (decide (r.nat 0x20 = r.nat 0x21)) ⟨3, 2, 0xFF, 0x21⟩, refuseIf (decide (r.nat 0x24 ≤ r.minSpeed)) ⟨3, 2, 0xFF, 0x28⟩,
    refuseIf (decide (r.nat 0x24 < r.nat 0x2C)) ⟨3, 2, 0xFF, 0x2C⟩, refuseIf (decide (r.int 0x38 ≤ r.int 0x30)) ⟨3, 2, 0xFF, 0x38⟩]

/-- Ranges of a record that span its fields or depend on its instance (R202, R393, R394, R396, R586, R656). -/
def crossDefect (rs : List Rec) (r : Rec) : Option PlanStatus :=
  let bad (b : Bool) (off : Nat) : Option PlanStatus := refuseIf b ⟨3, r.ty, r.inst, off⟩
  if r.ty = 0x10 then
    firstRefusal [bad (decide (r.nat 0x18 = 8 ∧ r.inst % 2 = 1)) 0x18, bad (decide (r.nat 0x20 = 0)) 0x20,
      bad (decide (r.nat 0x1D = 0 ∧ r.nat 0x24 < 4 * 2 ^ 32)) 0x24,
      bad (decide (r.nat 0x1D = 1 ∧ (r.nat 0x2C < 50 ∨ 1000000000 < r.nat 0x2C))) 0x2C,
      bad (decide (r.bytes.length < 0x40 + 8 * r.nat 0x32 ∧ r.nat 0x32 ≠ 0)) 0x32]
  else if r.ty = 0x11 then
    let rows := match findRec rs 0x10 r.inst with | some c => c.nat 0x19 | none => 4
    firstRefusal [bad (decide (rows ≤ r.nat 0x18)) 0x18, bad (decide (leAt r.bytes (0x20 + 4 * r.nat 0x18) 4 ≠ 0)) (0x20 + 4 * r.nat 0x18),
      bad (!f64Finite (leAt r.bytes 0x30 8)) 0x30,
      bad (!f64Finite (leAt r.bytes 0x38 8) || !(f64OfInt 0).lt (f64OfBits (leAt r.bytes 0x38 8))) 0x38]
  else if r.ty = 0x60 then
    firstRefusal ((List.range 12).map (fun p => bad (decide (r.nat (0x18 + 16 * p) % 4096 ≠ 0)) (0x18 + 16 * p)))
  else if r.ty = 0x72 then
    firstRefusal [bad (decide (r.nat 0x10 ≠ 0 ∧ r.nat 0x28 < 10)) 0x28, bad (decide (r.nat 0x10 = 1 ∧ r.nat 0x20 < r.nat 0x28 + 10)) 0x20]
  else none

/-- R639: a web encoder's count rate at maximum speed against 40 Mcounts/s and its filter. -/
def encRate (rs : List Rec) (w : Rec) : Option PlanStatus :=
  firstRefusal ([w.nat 0x20, w.nat 0x21].map (fun k =>
    match findRec rs 0x70 k with
    | none => none
    | some e =>
      let n := w.nat 0x24 * 1000000 * 2 ^ 32
      let d := max 1 (w.nat 0x18)
      refuseIf (decide (40000000 * d < n ∨ 10 ^ 10 * d < n * (10 * e.nat 0x18 + 32))) ⟨3, 0x70, k, 0x18⟩))

/-- R219: a camera's line pitch at maximum web speed against p_y. -/
def pitchDefect (w c : Rec) : Option PlanStatus :=
  let py := if w.nat 0x14 = 0 then w.nat 0x10 else w.nat 0x14
  let v := w.nat 0x24
  let src := c.nat 0x1D
  let wide := if src = 0 then decide (py * 2 ^ 64 < c.nat 0x24 * w.nat 0x18)
    else if src = 1 then decide (py * 1000 < v * c.nat 0x2C)
    else decide (py * c.nat 0x20 < v * 1000000)
  refuseIf wide ⟨13, 0x10, c.inst, if src = 0 then 0x24 else if src = 1 then 0x2C else 0x20⟩

/-- R713, R715: a TOUT that two functions name. -/
def toutTwice (rs : List Rec) : Option PlanStatus :=
  let used (t kind p : Nat) : Bool := match findRec rs 0x72 t with
    | some q => decide (q.nat 0x10 ≠ 0) && !decide (q.nat 0x10 = kind ∧ q.nat 0x18 = p)
    | none => false
  let marks := (rs.filter (fun r => decide (r.ty = 0x71))).map (fun r => (r.nat 0x78, r.inst))
  let cams := (rs.filter (fun r => decide (r.ty = 0x10 ∧ r.nat 0x1E ≠ 0))).map (fun r => (r.nat 0x1E - 1, r.inst))
  firstRefusal (
    marks.map (fun m => refuseIf (used m.1 5 m.2 || marks.any (fun k => decide (k.1 = m.1 ∧ k.2 < m.2))) ⟨6, 0x71, m.2, 0x78⟩) ++
    cams.map (fun m => refuseIf (used m.1 3 m.2 || marks.any (fun k => decide (k.1 = m.1)) || cams.any (fun k => decide (k.1 = m.1 ∧ k.2 < m.2)))
      ⟨6, 0x10, m.2, 0x1E⟩))

/-- Columns of the grid that the WEB record needs outside a fabric (R834). -/
def webColumns (w : Rec) : Int × Nat :=
  let px := max 1 (w.nat 0x10)
  let x0 := w.int 0x30 / px * px
  (x0, ((w.int 0x38 - x0 + px - 1) / px).toNat)

/-! ### Checks -/

/-- R389 and R390: the structure of a recipe that a descriptor says is `len` bytes long. -/
def structDefect (len : Nat) (b : List Byte) : Option PlanStatus :=
  let q := cutRecs (b.length / 16 + 1) b
  let rs := q.1
  let order := match rs with
    | [] => some (recipeAt 4 0)
    | r :: _ => if r.ty = 1 then none else some (match findRec rs 1 0xFF with | some _ => ⟨4, r.ty, r.inst, 0⟩ | none => recipeAt 4 0)
  let count := match rs with
    | r :: _ => refuseIf (decide (leAt r.bytes 0x14 4 ≠ rs.length)) (recipeAt 4 0x14)
    | [] => none
  let total := match rs with
    | r :: _ => refuseIf (decide (leAt r.bytes 0x18 8 ≠ len ∨ b.length ≠ len)) (recipeAt 4 0x18)
    | [] => none
  let need (ty inst : Nat) : Option PlanStatus := refuseIf (findRec rs ty inst).isNone ⟨4, ty, inst, 0⟩
  firstRefusal ([refuseIf (decide (67108864 < len)) (recipeAt 4 0x18)] ++ rs.map recDefect ++ [q.2, order, recTwice [] rs, count, total,
    need 2 0xFF, need 0x60 0xFF] ++ (rs.filter (fun r => decide (r.ty = 0x10))).map (fun r => need 0x11 r.inst))

/-- The checks of R413 that the records' own bytes decide. DEDUCED: assumption 46. -/
def recipeDefect (len : Nat) (b : List Byte) : Option PlanStatus :=
  match structDefect len b with
  | some st => some st
  | none =>
    let rs := (cutRecs (b.length / 16 + 1) b).1
    match findRec rs 2 0xFF with
    | none => none
    | some w =>
      firstRefusal (rs.map rangeDefect ++ [webDefect w] ++ rs.map (crossDefect rs) ++ [encRate rs w, toutTwice rs] ++
        (rs.filter (fun r => decide (r.ty = 0x10))).map (pitchDefect w) ++
        [refuseIf ((findRec rs 0x90 0xFF).isNone && decide (393216 < (webColumns w).2)) ⟨10, 2, 0xFF, 0x38⟩])

/-! ### What a plan takes from the records -/

/-- Context entry `cp` of port `p` with the fields of its CAMERA and MOUNT records. -/
def ctxFromRecs (rs : List Rec) (p : Nat) (cp : CtxPlan) : CtxPlan :=
  match findRec rs 0x10 p, findRec rs 0x11 p with
  | some c, some m =>
    { cp with rows := c.nat 0x19, width := c.nat 0x1A, depth := c.nat 0x1C, encTrig := decide (c.nat 0x1D = 0),
              lines := 64 * 2 ^ c.nat 0x30, flushMs := c.nat 0x31, mount := m.int 0x10, refRow := m.nat 0x18 }
  | _, _ => cp

/-- Camera entry `k` of port `p` with the fields of its CAMERA record; the mosaic is the recipe's or the linked camera's
(R831). -/
def camFromRecs (rs : List Rec) (p : Nat) (mosaic : List Byte) (k : CamPlan) : CamPlan :=
  match findRec rs 0x10 p with
  | some c =>
    { k with serial := c.nat 0x10, lanes := c.nat 0x18, trigSource := c.nat 0x1D, trigPath := c.nat 0x1E,
             maxLineRate := c.nat 0x20, divider := c.nat 0x24,
             writes := (List.range (c.nat 0x32)).map (fun i => (leAt c.bytes (0x40 + 8 * i) 4, leAt c.bytes (0x44 + 8 * i) 4)),
             mosaic := if (findRec rs 0x24 p).isSome then k.mosaic else mosaic }
  | none => k

/-- The ENCODER records (R396). -/
def encsFromRecs (rs : List Rec) : Tbl EncPlan :=
  (List.range 4).filterMap (fun k => (findRec rs 0x70 k).map (fun r =>
    (k, ⟨r.nat 0x10, r.nat 0x18, decide (r.nat 0x20 = 1), r.nat 0x28, r.nat 0x30, decide (r.nat 0x38 = 1), r.nat 0x40, r.nat 0x48⟩)))

/-- The MARKER records (R396). -/
def axesFromRecs (rs : List Rec) : Tbl AxisPlan :=
  (List.range 2).filterMap (fun x => (findRec rs 0x71 x).map (fun r =>
    (x, ⟨r.int 0x10, r.nat 0x18, r.int 0x20, r.int 0x28, r.nat 0x30, r.nat 0x38, r.nat 0x40, r.nat 0x48, r.nat 0x50, r.nat 0x58,
      decide (r.nat 0x60 = 1), decide (r.nat 0x68 = 1), decide (r.nat 0x70 = 1), r.nat 0x78, r.nat 0x80⟩)))

/-- The TOUT records (R396). -/
def toutsFromRecs (rs : List Rec) : Tbl ToutPlan :=
  (List.range 16).filterMap (fun t => (findRec rs 0x72 t).map (fun r =>
    (t, ⟨r.nat 0x10, r.nat 0x18, r.nat 0x20, r.nat 0x28, r.nat 0x30, decide (r.nat 0x38 = 1)⟩)))

/-- SHA-256 over the records of R606: WEB, module-wide THRESHOLDS, TREE and ACTIONS, FABRIC. -/
def fabricHash (rs : List Rec) : List Byte :=
  sha256 ([0x02, 0x41, 0x42, 0x43, 0x90].flatMap (fun ty => match findRec rs ty 0xFF with | some r => r.bytes | none => []))

/-- The grid of the WEB record (R194 to R198, R834). -/
def webFromRecs (w : Rec) (fabric : Bool) (p : Plan) : Plan :=
  let py := if w.nat 0x14 = 0 then w.nat 0x10 else w.nat 0x14
  let p := { p with pitchX := w.nat 0x10, pitchY := py, scale := w.nat 0x18, refEnc := w.nat 0x20,
                    minSpeed := w.minSpeed, startSpeed := w.nat 0x2C, redEnc := if w.nat 0x21 = 255 then none else some (w.nat 0x21) }
  if fabric then p else { p with originX := (webColumns w).1, columns := (webColumns w).2 }

/-- The plan of a compile: the Planner's placement and tables, with everything the records themselves lay down.
DESIGN CHOICE: assumption 47. -/
def planFromRecs (rs : List Rec) (mosaics : Nat → List Byte) (p : Plan) : Plan :=
  let fab := findRec rs 0x90 0xFF
  let p := match findRec rs 2 0xFF with | some w => webFromRecs w fab.isSome p | none => p
  let p := match findRec rs 1 0xFF with
    | some r => { p with minDepth := r.nat 0x44, minRatio := r.nat 0x48,
                         outs := { p.outs with store := bitAt (r.nat 0x10) 1, limitUs := r.nat 0x40 } }
    | none => p
  let cs : Tbl CtxPlan := (p.ctxs.filter (fun (e : Nat × CtxPlan) => (findRec rs 0x10 e.1).isSome)).map (fun (e : Nat × CtxPlan) => (e.1, ctxFromRecs rs e.1 e.2))
  let ks : Tbl CamPlan := (p.cams.filter (fun (e : Nat × CamPlan) => (findRec rs 0x10 e.1).isSome)).map (fun (e : Nat × CamPlan) => (e.1, camFromRecs rs e.1 (mosaics e.1) e.2))
  let p := { p with ctxs := cs, cams := ks }
  let fp := match fab, p.outs.fab with
    | some r, some f => some { f with topology := r.nat 0x10, hash := fabricHash rs }
    | some _, none => none
    | none, _ => none
  let st := match findRec rs 0x60 0xFF with
    | some r => (List.range 12).filterMap (fun c => if r.nat (0x18 + 16 * c) = 0 then none else some (c, leAt r.bytes (0x10 + 16 * c) 8, r.nat (0x18 + 16 * c)))
    | none => p.statBuf
  { p with statBuf := st, outs := { p.outs with encs := encsFromRecs rs, axes := axesFromRecs rs, touts := toutsFromRecs rs, fab := fp } }

/-- The plan-class records other than RECIPE, for the comparison of R399. -/
def planClass (b : List Byte) : List Rec :=
  (cutRecs (b.length / 16 + 1) b).1.filter (fun r => !bankClass r.ty && decide (r.ty ≠ 1))

end Sys2Proof.Machine
end

