-- ==== Sys2Proof/Machine/Planner.lean ====
section
/-! DEFINITION. The Planner (R397 to R414, R422, R423): COMPILE and its end, COMMIT, BANK_UPDATE and SLOT_LOAD. -/

namespace Sys2Proof.Machine

/-! ### The fabric engine's recipe -/

/-- The recipe whose FABRIC record the fabric engine goes by (R599): the one being compiled, the one compiled, the live one, the
stored one. -/
def State.fabRecs (s : State) : List Rec :=
  let b1 := match s.pln.compiling with | some j => j.bytes.getD [] | none => []
  let b2 := if s.pln.compiled.isSome then s.pln.staged else []
  let has (b : List Byte) : Bool := !b.isEmpty && (findRec (cutRecs (b.length / 16 + 1) b).1 0x90 0xFF).isSome
  match [b1, b2, s.pln.lastRecipe, s.pwr.flash.recipe].find? has with
  | some b => (cutRecs (b.length / 16 + 1) b).1
  | none => []

/-- The lens model's position of column `u` in nm (R395), rounded to nearest. -/
def lensX (m : Rec) (u : Nat) : Int :=
  let f (o : Nat) : F64 := f64OfBits (leAt m.bytes o 8)
  let t := ((f64OfInt u).sub (f 0x30)).div (f 0x38)
  let d := m.nat 0x19
  ((List.range (d + 1)).foldr (fun (i : Nat) (a : F64) => (f (0x40 + 8 * i)).add (a.mul t)) (f64OfInt 0)).round

/-- The declared span (R606): none until CAMERA and MOUNT records have been read. DEDUCED: assumption 51. -/
def spanOf (rs : List Rec) : Option (Int × Int) :=
  let xs := (rs.filter (fun r => decide (r.ty = 0x10))).flatMap (fun c => match findRec rs 0x11 c.inst with
    | some m => [lensX m 0, lensX m (c.nat 0x1A - 1)]
    | none => [])
  match xs with
  | [] => none
  | x :: r => some (r.foldl min x, r.foldl max x)

/-- Modules of the fabric with a known span, in the order of R608: left edge, then serial number. -/
def State.fabSpans (s : State) : List (Nat × Int × Int) :=
  let own := match spanOf s.fabRecs with | some (a, b) => [(s.get64 sysSerialLo, a, b)] | none => []
  let far := (s.fab.peers.filter (fun p => p.spanKnown && !p.gone)).map (fun p => (p.serial, p.left, p.right))
  let bySerial := sortKey (fun (e : Nat × Int × Int) => (e.1 : Int)) (own ++ far)
  sortKey (fun (e : Nat × Int × Int) => e.2.1) bySerial

/-- The cut between two adjacent spans (R612): floor(((R + L) / 2) / p_x). -/
def fabCut (px : Nat) (r l : Int) : Int := (r + l) / (2 * px : Nat)

/-- An exchanged width meets both conditions of R614; `f` lines per second times `k`, to keep the rate exact. -/
def seamFits (c f k w : Nat) : Bool := decide (4 * w * c * f + 16000000 * k < 200000000 * k ∧ 2 * w * c ≤ 4064)

/-- The exchanged width of a seam (R614): the largest from 16 to the record's maximum that fits; 0 where none does.
DEDUCED: assumption 94. -/
def seamWidth (c f k most : Nat) : Nat := (List.range (most + 1)).foldl (fun (b : Nat) (w : Nat) => if 16 ≤ w ∧ seamFits c f k w = true then w else b) 0

/-- Maximum output line rate: maximum web speed in nm/s and pitch p_y in nm, whose quotient it is (R392).
DEDUCED: assumption 94. -/
def lineRateOf (rs : List Rec) : Nat × Nat :=
  match findRec rs 2 0xFF with
  | some w => (w.nat 0x24 * 1000000, if w.nat 0x14 = 0 then w.nat 0x10 else w.nat 0x14)
  | none => (0, 1)

/-- The pitch p_x of a recipe. -/
def pitchOf (rs : List Rec) : Nat := match findRec rs 2 0xFF with | some w => max 1 (w.nat 0x10) | none => 1

/-- What refuses the fabric plan (R613, R614) for spans in order of address, with `c` grid channels. -/
def fabDefect (rs : List Rec) (spans : List (Nat × Int × Int)) (c : Nat) : Option PlanStatus :=
  let px := pitchOf rs
  let pairs := spans.zip (spans.drop 1)
  let r := lineRateOf rs
  let most := match findRec rs 0x90 0xFF with | some f => f.nat 0x28 | none => 0
  firstRefusal [
    refuseIf (pairs.any (fun p => decide (p.1.2.2 - p.2.2.1 < 40 * px))) ⟨14, 0x90, 0xFF, 0⟩,
    refuseIf (spans.any (fun p => decide (393216 * px < p.2.2 - p.2.1 / px * px))) ⟨14, 0x90, 0xFF, 0⟩,
    refuseIf (!pairs.isEmpty && decide (seamWidth c r.1 r.2 most = 0)) ⟨10, 0x90, 0xFF, 0x28⟩]

/-- Classification records of a single port where it owns a fabric seam edge (R284, R613). -/
def seamTables (rs : List Rec) (p : Plan) : Option PlanStatus :=
  let cs := p.ctxs.filter (fun e => match e.2.left, e.2.right with | .fabric _, _ => true | _, .fabric _ => true | _, _ => false)
  firstRefusal (cs.flatMap (fun e => [0x41, 0x42, 0x43].map (fun (ty : Nat) => refuseIf (findRec rs ty e.1).isSome ⟨14, ty, e.1, 0⟩)))

/-- The fabric plan refuses a compile: at the coordinator its own conditions, everywhere the tables of seam contexts. -/
def State.fabRefusal (s : State) (rs : List Rec) (p : Plan) : Option PlanStatus :=
  match p.outs.fab with
  | none => none
  | some f => firstRefusal [if s.coordinates then fabDefect rs s.fabSpans f.chans else none, seamTables rs p]

/-- The fabric engine starts with a recipe that has a FABRIC record (R599, R600); one that names another module set begins discovery
again (R608). DEDUCED: assumption 51. -/
def State.fabStart (s : State) : State :=
  match findRec s.fabRecs 0x90 0xFF with
  | none => s
  | some r =>
    if s.flag fabCtrlEnable then (if s.fld fabStatusAddress < 32 ∧ r.nat 0x18 ≠ s.fld fabStatusModules then s.fabDiscover else s)
    else (s.setFlds [(fabCtrlEnable, 1), (fabCtrlBridge, b2n (decide (r.nat 0x10 = 0))), (fabStatusState, 1)]).setDomain 43 true

/-! ### COMPILE -/

/-- PLN_STATUS.STATE when no compile runs (R424). -/
def State.planState (s : State) (refused : Bool) : State :=
  s.setFld plnStatusState (if refused then 3 else if s.pln.plan.isSome then 2 else 0)

/-- The recipe of a COMPILE has a length that the Planner refuses before it reads it (R389). -/
def tooLong (d : OutDesc) : Bool := decide (67108864 < d.par 0x18 4)

/-- The effect of COMPILE (R397): the read of the recipe. One compile runs at a time. DEDUCED: assumption 48. -/
def compileEffect (n : Nat) (d : OutDesc) (s : State) : State :=
  if !devHost (d.par 0x10 8) then s.badParam n d 0x10
  else if d.par 0x18 4 = 0 then s.badParam n d 0x18
  else if !devHost (d.par 0x20 8) && decide (d.par 0x28 4 ≠ 0) then s.badParam n d 0x20
  else if s.pln.compiling.isSome then s.wrongState n d
  else if tooLong d then (s.planState true).planRefuse n d.idx (recipeAt 4 0x18)
  else
    let w := s.loadRead n d 0x10 (d.par 0x18 4) (.recipe d.idx)
    if (w.desc n d.idx).isNone then w
    else ({ w with pln := { w.pln with compiling := some ⟨n, d.idx, none, none⟩ } }).setFld plnStatusState 1

/-- COMPILE (0x10). -/
def execCompile (n : SessId) (idx : Nat) (s : State) : Host.Outcome State Fault Refusal :=
  .next (s.runDesc n idx 0x10 modesMNAX (compileEffect n))

/-- A compile ends without a plan (R413). -/
def State.compileRefused (s : State) (n idx : Nat) (st : PlanStatus) : State :=
  let wait := s.pln.awaitCamera || decide (4 ≤ n ∧ s.mode ≠ 4 ∧ s.mode ≠ 5 ∧ st.status = 4 ∧ st.type = 0x10)
  let s := ({ s with pln := { s.pln with compiling := none, awaitCamera := wait } }).planState true
  if n < 4 then s.planRefuse n idx st else s.planStatus st.status

/-- The recipe of a COMPILE has arrived (R389): its structure is checked at once. DEDUCED: assumption 51. -/
def State.recipeCame (s : State) (n idx : Nat) (b : List Byte) : State :=
  match s.pln.compiling with
  | none => s
  | some j =>
    if j.sess ≠ n ∨ j.desc ≠ idx then s
    else ({ s with pln := { s.pln with compiling := some { j with bytes := some b } } }).fabStart

/-- The mosaic that the camera linked on port `p` declares (R39, R831). -/
def State.camMosaic (s : State) (p : Nat) : List Byte := let r := s.capRecord p; (r.drop 9).take 2 ++ (r.drop 0x28).take 16

/-- What the compile finds outside the records (R39, R71, R609, R831): a port without mosaic and camera, a line rate above the linked
camera's, a fabric in MISMATCH. -/
def State.siteDefect (s : State) (rs : List Rec) : Option PlanStatus :=
  let cams := rs.filter (fun r => decide (r.ty = 0x10))
  firstRefusal (
    cams.map (fun r => refuseIf (s.linked r.inst && decide (beAt (s.capRecord r.inst) 0x0C 4 < r.nat 0x20)) ⟨3, 0x10, r.inst, 0x20⟩) ++
    cams.map (fun r => refuseIf ((findRec rs 0x24 r.inst).isNone && !s.linked r.inst) ⟨4, 0x10, r.inst, 0⟩) ++
    [refuseIf ((findRec rs 0x90 0xFF).isSome && s.flag fabStatusMismatch) ⟨14, 0x90, 0xFF, 0⟩])

/-- Everything that refuses a compile (R413): the records, the site, the Planner's own finding, the latency limit (R391). -/
def State.compileDefect (s : State) (len : Nat) (b : List Byte) (res : Compiled) (p : Plan) : Option PlanStatus :=
  match recipeDefect len b with
  | some st => some st
  | none => firstRefusal [s.siteDefect (cutRecs (b.length / 16 + 1) b).1, s.fabRefusal (cutRecs (b.length / 16 + 1) b).1 p, res.refuse,
      refuseIf (decide (p.outs.limitUs ≠ 0 ∧ p.outs.limitUs < p.outs.latencyUs)) (recipeAt 15 0x40)]

/-- The result of a finished COMPILE (R557). DESIGN CHOICE: assumption 47. -/
def compileResult (ms : Nat) (recipe plan : List Byte) (written : Nat) : List Byte :=
  (planBlock ⟨0, 0, 0, 0⟩).take 12 ++ leBytes 4 ms ++ recipe ++ plan ++ leBytes 4 written

/-- The report of a compile goes to the host (R423): as much of it as the buffer holds. The state, the bytes written, and whether a
page did not translate. DEDUCED: assumption 48. -/
def State.sendReport (s : State) (d : OutDesc) (report : List Byte) : State × Nat × Bool :=
  let r := report.take (d.par 0x28 4)
  if r = [] then (s, 0, false)
  else
    let w := s.hostWrite (d.par 0x20 8) r 6 0
    (w.1, r.length, w.2.isSome)

/-- A compile succeeds (R397, R422): its plan waits for a commit; the Planner's own is committed.
DESIGN CHOICE: assumption 47; DEDUCED: assumption 48. -/
def State.compileOk (s : State) (j : PlanJob) (b : List Byte) (res : Compiled) (p : Plan) : State :=
  let rh := sha256 b
  let ph := sha256 res.image
  let p := { p with recipeHash := rh, hash := ph }
  let p := if p.outs.fab.isSome ∧ s.fld fabStatusAddress ≠ 63 then { p with originX := s.fab.x0 } else p
  let s := { s with
    pln := { s.pln with compiling := none, compiled := some p, staged := b, awaitCamera := false }
    fab := { s.fab with hash := (p.outs.fab.map FabPlan.hash).getD s.fab.hash } }
  let s := ((s.planState false).setFld plnCompileMainMs (res.ms % 65536)).planStatus 0
  if 4 ≤ j.sess then { s with pln := { s.pln with commit := some ⟨255, 0⟩ } }
  else match s.desc j.sess j.desc with
  | none => s
  | some d =>
    let w := s.sendReport d res.report
    if w.2.2 then w.1.finishDesc j.sess j.desc 7 (compileResult res.ms rh ph 0)
    else w.1.finishDesc j.sess j.desc 0 (compileResult res.ms rh ph w.2.1)

/-- COMPILE_DONE (R397, R413, R422, R423): the Planner finishes the compile whose recipe it holds.
DESIGN CHOICE: assumption 47. -/
def execCompileDone (res : Compiled) (s : State) : Host.Outcome State Fault Refusal :=
  match s.pln.compiling with
  | none => .next s
  | some j =>
    match j.bytes with
    | none => .next s
    | some b =>
      let rs := (cutRecs (b.length / 16 + 1) b).1
      let p := planFromRecs rs s.camMosaic res.plan
      let len := match s.desc j.sess j.desc with | some d => d.par 0x18 4 | none => b.length
      let len := if 4 ≤ j.sess then b.length else len
      .next (match s.compileDefect len b res p with
        | some st => s.compileRefused j.sess j.desc st
        | none => s.compileOk j b res p)

/-! ### COMMIT -/

/-- The module is a member of an assigned fabric of more than one module (R608): its plans switch by global order (R624).
DEDUCED: assumption 49. -/
def State.fabricMember (s : State) : Bool :=
  s.flag fabCtrlEnable && decide (s.fld fabStatusAddress < 32) && decide (1 < s.fab.members.length)

/-- The effect of COMMIT (R397, R402): a compiled plan waits for its frame boundary, in a fabric for the global switch.
DEDUCED: assumption 49. -/
def commitEffect (n : Nat) (d : OutDesc) (s : State) : State :=
  match s.pln.compiled with
  | none => s.planRefuse n d.idx ⟨3, 0, 0, 0⟩
  | some p =>
    if slice d.bytes 0x10 32 ≠ p.hash then s.planRefuse n d.idx ⟨3, 0, 0, 0⟩
    else if s.pln.commit.isSome then s.planRefuse n d.idx ⟨18, 0, 0, 0⟩
    else if s.pln.fault.isSome then s.planRefuse n d.idx ⟨17, 0, 0, 0⟩
    else
      let s := { s with pln := { s.pln with commit := some ⟨n, d.idx⟩ } }
      if s.fabricMember then
        let body := p.hash ++ s.fab.hash
        let c := match s.fab.members.find? (fun m => decide (m.serial = s.get64 fabCoordLo)) with | some m => m.addr | none => s.selfAddr
        if c = s.selfAddr then ({ s with fab := { s.fab with ready := (c, body) :: s.fab.ready.filter (fun e => decide (e.1 ≠ c)) } }).readyCheck
        else s.fabSend c 0x30 0 body
      else s

/-- COMMIT (0x11). -/
def execCommit (n : SessId) (idx : Nat) (s : State) : Host.Outcome State Fault Refusal :=
  .next (s.runDesc n idx 0x11 [3, 4] (commitEffect n))

/-- PLAN_GO_LIVE (R398, R624): at the frame boundary; in a fabric, for a host's commit, once its global switch is due.
DEDUCED: assumption 49. -/
def execPlanGoLive (s : State) : Host.Outcome State Fault Refusal :=
  let own := match s.pln.commit with | some w => decide (4 ≤ w.sess) | none => false
  let due := s.pln.due.any (fun o => decide (o.kind = 5 ∧ o.val ≤ s.taiNs))
  if s.fabricMember && !own then
    .next (if due then ({ s with pln := { s.pln with due := s.pln.due.filter (fun o => decide (o.kind ≠ 5)) } }).commitLive.fire 292 else s)
  else .next s.commitLive

/-! ### BANK_UPDATE and SLOT_LOAD -/

/-- The effect of both: checks that need no record, then the read of the records. DEDUCED: assumption 50. -/
def bankEffect (n : Nat) (set : BankSet) (slot : Bool) (d : OutDesc) (s : State) : State :=
  if !devHost (d.par 0x10 8) then s.badParam n d 0x10
  else if d.par 0x18 4 = 0 then s.badParam n d 0x18
  else if slot && (decide (d.par 0x1C 1 = 0) || decide (4 < d.par 0x1C 1)) then s.badParam n d 0x1C
  else if tooLong d then s.planRefuse n d.idx (recipeAt 4 0x18)
  else
    let w := s.loadRead n d 0x10 (d.par 0x18 4) (.recipe d.idx)
    if (w.desc n d.idx).isNone then w
    else { w with pln := { w.pln with sets := w.pln.sets ++ [⟨n, d.idx, none, some set⟩] } }

/-- BANK_UPDATE (0x12). -/
def execBankUpdate (n : SessId) (idx : Nat) (set : BankSet) (s : State) : Host.Outcome State Fault Refusal :=
  .next (s.runDesc n idx 0x12 modesMNA (bankEffect n set false))

/-- SLOT_LOAD (0x13). -/
def execSlotLoad (n : SessId) (idx : Nat) (set : BankSet) (s : State) : Host.Outcome State Fault Refusal :=
  .next (s.runDesc n idx 0x13 modesMNAX (bankEffect n set true))

/-- The banks of a set for the contexts of a mask that are in service. DEDUCED: assumption 50. -/
def State.maskBanks (s : State) (mask : Nat) (set : BankSet) : List (Nat × Bank) :=
  set.banks.filter (fun e => bitAt mask e.1 && (s.ctxPlan e.1).isSome)

/-- The strip at which a bank committed now becomes active in context `c`, not before `m` (R123, R125). -/
def State.bankStrip (s : State) (c m : Nat) : Nat := max (s.ctx c).num.nextStrip m

/-- The shadow bank of context `c` takes `b` and is committed for strip `m` (R123, R126). -/
def State.commitBank (s : State) (m : Nat) (e : Nat × Bank) : State :=
  let c := e.1
  let at' := s.bankStrip c m
  let act := s.fld (ctxStatusActiveBank c)
  let put (n : CtxNum) : CtxNum :=
    let n := { n with commit := some ⟨at', max n.id0 n.id1 + 1⟩ }
    if act = 1 then { n with b0 := e.2 } else { n with b1 := e.2 }
  (s.setNum c put).setFlds [(ctxStatusBankPending c, 1), (ctxStatusBankWritable c, 0)]

/-- Strips at which each context's bank becomes active (R557). DEDUCED: assumption 50. -/
def State.bankResult (s : State) (bs : List (Nat × Bank)) (m : Nat) : List Byte :=
  planBlock ⟨0, 0, 0, 0⟩ ++ (List.range 12).flatMap (fun c => leBytes 4 (if bs.any (fun e => decide (e.1 = c)) then s.bankStrip c m else 0))

/-- The module refuses strip `m` for one of the contexts (R125). DEDUCED: assumption 50. -/
def State.badStrip (s : State) (bs : List (Nat × Bank)) (m : Nat) : Bool :=
  decide (m ≠ 0) && bs.any (fun e => decide (m < (s.ctx e.1).num.nextStrip ∨ (s.ctx e.1).num.nextStrip + 65536 < m))

/-- The records of a BANK_UPDATE have arrived (R399, R125, R126). DEDUCED: assumption 50. -/
def State.bankUpdate (s : State) (n : Nat) (d : OutDesc) (b : List Byte) (set : BankSet) : State :=
  let bs := s.maskBanks (d.par 0x1C 2) set
  let m := d.par 0x20 8
  let plan := refuseIf (s.pln.plan.isNone || decide (planClass b ≠ planClass s.pln.lastRecipe)) ⟨16, 0, 0, 0⟩
  match firstRefusal [recipeDefect (d.par 0x18 4) b, plan, set.refuse] with
  | some st => s.planRefuse n d.idx st
  | none =>
    if bs.any (fun e => !s.flag (ctxStatusBankWritable e.1)) then s.finishDesc n d.idx 6 (planBlock ⟨0, 0, 0, 0⟩)
    else if s.badStrip bs m then s.badParam n d 0x20
    else
      let r := s.bankResult bs m
      ((bs.foldl (fun (s : State) (e : Nat × Bank) => s.commitBank m e) s).planStatus 0).finishDesc n d.idx 0 r

/-- The records of a SLOT_LOAD have arrived (R400): the slot takes the banks of the mask's contexts. -/
def State.slotLoad (s : State) (n : Nat) (d : OutDesc) (b : List Byte) (set : BankSet) : State :=
  let k := d.par 0x1C 1
  let bs := s.maskBanks (d.par 0x1E 2) set
  match firstRefusal [recipeDefect (d.par 0x18 4) b, set.refuse] with
  | some st => s.finishDesc n d.idx 12 (planBlock st)
  | none =>
    let old := (planEntry s.pln.slots k).getD []
    let new := bs ++ old.filter (fun e => !bs.any (fun f => decide (f.1 = e.1)))
    ({ s with pln := { s.pln with slots := (k, new) :: s.pln.slots.filter (fun e => decide (e.1 ≠ k)) } }).finishDesc n d.idx 0 (planBlock ⟨0, 0, 0, 0⟩)

/-- Records that a BANK_UPDATE or SLOT_LOAD, or the recipe that a COMPILE read, have arrived. -/
def State.recordsCame (s : State) (n idx : Nat) (b : List Byte) : State :=
  match s.pln.sets.find? (fun j => decide (j.sess = n ∧ j.desc = idx)), s.desc n idx with
  | some j, some d =>
    let s := { s with pln := { s.pln with sets := s.pln.sets.filter (fun q => decide (q ≠ j)) } }
    let set := j.set.getD ⟨[], none⟩
    if d.opcode = 0x12 then s.bankUpdate n d b set else s.slotLoad n d b set
  | _, _ => s.recipeCame n idx b

end Sys2Proof.Machine
end

