-- ==== Sys2Proof/Machine/Inspect.lean ====
section
/-! DEFINITION. Orders that take effect at a frame boundary (R113, R197, R555, R624 to R627, R747, R829, R830): START, STOP,
SET_ZERO and SNAPSHOT, local and global. -/

namespace Sys2Proof.Machine

/-! ### Orders -/

/-- An order by descriptor (R555): its form and flags, then the operation is due here, or, with GLOBAL, ordered everywhere.
DEDUCED: assumption 54. -/
def orderEffect (kind forms n : Nat) (d : OutDesc) (s : State) : State :=
  let f := d.par 0x10 1
  if forms ≤ f then s.badParam n d 0x10
  else if bitAt (d.par 0x11 1) 0 then
    if s.coordinates then s.issueOrder kind f (d.par 0x18 8) (d.parInt 0x18) [] n d.idx else s.wrongState n d
  else s.queueDue ⟨kind, f, if f = 2 then d.parInt 0x18 else (d.par 0x18 8 : Int), s.zero, n, d.idx, 0⟩

/-- START (0x20): a module without a live plan has nothing to inspect. DEDUCED: assumption 54. -/
def execStart (n : SessId) (idx : Nat) (s : State) : Host.Outcome State Fault Refusal :=
  .next (s.runDesc n idx 0x20 modesM (fun d s => if s.pln.plan.isNone then s.wrongState n d else orderEffect 1 3 n d s))

/-- STOP (0x21). DEDUCED: assumption 54. -/
def execStop (n : SessId) (idx : Nat) (s : State) : Host.Outcome State Fault Refusal :=
  .next (s.runDesc n idx 0x21 modesNA (orderEffect 2 2 n))

/-- SET_ZERO (0x22). -/
def execSetZero (n : SessId) (idx : Nat) (s : State) : Host.Outcome State Fault Refusal :=
  .next (s.runDesc n idx 0x22 modesMNA (orderEffect 3 3 n))

/-- SNAPSHOT (0x50). -/
def execSnapshot (n : SessId) (idx : Nat) (s : State) : Host.Outcome State Fault Refusal :=
  .next (s.runDesc n idx 0x50 modesMNAX (fun d s =>
    if !devHost (d.par 0x20 8) then s.badParam n d 0x20 else orderEffect 4 3 n d s))

/-- The operation's moment has come: at once, at a TAI time, or where the reference scan line has reached a web position.
DEDUCED: assumption 55. -/
def State.ripe (s : State) (o : DueOp) : Bool :=
  match o.form with
  | 0 => true
  | 1 => decide (o.val ≤ s.taiNs)
  | _ =>
    let sc := match s.pln.plan with | none => 0 | some p => p.scale
    decide (o.val ≤ rnd ((s.encPos s.refEnc - o.zero) * sc) 32)

/-- The first operation of a kind that is due by a descriptor of this module; a global one goes first (R626). -/
def State.dueLocal (s : State) (kind : Nat) : Option DueOp :=
  if s.pln.due.any (fun o => decide (o.seq ≠ 0 ∧ o.kind ≤ 4) && s.ripe o) then none
  else s.pln.due.find? (fun o => decide (o.kind = kind ∧ o.seq = 0) && s.ripe o)

/-- An operation leaves the queue. -/
def State.dropDue (s : State) (o : DueOp) : State := { s with pln := { s.pln with due := s.pln.due.erase o } }

/-- The completion of an order's descriptor: at once for a local order; for a global one when every module has acknowledged it
(R625). DEDUCED: assumption 55. -/
def State.finishOrder (s : State) (o : DueOp) (status : Nat) (result : List Byte) : State :=
  if 4 ≤ o.sess then s
  else if o.seq = 0 then s.finishDesc o.sess o.desc status result
  else match s.fab.orders.find? (fun g => decide (g.seq = o.seq)) with
  | none => s
  | some g =>
    if g.waiting.isEmpty then
      ({ s with fab := { s.fab with orders := s.fab.orders.filter (fun q => decide (q.seq ≠ o.seq)) } }).finishDesc o.sess o.desc status result
    else
      let f (q : GlobalOp) : GlobalOp := if q.seq = o.seq then { q with result := some result } else q
      { s with fab := { s.fab with orders := s.fab.orders.map f } }

/-! ### E_zero -/

/-- Armed web compares move with E_zero (R829 step 4). DEDUCED: assumption 56. -/
def State.moveCompares (s : State) (delta : Int) : State :=
  [0, 1].foldl (fun (s : State) (x : Nat) =>
    let a := s.ax x
    s.setAx x { a with compares := a.compares.map (fun c => if c.web then { c with target := c.target + delta } else c) }) s

/-- Mark requests move with E_zero (R829 step 4). DEDUCED: assumption 56. -/
def State.moveMarks (s : State) (delta : Int) : State :=
  [0, 1].foldl (fun (s : State) (x : Nat) =>
    let a := s.ax x
    let f (m : Mark) : Mark := { m with value := m.value + delta }
    s.setAx x { a with marks := a.marks.map f, marking := a.marking.map f }) s

/-- E_zero is latched with the effects of a SET_ZERO in MORNING (R197, R829): dividers and web compares. -/
def State.latchZero (s : State) : State :=
  let old := s.zero
  let new := s.encPos s.refEnc
  let sc := match s.pln.plan with | none => 0 | some p => p.scale
  let s := (({ s with zeroLatched := true }).setInt64 gegZeroLo new).alignDividers
  s.moveCompares (rnd ((old - new) * sc) 32)

/-- The down-web stage takes up the new E_zero (R829 step 3). DEDUCED: assumption 56. -/
def geoRezero (zero : Int) (scale : Nat) (mount : Int) (g : GeoSt) : GeoSt :=
  let ls := g.lines.map (fun (l : GeoLine) => { l with y := webY l.pos zero scale mount })
  let top := ls.foldl (fun (m : Option Int) (l : GeoLine) => some (match m with | none => l.y | some t => max t l.y)) none
  let start := (ls.map GeoLine.abs).headD 0
  { g with lines := ls, start := start, linkStart := false, nextM := none, maxY := top, reversing := false, waiting := [], contrib := [], gave := [] }

/-- The front end's history under the new E_zero. DEDUCED: assumption 56. -/
def feRezero (zero : Int) (scale : Nat) (mount : Int) (f : FeSt) : FeSt :=
  { f with hist := f.hist.map (fun (l : HistLine) => { l with y := webY l.pos zero scale mount }) }

/-- SET_ZERO in NOON or AFTERNOON (R829). -/
def State.rezeroLive (s : State) : State :=
  let cs := match s.pln.plan with | none => [] | some p => p.ctxs
  let sc := match s.pln.plan with | none => 0 | some p => p.scale
  let s := cs.foldl (fun (s : State) (e : Nat × CtxPlan) => s.closeLive e.1 e.2) s
  let old := s.zero
  let s := s.rebaseAll.latchZero
  let zero := s.zero
  let s := cs.foldl (fun (s : State) (e : Nat × CtxPlan) =>
    let x := s.ctx e.1
    s.setCtx e.1 { x with fe := feRezero zero sc e.2.mount x.fe, geo := geoRezero zero sc e.2.mount x.geo }) s
  s.moveMarks (rnd ((old - zero) * sc) 32)

/-- The effect of a SET_ZERO. DEDUCED: assumption 56. -/
def State.zeroEffect (s : State) (o : DueOp) : State :=
  let s := if s.inspecting then s.rezeroLive else s.latchZero
  s.finishOrder o 0 (leBytes 8 s.taiNs ++ leBytes 8 (ofSigned 64 s.zero))

/-! ### Inspection start and STOP -/

/-- A context at an inspection start (R113, R830): with form 2 it stays gated until it accepts the line named. -/
def State.startCtx (s : State) (form : Nat) (val zero : Int) (c : Nat) : State :=
  let s := if form = 2 then s else s.rebase c
  let x := s.ctx c
  let f := x.fifo.map (fun (l : FifoLine) => { l with sliceTook := true })
  let s := (s.setCtx c { x with fe := feClear false x.fe, geo := geoClear false x.geo, fifo := f }).fifoDrain c
  let s := s.setNum c (fun n => { n with startAt := if form = 2 then some (val, zero) else none })
  s.setFld (ctxCtrlGated c) (if form = 2 then 1 else 0)

/-- An inspection start takes effect (R113, R197, R241, R746, R830). DEDUCED: assumption 56. -/
def State.startInspection (s : State) (form : Nat) (val zero : Int) : State :=
  let s := if s.zeroLatched then s else s.latchZero
  let s := s.liveCtxs.foldl (fun (s : State) (c : Nat) => s.startCtx form val zero c) s
  let s := if s.ovwSess.isSome then s.ovwStart else s
  let s := { s with pwr := { s.pwr with resumeStart := false } }
  ((s.enterMode 4).toAfternoon)

/-- The effect of a START, in MORNING alone. DEDUCED: assumption 54. -/
def State.startEffect (s : State) (o : DueOp) : State :=
  if s.mode ≠ 3 ∨ s.pln.plan.isNone = true then s.finishOrder o 6 []
  else (s.startInspection o.form o.val o.zero).finishOrder o 0 (leBytes 8 s.taiNs)

/-- Web speed at or above the start speed of the recipe (R113, R392), in nm/s. DEDUCED: assumption 57. -/
def State.startMotion (s : State) : Bool :=
  match s.pln.plan with
  | none => false
  | some p => decide (p.startSpeed ≠ 0) && decide ((p.startSpeed : Int) * 1000000 * 2 ^ 32 < s.fldInt (encSpeedF p.refEnc) * p.scale)

/-- INSPECTION_START (R113, R750): by an order that is due, by AUTO_RESUME, or by web motion. -/
def execInspectionStart (s : State) : Host.Outcome State Fault Refusal :=
  match s.dueLocal 1 with
  | some o => .next ((s.dropDue o).startEffect o)
  | none =>
    if s.mode ≠ 3 ∨ s.pln.plan.isNone = true then .next s
    else if (s.pwr.resumeStart && !s.fabricMember) || s.startMotion then .next (s.startInspection 0 0 s.zero)
    else .next s

/-- The pipelines are gated (R555): every context rebases, its open blobs close, and no line is processed any more. -/
def State.gateAll (s : State) : State :=
  let cs := match s.pln.plan with | none => [] | some p => p.ctxs
  let s := cs.foldl (fun (s : State) (e : Nat × CtxPlan) => s.closeLive e.1 e.2) s
  let s := s.rebaseAll
  let s := cs.foldl (fun (s : State) (e : Nat × CtxPlan) =>
    let s := (s.dropLines e.1).setNum e.1 (fun n => { n with startAt := none })
    s.setFld (ctxCtrlGated e.1) 1) s
  s.ovwStop

/-- The STOP of an inspecting module (R555): MORNING. -/
def State.stopInspection (s : State) : State := s.gateAll.enterMode 3

/-- The effect of a STOP order. DEDUCED: assumption 54. -/
def State.stopEffect (s : State) (o : DueOp) : State :=
  if s.inspecting then s.stopInspection.finishOrder o 0 (leBytes 8 s.taiNs) else s.finishOrder o 6 []

/-! ### Snapshots -/

/-- The registers that a snapshot latches (R627), in rising address order. -/
def snapAddrs : List Nat :=
  sortKey (fun (a : Nat) => (a : Int)) (counterAddrs ++ [penSeqLastLo, penSeqLastHi, plnFrameLo, plnFrameHi] ++ [cmpDepth])

/-- The snapshot block of this module (R627), big-endian. -/
def State.snapBlock (s : State) : List Byte :=
  beBytes 1 (if s.fld fabStatusAddress = 63 then 0 else s.fld fabStatusAddress) ++ beBytes 7 0 ++ beBytes 8 (s.get64 sysSerialLo) ++
    beBytes 8 s.taiNs ++ beBytes 4 snapAddrs.length ++ beBytes 4 0 ++
    snapAddrs.flatMap (fun a => beBytes 4 a ++ beBytes 4 (s.reg a).toNat)

/-- A block as it is written to the host: every field little-endian (R627). -/
def snapLe (b : List Byte) : List Byte :=
  let f (o n : Nat) : List Byte := leBytes n (beAt b o n)
  f 0 1 ++ f 1 7 ++ f 8 8 ++ f 16 8 ++ f 24 4 ++ f 28 4 ++ (List.range ((b.length - 32) / 4)).flatMap (fun i => f (32 + 4 * i) 4)

/-- As many whole blocks as fit in `room` bytes, and whether any is left over. DEDUCED: assumption 58. -/
def snapFit : Nat → List (List Byte) → List Byte × Bool
  | _, [] => ([], false)
  | room, b :: r =>
    if b.length ≤ room then
      let q := snapFit (room - b.length) r
      (b ++ q.1, q.2)
    else ([], true)

/-- The blocks of a snapshot go to the output of its descriptor (R627). DEDUCED: assumption 58. -/
def State.snapWrite (s : State) (n idx : Nat) (blocks : List (List Byte)) : State :=
  match s.desc n idx with
  | none => s
  | some d =>
    let q := snapFit (d.par 0x28 4) (blocks.map snapLe)
    let at' := beAt (blocks.headD []) 16 8
    let res := leBytes 8 at' ++ leBytes 4 q.1.length
    let w := if q.1.isEmpty then (s, none) else s.hostWrite (d.par 0x20 8) q.1 6 0
    match w.2 with
    | some _ => w.1.finishDesc n idx 7 (leBytes 8 at' ++ leBytes 4 0)
    | none => w.1.finishDesc n idx (if q.2 then 6 else 0) res

/-- A global snapshot is complete when every module's block has come: they are written in rising address order (R627). -/
def State.snapGathered (s : State) : State :=
  match s.fab.snapDesc with
  | none => s
  | some (n, idx) =>
    if s.fab.snaps.length < s.fab.members.length then s
    else
      let bs := (sortKey (fun (e : Nat × List Byte) => (e.1 : Int)) s.fab.snaps).map Prod.snd
      ({ s with fab := { s.fab with snaps := [], snapDesc := none } }).snapWrite n idx bs

/-- The effect of a SNAPSHOT (R627): the block is written, kept by the coordinator, or sent to it.
DEDUCED: assumption 58. -/
def State.snapEffect (s : State) (o : DueOp) : State :=
  let b := s.snapBlock
  if o.seq = 0 then s.snapWrite o.sess o.desc [b]
  else if o.sess < 4 then
    let s := { s with fab := { s.fab with orders := s.fab.orders.filter (fun g => !(decide (g.seq = o.seq) && g.waiting.isEmpty)) } }
    ({ s with fab := { s.fab with snaps := (s.selfAddr, b) :: s.fab.snaps, snapDesc := some (o.sess, o.desc) } }).snapGathered
  else
    let c := match s.fab.members.find? (fun m => decide (m.serial = s.get64 fabCoordLo)) with | some m => m.addr | none => 0
    s.fabSend c 0x40 0 b

/-- SNAPSHOT_LATCH (R627). -/
def execSnapshotLatch (s : State) : Host.Outcome State Fault Refusal :=
  match s.dueLocal 4 with
  | some o => .next ((s.dropDue o).snapEffect o)
  | none => .next s

/-- ZERO_LATCH (R829). -/
def execZeroLatch (s : State) : Host.Outcome State Fault Refusal :=
  match s.dueLocal 3 with
  | some o => .next ((s.dropDue o).zeroEffect o)
  | none => .next s

end Sys2Proof.Machine
end

