-- ==== Sys2Proof/Machine/Events.lean ====
section
/-! DEFINITION. Event routing (R699 to R712): channels, consumers, pending events, logic cells. -/

namespace Sys2Proof.Machine

/-! ### Consumers -/

/-- Channels `v` and `w` feed one consumer input (R704, R705); the event-ring input is a channel's own. -/
def State.sameInput (s : State) (v w : Nat) : Bool :=
  decide (s.fld (evcChanCfgConsumer v) = s.fld (evcChanCfgConsumer w)) && (decide (s.fld (evcChanCfgConsumer v) ≠ 1) || decide (v = w))

/-- The consumer of channel `v` is busy (R704). -/
def State.consumerBusy (s : State) (v : Nat) : Bool :=
  let k := s.fld (evcChanCfgConsumer v)
  if k = 1 then decide (s.clock < tblGet s.evt.ringBusy 0 v)
  else if 0xA0 ≤ k ∧ k ≤ 0xA3 then s.axIs (k % 2) 4
  else false

/-- A record goes to the event ring of the channel's owner (R559, R707, R711); firmware takes its own.
DEDUCED: assumption 78. -/
def State.ringRecord (s : State) (e : Flight) : State :=
  let s := { s with evt := { s.evt with ringBusy := tblSet s.evt.ringBusy 0 e.chan (s.clock + 8) } }
  let o := s.fld (evcChanCfgOwner e.chan)
  if o = 0 ∨ 4 < o then s
  else if s.isOpen (o - 1) then s.eventTo (o - 1) (evtRaw e.source e.chan (b2n e.merged + 2 * b2n e.overrun) e.time e.hop)
  else s.bump (evcCntDroppedF e.chan) 1

/-- An event reaches input `k` of cell `l` (R705, R708, R710, R712). -/
def State.cellInput (s : State) (l k : Nat) (e : Flight) : State :=
  if ¬ s.flag (lcCfgEnable l) ∨ (s.flag (lcCfgSecure l) ∧ ¬ s.flag (evcChanCfgSecure e.chan)) then s
  else
    let m := s.fld ⟨lcInputs l, 8 * k, 3⟩
    let c := s.cell l
    let c := if m = 1 then { c with pulses := c.pulses ||| 2 ^ k } else if m = 2 then { c with toggles := c.toggles ^^^ 2 ^ k } else c
    let s := s.setCell l { c with hop := max c.hop e.hop }
    if e.merged then s.setFld (lcStatusCoincident l) 1 else s

/-- An axis stop by an event (R704, R712): only over a secure channel, on an axis that is on and not in fault.
DEDUCED: assumption 78. -/
def State.stopByEvent (s : State) (i : Nat) (e : Flight) : State :=
  if ¬ s.flag (evcChanCfgSecure e.chan) ∨ s.axIs (i % 2) 0 ∨ s.axIs (i % 2) 5 then s
  else s.axStop (i % 2) (decide (2 ≤ i)) []

/-- A consumer that is not busy acts on an event (R704). DEDUCED: assumption 78. -/
def State.consume (s : State) (e : Flight) : State :=
  let k := s.fld (evcChanCfgConsumer e.chan)
  if k = 1 then s.ringRecord e
  else if 0x10 ≤ k ∧ k < 0x20 then
    (if e.merged then s.setFld ⟨evtCflags, k - 0x10, 1⟩ 1 else s).toutEvent (k - 0x10) s.taiNs
  else if 0x20 ≤ k ∧ k < 0xA0 then s.cellInput ((k - 0x20) / 4) (k % 4) e
  else if 0xA0 ≤ k ∧ k ≤ 0xA3 then s.stopByEvent (k - 0xA0) e
  else s

/-- The event that waits at the consumer input of channel `v` (R706). -/
def State.waitingAt (s : State) (v : Nat) : Option Flight := s.evt.waiting.find? (fun f => s.sameInput f.chan v)

/-- The consumer input of channel `v` acts on its pending event once it is no longer busy (R706).
DEDUCED: assumption 78. -/
def State.pendingRun (s : State) (v : Nat) : State :=
  match s.waitingAt v with
  | none => s
  | some f =>
    if s.consumerBusy v then s
    else
      let s := { s with evt := { s.evt with waiting := s.evt.waiting.erase f } }
      (s.setFld (evcChanStatusPending f.chan) 0).consume f

/-- An event reaches a busy consumer (R706): it waits, or it is dropped with OVERRUN. DEDUCED: assumption 78. -/
def State.waitAt (s : State) (e : Flight) : State :=
  match s.waitingAt e.chan with
  | none => ({ s with evt := { s.evt with waiting := s.evt.waiting ++ [e] } }).setFld (evcChanStatusPending e.chan) 1
  | some f =>
    let g (x : Flight) : Flight := if x = f then { x with overrun := true } else x
    let s := { s with evt := { s.evt with waiting := s.evt.waiting.map g } }
    let k := s.fld (evcChanCfgConsumer e.chan)
    let s := s.setFld (evcChanStatusOverrun e.chan) 1
    if 0xA0 ≤ k ∧ k ≤ 0xA3 then s.setFld ⟨evtCflags, 20 + (k - 0xA0), 1⟩ 1 else s

/-! ### Channels -/

/-- A channel crossing at hop count 15 (R702). -/
def State.loopDrop (s : State) (v : Nat) : State := (s.setFld (evcChanStatusLoop v) 1).bump evtCntLoopF 1

/-- Whether a secure consumer takes events of channel `v` (R712). -/
def State.secureOk (s : State) (v : Nat) : Bool :=
  let k := s.fld (evcChanCfgConsumer v)
  let need := (decide (0xA0 ≤ k ∧ k ≤ 0xA3)) || (decide (0x20 ≤ k ∧ k < 0xA0) && s.flag (lcCfgSecure ((k - 0x20) / 4)))
  !need || s.flag (evcChanCfgSecure v)

/-- Deliver the events that reach one consumer input in one cycle (R701, R705): `fs` are not empty, enabled and below
hop count 15. DEDUCED: assumption 78. -/
def State.deliver (s : State) (e : Flight) (fs : List Flight) : State :=
  let many := decide (1 < fs.length)
  let hop := (fs.map Flight.hop).foldl max 0 + 1
  let s := fs.foldl (fun (s : State) (f : Flight) =>
    let s := s.setFld (evcChanStatusLastHop f.chan) (f.hop + 1)
    if many then s.setFld (evcChanStatusCoincident f.chan) 1 else s) s
  let k := s.fld (evcChanCfgConsumer e.chan)
  let s := if many ∧ 0xA0 ≤ k ∧ k ≤ 0xA3 then s.setFld ⟨evtCflags, 16 + (k - 0xA0), 1⟩ 1 else s
  let ev : Flight := { e with hop := hop, merged := many }
  let s := s.pendingRun e.chan
  if s.consumerBusy e.chan then s.waitAt ev else s.consume ev

/-- EVENT_DELIVERY (R701, R702, R705): two cycles after the source fired. -/
def execEventDelivery (v : EvcId) (s : State) : Host.Outcome State Fault Refusal :=
  match s.evt.flights.find? (fun f => decide (f.chan = v.val ∧ f.cycle + 2 ≤ s.clock)) with
  | none => .next s
  | some e =>
    let mine (f : Flight) : Bool := decide (f.cycle = e.cycle) && s.sameInput f.chan v
    let fs := s.evt.flights.filter mine
    let s := { s with evt := { s.evt with flights := s.evt.flights.filter (fun f => !mine f) } }
    let fs := fs.filter (fun f => s.flag (evcChanCfgEnable f.chan) && s.secureOk f.chan)
    let s := (fs.filter (fun f => decide (15 ≤ f.hop))).foldl (fun (s : State) (f : Flight) => s.loopDrop f.chan) s
    match fs.filter (fun f => decide (f.hop < 15)) with
    | [] => .next s
    | f :: r => .next (s.deliver f (f :: r))

/-- PENDING_EVENT (R706): the first cycle in which the consumer is no longer busy. -/
def execPendingEvent (v : EvcId) (s : State) : Host.Outcome State Fault Refusal := .next (s.pendingRun v)

/-! ### Logic cells -/

/-- The level of input `k` of cell `l` in this cycle (R708). -/
def State.cellLevel (s : State) (l k : Nat) : Bool :=
  let c := s.cell l
  match s.fld ⟨lcInputs l, 8 * k, 3⟩ with
  | 1 => bitAt c.pulses k
  | 2 => bitAt c.toggles k
  | 3 => bitAt s.evt.sync1 (s.fld ⟨lcInputs l, 8 * k + 3, 2⟩)
  | 4 => s.flag (lcCfgFf l) && c.ff
  | _ => false

/-- The table's output for the present inputs (R709). -/
def State.cellRaw (s : State) (l : Nat) : Bool :=
  let j := ((List.range 4).map (fun k => if s.cellLevel l k then 2 ^ k else 0)).foldl (· + ·) 0
  bitAt (s.fld (lcCfgTable l)) j

/-- A cycle of cell `l` (R708, R709): `raw` is formed from the inputs of the cycle before. -/
def State.cellStep (s : State) (l : Nat) : State :=
  if ¬ s.flag (lcCfgEnable l) then s
  else
    let c := s.cell l
    let ff := s.flag (lcCfgFf l)
    let raw := s.cellRaw l
    let level := if ff then c.raw else raw
    let held := if level = c.level then min 255 (c.held + 1) else 0
    let s := s.setCell l { c with raw := raw, ff := c.raw, level := level, held := held, pulses := 0 }
    if !level && s.flag (lcStatusOut l) && decide (s.fld (lcCfgFilter l) ≤ held) then s.setFld (lcStatusOut l) 0 else s

/-- A cycle of the event network: cells, then the synchronisers of EIN0 to EIN3 (R708). DESIGN CHOICE: assumption 1. -/
def State.cellsTick (s : State) : State :=
  let s := (List.range 32).foldl State.cellStep s
  { s with evt := { s.evt with sync0 := s.evt.pins, sync1 := s.evt.sync0 } }

/-- LOGIC_CELL_FIRE (R709, R710): the level has held for F cycles, and the filtered output rises. -/
def execLogicCellFire (l : CellId) (s : State) : Host.Outcome State Fault Refusal :=
  let c := s.cell l
  if s.flag (lcCfgEnable l) ∧ c.level = true ∧ s.fld (lcCfgFilter l) ≤ c.held ∧ ¬ s.flag (lcStatusOut l) then
    let s := ((s.setFld (lcStatusOut l) 1).setFld (lcStatusHop l) c.hop).setCell l { c with hop := 0 }
    .next (s.fireAt (340 + l) c.hop s.taiNs)
  else .next s

end Sys2Proof.Machine
end

