-- ==== Sys2Proof/Machine/Starts.lean ====
section
/-! DEFINITION. Supply, wake sources and both starts (R741, R751, R757 to R760, R763, R764, R798, R819). -/

namespace Sys2Proof.Machine

/-! ### Start failures -/

/-- The start-failure record (R758, R819). DEDUCED: assumption 64. -/
def State.startRecord (s : State) (mode step cause : Nat) : State :=
  (s.setFlds [(pwrStartFailMode, mode), (pwrStartFailStep, step), (pwrStartFailCause, cause)]).set64 pwrStartFailTimeLo s.taiNs

/-- A step of DAWN fails (R746, R758): NIGHT without DRAM, and only WAKE or an insertion starts the module again.
DEDUCED: assumption 69. -/
def State.dawnFails (s : State) (step cause : Nat) : State :=
  let s := (s.startRecord 1 step cause).fire 383
  let s := { s with pwr := { s.pwr with blocked := true, recordValid := false } }
  s.toNight false

/-- Failed warm starts within 10 minutes (R760), counted in PWR_CNT_WARM_FAIL. DEDUCED: assumption 69. -/
def State.warmFailed (s : State) (step cause : Nat) : State :=
  let s := (((s.aoTake.startRecord 2 step cause).bump pwrCntWarmFailF 1).fire 383)
  let ts := s.clock :: s.pwr.warmFails.filter (fun t => decide (s.clock < t + 375000000000))
  { s with pwr := { s.pwr with warmFails := ts, retry := true, step := 0, done := [] } }

/-! ### Registers at the end of a start -/

/-- The numeric entries of the Cold column on completion of DAWN (R17). DEDUCED: assumption 62. -/
def State.coldColumn (s : State) : State :=
  let num (a : Nat) (w : Word) : Word := (fieldsAt a).foldl (fun w f => match f.cold with | .num v => setBits w f.lo f.width v | _ => w) w
  s.regs.foldl (fun (t : State) (e : Nat × Word) => if e.1 = pwrMode then t else t.setReg e.1 (num e.1 e.2)) s

/-- MORNING begins (R746): the schedule frames count from here (R425), every domain is as R743 has it. -/
def State.startDone (s : State) : State :=
  let s := (s.domainsUp.watchdogsServed).enterMode 3
  let s := { s with frameTick := 0, pwr := { s.pwr with blocked := false, recordValid := true } }
  (s.set64 plnFrameLo 0).fire 382

/-! ### Supply -/

/-- PRESENT_ASSERTED (R763): PRESENT has been steady for 50 ms, and the supply is enabled. DEDUCED: assumption 73. -/
def execPresentAsserted (s : State) : Host.Outcome State Fault Refusal :=
  if s.pwr.holding then .next { s with pwr := { s.pwr with present := true } }
  else if s.pwr.supply then .next s
  else .next (({ s with pwr := { s.pwr with present := true, supply := true, inserted := true } }).emit (.power 1 true))

/-- INPUT_QUALIFIED (R746, R764): after an insertion or at power-up DAWN begins. -/
def execInputQualified (mv : Nat) (s : State) : Host.Outcome State Fault Refusal :=
  if s.mode = 0 ∧ s.pwr.present = true ∧ s.pwr.inserted = true ∧ 8800 ≤ mv ∧ mv ≤ 62000 then
    let s := (s.setFld pwrInputVin (min mv 65535)).setFld pwrStatusHoldupCharged 1
    let s := if s.pwr.supply then s else s.emit (.power 1 true)
    let s := ({ s with pwr := { s.pwr with supply := true } }).startDawn
    .next { s with pwr := { s.pwr with inserted := false } }
  else .next s

/-! ### Wake sources -/

/-- WAKE_INPUT (R751 bit 1). -/
def execWakeInput (s : State) : Host.Outcome State Fault Refusal := .next (s.wakeSource 1)

/-- WAKE_TIMER (R751 bit 2): the armed timer reaches 0; it counts in NIGHT only. DEDUCED: assumption 70. -/
def execWakeTimer (s : State) : Host.Outcome State Fault Refusal :=
  .next (if s.mode = 0 ∧ s.fld pwrWakeTimerF ≠ 0 then (s.setFld pwrWakeTimerF 0).wakeSource 2 else s)

/-- NIGHT_SIGNAL_DETECT (R751 bit 3): on CR4 always, on optical media only with DRAM retained. -/
def execNightSignalDetect (s : State) : Host.Outcome State Fault Refusal :=
  let m := s.fld (hspPortMedia 0)
  .next (if m = 3 ∨ (s.pwr.dramKept = true ∧ (m = 1 ∨ m = 2)) then s.wakeSource 3 else s)

/-! ### DAWN -/

/-- Full training of all 16 channels begins (R444). -/
def State.trainAll (s : State) : State := (List.range 16).foldl (fun (s : State) (m : Nat) => s.setFld (mcStatusState m) 1) s

/-- A channel trains still. -/
def State.training (s : State) : Bool := (List.range 16).any (fun m => decide (s.fld (mcStatusState m) = 1))

/-- Channels in service. -/
def State.mcCount (s : State) : Nat := ((List.range 16).filter (fun m => decide (s.fld (mcStatusState m) = 2))).length

/-- FAILED marks come back from flash (R452). -/
def State.ranksFailed (s : State) : State :=
  s.pwr.flash.failed.foldl (fun (s : State) (e : Nat × Nat) =>
    (List.range 4).foldl (fun (s : State) (k : Nat) => if bitAt e.2 k then s.setFld (rankFld e.1 k) 3 else s) s) s

/-- The image of a start (R757 step 5, R759 step 3). -/
def State.firmware (s : State) (r : StepResult) : State :=
  let s := s.setReg sysFw (BitVec.ofNat 32 (r.fwVersion % 2 ^ 24))
  s.setDigest sysFwHashF r.fwHash

/-- Passing training results go to flash (R446). -/
def State.flashTraining (s : State) : State :=
  let on := (List.range 16).filter (fun m => decide (s.fld (mcStatusState m) = 2))
  let ts := on.map (fun m => (m, s.fld (mcEyeWidth m), (s.mc m).storedVref))
  let rest := s.pwr.flash.training.filter (fun e => !on.contains e.1)
  { s with pwr := { s.pwr with flash := { s.pwr.flash with training := ts ++ rest } } }

/-- Cameras are looked for on every port (R757 step 10), and the stored recipe is compiled (step 11). -/
def State.dawnDiscovery (s : State) : State :=
  let s := (List.range 12).foldl (fun (s : State) (p : Nat) =>
    if s.portUsable p then ((s.emit (.phy p true)).setDomain (1 + p) true).discover p else s) s
  let s := s.setFlag plnStatusStoredValid (!s.pwr.flash.recipe.isEmpty)
  (s.selfCompile s.pwr.flash.recipe).fabStart

/-- A stored correction enters both banks of its context. DEDUCED: assumption 102. -/
def State.flashSeam (s : State) (e : Nat × Int) : State :=
  match s.ctxPlan e.1 with
  | none => s
  | some cp =>
    let move (b : Bank) : Bank := { b with geo := b.geo.shift cp.width e.2 false }
    (s.setNum e.1 (fun n => { n with b0 := move n.b0, b1 := move n.b1 })).bankStatus e.1

/-- Seam corrections stored with the plan come back where the recipe's hash is unchanged (R739). -/
def State.flashSeams (s : State) : State :=
  match s.pln.plan with
  | some p =>
    if s.pwr.flash.seamRecipe = p.recipeHash then
      let s := { s with cal := { s.cal with totals := s.pwr.flash.seams } }
      s.pwr.flash.seams.foldl State.flashSeam s
    else s
  | none => s

/-- DAWN completes (R746, R757 step 12). -/
def State.dawnDone (s : State) : State :=
  let s := s.commitLive.flashSeams
  let s := s.coldColumn
  let s := { s with pwr := { s.pwr with warmFails := [], step := 12 } }
  s.startDone

/-- Step `n` of DAWN has done its work. -/
def State.dawnEffect (s : State) (n : Nat) (r : StepResult) : State :=
  match n with
  | 4 => s.emit (.power 2 true)
  | 5 =>
    let f : Flash := { s.pwr.flash with imageA := s.pwr.flash.imageA && !r.imageB }
    let s := { s with pwr := { s.pwr with flash := f } }
    ((s.setFlag pwrStatusImageB r.imageB).firmware r).trainAll
  | 6 => s.ranksFailed.flashTraining
  | 7 => ({ s with jnl := { initJnl with valid := true } }).penBlock (s.pwr.flash.block + 1)
  | 10 => s.dawnDiscovery
  | 12 => s.dawnDone
  | _ => s

/-- The failure cause of step `n` of DAWN (R757, R758), 0 where it never fails. -/
def dawnCause (n : Nat) : Nat := natAt [0, 1, 0, 2, 3, 4, 5, 6] n

/-- Step `n` of DAWN fails: by its own check, and step 6 with fewer than 8 channels in service. -/
def State.dawnBad (s : State) (n : Nat) (r : StepResult) : Bool :=
  if n = 6 then decide (s.mcCount < 8) else decide (dawnCause n ≠ 0) && !r.ok

/-- DAWN_STEP (R757, R758): the present step ends; step 6 waits for the training of every channel, step 11 for the compile. -/
def execDawnStep (r : StepResult) (s : State) : Host.Outcome State Fault Refusal :=
  let n := s.pwr.step + 1
  if s.mode ≠ 1 ∨ (n = 6 ∧ s.training = true) ∨ (n = 11 ∧ s.pln.compiling.isSome = true) then .next s
  else if s.dawnBad n r then .next (s.dawnFails n (dawnCause n))
  else .next (({ s with pwr := { s.pwr with step := n } }).dawnEffect n r)

/-- FRESET_HOLD (R798): FRESET was active for `ms` milliseconds of step 2 of DAWN; the full 5 s clear every key and
sequence mark, once in a DAWN. DEDUCED: assumption 74. -/
def execFresetHold (ms : Nat) (s : State) : Host.Outcome State Fault Refusal :=
  if s.mode = 1 ∧ s.pwr.step = 1 ∧ s.pwr.freset = false ∧ 5000 ≤ ms then
    let s := { s with pwr := { s.pwr with freset := true, flash := { s.pwr.flash with seqMarks := [0, 0, 0, 0] } } }
    let s := s.setFld hstKeysProvisioned 0
    .next ((List.range 4).foldl (fun (s : State) (n : Nat) =>
      ((s.setSession n { s.session n with key := none, reply := [] }).set64 (hssSeqLo n) 0).setFld (hstKeyGenF n) 0) s)
  else .next s

/-- IMAGE_A_RESTORED (R757): the copy of image B over image A ends. -/
def execImageARestored (s : State) : Host.Outcome State Fault Refusal :=
  if s.flag pwrStatusImageB ∧ s.mode ≠ 0 then
    .next (({ s with pwr := { s.pwr with flash := { s.pwr.flash with imageA := true } } }).setFld pwrStatusImageB 0)
  else .next s

/-- START_FAIL_CLEAR (R819): the record and its time become 0. -/
def State.startFailClear (s : State) : State := ((s.setReg pwrStartFail 0#32).setReg pwrStartFailTimeLo 0#32).setReg pwrStartFailTimeHi 0#32

/-- START_FAIL_CLEAR: a write with CLEAR. -/
def execStartFailClear (v : Word) (s : State) : Host.Outcome State Fault Refusal :=
  .next (if v.getLsbD 20 then s.startFailClear else s)

/-! ### SUNRISE -/

/-- Step `n` of SUNRISE is under way (R759): steps 4 to 6 run in parallel. -/
def sunriseRuns (done : List Nat) (n : Nat) : Bool :=
  !done.contains n &&
  match n with
  | 1 => true
  | 2 => done.contains 1
  | 3 => done.contains 2
  | 4 | 5 | 6 => done.contains 3
  | 7 => done.contains 4 && done.contains 5 && done.contains 6
  | 8 => done.contains 7
  | 9 => done.contains 8
  | _ => false

/-- The failure cause of step `n` of SUNRISE (R760), 0 where it never fails. DEDUCED: assumption 64. -/
def sunriseCause (n : Nat) : Nat := natAt [0, 2, 3, 4, 0, 0, 0, 6] n

/-- Channels leave self-refresh (R447): one that fails the verify trains alone. -/
def State.dramExit (s : State) (r : StepResult) : State :=
  (List.range 16).foldl (fun (s : State) (m : Nat) =>
    if s.fld (mcStatusState m) = 0 then s
    else
      let s := s.setDomain (25 + m) true
      if r.verifyFail.contains m then (s.modMc m (fun x => { x with tested := r.zeroOk.contains m })).setFld (mcStatusState m) 1
      else s.setFld (mcStatusState m) (if (s.mc m).migration.isSome then 3 else 2)) s

/-- Camera ports resume at their kept rate (R93); a port without one looks for its camera. DEDUCED: assumption 73. -/
def State.portsResume (s : State) : State :=
  (List.range 12).foldl (fun (s : State) (p : Nat) =>
    if !s.portUsable p then s
    else if s.fld (zlpStatusRate p) ≠ 0 ∧ s.fld (zlpStatusLanes p) ≠ 0 then s.phyResume p .warmAdapt
    else ((s.emit (.phy p true)).setDomain (1 + p) true).discover p) s

/-- The journal is merged (R491, R495, R500): each context's gap of the restart begins after its last STRIP entry.
DEDUCED: assumption 61. -/
def State.journalMerged (s : State) : State :=
  let gaps := s.liveCtxs.filterMap (fun c => (s.lastStripLine c).map (fun m => (c, m + 1)))
  let s := ({ s with jnl := { s.jnl with restartGaps := gaps } }).setFld jnlStatusLastFault 4
  if s.jnl.valid then s else ({ s with jnl := { s.jnl with valid := true } }).penBlock (s.pen.block + 1)

/-- Without its plan the module holds the values that stand where no plan is live. DEDUCED: assumption 63. -/
def State.planNone (s : State) : State :=
  let w (a : Nat) (old : Word) : Word := (fieldsAt a).foldl (fun w f => if f.warm = .plan then setBits w f.lo f.width f.coldVal else w) old
  let s := s.regs.foldl (fun (t : State) (e : Nat × Word) => t.setReg e.1 (w e.1 e.2)) s
  let s := (List.range 16).foldl (fun (s : State) (t : Nat) => s.setTout t initTout) s
  ({ s with pln := { s.pln with plan := none, original := none } }).planUnclaim

/-- The plan at a warm start (R422): kept where the stored recipe is its own, else compiled anew from the stored one.
DEDUCED: assumption 63. -/
def State.warmPlan (s : State) : State :=
  match s.pln.plan with
  | none => s.selfCompile s.pwr.flash.recipe
  | some p =>
    if sha256 s.pwr.flash.recipe = p.recipeHash then s
    else s.planNone.selfCompile s.pwr.flash.recipe

/-- The tables are loaded again (R759 step 9): contexts start afresh (R110, R253), outputs and dividers are aligned. -/
def State.tablesLoaded (s : State) : State :=
  match s.pln.plan with
  | none => s
  | some p =>
    let s := s.liveCtxs.foldl (fun (s : State) (c : Nat) => (s.resetDark c).restartModel c) s
    let s := (List.range 16).foldl (fun (s : State) (t : Nat) => s.planTout p t) s
    s.alignDividers

/-- Coils of axes that stayed at standstill take up the same φ (R688). -/
def State.axesUp (s : State) : State :=
  [0, 1].foldl (fun (s : State) (x : Nat) =>
    if s.axIs x 0 then s else (s.setAx x { s.ax x with coilsOn := true, cutPercent := 100 }).axCoils x) s

/-- Addresses in force equal the staged ones on completion of a warm start (R17, R824). DEDUCED: assumption 72. -/
def State.netWarm (s : State) : State :=
  (List.range 2).foldl (fun (s : State) (e : Nat) =>
    s.setEth e { s.eth e with inForce := (List.range 12).map (fun i => s.reg (hsnNetIp6 e 0 + 4 * i)) }) s

/-- SUNRISE completes (R746, R750, R759). DEDUCED: assumption 62. -/
def State.sunriseDone (s : State) : State :=
  let s := (s.tablesLoaded.regsWarm true).netWarm
  let b := s.fld pwrModeBeforeStart
  let s := { s with pwr := { s.pwr with step := 9, resumeStart := s.flag pwrCtrlAutoResume && decide (b = 4 ∨ b = 5) } }
  s.axesUp.startDone.warmPlan

/-- PLLs run (R741, R659, R596): the channels count again, the servo acquires. -/
def State.clocksRun (s : State) : State :=
  let s := ((s.emit (.power 2 true)).setDomain 44 true).setDomain 45 true
  let s := { s with evt := { s.evt with flights := [], waiting := [] } }
  s.aoHandover.setFld timStatusServo (if s.flag timCtrlPtpEn then 1 else 0)

/-- Step `n` of SUNRISE has done its work. -/
def State.sunriseEffect (s : State) (n : Nat) (r : StepResult) : State :=
  match n with
  | 2 => s.clocksRun
  | 3 => s.firmware r
  | 4 => s.dramExit r
  | 6 => s.portsResume
  | 7 => s.journalMerged
  | 9 => s.sunriseDone
  | _ => s

/-- SUNRISE_STEP (R759, R760): step `n` ends. Step 7 waits for channels that train. -/
def execSunriseStep (n : Fin 16) (r : StepResult) (s : State) : Host.Outcome State Fault Refusal :=
  if s.mode ≠ 2 ∨ s.pwr.retry = true ∨ sunriseRuns s.pwr.done n.val = false ∨ (n.val = 7 ∧ s.training = true) then .next s
  else if sunriseCause n.val ≠ 0 ∧ r.ok = false then .next (s.warmFailed n.val (sunriseCause n.val))
  else
    let s := { s with pwr := { s.pwr with done := s.pwr.done ++ [n.val], step := n.val } }
    .next (s.sunriseEffect n.val r)

/-- WARM_FAIL_RETRY (R760): a second after a failed SUNRISE it begins again; the third failure within 10 minutes leads to DAWN
with cause 7. -/
def execWarmFailRetry (s : State) : Host.Outcome State Fault Refusal :=
  if s.mode ≠ 2 ∨ s.pwr.retry = false then .next s
  else
    let recent := s.pwr.warmFails.filter (fun t => decide (s.clock < t + 375000000000))
    if 3 ≤ recent.length then .next ((s.setFld pwrStartFailCause 7).startDawn)
    else .next ({ s with pwr := { s.pwr with retry := false, step := 0, done := [] } })

end Sys2Proof.Machine
end

