-- ==== Sys2Proof/Machine/Dusk.lean ====
section
/-! DEFINITION. Mode changes by order (R746 to R749, R761, R821, R822): MODE, STOP with what waits for it, DUSK and its end. -/

namespace Sys2Proof.Machine

/-! ### MIDNIGHT -/

/-- ZLP_CTRL.LOOP goes from `old` to `new` (R96, R97): far-end loops begin and end with a LOOP block; a port that leaves a near-end
loop looks for its camera again. DESIGN CHOICE: assumption 14. -/
def State.portLoop (s : State) (p old new : Nat) : State :=
  if old = new then s
  else
    let s := if old = 3 ∨ old = 4 then s.emit (.loop p 0) else s
    if new = 0 then (if old = 1 ∨ old = 2 then s.discover p else s.setFld (zlpStatusState p) 6)
    else
      let s := if new = 3 ∨ new = 4 then s.emit (.loop p (new - 2)) else s
      s.setFld (zlpStatusState p) 7

/-- The loops of MIDNIGHT end with it (R96). DESIGN CHOICE: assumption 14. -/
def State.endLoops (s : State) : State :=
  (List.range 12).foldl (fun (s : State) (p : Nat) => (s.setFld (zlpCtrlLoop p) 0).portLoop p (s.fld (zlpCtrlLoop p)) 0) s

/-- A lost slice is back in service (R421, R776). DESIGN CHOICE: assumption 71. -/
def State.sliceBack (s : State) (k : Nat) : State :=
  ((s.setSlice k { s.slice k with lost := false, idleSince := s.clock }).setDomain (13 + k) true).setDomain (17 + k) true

/-- The diagnosis of MIDNIGHT (R421, R777): which lost slices and engines it clears is a free value (assumption 3). The fallback of a
cleared slice yields to the original plan, compiled anew. DESIGN CHOICE: assumption 71. -/
def State.diagnose (s : State) : State :=
  let ks := (List.range 4).filter (fun k => (s.slice k).lost)
  if ks.isEmpty && s.pwr.engineLost.isEmpty then s
  else
    let f := s.takeFree 64
    let s := f.2
    let up := ks.filter (fun k => bitAt f.1 k)
    let es := s.pwr.engineLost.filter (fun g => bitAt f.1 (4 + g))
    let s := up.foldl State.sliceBack s
    let s := es.foldl (fun (s : State) (g : Nat) => s.setDomain (23 + g) true) s
    let s := { s with pwr := { s.pwr with engineLost := s.pwr.engineLost.filter (fun g => !es.contains g) } }
    let a := s.fld plnActiveF
    if s.flag plnStatusOnFallback ∧ 76 ≤ a ∧ a < 80 ∧ up.contains (a - 76) = true then s.selfCompile s.pln.lastRecipe else s

/-- MIDNIGHT is entered (R448, R746): channels whose periodic retrain failed train in full.
DESIGN CHOICE: assumption 71. -/
def State.toMidnight (s : State) : State :=
  let s := (List.range 16).foldl (fun (s : State) (m : Nat) =>
    if (s.mc m).retrainDue ∧ s.fld (mcStatusState m) = 2 then s.setFld (mcStatusState m) 1 else s) s
  (s.enterMode 7).diagnose

/-! ### DUSK begins -/

/-- Descriptors that start no new work are still fetched in DUSK: STOPPED shows it on every open session (R561, R761 step 1).
DEDUCED: assumption 59. -/
def State.duskStopped (s : State) : State :=
  (List.range 4).foldl (fun (s : State) (n : Nat) =>
    if s.isOpen n ∧ s.fld (hssSessionStopped n) = 0 then (s.setFld (hssSessionStopped n) 4).fire 399 else s) s

/-- Orders that wait for a frame boundary end with DUSK. DEDUCED: assumption 75. -/
def State.dropOrders (s : State) : State :=
  let ds := s.pln.due
  ds.foldl (fun (s : State) (o : DueOp) => s.finishOrder o 10 []) { s with pln := { s.pln with due := [] } }

/-- DUSK begins (R746, R761 step 1): strips close, and what was accepted is finished; a critical temperature skips the drain. -/
def State.startDusk (s : State) (target : Nat) (who : Option (Nat × Nat)) (critical : Bool) : State :=
  let live := s.inspecting
  let s := { s with pwr := { s.pwr with duskFrom := s.mode, duskStep := if critical then 4 else 2, duskDesc := who, afterStop := none,
                                        critical := critical, latched := [], faultMode := 0 } }
  let s := if critical ∧ live then s.gateAll else if live then s.rebaseAll else s
  ((s.setFld pwrModeTarget target).enterMode 6).dropOrders.duskStopped

/-! ### MODE -/

/-- The descriptor of a mode change completes with the mode reached (R557). DEDUCED: assumption 59. -/
def State.modeDone (s : State) (who : Option (Nat × Nat)) : State :=
  match who with
  | none => s
  | some (n, idx) => s.finishDesc n idx 0 (leBytes 1 s.mode)

/-- A mode change of R749 that takes effect at once. DEDUCED: assumption 59. -/
def State.modeTo (s : State) (target : Nat) (who : Option (Nat × Nat)) : State :=
  match target with
  | 0 => ((if s.mode = 7 then s.endLoops else s).enterMode 3).modeDone who
  | 1 => (if s.mode = 7 then s else s.toMidnight).modeDone who
  | _ => s.startDusk target who false

/-- A mode change of R749: from NOON and AFTERNOON a STOP comes first. -/
def State.modeOrder (s : State) (target : Nat) (who : Option (Nat × Nat)) : State :=
  if s.inspecting then { s with pwr := { s.pwr with afterStop := some target, duskDesc := who } } else s.modeTo target who

/-- The effect of MODE (R624: a coordinator resets the whole fabric by a global order); a second one while one waits for its STOP finds the wrong state.
DEDUCED: assumption 59. -/
def modeEffect (n : Nat) (d : OutDesc) (s : State) : State :=
  let t := d.par 0x10 1
  if 7 ≤ t then s.badParam n d 0x10
  else if s.pwr.afterStop.isSome then s.wrongState n d
  else if (t = 5 ∨ t = 6) ∧ s.coordinates = true ∧ s.fabricMember = true then s.issueOrder (t + 1) 0 0 0 [] n d.idx
  else s.modeOrder t (some (n, d.idx))

/-- MODE (0x58): in DUSK it completes with status 5 (R748). -/
def execMode (n : SessId) (idx : Nat) (s : State) : Host.Outcome State Fault Refusal :=
  .next (s.runDesc n idx 0x58 modesMNAX (modeEffect n))

/-- A write of PWR_RESTART (R821, R822). -/
def State.pwrRestart (s : State) (v : Word) : State :=
  let t := getBits v 0 3
  if getBits v 16 16 ≠ 0x5A1C ∨ (t ≠ 5 ∧ t ≠ 6) ∨ s.mode < 3 ∨ s.mode = 6 ∨ s.pwr.afterStop.isSome = true then s
  else s.modeOrder t none

/-- PWR_RESTART (R822). -/
def execPwrRestart (v : Word) (s : State) : Host.Outcome State Fault Refusal := .next (s.pwrRestart v)

/-! ### STOP -/

/-- The mode change that waited for its STOP (R749). -/
def State.stopThenMode (s : State) (target : Nat) : State :=
  let who := s.pwr.duskDesc
  let s := { s with pwr := { s.pwr with afterStop := none, duskDesc := none } }
  if target < 2 then s.stopInspection.modeTo target who else s.startDusk target who false

/-- STOP_EFFECT (R555, R747, R749): at a frame boundary, after a fault switch that is due at it. -/
def execStopEffect (s : State) : Host.Outcome State Fault Refusal :=
  if s.pln.fault.isSome && s.pln.loaded then .next s
  else match s.dueLocal 2 with
  | some o => .next ((s.dropDue o).stopEffect o)
  | none =>
    match s.pwr.afterStop with
    | none => .next s
    | some t => .next (if s.inspecting then s.stopThenMode t else { s with pwr := { s.pwr with afterStop := none } })

/-! ### The drain -/

/-- Every line that the context accepted has been labelled (R761 step 2). -/
def State.ctxDrained (s : State) (c : Nat) : Bool :=
  let x := s.ctx c
  x.fifo.all FifoLine.sliceTook && x.filling.isEmpty && x.complete.isEmpty && x.reading.isEmpty && x.segq.isEmpty

/-- Every context has finished its strips. -/
def State.drained (s : State) : Bool := s.liveCtxs.all (fun c => s.flag (ctxCtrlGated c) || s.ctxDrained c)

/-- Pennants of the queue are journaled and delivered, as far as the host takes them (R761 step 2). -/
def State.penFlush (s : State) : Nat → State
  | 0 => s
  | f + 1 =>
    let s1 := s.penGather
    let t := (s1.jnlDurable (s1.jnl.next - 1)).penDeliver
    if t.pen.queue.length < s.pen.queue.length then t.penFlush f else t

/-- The queue, as far as it drains. -/
def State.drainPennants (s : State) : State := s.penFlush (s.pen.queue.length + s.pen.staging.length + 1)

/-! ### The end of DUSK -/

/-- A job at the end of DUSK (R761 step 3): it is pre-empted and kept for the warm start, or completes with status 10 and its counts. -/
def State.duskJob (s : State) (keep : Bool) (j : Job) : State :=
  let s := if j.phase = .running then (s.bump jnlCntPreemptF 1).fire 402 else s
  if keep then s.checkpoint j
  else
    let s := if j.auto then s.dropJob j.id else s.jobEnd j 10
    if j.par.kind = .check then s.crcEnd j.par.unit j.id else s

/-- Calibrations end with DUSK. DEDUCED: assumption 75. -/
def State.duskCal (s : State) : State :=
  s.calCutAll

/-- An axis stops by a ramp and its motor stage powers down in an orderly way (R684, R688, R761 step 4).
DEDUCED: assumption 75. -/
def State.duskAxis (s : State) (x : Nat) : State :=
  if s.axIs x 0 then s
  else
    let s := if s.axMoving x then s.rampedStop x [] else s
    let a := s.ax x
    let s := match a.segs.getLast? with
      | none => s
      | some g =>
        let s := s.setAx x { a with p := g.pos, v := 0 }
        (s.axisCompares x a.p g.pos).endMotion x
    (s.setAx x { s.ax x with coilsOn := false }).axCoils x

/-- SLEEP to every linked camera; for removal the port PHYs are switched off too (R761 step 5). -/
def State.duskCameras (s : State) (target : Nat) : State :=
  (List.range 12).foldl (fun (s : State) (p : Nat) =>
    if s.linked p then
      let s := s.emit (.sleep p)
      let s := if target = 4 then (s.emit (.phy p false)).setDomain (1 + p) false else s
      (s.setFld (zlpStatusState p) 0).modPort p (fun x => { x with asleep := true, wait := .none })
    else s) s

/-- The lane adaptation that goes to flash (R761 step 6). -/
def State.flashLanes (s : State) : Tbl LaneSt :=
  (List.range 96).foldl (fun (t : Tbl LaneSt) (i : Nat) => tblSet t initLane i (s.lane (i / 8) (i % 8))) []

/-- Seam corrections go to flash with the plan (R739). -/
def State.saveSeams (s : State) : State :=
  let h := match s.pln.plan with | some p => p.recipeHash | none => []
  { s with pwr := { s.pwr with flash := { s.pwr.flash with seams := s.cal.totals, seamRecipe := h } } }

/-- What DUSK writes to flash (R446, R594, R739, R761 step 6). -/
def State.duskFlash (s : State) : State :=
  let s := s.flashTraining.saveSeams
  let f : Flash := { s.pwr.flash with lanes := s.flashLanes, aoTrim := s.fldInt timAoTrimF }
  { s with pwr := { s.pwr with flash := f } }

/-- The target of DUSK is entered (R761 step 7). -/
def State.duskTarget (s : State) (target from' : Nat) : State :=
  match target with
  | 2 => s.toNight true
  | 4 => (s.setFld pwrStatusRemoveReady 1).toNight false
  | 5 =>
    let s := s.dieLost
    ({ s with pwr := { s.pwr with faultMode := from' } }).startSunrise from'
  | 6 => s.startDawn
  | _ => s.toNight false

/-- Steps 3 to 7 of DUSK (R761); a critical temperature skips step 3 (R756). DEDUCED: assumption 75. -/
def State.duskEnd (s : State) : State :=
  let t := s.fld pwrModeTarget
  let keep := decide (t = 5) || (decide (t = 2) && s.jnl.valid)
  let s := if s.pwr.critical then s else (s.jobs.foldl (fun (s : State) (j : Job) => s.duskJob keep j) s).duskCal
  let s := (((s.duskAxis 0).duskAxis 1).setDomain 47 false).emit (.power 0 false)
  let s := ((s.duskCameras t).duskFlash.modeDone s.pwr.duskDesc).jnlMerge
  s.duskTarget t s.pwr.duskFrom

/-- DUSK_DRAIN_END (R761): strips first, then pennants, then the rest. DEDUCED: assumption 75. -/
def execDuskDrainEnd (s : State) : Host.Outcome State Fault Refusal :=
  if s.mode ≠ 6 then .next s
  else if s.pwr.duskStep = 4 then .next s.duskEnd
  else if s.pwr.duskStep = 2 ∧ s.drained = false then .next s
  else
    let s := if s.pwr.duskStep = 2 then s.gateAll else s
    let s := ({ s with pwr := { s.pwr with duskStep := 3 } }).drainPennants
    .next (if s.pen.queue.isEmpty ∧ s.pen.staging.isEmpty then s.duskEnd else s)

/-- DRAIN_TIMEOUT (R761 step 2): the drain is over; pennants still queued stay in the journal.
DEDUCED: assumption 75. -/
def execDrainTimeout (s : State) : Host.Outcome State Fault Refusal :=
  if s.mode ≠ 6 ∨ s.pwr.duskStep = 4 then .next s
  else
    let s := if s.pwr.duskStep = 2 then s.gateAll else s
    .next { s with pwr := { s.pwr with duskStep := 4 } }

end Sys2Proof.Machine
end

