-- ==== Sys2Proof/Machine/Power.lean ====
section
/-! DEFINITION. Supply faults, clock faults, lost units, temperatures and currents (R742, R744, R754 to R756, R764 to R767,
R774 to R778, R787). -/

namespace Sys2Proof.Machine

/-! ### Hold-up -/

/-- The always-on domain has lost its supply (R520, R766): time, counts in NIGHT and the wake timer are gone, and a session's
sequence begins beyond its flash mark. DEDUCED: assumption 67. -/
def State.alwaysOnLost (s : State) : State :=
  let s := { s with tim := { s.tim with tai := 0 } }
  let s := (List.range 4).foldl (fun (s : State) (k : Nat) => s.setEnc k { s.enc k with ao := 0, aoEntry := 0 }) s
  let s := (List.range 4).foldl (fun (s : State) (n : Nat) => s.set64 (hssSeqLo n) (natAt s.pwr.flash.seqMarks n + 2 ^ 20)) s
  let s := (s.setFld pwrWakeTimerF 0).setFld pwrStatusHoldupCharged 0
  { s with pwr := { s.pwr with supply := false, holding := false, dramKept := false, recordValid := false, blocked := false, ignoreWake := false,
                               warmFails := [], pllAt := none } }

/-- The hold-up actions of a running module (R765): bridges, intake, self-refresh, the journal's tail, NIGHT with DRAM.
DEDUCED: assumption 68. -/
def State.holdUp (s : State) (cause : Nat) : State :=
  let before := s.mode
  let s := ((s.catalogue 10 cause none).bridgesOff).toNight true
  let s := s.setFld pwrStartFailHoldupDone 1
  { s with pwr := { s.pwr with faultMode := before, recordValid := true } }

/-- A hold-up in a start (R767): only the motor bridges and the power removal; DRAM holds nothing to return to.
DEDUCED: assumption 68. -/
def State.holdUpStart (s : State) : State :=
  let s := (s.bridgesOff).toNight false
  { s with pwr := { s.pwr with recordValid := false } }

/-- HOLD_UP (R765 to R767): PRESENT opens, or the input falls below 8.2 V. -/
def execHoldUp (undervoltage : Bool) (s : State) : Host.Outcome State Fault Refusal :=
  if s.pwr.supply = false ∨ s.pwr.holding = true then .next s
  else
    let s := (s.setFld pwrStartFailLastLoss (if undervoltage then 2 else 1)).setFld pwrStartFailHoldupDone 0
    let s := s.fire (if undervoltage then 385 else 386)
    let s := { s with pwr := { s.pwr with present := undervoltage && s.pwr.present, holding := true } }
    .next (match s.mode with
      | 0 => s
      | 1 => s.holdUpStart
      | 2 => s.holdUpStart
      | _ => s.holdUp (if undervoltage then 1 else 0))

/-- INPUT_RETURN (R746, R766): before the hold-up store is exhausted NIGHT is left at once. DEDUCED: assumption 68. -/
def execInputReturn (s : State) : Host.Outcome State Fault Refusal :=
  if s.pwr.holding = false ∨ s.mode ≠ 0 then .next s
  else
    let s := { s with pwr := { s.pwr with present := true, holding := false } }
    .next (if s.pwr.dramKept ∧ s.pwr.recordValid then s.startSunrise s.pwr.faultMode
      else if s.pwr.blocked then s else s.startDawn)

/-- HOLDUP_EXHAUSTED (R766): every volatile state is lost. DEDUCED: assumption 67. -/
def execHoldupExhausted (s : State) : Host.Outcome State Fault Refusal :=
  .next (if s.pwr.holding then s.alwaysOnLost.emit (.power 1 false) else s)

/-- OVERVOLTAGE (R764): the supply is disabled without hold-up actions; the input must be qualified again.
DEDUCED: assumption 67. -/
def execOvervoltage (s : State) : Host.Outcome State Fault Refusal :=
  if s.pwr.supply = false then .next s
  else
    let s := ((s.fire 387).setFld pwrStartFailLastLoss 3).setFld pwrStartFailHoldupDone 0
    let s := { s with pwr := { s.pwr with holding := true } }
    let s := (if s.mode = 0 then s else s.bridgesOff.toNight false).alwaysOnLost
    .next (({ s with pwr := { s.pwr with inserted := true } }).emit (.power 1 false))

/-! ### Clocks and cores -/

/-- A PLL that loses lock again within 10 minutes counts as a failed warm start (R742, R760); the third leads to DAWN.
DEDUCED: assumption 69. -/
def State.pllLost (s : State) (pll : Nat) : State :=
  let again : Bool := match s.pwr.pllAt with | some t => decide (s.clock < t + 375000000000) | none => false
  let s := (s.catalogue 8 pll none)
  let recent := s.pwr.warmFails.filter (fun t => decide (s.clock < t + 375000000000))
  let fails := if again then s.clock :: recent else recent
  let s := { s with pwr := { s.pwr with pllAt := some s.clock, warmFails := fails } }
  let s := if again then s.bump pwrCntWarmFailF 1 else s
  if again ∧ 3 ≤ fails.length then ((s.startRecord 2 0 7).axesHalt.dieLost).startDawn else s.warmFault

/-- PLL_LOCK_LOSS (R742, R746, R760): outside NIGHT. DEDUCED: assumption 69. -/
def execPllLockLoss (pll : Fin 4) (s : State) : Host.Outcome State Fault Refusal :=
  .next (match s.mode with
    | 0 => s
    | 1 => if 4 ≤ s.pwr.step then s.dawnFails (s.pwr.step + 1) 3 else s
    | 2 => if s.pwr.done.contains 2 then s.warmFailed 2 3 else s
    | _ => s.pllLost pll)

/-- WATCHDOG_SERVICE (R778). -/
def execWatchdogService (core : Fin 4) (s : State) : Host.Outcome State Fault Refusal :=
  .next { s with pwr := { s.pwr with watchdog := s.pwr.watchdog.set core s.clock } }

/-- WATCHDOG_EXPIRY (R746, R778): 100 ms without service. DEDUCED: assumption 66. -/
def execWatchdogExpiry (core : Fin 4) (s : State) : Host.Outcome State Fault Refusal :=
  .next (if s.mode < 3 ∨ s.clock < natAt s.pwr.watchdog core + 62500000 then s else (s.catalogue 9 core none).warmFault)

/-! ### Slices and engines -/

/-- A context of a lost slice loses what the slice held of it (R492). -/
def State.ctxLost (s : State) (c : Nat) : State :=
  let x := s.ctx c
  s.setCtx c { x with fe := feClear false x.fe, geo := geoClear false x.geo, reading := [], segq := [],
                      seg := { modelRestart x.seg with blobs := [], prev := [], prevGaps := [] } }

/-- SLICE_LOSS (R775 kind 3, R776). -/
def execSliceLoss (k : SliceId) (s : State) : Host.Outcome State Fault Refusal :=
  if s.mode < 3 ∨ (s.slice k).lost = true then .next s
  else
    let s := s.setSlice k { s.slice k with lost := true, asleep := false }
    let s := (s.setDomain (13 + k) false).setDomain (17 + k) false
    let cs := (s.sliceCtxs k).map Prod.fst
    .next ((cs.foldl State.ctxLost s).catalogue 3 k (some (76 + k)))

/-- The lines of a context that wait for a lost engine skip the ring (R115, R362, R777). DEDUCED: assumption 60. -/
def State.linesSkip (s : State) (c g : Nat) : State :=
  let ls := (s.ctx c).fifo.filter (fun l => !l.engineTook)
  let s := ls.foldl (fun (s : State) (l : FifoLine) => s.ringSkip c g l.line) s
  let x := s.ctx c
  (s.setCtx c { x with fifo := x.fifo.map (fun l => { l with engineTook := true }) }).fifoDrain c

/-- ENGINE_LOSS (R775 kind 7, R777). DEDUCED: assumption 60. -/
def execEngineLoss (g : EngineId) (s : State) : Host.Outcome State Fault Refusal :=
  if s.mode < 3 ∨ s.pwr.engineLost.contains g.val = true then .next s
  else
    let s := ({ s with pwr := { s.pwr with engineLost := s.pwr.engineLost ++ [g.val] } }).setDomain (23 + g) false
    let cs := match s.pln.plan with | none => [] | some p => (p.ctxs.filter (fun (e : Nat × CtxPlan) => decide (e.2.engine = g.val))).map Prod.fst
    .next (cs.foldl (fun (s : State) (c : Nat) => s.linesSkip c g) ((s.catalogue 7 g none).cmpFire g 7))

/-! ### Temperatures -/

/-- One sensor against its limits (R755, R756): sensors 0 die, 1 DRAM, 2 power stage, 3 motor bridge.
DEDUCED: assumption 64. -/
def State.tempCheck (s : State) (i : Nat) (t warn crit : Int) : State :=
  let w := s.pwr.warned
  let w1 := if t < warn - 5 then w.filter (fun j => decide (j ≠ i)) else w
  let new := decide (warn ≤ t) && !w.contains i
  let hot := decide (crit ≤ t) && decide (i < 3)
  let newHot := hot && !w.contains (4 + i)
  let w2 := (w1.filter (fun j => decide (j ≠ 4 + i) || hot)) ++ (if new then [i] else []) ++ (if newHot then [4 + i] else [])
  let s := { s with pwr := { s.pwr with warned := w2 } }
  let s := if new then (s.setFld pwrStatusThermalWarn 1).fire 388 else s
  if newHot then s.fire 389 else s

/-- A critical temperature takes the module into DUSK toward NIGHT without DRAM (R756, R758, R774).
DEDUCED: assumption 64. -/
def State.tooHot (s : State) (res : Nat) : State :=
  let s := (s.catalogue 11 res none).startRecord 0 0 8
  let s := { s with pwr := { s.pwr with ignoreWake := true } }
  if s.mode = 6 then
    let s := if s.pwr.duskStep = 2 then s.gateAll else s
    ({ s with pwr := { s.pwr with critical := true, duskStep := 4 } }).setFld pwrModeTarget 3
  else s.startDusk 3 (if s.pwr.afterStop.isSome then s.pwr.duskDesc else none) true

/-- TEMPERATURE_READ (R755, R756): every sensor against its limits, once per millisecond. -/
def execTemperatureRead (die : List Int) (dram stage bridge : Int) (s : State) : Host.Outcome State Fault Refusal :=
  if s.mode = 0 then .next s
  else
    let d := hottest die
    let s := ((s.setFldInt pwrTempDie (satS 8 d)).setFldInt pwrTempDram (satS 8 dram)).setFldInt pwrTempStage (satS 8 stage)
    let s := (((s.setFldInt pwrTempBridge (satS 8 bridge)).tempCheck 0 d 110 125).tempCheck 1 dram 95 105).tempCheck 2 stage 120 135
    let s := s.tempCheck 3 bridge 140 150
    let hot := s.pwr.warned.filter (fun j => decide (4 ≤ j))
    .next (match hot with
      | [] => if s.mode = 6 ∧ s.pwr.critical = true then { s with pwr := { s.pwr with critical := false, duskStep := 3 } } else s
      | j :: _ => if s.mode < 3 ∨ s.pwr.critical = true then s else s.tooHot (j - 4))

/-- CRITICAL_COOLDOWN (R756): 60 s with every sensor below its warning limit. DEDUCED: assumption 66. -/
def execCriticalCooldown (s : State) : Host.Outcome State Fault Refusal := .next { s with pwr := { s.pwr with ignoreWake := false } }

/-! ### Currents -/

/-- Both axes' currents are lowered by 10 % (R754). PRESUMED: assumption 76. -/
def State.cutCurrents (s : State) : State :=
  [0, 1].foldl (fun (s : State) (x : Nat) => (s.setAx x { s.ax x with cutPercent := (s.ax x).cutPercent - 10 }).axCoils x) s

/-- CURRENT_LIMIT (R754): the input current, in 10 mA, reaches 40 A. PRESUMED: assumption 76. -/
def execCurrentLimit (current : Nat) (s : State) : Host.Outcome State Fault Refusal :=
  if s.mode = 0 ∨ current < 4000 ∨ s.pwr.limiting = true then .next s
  else
    let s := (s.setFld pwrInputIin (min current 65535)).setFld pwrStatusCurrentLimit 1
    .next (({ s with pwr := { s.pwr with limiting := true } }).fire 391)

/-- CURRENT_REDUCTION (R754): once per millisecond until the current, in 10 mA, is below 38 A.
PRESUMED: assumption 76. -/
def execCurrentReduction (current : Nat) (s : State) : Host.Outcome State Fault Refusal :=
  if s.pwr.limiting = false then .next s
  else
    let s := s.setFld pwrInputIin (min current 65535)
    .next (if current < 3800 then { s with pwr := { s.pwr with limiting := false } } else s.cutCurrents)

/-- A new I_max for both axes, from their next motion tick (R787). PRESUMED: assumption 76. -/
def State.limitAxes (s : State) (m : Option Nat) : State :=
  [0, 1].foldl (fun (s : State) (x : Nat) =>
    (s.setAx x { s.ax x with limitDue := some m }).setFlag (axStatusDerated x) m.isSome) s

/-- DERATING_EVALUATION (R665, R768, R787): I_max = floor(3 000 × V_in / 24) mA while the input is below 24 V, and until 24.5 V.
PRESUMED: assumption 76. -/
def execDeratingEvaluation (mv : Nat) (s : State) : Host.Outcome State Fault Refusal :=
  if s.mode = 0 then .next s
  else
    let was := s.flag pwrStatusDerated
    let s := s.setFld pwrInputVin (min mv 65535)
    if mv < 24000 ∨ (was = true ∧ mv < 24500) then
      .next (((s.setFld pwrStatusDerated 1).fireIf (!was) 384).limitAxes (some (3000 * mv / 24000)))
    else if was then .next ((s.setFld pwrStatusDerated 0).limitAxes none)
    else .next s

/-! ### Sleeping domains -/

/-- The wake time of domain `d` in ns (R743), where it has one. -/
def wakeBound (d : Nat) : Option Nat :=
  if 1 ≤ d ∧ d ≤ 12 then some 150000
  else if 13 ≤ d ∧ d ≤ 24 then some 20000
  else if d = 46 then some 10000
  else if d = 47 then some 5000000
  else none

/-- DOMAIN_WAKE (R744): a domain is awake after `ns` nanoseconds. DEDUCED: assumption 77. -/
def execDomainWake (d : Fin 48) (ns : Nat) (s : State) : Host.Outcome State Fault Refusal :=
  if s.mode < 3 ∨ 5 < s.mode then .next s
  else
    let s := if s.domainDue d then s.setDomain d true else s
    .next (match wakeBound d with
      | none => s
      | some b => if b < ns then (s.bump pwrCntWakeLateF 1).fire 390 else s)

end Sys2Proof.Machine
end

