-- ==== Sys2Proof/Machine/Setup.lean ====
section
/-! DEFINITION. The register space as the setup window reads and writes it (R14 to R16, R524, R808 to R828): latches of LO and HI
pairs, access codes, and what a write sets off. -/

namespace Sys2Proof.Machine

/-! ### Reads -/

/-- The LO registers whose read loads a latch with the HI register, four bytes above (R810). -/
def latchLos : List Nat :=
  [sysSerialLo, pwrStartFailTimeLo, plnFrameLo, gegOriginLo, gegZeroLo, penSeqLastLo, jnlEntryLo, jnlXfaultOffLo, timNowLo, timRateLo,
    fabCoordLo] ++
  (List.range 4).flatMap (fun n => [hssSeqLo n, hrbWinBaseLo n, hrbWinLenLo n, hrbDbAddrLo n, encPosLo n]) ++
  (List.range 12).flatMap (fun c => [ctxStripLo c, geoLineLo c]) ++
  (List.range 2).map axPosLo ++ (List.range 8).flatMap (fun u => [crcValueLo u, crcResultLo u])

/-- Bits of a check-value unit's word at offset `o` that its width uses (R716); 32 for every other register.
DEDUCED: assumption 10. -/
def State.crcBits (s : State) (a : Nat) : Nat :=
  if 0x13000 ≤ a ∧ a < 0x13200 then
    let o := (a - 0x13000) % 0x40
    let w := s.fld (crcCfgWidth ((a - 0x13000) / 0x40))
    if 0x04 ≤ o ∧ o ≤ 0x20 then (if o % 8 = 4 then min w 32 else w - 32) else 32
  else 32

/-- PROVISION would be accepted now, apart from its source (R526, R826). DESIGN CHOICE: assumption 9. -/
def State.provisionOpen (s : State) : Bool := decide (s.fld hstKeysProvisioned % 2 = 0) && (decide (s.mode = 3) || decide (s.mode = 7))

/-- The word that a register shows at this instant: copies and summaries are formed, all else stands in the register (R597, R809,
R813, R815, R826). DESIGN CHOICE: assumption 9; DEDUCED: assumption 10. -/
def State.regLive (s : State) (a : Nat) : Word :=
  if a = 0x60 then s.sysStatus
  else if a = hstKeys then setBits (s.reg a) 8 1 (b2n s.provisionOpen)
  else if a = timNowLo then BitVec.ofNat 32 s.taiNs
  else if a = timNowHi then BitVec.ofNat 32 (s.taiNs / 2 ^ 32)
  else BitVec.ofNat 32 ((s.reg a).toNat % 2 ^ s.crcBits a)

/-- A read of the register at `a` by `reader`, 4 being firmware (R810): a LO register loads the reader's latch, a HI register
answers from it. -/
def State.regRead (s : State) (reader a : Nat) : Word × State :=
  let key (lo : Nat) : Nat := reader * 2 ^ 17 + lo
  if 4 ≤ a ∧ latchLos.contains (a - 4) = true then (tblGet s.latches 0 (key (a - 4)), s)
  else if latchLos.contains a then (s.regLive a, { s with latches := tblSet s.latches 0 (key a) (s.regLive (a + 4)) })
  else (s.regLive a, s)

/-- LATCHING_LO_READ (R810). DESIGN CHOICE: assumption 7. -/
def execLatchingLoRead (reader : Option SessId) (addr : Nat) (s : State) : Host.Outcome State Fault Refusal :=
  .next (if latchLos.contains addr then (s.regRead (match reader with | none => 4 | some n => n.val) addr).2 else s)

/-! ### Access codes -/

/-- The word after a write of `v` (R9, R14): RW and, in MIDNIGHT, RWP fields take values that their encoding uses, W1C bits clear. -/
def writeWord (midnight : Bool) (fs : List RegField) (old v : Word) : Word :=
  fs.foldl (fun (w : Word) (f : RegField) =>
    let x := getBits v f.lo f.width
    match f.access with
    | .rw | .rwl => if f.admits x then setBits w f.lo f.width x else w
    | .rwp => if midnight && f.admits x then setBits w f.lo f.width x else w
    | .w1c => w &&& ~~~ (BitVec.ofNat 32 x <<< f.lo)
    | .ro | .wo => w) old

/-- The write would change an RWP field (R16). DEDUCED: assumption 8. -/
def rwpHit (fs : List RegField) (old v : Word) : Bool :=
  fs.any (fun f => decide (f.access = .rwp) && f.admits (getBits v f.lo f.width) && decide (getBits v f.lo f.width ≠ getBits old f.lo f.width))

/-! ### What a write sets off -/

/-- A write reached ZLP_CTRL of port `p` (R97, R98). -/
def State.wrotePort (s : State) (p : Nat) (old v : Word) : State :=
  let s := s.portLoop p (getBits old 2 3) (s.fld (zlpCtrlLoop p))
  let s := if getBits old 0 1 ≠ s.fld (zlpCtrlPortEn p) then s.planPort (decide (getBits old 0 1 = 1)) (decide (getBits old 1 1 = 1)) p else s
  let s := if v.getLsbD 6 then s.rediscover p else s
  if v.getLsbD 7 then s.readapt p else s

/-- Timed-frame queue `q` of both ports passes to or from an owner (R590, R713, R714). DESIGN CHOICE: assumption 12. -/
def State.claimQueues (s : State) (q owner : Nat) (on : Bool) : State :=
  [0, 1].foldl (fun (s : State) (e : Nat) =>
    match s.claimOf 3 (8 * e + q), on with
    | none, true => s.setClaim 3 (8 * e + q) (some owner)
    | some o, true => if o = owner then s else s.conflict 3 (8 * e + q) o owner
    | some o, false => if o = owner then s.setClaim 3 (8 * e + q) none else s
    | none, false => s) s

/-- Another owner holds queue `q` of a port. DESIGN CHOICE: assumption 12. -/
def State.queueTaken (s : State) (q owner : Nat) : Bool :=
  [0, 1].any (fun e => match s.claimOf 3 (8 * e + q) with | some o => decide (o ≠ owner) | none => false)

/-- TIM_PACE takes queue 7 for pennant pacing while it is not 0 (R590); where another owner holds the queue it reads back 0 (R714).
DESIGN CHOICE: assumption 12. -/
def State.wrotePace (s : State) : State :=
  if s.fld timPaceF = 0 then s.claimQueues 7 7 false
  else
    let t := s.claimQueues 7 7 true
    if s.queueTaken 7 7 then (t.setReg timPace 0#32).claimQueues 7 7 false else t

/-- FAB_CTRL.TIMED_ORDERS takes queue 6 for the fabric engine (R590, R626); ENABLE powers the engine (R743). -/
def State.wroteFab (s : State) : State :=
  let s := s.setDomain 43 (s.flag fabCtrlEnable)
  if s.flag fabCtrlTimedOrders then
    let t := s.claimQueues 6 6 true
    if s.queueTaken 6 6 then (t.setFld fabCtrlTimedOrders 0).claimQueues 6 6 false else t
  else s.claimQueues 6 6 false

/-- A write reached TIM_CTRL (R570, R577): PTP goes off or begins; the best master is found again. -/
def State.wroteTim (s : State) (old : Word) : State :=
  if ¬ s.flag timCtrlPtpEn then s.servoFree
  else
    let s := if getBits old 0 1 = 0 then s.servo 1 else s
    s.selectMaster

/-- A write reached AX_CTRL of axis `x` (R694): ENABLE turns the axis on and off. -/
def State.wroteAxis (s : State) (x : Nat) : State :=
  if s.flag (axCtrlEnable x) then (if s.axIs x 0 then (s.setFld (axStatusState x) 1).axCoils x else s)
  else if s.axIs x 0 then s
  else ((s.hardStop x []).setFld (axStatusState x) 0).axCoils x

/-- Whether the set of HST_NET registers of port `e` is the one in force (R824, R825).
DEDUCED: assumptions 13 and 72. -/
def State.netApplied (s : State) (e : Nat) : State :=
  s.setFlag (hsnNetCommitApplied e) (decide ((List.range 12).map (fun i => s.reg (hsnNetIp6 e 0 + 4 * i)) = (s.eth e).inForce))

/-- A commit of the staged network addresses (R825): an address or gateway without a prefix, or a gateway outside it, takes no
effect. DEDUCED: assumption 13. -/
def State.netCommit (s : State) (e : Nat) : State :=
  let st := (List.range 12).map (fun i => s.reg (hsnNetIp6 e 0 + 4 * i))
  let w (i : Nat) : Nat := (st.getD i 0).toNat
  let six (i : Nat) : Nat := w i * 2 ^ 96 + w (i + 1) * 2 ^ 64 + w (i + 2) * 2 ^ 32 + w (i + 3)
  let l4 := s.fld (hsnNetIp4PrefixF e)
  let l6 := s.fld (hsnNetIp6PrefixF e)
  let bad4 := if l4 = 0 then decide (w 5 ≠ 0 ∨ w 7 ≠ 0) else decide (w 7 ≠ 0 ∧ w 7 / 2 ^ (32 - l4) ≠ w 5 / 2 ^ (32 - l4))
  let bad6 := decide (six 8 ≠ 0 ∧ l6 ≠ 0 ∧ six 8 / 2 ^ (128 - l6) ≠ six 0 / 2 ^ (128 - l6))
  if bad4 || bad6 then s.setFld (hsnNetCommitApplied e) 0 else (s.setEth e { s.eth e with inForce := st }).netApplied e

/-- HST_NET_COMMIT (R825): a write with COMMIT set. DEDUCED: assumption 72. -/
def execHstNetCommit (e : EthId) (v : Word) (s : State) : Host.Outcome State Fault Refusal :=
  .next (if v.getLsbD 0 then s.netCommit e else s)

/-- QUEUE_PEAK_CLEAR (R335): a write of PEN_QUEUE_PEAK with bit 31 set. -/
def State.queuePeakClear (s : State) : State := s.setFld penQueuePeakPeak (s.fld penQueueF)

/-- QUEUE_PEAK_CLEAR (R335). -/
def execQueuePeakClear (v : Word) (s : State) : Host.Outcome State Fault Refusal := .next (if v.getLsbD 31 then s.queuePeakClear else s)

/-- The plan's tables follow the plan-owned registers, so that what a host wrote in MIDNIGHT is what the units run from.
DEDUCED: assumption 11. -/
def State.planFromRegs (s : State) : State :=
  match s.pln.plan with
  | none => s
  | some p =>
    let fc (e : Nat × CtxPlan) : Nat × CtxPlan :=
      let c := e.1
      (c, { e.2 with service := s.fld (ctxCtrlService c), slice := s.fld (ctxCtrlSlice c), lines := 64 * 2 ^ s.fld (ctxCtrlStripLines c),
                     flushMs := s.fld (ctxCtrlFlushMs c) })
    let fe (e : Nat × EncPlan) : Nat × EncPlan :=
      let k := e.1
      (k, { mode := s.fld (encCtrlMode k), filter := s.fld (encCtrlFilter k), invert := s.flag (encCtrlInvert k), nominal := s.fld (encNominalF k),
            tol := s.fld (encTolF k), rezero := s.flag (encCtrlRezero k), window := s.fld (encWindowF k), wake := s.fld (encWakeF k) })
    let fa (e : Nat × AxisPlan) : Nat × AxisPlan :=
      let x := e.1
      (x, { e.2 with run := s.fld (axCurrentRunMa x), hold := s.fld (axCurrentHoldMa x), feedback := s.fld (axCtrlFeedback x),
                     lowRamped := s.flag (axCtrlLowRamped x), highRamped := s.flag (axCtrlHighRamped x), drop := s.flag (axCtrlDrop x),
                     tout := s.fld (axCtrlMarkTout x) })
    let o := p.outs
    let outs : PlanOuts := { o with encs := o.encs.map fe, axes := o.axes.map fa, delivery := s.flag penStatusDelivery, blockExp := s.fld penStatusBlockExp }
    let q : Plan := { p with ctxs := p.ctxs.map fc, outs := outs, pitchX := s.fld gegPitchXF, pitchY := s.fld gegPitchYF, columns := s.fld gegColumnsF,
                             originX := s.getInt64 gegOriginLo }
    let s := { s with pln := { s.pln with plan := some q } }
    (List.range 12).foldl (fun (s : State) (c : Nat) =>
      let k := s.coder c
      s.setCoder c { k with table := { k.table with dynamic := s.flag (cmpTableDynamic c) } }) s

/-- The effects of a write of `v` at `a` over `old`, once the word has taken it.
DESIGN CHOICE: assumption 7; DEDUCED: assumption 11. -/
def State.wrote (s : State) (a : Nat) (old v : Word) : State :=
  if a = pwrCtrl then s.setReg a (setBits (s.reg a) 1 1 1)
  else if a = pwrStartFail then (if v.getLsbD 20 then s.startFailClear else s)
  else if a = Sys2Proof.Machine.pwrRestart then s.pwrRestart v
  else if 0x4000 ≤ a ∧ a < 0x4C00 ∧ (a - 0x4000) % 0x100 = 0 then s.wrotePort ((a - 0x4000) / 0x100) old v
  else if 0x5000 ≤ a ∧ a < 0x5300 ∧ (a - 0x5000) % 0x40 = 0x14 then
    (if v.getLsbD 31 then s.setFld (ctxFifoPeak ((a - 0x5000) / 0x40)) (s.fld (ctxFifoLevel ((a - 0x5000) / 0x40))) else s)
  else if a = semParts then (if v.getLsbD 31 then s.setFld semPartsPartsPeak (s.fld semPartsParts) else s)
  else if a = penQueuePeak then (if v.getLsbD 31 then s.queuePeakClear else s)
  else if 0xC000 ≤ a ∧ a < 0xC800 ∧ (a - 0xC000) % 0x80 = 4 then (if v.getLsbD 12 then s.retiredClear ((a - 0xC000) / 0x80) else s)
  else if a = timCtrl then (if s.reg a = old then s else s.wroteTim old)
  else if a = timPace then s.wrotePace
  else if a = fabCtrl then s.wroteFab
  else if 0x10000 ≤ a ∧ a < 0x10100 then
    (if s.reg a = old then s
     else if [0x00, 0x1C, 0x20, 0x28, 0x2C].contains ((a - 0x10000) % 0x40) then
       let k := (a - 0x10000) / 0x40
       (s.setFld (encStatusRequalifying k) 1).setEnc k { s.enc k with index := none }
     else s)
  else if 0x11000 ≤ a ∧ a < 0x11100 ∧ (a - 0x11000) % 0x80 = 0 then s.wroteAxis ((a - 0x11000) / 0x80)
  else if 0x13000 ≤ a ∧ a < 0x13200 ∧ (a - 0x13000) % 0x40 = 0x24 then s.loadWrite ((a - 0x13000) / 0x40) v
  else s

/-! ### Writes -/

/-- A write of EVT_CHAN_CFG of channel `v` (R712): a secure channel ignores it, and SECURE itself never changes.
DEDUCED: assumption 10. -/
def State.writeChan (s : State) (v : Nat) (x : Word) : Except UndefCase State :=
  let a := evcChanCfg v
  let old := s.reg a
  let x := setBits x 20 1 (getBits old 20 1)
  if s.flag (evcChanCfgSecure v) then .ok s
  else if s.mode ≠ 7 ∧ rwpHit (fieldsAt a) old x then .error .rwpWrite
  else .ok (s.setReg a (writeWord (decide (s.mode = 7)) (fieldsAt a) old x))

/-- The cell takes a write, and its claim follows ENABLE (R714). -/
def State.cellWrite (s : State) (n l a : Nat) (old x : Word) : State :=
  let w := (writeWord true (fieldsAt a) old x).toNat
  let s := if a = lcCfg l then s.cellLoad l (s.reg (lcInputs l)).toNat w else s.cellLoad l w (s.reg (lcCfg l)).toNat
  s.setClaim 2 l (if s.flag (lcCfgEnable l) then some (ownerOf n) else none)

/-- A write of LC_INPUTS or LC_CFG of cell `l` by session `n` (R712, R714): a secure cell ignores it; so does a cell that another
owner holds, with CONFLICT; enabling claims, disabling ends the claim. DEDUCED: assumption 10. -/
def State.writeCell (s : State) (n l a : Nat) (x : Word) : Except UndefCase State :=
  let old := s.reg a
  let x := if a = lcCfg l then setBits x 25 1 (getBits old 25 1) else x
  if s.flag (lcCfgSecure l) then .ok s
  else if s.mode ≠ 7 then (if rwpHit (fieldsAt a) old x then .error .rwpWrite else .ok s)
  else
    match s.claimOf 2 l with
    | some o => if o = ownerOf n then .ok (s.cellWrite n l a old x) else .ok (s.conflict 2 l o (ownerOf n))
    | none => .ok (s.cellWrite n l a old x)

/-- A write of CRC_VALUE stages half of a value (R719). -/
def State.writeStaged (s : State) (u : Nat) (hi : Bool) (v : Word) : State :=
  let c := s.crc u
  let st := if hi then c.staged % 2 ^ 32 + 2 ^ 32 * v.toNat else c.staged / 2 ^ 32 * 2 ^ 32 + v.toNat
  s.setCrc u { c with staged := st }

/-- A parameter of a check-value unit changes while a run uses it (R718, R780). -/
def State.crcTouched (s : State) (a : Nat) (v : Word) : Bool :=
  decide (0x13000 ≤ a ∧ a < 0x13200 ∧ (a - 0x13000) % 0x40 < 0x1C) && (s.crc ((a - 0x13000) / 0x40)).job.isSome &&
    decide (writeWord false (fieldsAt a) (s.reg a) v ≠ s.reg a)

/-- A write of one register word by session `n` (R14, R16, R524), or the case of R780 that it meets.
DESIGN CHOICE: assumption 7; DEDUCED: assumption 8. -/
def State.regWrite (s : State) (n a : Nat) (v : Word) : Except UndefCase State :=
  if 0x12000 ≤ a ∧ a < 0x12400 ∧ a % 16 = 0 then s.writeChan ((a - 0x12000) / 16) v
  else if 0x12400 ≤ a ∧ a < 0x12600 ∧ a % 16 < 8 then s.writeCell n ((a - 0x12400) / 16) a v
  else if 0x13000 ≤ a ∧ a < 0x13200 ∧ ((a - 0x13000) % 0x40 = 0x1C ∨ (a - 0x13000) % 0x40 = 0x20) then
    .ok (s.writeStaged ((a - 0x13000) / 0x40) (decide ((a - 0x13000) % 0x40 = 0x20)) v)
  else
    let old := s.reg a
    let fs := fieldsAt a
    let mid := decide (s.mode = 7)
    if s.crcTouched a v then .error .crcReconfigured
    else if !mid && rwpHit fs old v then .error .rwpWrite
    else
      let s := if fs.isEmpty then s else s.setReg a (writeWord mid fs old v)
      let s := s.wrote a old v
      .ok (if mid && rwpHit fs old v then s.planFromRegs else s)

/-- Words written in rising address order (R524). DESIGN CHOICE: assumption 7. -/
def State.regWrites (s : State) (n : Nat) : Nat → List Word → Except UndefCase State
  | _, [] => .ok s
  | a, v :: r => match s.regWrite n a v with
    | .error e => .error e
    | .ok t => t.regWrites n (a + 4) r

/-- What takes effect at the end of a WRITE of `ws` from `a` (R825): commits of network addresses, and APPLIED. -/
def State.writeEnds (s : State) (a : Nat) (ws : List Word) : State :=
  [0, 1].foldl (fun (s : State) (e : Nat) =>
    let at' := hsnNetCommit e
    let hit := decide (a ≤ at' ∧ at' < a + 4 * ws.length ∧ ((ws.getD ((at' - a) / 4) 0).getLsbD 0 = true))
    if hit then s.netCommit e else if a < at' ∧ hsnNetIp6 e 0 < a + 4 * ws.length then s.netApplied e else s) s

end Sys2Proof.Machine
end

