-- ==== Sys2Proof/Machine/Sessions.lean ====
section
/-! DEFINITION. Host sessions (R529 to R549): OPEN, CLOSE, loss and resume, replay to a resumed session, doorbells. -/

namespace Sys2Proof.Machine

/-! ### Addresses -/

/-- The MAC address of port `e` (R509, R814), most significant byte first. -/
def State.macOf (s : State) (e : Nat) : List Byte :=
  let lo := if e = 0 then sysMacALo else sysMacBLo
  let hi := if e = 0 then sysMacAHi else sysMacBHi
  beBytes 2 (s.reg hi).toNat ++ beBytes 4 (s.reg lo).toNat

/-- The link-local address of port `e`: modified EUI-64 of its MAC address (R509). DEDUCED: assumption 83. -/
def State.linkLocal (s : State) (e : Nat) : List Byte :=
  let m := s.macOf e
  [0xFE#8, 0x80#8] ++ beBytes 6 0 ++ [(m.getD 0 0) ^^^ 2#8] ++ (m.drop 1).take 2 ++ [0xFF#8, 0xFE#8] ++ m.drop 3

/-- The global IPv6 address in force on port `e`. -/
def State.ip6Of (s : State) (e : Nat) : List Byte := ((s.eth e).inForce.take 4).flatMap (fun w => beBytes 4 w.toNat)

/-- The IPv4 address in force on port `e`. -/
def State.ip4Of (s : State) (e : Nat) : List Byte := beBytes 4 (((s.eth e).inForce.getD 5 0).toNat)

/-- An address is IPv4-mapped. -/
def mapped4 (a : List Byte) : Bool := decide (a.take 12 = beBytes 10 0 ++ [0xFF#8, 0xFF#8])

/-- An address is IPv6 link-local. -/
def isLinkLocal (a : List Byte) : Bool := decide ((beAt a 0 2) / 64 = 0x3FA)

/-- The module's address toward a host (R531): of the host's own kind. DEDUCED: assumption 83. -/
def State.addressFor (s : State) (e : Nat) (host : List Byte) : List Byte :=
  if mapped4 host then beBytes 10 0 ++ [0xFF#8, 0xFF#8] ++ s.ip4Of e
  else if isLinkLocal host ∨ ((s.eth e).inForce.getD 4 0) = 0 then s.linkLocal e
  else s.ip6Of e

/-! ### OPEN requests -/

/-- The body of an OPEN (R530). -/
structure OpenBody where
  port : Nat
  flags : Nat
  hostQpn : Nat
  hostPsn : Nat
  key : Nat
  host : List Byte
  base : Nat
  len : Nat
  index : Nat
  cmd : Nat
  cmdN : Nat
  cplN : Nat
  cpl : Nat
  evt : Nat
  evtN : Nat
  slot : Nat
  pen : Nat
  penN : Nat
  ovwN : Nat
  ovw : Nat
  deriving DecidableEq, Repr

/-- Read the body of an OPEN. -/
def openOf (b : List Byte) : OpenBody :=
  { port := beAt b 0 1, flags := beAt b 1 1, hostQpn := beAt b 4 4 % 2 ^ 24, hostPsn := beAt b 8 4 % 2 ^ 24, key := beAt b 12 4,
    host := slice b 0x10 16, base := beAt b 0x20 8, len := beAt b 0x28 8, index := beAt b 0x30 8, cmd := beAt b 0x38 8, cmdN := beAt b 0x40 4,
    cplN := beAt b 0x44 4, cpl := beAt b 0x48 8, evt := beAt b 0x50 8, evtN := beAt b 0x58 4, slot := beAt b 0x5C 4, pen := beAt b 0x60 8,
    penN := beAt b 0x68 4, ovwN := beAt b 0x6C 4, ovw := beAt b 0x70 8 }

/-- `n` is a power of two from 2^lo to 2^hi. -/
def pow2In (lo hi n : Nat) : Bool := (List.range (hi + 1)).any (fun k => decide (lo ≤ k ∧ n = 2 ^ k))

/-- PENNANTS of an OPEN. -/
def OpenBody.pens (o : OpenBody) : Bool := bitAt o.flags 1
/-- OVERVIEW of an OPEN. -/
def OpenBody.view (o : OpenBody) : Bool := bitAt o.flags 2

/-- The places of the index block and the rings: offset and length (R530). -/
def OpenBody.extents (o : OpenBody) : List (Nat × Nat) :=
  [(o.index, 256), (o.cmd, 128 * o.cmdN), (o.cpl, 128 * o.cplN), (o.evt, 32 * o.evtN)] ++ (if o.pens then [(o.pen, 64 * o.penN)] else []) ++
    (if o.view then [(o.ovw, o.slot * o.ovwN)] else [])

/-- No two of the places overlap. -/
def apart : List (Nat × Nat) → Bool
  | [] => true
  | a :: r => r.all (fun b => decide (a.1 + a.2 ≤ b.1 ∨ b.1 + b.2 ≤ a.1)) && apart r

/-- Every field of an OPEN lies in its range, and every ring inside the window (R530). DEDUCED: assumption 82. -/
def OpenBody.valid (o : OpenBody) : Bool :=
  decide (o.port ≤ 1 ∧ o.base % 65536 = 0 ∧ o.len % 65536 = 0 ∧ 65536 ≤ o.len ∧ o.len ≤ 2 ^ 32 ∧ o.index % 256 = 0 ∧ o.cmd % 128 = 0 ∧
    o.cpl % 128 = 0 ∧ o.evt % 32 = 0) && pow2In 6 16 o.cmdN && pow2In 6 16 o.cplN && pow2In 8 16 o.evtN &&
    (if o.pens then decide (o.pen % 64 = 0) && pow2In 10 24 o.penN else decide (o.pen = 0)) &&
    (if o.view then decide (o.ovw % 64 = 0 ∧ o.slot % 64 = 0 ∧ 128 ≤ o.slot ∧ o.slot ≤ 32832) && pow2In 4 16 o.ovwN
     else decide (o.ovw = 0 ∧ o.slot = 0)) &&
    o.extents.all (fun e => decide (e.1 + e.2 ≤ o.len)) && apart o.extents

/-- HST_RB_SIZES of an OPEN (R828). -/
def OpenBody.sizes (o : OpenBody) : Nat :=
  Nat.log2 o.cmdN + 2 ^ 5 * Nat.log2 o.cplN + 2 ^ 10 * Nat.log2 o.evtN + (if o.pens then 2 ^ 15 * Nat.log2 o.penN else 0) +
    (if o.view then 2 ^ 20 * Nat.log2 o.ovwN else 0)

/-- The ring offsets and sizes of an OPEN equal those in force (R534). DEDUCED: assumption 81. -/
def State.sameRings (s : State) (n : Nat) (o : OpenBody) : Bool :=
  decide (s.fld (hrbIndexOffF n) = o.index ∧ s.fld (hrbCmdOffF n) = o.cmd ∧ s.fld (hrbCplOffF n) = o.cpl ∧ s.fld (hrbEvtOffF n) = o.evt ∧
    s.fld (hrbPenOffF n) = o.pen ∧ s.fld (hrbOvwOffF n) = o.ovw ∧ s.fld (hrbOvwSlotF n) = o.slot ∧ (s.reg (hrbSizes n)).toNat = o.sizes)

/-! ### State of a session -/

/-- STATE changes: notice 0x8005 to the open sessions (R560). -/
def State.sessState (s : State) (n v : Nat) : State :=
  let t := s.setFld (hssSessionState n) v
  if s.fld (hssSessionState n) = v then t else t.noticeAll 0x8005 0xFF (n + 256 * v)

/-- The queue pair of a session ends (R533, R535): writes are lost with it; reads are asked for again when the session resumes. -/
def State.qpEnd (s : State) (n : Nat) : State :=
  let ss := s.session n
  let keep (o : RdmaOp) : Bool := match o.read with
    | some (.descriptors _ _) => false
    | some _ => true
    | none => false
  s.setSession n { ss with qp := { ss.qp with ops := ss.qp.ops.filter keep, retries := 0 }, fetching := false, refetch := none }

/-- A session is held for an OPEN with RESUME (R533, R535). -/
def State.sessHold (s : State) (n : Nat) : State := ((s.qpEnd n).setFld (hssSessionResumable n) 1).sessState n 2

/-- A session is lost (R533, R565). DEDUCED: assumption 81. -/
def State.sessLost (s : State) (n : Nat) : State := if s.isOpen n then (s.sessHold n).fire 393 else s

/-! ### Release -/

/-- What other units hold for a session's descriptors has no descriptor to complete any more: 4 stands for no session. -/
def State.forgetUnits (s : State) (n : Nat) : State :=
  let m (k : Nat) : Nat := if k = n then 4 else k
  let fc (c : CtrlReq) : CtrlReq := { c with sess := m c.sess }
  let fp (p : PortSt) : PortSt := { p with applies := p.applies.map (fun a => { a with sess := m a.sess }), ctrl := p.ctrl.map fc, ctrlQ := p.ctrlQ.map fc }
  let fm (v : AxisMove) : AxisMove := { v with sess := m v.sess }
  let fr (v : RawTable) : RawTable := { v with sess := m v.sess }
  let fa (a : AxSt) : AxSt := { a with newMove := a.newMove.map fm, move := a.move.map fm, raw := a.raw.map fr, nextRaw := a.nextRaw.map fr,
                                       ending := a.ending.map (fun e => (m e.1, e.2)) }
  let s := (List.range 12).foldl (fun (s : State) (p : Nat) => s.setPort p (fp (s.port p))) s
  [0, 1].foldl (fun (s : State) (x : Nat) => s.setAx x (fa (s.ax x))) s

/-- The Planner drops what a session asked of it; orders that wait keep their effect and complete nothing. -/
def State.forgetPlanner (s : State) (n : Nat) : State :=
  let m (k : Nat) : Nat := if k = n then 4 else k
  let mine : Bool := match s.pln.compiling with | some j => decide (j.sess = n) | none => false
  let due := (s.pln.due.filter (fun o => ! decide (o.kind = 4 ∧ o.sess = n))).map (fun o => { o with sess := m o.sess })
  let commit := s.pln.commit.map (fun c => { c with sess := m c.sess })
  let orders := s.fab.orders.map (fun g => { g with sess := m g.sess })
  let s := { s with pln := { s.pln with due := due, commit := commit, sets := s.pln.sets.filter (fun j => decide (j.sess ≠ n)) }
                    fab := { s.fab with orders := orders, snapDesc := s.fab.snapDesc.filter (fun d => decide (d.1 ≠ n)) }
                    cal := { s.cal with runs := s.cal.runs.filter (fun r => decide (r.sess ≠ n)) }
                    pwr := { s.pwr with duskDesc := s.pwr.duskDesc.filter (fun d => decide (d.1 ≠ n)) } }
  if mine then ({ s with pln := { s.pln with compiling := none } }).setFld plnStatusState (if s.pln.plan.isSome then 2 else 0) else s

/-- The claims of a session end with what they hold (R715): pulses of TOUT_ARM, compares, launch queues.
DEDUCED: assumptions 62 and 88. -/
def State.endClaims (s : State) (n : Nat) : State :=
  let s := (List.range 16).foldl (fun (s : State) (t : Nat) =>
    let o := s.tout t
    match o.arm with
    | some a => if a.sess = n then (s.setTout t { o with arm := none, dues := [], next := none }).toutActive t else s
    | none => s) s
  let s := [0, 1].foldl (fun (s : State) (x : Nat) =>
    let a := s.ax x
    (s.setAx x { a with compares := a.compares.filter (fun c => decide (c.sess ≠ n)) }).axRegs x) s
  let s := (List.range 16).foldl (fun (s : State) (q : Nat) =>
    s.setQueue (q / 8) (q % 8) ((s.queue (q / 8) (q % 8)).filter (fun l => decide (l.sess ≠ n)))) s
  { s with evt := { s.evt with claims := s.evt.claims.filter (fun e => decide (e.2 ≠ ownerOf n + 1)) } }

/-- Descriptors and completions of the session need no place in the journal any more (R487, R535).
DEDUCED: assumption 82. -/
def State.retireAll (s : State) (n : Nat) : State :=
  let es := s.jnl.entries.filter (fun e => decide (e.sess = n ∧ (e.ty = 1 ∨ e.ty = 2)))
  (es.map JEntry.tagGen).eraseDups.foldl (fun (s : State) (t : Nat) => s.journal 0x03 n 0xFF [t] []) s

/-- A session is released (CLOSE mode 0 of R535): its jobs are cancelled, its windows and rings go, its completions and event records
are discarded. Rings of the recipe stay with the plan and begin at index 0 again. DEDUCED: assumption 82. -/
def State.sessRelease (s : State) (n : Nat) : State :=
  let viewed := s.flag (hssSessionOverview n)
  let pens := s.flag (hssSessionPennants n)
  let s := if viewed then s.ovwStop else s
  let js := s.jobs.filter (fun j => decide (j.sess = n) && !j.auto)
  let s := js.foldl (fun (s : State) (j : Job) => if j.par.kind = .check then s.crcEnd j.par.unit j.id else s.dropJob j.id) s
  let s := ((((s.forgetUnits n).forgetPlanner n).endClaims n).retireAll n)
  let ss := s.session n
  let rings := (ss.rings.filter (fun e => decide (16 ≤ e.1))).map (fun (e : Nat × HRing) => (e.1, { e.2 with prod := 0, cons := 0, alive := none }))
  let s := s.setSession n { initSess with rings := rings, reply := ss.reply, authFails := ss.authFails, lockUntil := ss.lockUntil, key := ss.key }
  let s := if pens then { s with jnl := { s.jnl with replayPen := [] } } else s
  let s := (List.range 18).foldl (fun (s : State) (i : Nat) => s.setReg (hrbWinBaseLo n + 4 * i) 0#32) s
  let s := s.setFlds [(hssSessionPort n, 0), (hssSessionPennants n, 0), (hssSessionOverview n, 0), (hssSessionResumable n, 0),
    (hssSessionStopped n, 0), (hssCmdConsF n, 0), (hssCplProdF n, 0), (hssOutstandingF n, 0)]
  s.sessState n 0

/-! ### Set-up -/

/-- The queue pair and the ring registers of an OPEN (R528, R531, R828). The module's queue pair number, first packet number, doorbell
key and doorbell address are free values (assumption 3). -/
def State.openQp (s : State) (n : Nat) (o : OpenBody) : State :=
  let q := s.takeFree (2 ^ 24)
  let p := q.2.takeFree (2 ^ 24)
  let k := p.2.takeFree (2 ^ 32)
  let a := k.2.takeFree (2 ^ 64 - 1023)
  let s := a.2
  let ss := s.session n
  let qp : QpSt := { initQp with hostQpn := o.hostQpn, psn := p.1, hostPsn := o.hostPsn, host := o.host, ops := ss.qp.ops }
  let s := s.setSession n { ss with qp := qp }
  let s := ((s.set64 (hrbWinBaseLo n) o.base).set64 (hrbWinLenLo n) o.len).set64 (hrbDbAddrLo n) a.1
  let s := s.setReg (hrbSizes n) (BitVec.ofNat 32 o.sizes)
  s.setFlds [(hrbWinKeyF n, o.key), (hrbIndexOffF n, o.index), (hrbCmdOffF n, o.cmd), (hrbCplOffF n, o.cpl), (hrbEvtOffF n, o.evt),
    (hrbPenOffF n, o.pen), (hrbOvwOffF n, o.ovw), (hrbOvwSlotF n, o.slot), (hrbHostQpnF n, o.hostQpn), (hrbModuleQpnF n, q.1), (hrbDbKeyF n, k.1),
    (hssSessionPort n, o.port), (hssSessionResumable n, 0), (hssSessionStopped n, 0)]

/-- The reply body of an OPEN (R531). DEDUCED: assumption 83. -/
def State.openReply (s : State) (n : Nat) (o : OpenBody) : List Byte :=
  beBytes 4 (s.fld (hrbModuleQpnF n)) ++ beBytes 4 (s.session n).qp.psn ++ beBytes 4 (s.fld (hrbDbKeyF n)) ++ beBytes 4 0 ++
    beBytes 8 (s.get64 (hrbDbAddrLo n)) ++ s.addressFor o.port o.host

/-- The session is open (R532, R560, R565). -/
def State.openDone (s : State) (n : Nat) : State := (s.fire 392).sessState n 1

/-- An OPEN without RESUME (R532): every index starts at 0. Pennants of an earlier holder go to the new ring from index 0 (R535).
DEDUCED: assumption 82. -/
def State.openFresh (s : State) (n : Nat) (o : OpenBody) : State :=
  let s := s.openQp n o
  let ring (off entries unit : Nat) : HRing := { addr := devAddr n 0 off, entries := entries, unit := unit, prod := 0, cons := 0, alive := none }
  let s := ((s.setHring n 0 (ring o.cmd o.cmdN 128)).setHring n 1 (ring o.cpl o.cplN 128)).setHring n 2 (ring o.evt o.evtN 32)
  let s := if o.pens then
      let t := (s.setHring n 3 (ring o.pen o.penN 64)).setFld (hssSessionPennants n) 1
      { t with pen := { t.pen with gathered := 0 } }
    else s
  let s := if o.view then (s.setHring n 4 (ring o.ovw o.ovwN o.slot)).setFld (hssSessionOverview n) 1 else s
  let s := s.openDone n
  if o.view && s.inspecting then s.ovwStart else s

/-! ### Resume and replay -/

/-- Journal pennants of the live ring that were written and not acknowledged (R487, R492, R493): slot and bytes, with REPLAYED. -/
def State.unackedPens (s : State) (n : Nat) : List (Nat × List Byte) :=
  let last := s.get64 penSeqLastLo
  let acked (q : Nat) : Bool := s.jnl.entries.any (fun a => decide (a.ty = 7 ∧ natAt a.fields 0 = 3 ∧ q ≤ natAt a.fields 1))
  let size := (s.hring n 3).entries
  (s.jnl.entries.filter (fun e => decide (e.ty = 6 ∧ natAt e.fields 0 = 3))).flatMap (fun e =>
    (List.range (natAt e.fields 2)).filterMap (fun i =>
      let b := (e.payload.drop (64 * i)).take 64
      let q := leAt b 0 8
      if q ≤ last ∧ acked q = false then some ((natAt e.fields 1 + i) % max 1 size, penReplayed b) else none))

/-- The completions that stand in the ring unconsumed are written again, unchanged (R492, R493). -/
def State.replayCpls (s : State) (n : Nat) : State :=
  let h := s.hring n 1
  (List.range (h.prod - h.cons)).foldl (fun (s : State) (k : Nat) =>
    let i := h.cons + k
    match (s.jnl.entries.filter (fun e => decide (e.ty = 2 ∧ e.sess = n ∧ natAt e.fields 0 = slotOf i h.entries ∧
        leAt e.payload 4 1 = aliveOf i h.entries))).getLast? with
    | none => s
    | some e => (s.hostWrite (h.addr + 128 * slotOf i h.entries) e.payload 8 0).1) s

/-- Reads that the lost queue pair left open leave again (R533, R534). DEDUCED: assumption 81. -/
def State.rereads (s : State) (n : Nat) : State :=
  let ops := (s.session n).qp.ops
  let ss := s.session n
  let s := s.setSession n { ss with qp := { ss.qp with ops := [] } }
  ops.foldl (fun (s : State) (o : RdmaOp) => match o.read with
    | some why => (s.hostRead (devAddr n o.win o.off) o.len why o.who o.job).1
    | none => s) s

/-- Writes that waited for the session, or that the host had answered with an error, go out (R533, R534, R544).
DEDUCED: assumption 81. -/
def State.rewrites (s : State) (n : Nat) : State :=
  let ws := (s.session n).heldWrites
  let s := s.setSession n { s.session n with heldWrites := [] }
  ws.foldl (fun (s : State) (w : HeldWrite) => (s.hostWrite (devAddr n w.win w.off) w.bytes w.who w.job).1) s

/-- An OPEN with RESUME (R534): replay under R492 and R493, then what the session held. DEDUCED: assumption 81. -/
def State.openResume (s : State) (n : Nat) (o : OpenBody) : State :=
  let cause := if s.fld (hssSessionState n) = 0 then 4 else 3
  let s := ((s.openQp n o).openDone n).replayStart cause
  let s := (s.replayCpls n).rewrites n
  let s := if s.flag (hssSessionPennants n) then { s with jnl := { s.jnl with replayPen := s.unackedPens n } } else s
  let s := ((s.rereads n).flushCpl n 257).flushEvt n 4096
  let s := if o.view && s.inspecting then s.ovwStart else s
  s.kickFetch n

/-- Another session holds the ring of a flag (R532). -/
def State.heldElsewhere (s : State) (n : Nat) (f : Nat → Fld) : Bool := (List.range 4).any (fun m => decide (m ≠ n) && s.flag (f m))

/-- OPEN (R530 to R534): the status, the reply body and what it does. -/
def State.sessOpen (s : State) (n : Nat) (b : List Byte) : Nat × List Byte × State :=
  let o := openOf b
  if b.length ≠ 0x78 then (8, [], s)
  else if s.isOpen n then (7, [], s)
  else if bitAt o.flags 0 then
    if ¬ s.flag (hssSessionResumable n) then (7, [], s)
    else if !o.valid || !s.sameRings n o then (8, [], s)
    else
      (0, (s.openQp n o).openReply n o, s.openResume n o)
  else if (o.pens && s.heldElsewhere n hssSessionPennants) || (o.view && s.heldElsewhere n hssSessionOverview) then (7, [], s)
  else if !o.valid then (8, [], s)
  else
    let s := if s.flag (hssSessionResumable n) then s.sessRelease n else s
    (0, (s.openQp n o).openReply n o, s.openFresh n o)

/-- CLOSE (R535). DEDUCED: assumption 81. -/
def State.sessClose (s : State) (n : Nat) (b : List Byte) : Nat × List Byte × State :=
  if b.length ≠ 8 ∨ 1 < beAt b 0 1 then (8, [], s)
  else if !s.isOpen n && !s.flag (hssSessionResumable n) then (7, [], s)
  else if beAt b 0 1 = 0 then (0, [], s.sessRelease n)
  else (0, [], if s.isOpen n then s.sessHold n else s)

/-- RESTART_RINGS (R544): held completions and records first, then fetch. -/
def State.sessRestart (s : State) (n : Nat) (b : List Byte) : Nat × List Byte × State :=
  if b.length ≠ 0 then (8, [], s)
  else if ¬ s.isOpen n then (7, [], s)
  else
    let s := (if s.fld (hssSessionStopped n) = 2 then s.setFld (hssSessionStopped n) 0 else s).rewrites n
    let t := ((s.flushCpl n 257).flushEvt n 4096).kickFetch n
    (0, beBytes 4 ((t.hring n 0).cons % 2 ^ 32) ++ beBytes 4 ((t.hring n 1).prod % 2 ^ 32), t)

/-! ### Doorbells -/

/-- A doorbell that fails a check other than that for repeats (R548). -/
def State.badBell (s : State) (n : Nat) : State := (s.bump (hssCntBadDoorbellF n) 1).fire 396

/-- A completion that the host has consumed: RETIRE (R543). -/
def State.retireAt (s : State) (n i : Nat) : State :=
  let h := s.hring n 1
  match (s.jnl.entries.filter (fun e => decide (e.ty = 2 ∧ e.sess = n ∧ natAt e.fields 0 = slotOf i h.entries ∧
      leAt e.payload 4 1 = aliveOf i h.entries))).getLast? with
  | none => s
  | some e => s.journal 0x03 n 0xFF [e.tagGen] []

/-- Pennants of ring `r` that the host has consumed, the last in entry `i` of the ring: ACK (R482, R543). -/
def State.ackAt (s : State) (n r i : Nat) : State :=
  let size := max 1 (s.hring n r).entries
  let slot := i % size
  let at' (e : JEntry) : Nat := (slot + size - natAt e.fields 1 % size) % size
  let top := if r = 3 then s.get64 penSeqLastLo else 2 ^ 64
  let seqs := s.jnl.entries.filterMap (fun e =>
    if e.ty = 6 ∧ natAt e.fields 0 = r ∧ at' e < natAt e.fields 2 then
      let q := leAt e.payload 0 8 + at' e
      if q ≤ top then some q else none
    else none)
  match seqs.getLast? with
  | none => s
  | some q => s.journal 0x07 n 0xFF [r, q] []

/-- A host-owned index moves on by `d` (R537, R543, R548), and what waited for it goes on. DEDUCED: assumption 80. -/
def State.bellMove (s : State) (n r d : Nat) : State :=
  let h := s.hring n r
  if r = 0 then (s.setHring n 0 { h with prod := h.prod + d }).kickFetch n
  else
    let s := s.setHring n r { h with cons := h.cons + d }
    if r = 1 then
      let s := (List.range d).foldl (fun (s : State) (k : Nat) => s.retireAt n (h.cons + k)) s
      (s.flushCpl n 257).kickFetch n
    else if r = 2 then s.flushEvt n 4096
    else if d ≠ 0 ∧ (r = 3 ∨ (8 ≤ r ∧ r < 16)) then s.ackAt n r (h.cons + d - 1)
    else if 16 ≤ r ∧ r < 28 then s.statFlush (r - 16) n 257
    else s

/-- A doorbell record that reaches slot `slot` of session `n`'s doorbell page, or comes by management (R546 to R549).
DEDUCED: assumption 80. -/
def State.doorbell (s : State) (n : Nat) (slot : Option Nat) (bytes : List Byte) : State :=
  let b := bellOf bytes
  let h := s.hring n b.ring
  let diff (x : Nat) : Nat := (b.index + 2 ^ 32 - x % 2 ^ 32) % 2 ^ 32
  if ¬ b.crcOk then s.badBell n
  else if slot.getD b.ring ≠ b.ring ∨ h.entries = 0 ∨ b.sess ≠ n ∨ ¬ s.isOpen n then s.badBell n
  else if h.alive = some b.alive then s.bump (hssCntRepeatDoorbellF n) 1
  else
    let ok : Bool := if b.ring = 0 then decide (diff h.cons ≤ h.entries ∧ diff h.prod < 2 ^ 31) else decide (diff h.cons ≤ h.prod - h.cons)
    if !ok then s.badBell n
    else
      let s := s.setHring n b.ring { h with alive := some b.alive }
      s.bellMove n b.ring (if b.ring = 0 then diff h.prod else diff h.cons)

end Sys2Proof.Machine
end

