-- ==== Sys2Proof/Machine/Mgmt.lean ====
section
/-! DEFINITION. The management protocol (R516 to R528): authentication, sequences and replies, and every request type. -/

namespace Sys2Proof.Machine

/-! ### Frames -/

/-- A reply (R517): authenticated under the key of the request's session, if it names one. -/
def replyBytes (m : Mgmt) (status : Nat) (body : List Byte) (key : Option (List Byte)) : List Byte :=
  let h := beBytes 1 1 ++ beBytes 1 m.type ++ beBytes 1 m.sess ++ beBytes 1 1 ++ beBytes 8 m.seq ++ beBytes 1 status ++ beBytes 1 0 ++
    beBytes 2 body.length ++ body
  h ++ (match key with | some k => hmac k h | none => [])

/-- A reply leaves by the request's port, toward its source (R516). -/
def State.mgmtSend (s : State) (f : MgmtFrame) (bytes : List Byte) : State := s.emit (.mgmt f.port (f.src ++ beBytes 2 f.srcPort) bytes)

/-- The module answers requests (R812): in every mode but NIGHT, in a start from the step that brings up the Ethernet ports. -/
def State.mgmtUp (s : State) : Bool :=
  decide (3 ≤ s.mode) || (decide (s.mode = 1) && decide (8 ≤ s.pwr.step)) || (decide (s.mode = 2) && s.pwr.done.contains 5)

/-- One second in cycles. -/
def secondCycles : Nat := 625000000

/-- Verification of a frame fails (R518): dropped, counted, and after 16 failures within 1 s the session is locked out for 1 s. -/
def State.authFail (s : State) (n : Nat) : State :=
  let s := (s.bump (hssCntAuthFailF n) 1).fire 394
  let ss := s.session n
  let l := (ss.authFails.filter (fun t => decide (s.clock < t + secondCycles))) ++ [s.clock]
  if l.length < 16 then s.setSession n { ss with authFails := l }
  else (s.setSession n { ss with authFails := [], lockUntil := some (s.clock + secondCycles) }).setFld ⟨hstKeys, 4 + n, 1⟩ 1

/-- The session is locked out (R518). -/
def State.lockedOut (s : State) (n : Nat) : Bool := match (s.session n).lockUntil with | some t => decide (s.clock < t) | none => false

/-- AUTH_LOCKOUT_END (R518). -/
def execAuthLockoutEnd (n : SessId) (s : State) : Host.Outcome State Fault Refusal :=
  match (s.session n).lockUntil with
  | none => .next s
  | some t =>
    if s.clock < t then .next s
    else .next ((s.setSession n { s.session n with lockUntil := none }).setFld ⟨hstKeys, 4 + n, 1⟩ 0)

/-- A sequence is accepted (R520): every 2^20th reaches flash. DEDUCED: assumption 67. -/
def State.seqAccept (s : State) (n q : Nat) : State :=
  let marks := s.pwr.flash.seqMarks
  let marks := marks.set n (max (natAt marks n) (q / 2 ^ 20 * 2 ^ 20))
  ({ s with pwr := { s.pwr with flash := { s.pwr.flash with seqMarks := marks } } }).set64 (hssSeqLo n) q

/-- What a request type does: the session (0xFF for none), the request, its frame; it answers status, reply body and state. -/
abbrev MgmtFn := Nat → Mgmt → MgmtFrame → State → Except UndefCase (Nat × List Byte × State)

/-- Checks that hold for every type (R517, R522, R523, R812): version, body length, the session column, starts.
DEDUCED: assumption 79. -/
def mgmtChecks (anon named : Nat → Bool) (h : MgmtFn) : MgmtFn := fun n m f s =>
  if m.version ≠ 1 then .ok (3, [], s)
  else if 1024 < m.len then .ok (8, [], s)
  else if (if n = 0xFF then !anon m.type else !named m.type) then .ok (5, [], s)
  else if s.mode < 3 ∧ m.type ≠ 1 ∧ m.type ≠ 2 then .ok (6, [], s)
  else h n m f s

/-- A request of the given types arrives (R516 to R521). DEDUCED: assumption 79. -/
def State.mgmtRun (s : State) (f : MgmtFrame) (types anon named : Nat → Bool) (h : MgmtFn) : Host.Outcome State Fault Refusal :=
  let m := mgmtOf f.bytes
  if f.bytes.length < 16 ∨ ¬ s.mgmtUp ∨ ¬ types m.type ∨ bitAt (beAt f.bytes 3 1) 0 = true then .next s
  else if m.sess = 0xFF then
    match mgmtChecks anon named h 0xFF m f s with
    | .error e => .fault (.undefinedBehaviour e)
    | .ok (st, body, t) => .next (t.mgmtSend f (replyBytes m st body none))
  else if 3 < m.sess ∨ s.lockedOut m.sess then .next s
  else
    match (s.session m.sess).key with
    | none => .next (s.authFail m.sess)
    | some k =>
      let last := s.get64 (hssSeqLo m.sess)
      let old := (s.session m.sess).reply
      if hmac k m.head ≠ m.mac then .next (s.authFail m.sess)
      else if m.seq = last ∧ old ≠ [] then .next (s.mgmtSend f old)
      else if m.seq ≤ last then .next (s.mgmtSend f (replyBytes m 2 [] (some k)))
      else
        match mgmtChecks anon named h m.sess m f (s.seqAccept m.sess m.seq) with
        | .error e => .fault (.undefinedBehaviour e)
        | .ok (st, body, t) =>
          let r := replyBytes m st body (some k)
          .next ((t.setSession m.sess { t.session m.sess with reply := r }).mgmtSend f r)

/-- No session byte is taken. -/
def noneOf (_ : Nat) : Bool := false
/-- Every type is taken. -/
def anyOf (_ : Nat) : Bool := true

/-- A request type that the sessions 0 to 3 use. DEDUCED: assumption 79. -/
def State.mgmtType (s : State) (f : MgmtFrame) (t : Nat) (h : MgmtFn) : Host.Outcome State Fault Refusal :=
  s.mgmtRun f (fun x => decide (x = t)) noneOf anyOf h

/-! ### HELLO -/

/-- The reply body of HELLO (R522). -/
def State.helloBody (s : State) (authenticated : Bool) : List Byte :=
  let addr := if s.fld fabStatusAddress = 63 ∨ ¬ s.flag fabCtrlEnable then 0xFF else s.fld fabStatusAddress
  beBytes 8 (s.get64 sysSerialLo) ++ s.macOf 0 ++ s.macOf 1 ++ beBytes 1 s.mode ++ beBytes 1 (s.fld hstKeysProvisioned) ++ beBytes 1 addr ++
    beBytes 1 0 ++ (List.range 4).flatMap (fun n => beBytes 8 (min (s.get64 (hssSeqLo n) + 1) (2 ^ 64 - 1))) ++
    (if authenticated then (List.range 8).flatMap (fun i => leBytes 4 (s.reg (sysFwHash i)).toNat) ++
      (List.range 8).flatMap (fun i => leBytes 4 (s.fld (plnPlanHashF i))) else [])

/-- HELLO (R522). -/
def execHello (f : MgmtFrame) (s : State) : Host.Outcome State Fault Refusal :=
  s.mgmtRun f (fun x => decide (x = 1)) anyOf anyOf (fun n m _ s =>
    if m.len ≠ 0 then .ok (8, [], s) else .ok (0, s.helloBody (decide (n ≠ 0xFF)), s))

/-! ### The setup window -/

/-- The range of a READ or WRITE is valid (R522, R523, R809). -/
def regRangeOk (b : List Byte) : Bool :=
  decide (beAt b 0 4 % 4 = 0 ∧ 1 ≤ beAt b 4 2 ∧ beAt b 4 2 ≤ 64 ∧ beAt b 0 4 + 4 * beAt b 4 2 ≤ 0x15000)

/-- Read words in rising address order (R810). -/
def State.regReads (s : State) (n : Nat) : Nat → Nat → List Byte × State
  | 0, _ => ([], s)
  | k + 1, a =>
    let r := s.regRead n a
    let t := r.2.regReads n k (a + 4)
    (beBytes 4 r.1.toNat ++ t.1, t.2)

/-- READ (R522, R524). DESIGN CHOICE: assumption 7. -/
def execRead (f : MgmtFrame) (s : State) : Host.Outcome State Fault Refusal :=
  s.mgmtType f 2 (fun n m _ s =>
    if m.len ≠ 8 then .ok (8, [], s)
    else if !regRangeOk m.body then .ok (4, [], s)
    else
      let r := s.regReads n (beAt m.body 4 2) (beAt m.body 0 4)
      .ok (0, r.1, r.2))

/-- Session `n` may write this range (R524): session 0 all of it, another only its own set. -/
def writeAllowed (n a k : Nat) : Bool := decide (n = 0) || decide (0x2000 + 0x40 * n ≤ a ∧ a + 4 * k ≤ 0x2040 + 0x40 * n)

/-- WRITE (R522, R524). DESIGN CHOICE: assumption 7. -/
def execWrite (f : MgmtFrame) (s : State) : Host.Outcome State Fault Refusal :=
  s.mgmtType f 3 (fun n m _ s =>
    let a := beAt m.body 0 4
    let k := beAt m.body 4 2
    if m.len < 8 then .ok (8, [], s)
    else if !regRangeOk m.body then .ok (4, [], s)
    else if m.len ≠ 8 + 4 * k then .ok (8, [], s)
    else if !writeAllowed n a k then .ok (5, [], s)
    else
      let ws := (List.range k).map (fun i => BitVec.ofNat 32 (beAt m.body (8 + 4 * i) 4))
      match s.regWrites n a ws with
      | .error e => .error e
      | .ok t => .ok (0, [], t.writeEnds a ws))

/-! ### Sessions -/

/-- OPEN (R530 to R534). -/
def execOpenSession (f : MgmtFrame) (s : State) : Host.Outcome State Fault Refusal := s.mgmtType f 4 (fun n m _ s => .ok (s.sessOpen n m.body))

/-- CLOSE (R535). -/
def execCloseSession (f : MgmtFrame) (s : State) : Host.Outcome State Fault Refusal := s.mgmtType f 5 (fun n m _ s => .ok (s.sessClose n m.body))

/-- DOORBELL (R549): a record that the checks discard is still a request that was carried out.
DEDUCED: assumption 79. -/
def execDoorbell (f : MgmtFrame) (s : State) : Host.Outcome State Fault Refusal :=
  s.mgmtType f 6 (fun n m _ s => if m.len ≠ 16 then .ok (8, [], s) else .ok (0, [], s.doorbell n none m.body))

/-- RESTART_RINGS (R544). -/
def execRestartRings (f : MgmtFrame) (s : State) : Host.Outcome State Fault Refusal := s.mgmtType f 7 (fun n m _ s => .ok (s.sessRestart n m.body))

/-- RDMA_DOORBELL (R545, R548): an RDMA WRITE into the doorbell page under its key; any other request receives an invalid-request NAK,
and the session is lost (R529). -/
def execRdmaDoorbell (n : SessId) (key addr : Nat) (bytes : List Byte) (s : State) : Host.Outcome State Fault Refusal :=
  let base := s.get64 (hrbDbAddrLo n)
  let off := addr - base
  if ¬ s.isOpen n then .next s
  else if key ≠ s.fld (hrbDbKeyF n) ∨ addr < base ∨ 1024 < off + bytes.length then .next ((s.emit (.rdmaAck n false)).sessLost n)
  else
    let s := s.emit (.rdmaAck n true)
    if off % 16 ≠ 0 ∨ bytes.length ≠ 16 then .next (s.badBell n) else .next (s.doorbell n (some (off / 16)) bytes)

/-! ### Keys -/

/-- A key is set (R525, R526, R527, R827). -/
def State.setKey (s : State) (n : Nat) (k : List Byte) : State :=
  ((s.setSession n { s.session n with key := some k }).setFld ⟨hstKeys, n, 1⟩ 1).bump (hstKeyGenF n) 1

/-- PROVISION (R526): session 0's key on an unprovisioned module, over a direct link on port A.
DEDUCED: assumption 79. -/
def execProvision (f : MgmtFrame) (s : State) : Host.Outcome State Fault Refusal :=
  s.mgmtRun f (fun x => decide (x = 8)) anyOf noneOf (fun _ m f s =>
    if m.len ≠ 32 then .ok (8, [], s)
    else if (s.session 0).key.isSome then .ok (5, [], s)
    else if s.mode ≠ 3 ∧ s.mode ≠ 7 then .ok (6, [], s)
    else if f.port ≠ 0 ∨ f.hop ≠ 255 ∨ ¬ isLinkLocal f.src then .ok (5, [], s)
    else .ok (0, [], s.setKey 0 m.body))

/-- The key-encryption key of a KEY_SET (R527). -/
def wrapKey (key : List Byte) (seq : Nat) : List Byte :=
  hkdf (beBytes 8 seq) key ("ZLX-1248 key wrap".toList.map (fun c => BitVec.ofNat 8 c.toNat))

/-- KEY_SET (R527). DEDUCED: assumption 79. -/
def execKeySet (f : MgmtFrame) (s : State) : Host.Outcome State Fault Refusal :=
  s.mgmtType f 9 (fun n m _ s =>
    if n ≠ 0 then .ok (5, [], s)
    else if m.len ≠ 48 ∨ 3 < beAt m.body 0 1 then .ok (8, [], s)
    else match keyUnwrap (wrapKey ((s.session 0).key.getD []) m.seq) (m.body.drop 8) with
    | none => .ok (8, [], s)
    | some k => .ok (0, [], s.setKey (beAt m.body 0 1) k))

/-- A key is cleared (R528, R827). DEDUCED: assumption 74. -/
def State.clearKey (s : State) (n : Nat) : State :=
  ((s.setSession n { s.session n with key := none }).setFld ⟨hstKeys, n, 1⟩ 0).setFld (hstKeyGenF n) 0

/-- KEY_CLEAR (R528): clearing session 0 clears every key. DEDUCED: assumption 79. -/
def execKeyClear (f : MgmtFrame) (s : State) : Host.Outcome State Fault Refusal :=
  s.mgmtType f 10 (fun n m _ s =>
    let mask := if beAt m.body 0 1 % 2 = 1 then 15 else beAt m.body 0 1
    if n ≠ 0 then .ok (5, [], s)
    else if s.mode ≠ 7 then .ok (6, [], s)
    else if m.len ≠ 8 then .ok (8, [], s)
    else .ok (0, [], (List.range 4).foldl (fun (s : State) (k : Nat) => if bitAt mask k then s.clearKey k else s) s))

/-- MGMT_UNUSED_TYPE (R522): status 3. -/
def execMgmtUnusedType (f : MgmtFrame) (s : State) : Host.Outcome State Fault Refusal :=
  s.mgmtRun f (fun x => decide (x = 0 ∨ 11 ≤ x)) anyOf anyOf (fun _ _ _ s => .ok (3, [], s))

end Sys2Proof.Machine
end

