-- ==== Sys2Proof/Machine/Launch.lean ====
section
/-! DEFINITION. Programmed pulses and timed frame launch (R585 to R593, R620): TOUT_ARM, FRAME_LAUNCH and the launch queues. -/

namespace Sys2Proof.Machine

/-! ### TOUT_ARM -/

/-- The first edge that is placed (R587): at the start or at least 2 µs after acceptance; a periodic train takes its first edge from
there on. -/
def firstEdge (periodic : Bool) (start period now : Nat) : Nat :=
  let lim := now + 2000
  if lim ≤ start then start
  else if periodic then start + (lim - start + period - 1) / period * period
  else lim

/-- The effect of TOUT_ARM (R586, R587, R713): it completes with the first edge placed. DEDUCED: assumption 88. -/
def toutArmEffect (n : Nat) (d : OutDesc) (s : State) : State :=
  let t := d.par 0x10 1
  let form := d.par 0x11 1
  let period := d.par 0x20 4
  let width := d.par 0x24 4
  if 16 ≤ t then s.badParam n d 0x10
  else if 2 ≤ form then s.badParam n d 0x11
  else if form = 1 ∧ period < width + 10 then s.badParam n d 0x20
  else if width < 10 then s.badParam n d 0x24
  else match s.tryClaim 0 t (ownerOf n) with
  | none => s.claimFail 0 t n d
  | some s =>
    let e := firstEdge (decide (form = 1)) (d.par 0x18 8) period s.taiNs
    let s := s.setTout t { s.tout t with arm := some ⟨decide (form = 1), period, width, n⟩, next := some e, dues := [] }
    (s.toutActive t).doneDesc n d (leBytes 8 e)

/-- TOUT_ARM (0x48). -/
def execToutArm (n : SessId) (idx : Nat) (s : State) : Host.Outcome State Fault Refusal :=
  .next (s.runDesc n idx 0x48 modesMNAX (toutArmEffect n))

/-! ### FRAME_LAUNCH -/

/-- A frame finds its queue as R590 asks: in rising order of launch time, and not full. DEDUCED: assumption 87. -/
def State.launchFits (s : State) (d : OutDesc) : Option (Option Nat) :=
  let q := s.queue (d.par 0x10 1) (d.par 0x11 1)
  if q.any (fun l => decide (d.par 0x18 8 < l.time)) then some (some 0x18)
  else if 16 ≤ q.length then some none
  else none

/-- A FRAME_LAUNCH that does not fit. -/
def State.launchBad (s : State) (n : Nat) (d : OutDesc) (e : Option Nat) : State :=
  match e with
  | some off => s.badParam n d off
  | none => s.wrongState n d

/-- The effect of FRAME_LAUNCH (R590): its queue is claimed and its frame read. -/
def frameLaunchEffect (n : Nat) (d : OutDesc) (s : State) : State :=
  let e := d.par 0x10 1
  let q := d.par 0x11 1
  let len := d.par 0x12 2
  if 2 ≤ e then s.badParam n d 0x10
  else if 8 ≤ q then s.badParam n d 0x11
  else if len < 64 ∨ 1518 < len then s.badParam n d 0x12
  else match s.tryClaim 3 (8 * e + q) (ownerOf n) with
  | none => s.claimFail 3 (8 * e + q) n d
  | some s => match s.launchFits d with
    | some bad => s.launchBad n d bad
    | none => s.loadRead n d 0x20 len (.frame d.idx)

/-- FRAME_LAUNCH (0x49). DEDUCED: assumption 87. -/
def execFrameLaunch (n : SessId) (idx : Nat) (s : State) : Host.Outcome State Fault Refusal :=
  .next (s.runDesc n idx 0x49 modesMNAX (frameLaunchEffect n))

/-- The frame of a FRAME_LAUNCH has arrived: it enters its queue (R590). -/
def frameLoaded (n : Nat) (d : OutDesc) (b : List Byte) (s : State) : State :=
  match s.launchFits d with
  | some bad => s.launchBad n d bad
  | none =>
    let e := d.par 0x10 1
    let q := d.par 0x11 1
    s.setQueue e q (s.queue e q ++ [⟨d.par 0x18 8, n, d.idx, b⟩])

/-! ### Launch -/

/-- Time on the wire of a frame of `len` bytes with preamble and gap, at 100 Gbit/s, in ns. DEDUCED: assumption 87. -/
def wireNs (len : Nat) : Nat := ((len + 20) * 2 + 24) / 25

/-- What a launched frame is on the wire: a host's frame, a pennant datagram of queue 7 (R593), an ORDER of queue 6 (R620).
DEDUCED: assumption 87. -/
def State.launchOut (s : State) (e : Nat) (l : Launch) (late : Bool) : State :=
  if l.sess < 255 then s.emit (.frame e late l.bytes)
  else if l.desc = 1 then s.emit (.fabric e l.bytes)
  else match s.pln.plan with
  | some p => s.emit (.datagram p.penHost p.penPort l.bytes)
  | none => s

/-- The head of a queue is due. -/
def State.queueDueAt (s : State) (e q : Nat) : Bool := match s.queue e q with | l :: _ => decide (l.time ≤ s.taiNs) | [] => false

/-- FRAME_LAUNCH_TIME (R591, R592): the head of the queue leaves at its time, behind what is on the wire; a lower queue that is due
leaves first. A frame more than 4 ns late is counted. DEDUCED: assumption 87. -/
def execFrameLaunchTime (e : EthId) (q : Fin 8) (s : State) : Host.Outcome State Fault Refusal :=
  match s.queue e q with
  | [] => .next s
  | l :: rest =>
    if s.taiNs < l.time ∨ (List.range q.val).any (fun k => s.queueDueAt e k) = true then .next s
    else
      let v := s.eth e
      let leave := max s.taiNs v.wireUntil
      let late := decide (l.time + 4 < leave)
      let s := (s.setQueue e q rest).setEth e { v with wireUntil := leave + wireNs l.bytes.length }
      let s := s.launchOut e l late
      let s := if late then (s.bump timCntLaunchLateF 1).fire 287 else s
      let s := s.fire 286
      .next (if l.sess < 4 then s.finishDesc l.sess l.desc 0 (leBytes 8 leave) else s)

end Sys2Proof.Machine
end

