-- ==== Sys2Proof/Machine/Descs.lean ====
section
/-! DEFINITION. Descriptors and their transport (R464 to R472, R529, R533, R550 to R558): window descriptors, the fetch of
descriptors, RDMA acknowledgements, responses and errors. -/

namespace Sys2Proof.Machine

/-! ### NOP and unused opcodes -/

/-- NOP (0x01): no effect. -/
def execNop (n : SessId) (idx : Nat) (s : State) : Host.Outcome State Fault Refusal :=
  .next (s.runDesc n idx 0x01 modesAll (fun d s => s.doneDesc n d []))

/-- The opcodes of R555. -/
def usedOpcodes : List Nat :=
  [0x01, 0x02, 0x03, 0x04, 0x05, 0x06, 0x10, 0x11, 0x12, 0x13, 0x20, 0x21, 0x22, 0x28, 0x29, 0x30, 0x31, 0x32, 0x33, 0x40, 0x41, 0x42, 0x43,
    0x44, 0x45, 0x48, 0x49, 0x4A, 0x4B, 0x50, 0x58, 0x59, 0x60]

/-- A descriptor with an unused opcode (R555, R558): status 3 in every mode. -/
def execUnusedOpcode (n : SessId) (idx : Nat) (s : State) : Host.Outcome State Fault Refusal :=
  match s.startable n idx with
  | none => .next s
  | some d => .next (if usedOpcodes.contains d.opcode then s else (s.startDesc n idx).finishDesc n idx 3 [])

/-! ### Windows -/

/-- Window `w` of a session as descriptors set it (R466, R467). -/
def State.setWindow (s : State) (n w : Nat) (v : Window) : State :=
  let ss := s.session n
  s.setSession n { ss with windows := tblSet ss.windows initWindow w v }

/-- Page entries in use over all windows (R467). -/
def State.pagesUsed (s : State) : Nat :=
  ((s.sess.flatMap (fun e => e.2.windows)).map (fun e => e.2.len / 65536)).foldl (· + ·) 0

/-- The effect of WINDOW_DEFINE (R466, R467, R555). A window that is defined, or a table that is full, is a wrong state.
DEDUCED: assumption 84. -/
def windowEffect (n : Nat) (d : OutDesc) (s : State) : State :=
  let w := d.par 0x10 1
  let base := d.par 0x18 8
  let len := d.par 0x20 8
  if w = 0 ∨ 31 < w then s.badParam n d 0x10
  else if base % 65536 ≠ 0 then s.badParam n d 0x18
  else if len % 65536 ≠ 0 ∨ len = 0 ∨ 2 ^ 40 < len then s.badParam n d 0x20
  else if (s.window n w).isSome ∨ 2 ^ 24 < s.pagesUsed + len / 65536 then s.wrongState n d
  else
    let f := d.par 0x11 1
    (s.setWindow n w { base, len, key := d.par 0x14 4, linear := bitAt f 2, flags := f % 4, pages := [], fenced := false }).doneDesc n d []

/-- WINDOW_DEFINE (0x02). -/
def execWindowDefine (n : SessId) (idx : Nat) (s : State) : Host.Outcome State Fault Refusal :=
  .next (s.runDesc n idx 0x02 modesMNAX (windowEffect n))

/-- Page entries as a descriptor or a table gives them (R466): reserved bits are 0. -/
def pageEntries (count : Nat) (b : List Byte) : List Nat :=
  (List.range count).map (fun i => let e := leAt b (8 * i) 8; e / 65536 * 65536 + e % 8)

/-- The entries revoke a page without a completed fence (R469): a valid entry turns invalid or changes its address.
DEDUCED: assumption 84. -/
def State.revokes (s : State) (n w first : Nat) (es : List Nat) : Bool :=
  match s.window n w with
  | none => false
  | some v =>
    let fenceDone := v.fenced && !(s.session n).fences.any (fun f => decide (f.1 = w))
    !fenceDone && es.zipIdx.any (fun e =>
      let old := v.entry (first + e.2)
      bitAt old 0 && (!bitAt e.1 0 || decide (old / 65536 ≠ e.1 / 65536)))

/-- Entry `p` of a window is written; a linear window lists only the entries that differ from its own. -/
def Window.put (v : Window) (p e : Nat) : Window :=
  { v with pages := tblSet v.pages (if v.linear then 1 + 2 * (v.flags % 4) + v.base + 65536 * p else 0) p e }

/-- Statistics that waited for a page go on (R472). -/
def State.statsGoOn (s : State) (n : Nat) : State :=
  match s.pln.plan with
  | none => s
  | some p => p.statBuf.foldl (fun (s : State) (e : Nat × Nat × Nat) => if devSess e.2.1 = n then s.statFlush e.1 n 257 else s) s

/-- Pages are mapped and a fence on the window ends (R470). -/
def State.mapPages (s : State) (n w first : Nat) (es : List Nat) : State :=
  match s.window n w with
  | none => s
  | some v =>
    let v := es.zipIdx.foldl (fun (v : Window) (e : Nat × Nat) => v.put (first + e.2) e.1) v
    (s.setWindow n w { v with fenced := false }).statsGoOn n

/-- What a map descriptor names is in range: the offending parameter, or a wrong state (R555).
DEDUCED: assumption 84. -/
def State.mapCheck (s : State) (n w first count countOff most : Nat) : Option (Option Nat) :=
  if w = 0 ∨ 31 < w then some (some 0x10)
  else if count = 0 ∨ most < count then some (some countOff)
  else match s.window n w with
  | none => some none
  | some v => if v.len / 65536 < first + count then some (some 0x14) else none

/-- A map descriptor that fails its check. -/
def State.mapBad (s : State) (n : Nat) (d : OutDesc) (e : Option Nat) : State :=
  match e with
  | some off => s.badParam n d off
  | none => s.wrongState n d

/-- MAP_INLINE (0x03). Revoking a page without a completed fence is undefined behaviour (R469, R780). -/
def execMapInline (n : SessId) (idx : Nat) (s : State) : Host.Outcome State Fault Refusal :=
  let es (d : OutDesc) : List Nat := pageEntries (d.par 0x11 1) (slice d.bytes 0x18 88)
  let bad (d : OutDesc) (s : State) : Option (Option Nat) := s.mapCheck n (d.par 0x10 1) (d.par 0x14 4) (d.par 0x11 1) 0x11 11
  let revoked := match s.startable n idx with
    | some d => decide (d.opcode = 0x03) && modesMNAX.contains s.mode && (bad d s).isNone && s.revokes n (d.par 0x10 1) (d.par 0x14 4) (es d)
    | none => false
  if revoked then .fault (.undefinedBehaviour .revokeUnfenced)
  else .next (s.runDesc n idx 0x03 modesMNAX (fun d s => match bad d s with
    | some e => s.mapBad n d e
    | none => (s.mapPages n (d.par 0x10 1) (d.par 0x14 4) (es d)).doneDesc n d []))

/-- MAP_TABLE (0x04): its entries come by RDMA READ. -/
def execMapTable (n : SessId) (idx : Nat) (s : State) : Host.Outcome State Fault Refusal :=
  .next (s.runDesc n idx 0x04 modesMNAX (fun d s =>
    match s.mapCheck n (d.par 0x10 1) (d.par 0x14 4) (d.par 0x18 4) 0x18 (2 ^ 24) with
    | some e => s.mapBad n d e
    | none => s.loadRead n d 0x20 (8 * d.par 0x18 4) (.pages d.idx)))

/-- The entries of a MAP_TABLE have arrived; its window may be gone by then. -/
def State.tableCame (s : State) (n : Nat) (d : OutDesc) (b : List Byte) : Except UndefCase State :=
  let es := pageEntries (d.par 0x18 4) b
  if (s.window n (d.par 0x10 1)).isNone then .ok (s.wrongState n d)
  else if s.revokes n (d.par 0x10 1) (d.par 0x14 4) es then .error .revokeUnfenced
  else .ok ((s.mapPages n (d.par 0x10 1) (d.par 0x14 4) es).doneDesc n d [])

/-- FENCE (0x05, R470): the window is fenced at once. DEDUCED: assumption 84. -/
def execFence (n : SessId) (idx : Nat) (s : State) : Host.Outcome State Fault Refusal :=
  .next (s.runDesc n idx 0x05 modesAll (fun d s =>
    let w := d.par 0x10 1
    if w = 0 ∨ 31 < w then s.badParam n d 0x10
    else match s.window n w with
    | none => s.wrongState n d
    | some v =>
      let s := s.setWindow n w { v with fenced := true }
      let ss := s.session n
      s.setSession n { ss with fences := ss.fences ++ [(w, d.idx)] }))

/-- FENCE_DONE (R470): no RDMA operation to the window is outstanding any more. DEDUCED: assumption 84. -/
def execFenceDone (n : SessId) (w : Nat) (s : State) : Host.Outcome State Fault Refusal :=
  let ss := s.session n
  let mine := ss.fences.filter (fun f => decide (f.1 = w))
  if mine.isEmpty ∨ ss.qp.ops.any (fun o => decide (o.win = w)) then .next s
  else
    let s := s.setSession n { ss with fences := ss.fences.filter (fun f => decide (f.1 ≠ w)) }
    .next (mine.foldl (fun (s : State) (f : Nat × Nat) => (s.finishDesc n f.2 0 []).fire 401) s)

/-- RELEASE (0x06): a fenced window is freed. -/
def execRelease (n : SessId) (idx : Nat) (s : State) : Host.Outcome State Fault Refusal :=
  .next (s.runDesc n idx 0x06 modesAll (fun d s =>
    let w := d.par 0x10 1
    if w = 0 ∨ 31 < w then s.badParam n d 0x10
    else match s.window n w with
    | none => s.wrongState n d
    | some v => if v.fenced then (s.setWindow n w initWindow).doneDesc n d [] else s.wrongState n d))

/-! ### Fetching descriptors -/

/-- The fetch status of a descriptor for index `i` of a ring of `n` entries (R552, R558): 0 good, 1 CRC, 2 alive counter. -/
def fetchStatus (b : List Byte) (i n : Nat) : Nat := if !descCrcOk b then 1 else if leAt b 4 1 % 16 ≠ aliveOf i n then 2 else 0

/-- An earlier use of the tag by another generation is superseded (R554): its descriptor's completion will be discarded, and its job
is named by that tag no more. DEDUCED: assumption 85. -/
def State.supersede (s : State) (n tg : Nat) : State :=
  let ss := s.session n
  let old (t : Nat) : Bool := decide (t < 65536 ∧ t % 4096 = tg % 4096 ∧ t ≠ tg)
  let ds : List OutDesc := ss.descs.map (fun d => if old d.tagGen then { d with stale := true } else d)
  let js : List Job := s.jobs.map (fun j => if j.sess = n ∧ j.auto = false ∧ old j.tag = true then { j with tag := j.tag + 65536 } else j)
  { s.setSession n { ss with descs := ds } with jobs := js }

/-- A descriptor is accepted (R484, R552, R553): the consumer index moves and its DESC entry is journaled; a bad one completes at once. -/
def State.acceptDesc (s : State) (n : Nat) (b : List Byte) (bad : Nat) : State :=
  let h := s.hring n 0
  let i := h.cons
  let s := s.setHring n 0 { h with cons := i + 1 }
  let d : OutDesc := { idx := i % 2 ^ 32, bytes := b, bad := bad, durable := false, started := false, stale := false }
  let s := if bad = 0 then s.supersede n d.tagGen else s
  let ss := s.session n
  let s := (s.setSession n { ss with descs := ss.descs ++ [d] }).setFld (hssOutstandingF n) (ss.descs.length + 1)
  if bad ≠ 0 then (s.bump (hssCntBadDescF n) 1).finishDesc n d.idx bad []
  else s.journal 0x01 n 0xFF [d.tagGen % 4096, d.tagGen / 4096, d.opcode, slotOf i h.entries] b

/-- Fetched descriptors are accepted in order up to the first that fails, which is fetched again (R552). Reusing a tag with the same
generation while its earlier use is outstanding is undefined behaviour (R554, R780). -/
def State.acceptAll (s : State) (n : Nat) : List (List Byte) → Except UndefCase State
  | [] => .ok s
  | b :: r =>
    let h := s.hring n 0
    if fetchStatus b h.cons h.entries ≠ 0 then .ok (s.setSession n { s.session n with refetch := some ⟨h.cons, 0⟩ })
    else if (s.session n).descs.any (fun d => decide (d.bad = 0 ∧ d.tagGen = leAt b 2 2)) then .error .tagReuse
    else (s.acceptDesc n b 0).acceptAll n r

/-- A descriptor fetch is over: the consumer index is mirrored, and the next fetch follows. DEDUCED: assumption 85. -/
def State.fetchEnd (s : State) (n : Nat) : State := (s.mirror n 0).kickFetch n

/-- The outcome of a command that may meet undefined behaviour. -/
def outcomeOf (r : Except UndefCase State) (f : State → State) : Host.Outcome State Fault Refusal :=
  match r with
  | .ok s => .next (f s)
  | .error c => .fault (.undefinedBehaviour c)

/-- The oldest outstanding operation of a session that a test names leaves its queue pair. -/
def takeOp (q : RdmaOp → Bool) (ops : List RdmaOp) : Option (RdmaOp × List RdmaOp) :=
  match ops.find? q with
  | none => none
  | some o => some (o, ops.erase o)

/-- Replace the outstanding operations of a session; any answer ends the run of retries (R533). -/
def State.setOps (s : State) (n : Nat) (ops : List RdmaOp) : State :=
  let ss := s.session n
  s.setSession n { ss with qp := { ss.qp with ops := ops, retries := 0 } }

/-- The operation fetches descriptors. -/
def RdmaOp.fetches (o : RdmaOp) : Bool := match o.read with | some (.descriptors _ _) => true | _ => false

/-- DESCRIPTOR_FETCH (R552): the fetched descriptors arrive. -/
def execDescriptorFetch (n : SessId) (descs : List (List Byte)) (s : State) : Host.Outcome State Fault Refusal :=
  match takeOp RdmaOp.fetches (s.session n).qp.ops with
  | none => .next s
  | some (o, ops) =>
    let s := s.setOps n ops
    let s := s.setSession n { s.session n with fetching := false }
    outcomeOf (s.acceptAll n (descs.take (o.len / 128))) (fun s => s.fetchEnd n)

/-- DESCRIPTOR_REFETCH (R552): the descriptor is read once more; after the fourth time it is accepted as bad.
DEDUCED: assumption 85. -/
def execDescriptorRefetch (n : SessId) (desc : List Byte) (s : State) : Host.Outcome State Fault Refusal :=
  match (s.session n).refetch with
  | none => .next s
  | some r =>
    if ¬ s.isOpen n then .next s
    else
      let h := s.hring n 0
      let w := s.hostRead (h.addr + h.unit * slotOf h.cons h.entries) 128 (.descriptors h.cons 1) 7 0
      match w.2 with
      | some _ => .next (w.1.stopRings n)
      | none =>
        let s := w.1.setOps n (w.1.session n).qp.ops.dropLast
        let k := fetchStatus desc h.cons h.entries
        let s := s.setSession n { s.session n with refetch := none }
        if k = 0 then outcomeOf (s.acceptAll n [desc]) (fun s => s.fetchEnd n)
        else if 4 ≤ r.tries + 1 then .next ((s.acceptDesc n desc k).fetchEnd n)
        else .next (s.setSession n { s.session n with refetch := some ⟨h.cons, r.tries + 1⟩ })

/-! ### RDMA -/

/-- What a response to an RDMA READ delivers (R529). DEDUCED: assumption 85; DESIGN CHOICE: assumption 115. -/
def State.readCame (s : State) (n : Nat) (why : ReadFor) (b : List Byte) : Except UndefCase State :=
  let by' (idx : Nat) (f : OutDesc → State) : Except UndefCase State := .ok (match s.desc n idx with | some d => f d | none => s)
  match why with
  | .descriptors _ _ => .ok s
  | .recipe idx => .ok (s.recordsCame n idx b)
  | .pages idx => match s.desc n idx with
    | some d => s.tableCame n d b
    | none => .ok s
  | .pairs idx => by' idx (fun d => settingsApply n d b s)
  | .ctrlData idx => by' idx (fun d => ctrlDataRead n d b s)
  | .segments idx => by' idx (fun d => axisTableLoaded n d b s)
  | .sine idx => by' idx (fun d => sineLoaded n d b s)
  | .frame idx => by' idx (fun d => frameLoaded n d b s)
  | .jobInput j => .ok (match s.job j with | some k => s.checkData k b | none => s)

/-- RDMA_READ_RESPONSE (R529): the answer to the oldest READ other than a descriptor fetch. A response carries the length asked for.
DESIGN CHOICE: assumption 115. -/
def execRdmaReadResponse (n : SessId) (bytes : List Byte) (s : State) : Host.Outcome State Fault Refusal :=
  match takeOp (fun o => o.read.isSome && !o.fetches) (s.session n).qp.ops with
  | none => .next s
  | some (o, ops) =>
    match o.read with
    | none => .next s
    | some why => if bytes.length ≠ o.len then .next s else outcomeOf ((s.setOps n ops).readCame n why bytes) id

/-- RDMA_ACKNOWLEDGEMENT (R529): every WRITE up to packet `psn` is complete. -/
def execRdmaAcknowledgement (n : SessId) (psn : Nat) (s : State) : Host.Outcome State Fault Refusal :=
  let acked (o : RdmaOp) : Bool := o.read.isNone && decide ((psn + 1 + 2 ^ 24 - o.psn) % 2 ^ 24 < 2 ^ 23)
  let ops := (s.session n).qp.ops
  .next (if ops.any acked then s.setOps n (ops.filter (fun o => !acked o)) else s)

/-- The request of an outstanding operation leaves again (R529). -/
def State.resendOp (s : State) (n : Nat) (o : RdmaOp) : State :=
  let sp := s.spans n o.win o.off o.len o.read.isNone
  match o.read with
  | some _ => sp.1.foldl (fun (s : State) (p : Nat × Nat) => s.emit (.rdmaRead n (s.winKey n o.win) p.1 p.2)) s
  | none => match sp.1 with
    | p :: _ => s.emit (.rdmaWrite n (s.winKey n o.win) p.1 o.data)
    | [] => s

/-- ACK_TIMEOUT (R529, R533): the queue pair sends its outstanding requests again; after 7 retries the session is lost.
DESIGN CHOICE: assumption 6; DEDUCED: assumption 85. -/
def execAckTimeout (n : SessId) (s : State) : Host.Outcome State Fault Refusal :=
  let ss := s.session n
  if ¬ s.isOpen n ∨ ss.qp.ops = [] then .next s
  else if 7 ≤ ss.qp.retries then .next (s.sessLost n)
  else .next (ss.qp.ops.foldl (fun (s : State) (o : RdmaOp) => s.resendOp n o)
    (s.setSession n { ss with qp := { ss.qp with retries := ss.qp.retries + 1 } }))

/-- INVALID_REQUEST_NAK (R533). -/
def execInvalidRequestNak (n : SessId) (s : State) : Host.Outcome State Fault Refusal := .next (s.sessLost n)

/-- SESSION_NO_LINK (R533): its port has had no link for 50 ms. -/
def execSessionNoLink (n : SessId) (s : State) : Host.Outcome State Fault Refusal :=
  match (s.eth (s.fld (hssSessionPort n))).downSince with
  | none => .next s
  | some t => .next (if t + 31250000 ≤ s.clock then s.sessLost n else s)

/-! ### Remote access errors -/

/-- The bytes of a job's writes from the failed one on, in order. DEDUCED: assumption 86. -/
def jobLost (j : Nat) (ops : List RdmaOp) : List Byte := (ops.filter (fun o => decide (o.job = j) && o.read.isNone)).flatMap RdmaOp.data

/-- A job whose output the host refused (R472, R473): it goes back to the failed byte and suspends; an automatic export stays pending, a
check job ends. DEDUCED: assumption 86. -/
def State.jobRefused (s : State) (o : RdmaOp) (rest : List RdmaOp) : State :=
  match s.job o.job with
  | none => s
  | some j =>
    if j.par.kind = .check then (s.finishDesc j.sess j.desc 7 []).crcEnd j.par.unit j.id
    else
      let b := jobLost j.id (o :: rest)
      let j := recBack j
      let back := min b.length j.outPos
      let k := { j with recs := (if b = [] then [] else [⟨b, 0, 0⟩]) ++ j.recs, outPos := j.outPos - back, produced := j.produced - b.length,
                        fault := 5, faultWin := o.win, faultOff := o.off }
      if j.auto then s.setJob { k with phase := .ringWait } else s.jobSuspend k 7

/-- Pennants of a write that the host refused are written again, each into its slot (R325, R472).
DEDUCED: assumption 86. -/
def State.pensRefused (s : State) (n : Nat) (os : List RdmaOp) : State :=
  let h := s.hring n 3
  let slots (o : RdmaOp) : List (Nat × List Byte) :=
    (List.range (o.data.length / 64)).map (fun i => ((o.off - devOff h.addr) / 64 + i, (o.data.drop (64 * i)).take 64))
  let isPen (o : RdmaOp) : Bool := decide (o.who = 1 ∧ devOff h.addr ≤ o.off ∧ o.off < devOff h.addr + 64 * h.entries)
  { s with jnl := { s.jnl with replayPen := (os.filter isPen).flatMap slots ++ s.jnl.replayPen } }

/-- A BANK_UPDATE or SLOT_LOAD whose records do not come. DEDUCED: assumption 86. -/
def State.dropSets (s : State) (n idx : Nat) : State :=
  { s with pln := { s.pln with sets := s.pln.sets.filter (fun j => !decide (j.sess = n ∧ j.desc = idx)) } }

/-- The descriptor that a failed read served completes with the translation-fault status (R472).
DEDUCED: assumption 86. -/
def State.readRefused (s : State) (n : Nat) (why : ReadFor) : State :=
  match why with
  | .descriptors _ _ => (s.setSession n { s.session n with fetching := false, refetch := none }).stopRings n
  | .recipe idx => match s.pln.compiling with
    | some j =>
      let s := if j.sess = n ∧ j.desc = idx then ({ s with pln := { s.pln with compiling := none } }).planState false else s
      (s.dropSets n idx).finishDesc n idx 7 []
    | none => (s.dropSets n idx).finishDesc n idx 7 []
  | .pages idx | .pairs idx | .ctrlData idx | .segments idx | .sine idx | .frame idx => s.finishDesc n idx 7 []
  | .jobInput _ => s

/-- Each requester's response (R472). Writes of the session's rings wait for RESTART_RINGS. DEDUCED: assumption 86. -/
def State.opRefused (s : State) (n : Nat) (o : RdmaOp) (rest : List RdmaOp) : State :=
  match o.read with
  | some (.jobInput _) => s.jobRefused o rest
  | some why => s.readRefused n why
  | none =>
    match o.who with
    | 0 | 2 | 3 => s.jobRefused o rest
    | 1 => s.pensRefused n (o :: rest)
    | 4 => (s.bump ovwCntDroppedF 1).fire 150
    | 5 => s.bump jnlCntStatDroppedF 1
    | 6 => s
    | _ => (s.holdWrite n o.win o.off o.who o.job o.data).stopRings n

/-- Operations behind a failed one that its requester's response covers leave with it. -/
def refusedToo (o q : RdmaOp) : Bool :=
  decide (q.read.isNone = true ∧ o.read.isNone = true ∧ q.who = o.who ∧ q.job = o.job) && (decide (o.who < 4 ∧ o.who ≠ 1) || decide (o.who = 1))

/-- REMOTE_ACCESS_ERROR (R471, R472): the host answers the oldest outstanding operation with an error, a translation fault of cause 5.
DEDUCED: assumption 86. -/
def execRemoteAccessError (n : SessId) (s : State) : Host.Outcome State Fault Refusal :=
  match (s.session n).qp.ops with
  | [] => .next s
  | o :: rest =>
    let s := (s.setOps n (rest.filter (fun q => !refusedToo o q))).xfault n o.win o.off 5 o.who
    .next (s.opRefused n o rest)

end Sys2Proof.Machine
end

