-- ==== Sys2Proof/Machine/Fabric.lean ====
section
/-! DEFINITION. The fabric engine (R599 to R634): discovery, addresses and the fabric plan, messages, global operations, loss and
return of neighbours. -/

namespace Sys2Proof.Machine

/-! ### What the engine goes by -/

/-- The fabric engine runs (R599) and its ports are up. -/
def State.fabOn (s : State) : Bool := s.flag fabCtrlEnable && s.mgmtUp

/-- The FABRIC record in force. -/
def State.fabRec (s : State) : Option Rec := findRec s.fabRecs 0x90 0xFF

/-- This module's serial number. -/
def State.serial (s : State) : Nat := s.get64 sysSerialLo

/-- Modules heard and not taken as lost. -/
def State.livePeers (s : State) : List Peer := s.fab.peers.filter (fun p => !p.gone)

/-- FAB_STATUS.MODULES: this module and those it hears (R605, R633). DEDUCED: assumption 89. -/
def State.countModules (s : State) : State := s.setFld fabStatusModules (min 32 (s.livePeers.length + 1))

/-- Chain forwarding is in force and not stopped by a ring (R601, R602). -/
def State.bridging (s : State) : Bool := s.fabOn && s.flag fabCtrlBridge && !s.flag fabStatusRingDetected

/-- MISMATCH is set (R609, R628); FABRIC_MISMATCH fires where it becomes 1. -/
def State.setMismatch (s : State) : State := (s.setFld fabStatusMismatch 1).fireIf (!s.flag fabStatusMismatch) 295

/-- The modules heard disagree with the FABRIC record: in number, or in fabric hash (R609). -/
def State.fabDisagrees (s : State) : Bool :=
  let expect := match s.fabRec with | some r => r.nat 0x18 | none => 0
  decide (s.livePeers.length + 1 ≠ expect) || (s.fab.hash ≠ [] && s.livePeers.any (fun p => p.hash.any (fun b => decide (b ≠ 0#8)) && decide (p.hash ≠ s.fab.hash)))

/-- The check of R609, once addresses stand. DEDUCED: assumption 89. -/
def State.mismatchCheck (s : State) : State := if s.fabDisagrees then s.setMismatch else s

/-! ### The coordinator -/

/-- The serial number that a host's naming or the FABRIC record gives, 0 for none (R607). DEDUCED: assumption 89. -/
def State.namedSerial (s : State) : Nat :=
  match s.fab.named with
  | some n => n
  | none =>
    match (s.livePeers.find? (fun p => p.named && decide (p.coord ≠ 0))) with
    | some p => p.coord
    | none => match s.fabRec with | some r => r.nat 0x20 | none => 0

/-- The coordinator that R607 chooses: the named module where it is heard, else the lowest serial number heard.
DEDUCED: assumption 89. -/
def State.candidate (s : State) : Nat :=
  let heard := s.serial :: s.livePeers.map Peer.serial
  let n := s.namedSerial
  if n ≠ 0 ∧ heard.contains n = true then n else heard.foldl min s.serial

/-- The coordinator changes (R607, R634). -/
def State.setCoord (s : State) (serial : Nat) : State :=
  ((s.set64 fabCoordLo serial).setFlag fabStatusCoordinator (decide (serial = s.serial))).fireIf (decide (s.get64 fabCoordLo ≠ serial)) 289

/-- A new coordinator keeps every address it has heard (R611). -/
def State.heirMembers (s : State) : List Member :=
  let own : List Member := if s.fld fabStatusAddress < 32 then [⟨s.selfAddr, s.serial, 0, true⟩] else []
  own ++ (s.livePeers.filter (fun p => decide (p.addr < 32))).map (fun p => ⟨p.addr, p.serial, p.hops, true⟩)

/-- This module takes the role (R607); orders of a coordinator before it stand, and it reports them as incomplete (R611). -/
def State.takeRole (s : State) : State :=
  let heir := s.pln.due.any (fun o => decide (o.seq ≠ 0 ∧ 4 ≤ o.sess)) && decide (s.get64 fabCoordLo ≠ 0)
  let s := if s.fld fabStatusAddress < 32 then { s with fab := { s.fab with members := s.heirMembers } } else s
  (s.setCoord s.serial).fireIf heir 294

/-- COORDINATOR_SETTLE (R607). -/
def execCoordinatorSettle (s : State) : Host.Outcome State Fault Refusal :=
  .next (if s.fabOn && decide (s.candidate = s.serial) && !s.coordinates then s.takeRole else s)

/-! ### Ensigns -/

/-- A digest of 32 bytes, 0 where there is none. -/
def pad32 (b : List Byte) : List Byte := (b ++ List.replicate 32 0#8).take 32

/-- Bytes 0x00 to 0x8F and the CRC of an ensign. -/
def ensignSeal (h : List Byte) : List Byte := h ++ beBytes 4 (crc32c h).toNat ++ beBytes 4 0

/-- The ensign of this module (R605). -/
def State.ensignBytes (s : State) : List Byte :=
  let span := spanOf s.fabRecs
  let flags := b2n s.coordinates + 2 * b2n (decide (s.fab.named.getD 0 ≠ 0)) + 4 * b2n span.isSome
  let a := s.fld fabStatusAddress
  let r (o : Nat) : Nat := match s.fabRec with | some r => r.nat o | none => 0
  let plan := match s.pln.plan with | some p => p.hash | none => []
  ensignSeal (beBytes 1 1 ++ beBytes 1 flags ++ beBytes 1 0 ++ beBytes 1 (if a = 63 then 0xFF else a) ++ beBytes 4 s.fab.ensignSeq ++
    beBytes 8 s.serial ++ beBytes 8 (s.get64 fabCoordLo) ++ beBytes 8 (ofSigned 64 (span.getD (0, 0)).1) ++
    beBytes 8 (ofSigned 64 (span.getD (0, 0)).2) ++ beBytes 1 (r 0x10) ++ beBytes 1 (r 0x18) ++ beBytes 1 (s.fld fabStatusModules) ++ beBytes 5 0 ++
    (List.range 8).flatMap (fun i => leBytes 4 (s.reg (sysFwHash i)).toNat) ++ pad32 plan ++ pad32 s.fab.hash)

/-- ENSIGN_INTERVAL (R604): one ensign on every port with link. -/
def execEnsignInterval (s : State) : Host.Outcome State Fault Refusal :=
  if !s.fabOn then .next s
  else
    let s := ({ s with fab := { s.fab with ensignSeq := (s.fab.ensignSeq + 1) % 2 ^ 32 } }).countModules
    .next ([0, 1].foldl (fun (s : State) (e : Nat) => if s.flag (hspPortLink e) then s.emit (.ensign e s.ensignBytes) else s) s)

/-- The module that an ensign describes (R605), as port `e` heard it. -/
def peerOf (e : Nat) (b : List Byte) : Peer :=
  let f := beAt b 1 1
  { serial := beAt b 8 8, seq := beAt b 4 4, coord := beAt b 0x10 8, isCoord := bitAt f 0, named := bitAt f 1, spanKnown := bitAt f 2,
    left := toSigned 64 (beAt b 0x18 8), right := toSigned 64 (beAt b 0x20 8), hops := beAt b 2 1 + 1, port := e, addr := beAt b 3 1,
    hash := (b.drop 0x70).take 32, gone := false }

/-- An ensign that a module takes: version, size, CRC. -/
def ensignOk (b : List Byte) : Bool := decide (b.length = 152 ∧ beAt b 0 1 = 1 ∧ beAt b 0x90 4 = (crc32c (b.take 0x90)).toNat)

/-- The ensign with its hop count raised by 1. DEDUCED: assumption 90. -/
def ensignOn (b : List Byte) : List Byte := ensignSeal ((b.take 2) ++ beBytes 1 (beAt b 2 1 + 1) ++ ((b.take 0x90).drop 3))

/-- A chain forwards an ensign once for each serial number and sequence, up to hop count 31 (R604).
DEDUCED: assumption 90. -/
def State.ensignForward (s : State) (e : Nat) (b : List Byte) : State :=
  if s.bridging && decide (beAt b 2 1 < 31) && s.flag (hspPortLink (1 - e)) then s.emit (.ensign (1 - e) (ensignOn b)) else s

/-- The chain is closed into a ring (R602). DEDUCED: assumption 90. -/
def State.ringFound (s : State) : State :=
  if s.flag fabCtrlBridge then (s.setFld fabStatusRingDetected 1).fireIf (!s.flag fabStatusRingDetected) 295 else s

/-- The coordinator that a heard module announces is followed where R607 chooses it; one that R607 passes over gives up the role. -/
def State.followCoord (s : State) (p : Peer) : State :=
  let c := s.candidate
  if p.isCoord ∧ p.serial = c ∧ s.get64 fabCoordLo ≠ c then s.setCoord c else s

/-- After a warm start the address stays where the ensigns show the coordinator and the fabric hash of before (R610).
DEDUCED: assumption 90. -/
def State.confirmAddress (s : State) (p : Peer) : State :=
  if s.fab.prevCoord = 0 ∨ p.coord = 0 then s
  else
    let same := decide (p.coord = s.fab.prevCoord ∧ p.hash = pad32 s.fab.hash)
    let s := { s with fab := { s.fab with prevCoord := 0 } }
    if same then s else s.fabDiscover.setFld fabStatusState 4

/-- A neighbour that was lost is heard again with the same fabric hash (R632): exchange resumes at the next strip boundary of the seam
context, the seam's sequences at 1. DEDUCED: assumption 91. -/
def State.neighbourBack (s : State) (a : Nat) : State :=
  let hash := match s.fab.peers.find? (fun p => decide (p.addr = a)) with | some p => p.hash | none => pad32 s.fab.hash
  match s.fab.lost.find? (fun e => decide (e.1 = a)) with
  | some (_, none) =>
    if hash ≠ pad32 s.fab.hash then s
    else
      let k := (s.ctx (s.seamCtx a 0)).num.nextStrip
      let seam (e : Nat × Nat) : Bool := decide (e.1 = fabKey a 0x20 ∨ e.1 = fabKey a 0x21 ∨ e.1 = fabKey a 0x22)
      let lost := s.fab.lost.map (fun e => if e.1 = a then (a, some k) else e)
      let s := { s with fab := { s.fab with lost := lost, sent := s.fab.sent.filter (fun e => !seam e), got := s.fab.got.filter (fun e => !seam e) } }
      let now := toSigned 64 (s.get64 (geoLineLo (s.seamCtx a 0)))
      let cap (r : Int × Int) : Int × Int := if now < r.2 then (r.1, now) else r
      let cover := s.seam.cover.map (fun c => if c.addr = a then { c with ranges := c.ranges.map cap } else c)
      let s := { s with seam := { s.seam with cover := cover } }
      let s := if a + 1 = s.selfAddr then s.setFld fabNeighboursLowLost 0 else s
      let s := if a = s.selfAddr + 1 then s.setFld fabNeighboursHighLost 0 else s
      s.fire 291
  | _ => s

/-- What a received ensign changes: the module it describes, the coordinator, discovery begun anew by the coordinator, a module that
came too late for an address (R610). DEDUCED: assumption 89. -/
def State.ensignHeard (s : State) (e : Nat) (b : List Byte) : State :=
  let p := peerOf e b
  let s := { s with fab := { s.fab with peers := s.fab.peers.filter (fun (q : Peer) => decide (q.serial ≠ p.serial)) ++ [p],
                                        seen := s.fab.seen.filter (fun (q : Nat × Nat) => decide (q.1 ≠ p.serial)) ++ [(p.serial, p.seq)] } }
  let s := ((s.countModules.followCoord p).confirmAddress p)
  let ours := decide (p.isCoord = true ∧ p.serial = s.get64 fabCoordLo) && !s.coordinates
  let s := if ours && decide (p.addr = 0xFF ∧ s.fld fabStatusAddress < 32) then s.fabDiscover
    else if ours && decide (p.addr < 32 ∧ s.fld fabStatusAddress = 63 ∧ s.fld fabStatusState = 1) && !(s.livePeers.any (fun q => decide (q.addr = 0xFF))) then s.setFld fabStatusState 4
    else s
  let s := if p.addr < 32 then s.neighbourBack p.addr else s
  if s.fld fabStatusAddress < 32 then s.mismatchCheck else s

/-- ENSIGN (R602 to R607). -/
def execEnsign (e : EthId) (bytes : List Byte) (s : State) : Host.Outcome State Fault Refusal :=
  if !s.fabOn || !ensignOk bytes then .next s
  else if beAt bytes 8 8 = s.serial then .next s.ringFound
  else if s.fab.seen.contains (beAt bytes 8 8, beAt bytes 4 4) then .next s
  else .next ((s.ensignHeard e bytes).ensignForward e bytes)

/-- RING_CLEAR (R602). -/
def execRingClear (s : State) : Host.Outcome State Fault Refusal := .next (s.setFld fabStatusRingDetected 0)

/-! ### Addresses -/

/-- Grid channels of the fabric plan (R614): of the plan at hand, else a free value (assumption 3).
DEDUCED: assumption 94. -/
def State.fabChans (s : State) : Nat × State :=
  match (s.pln.compiled.orElse (fun _ => s.pln.plan)).bind (fun p => p.outs.fab) with
  | some f => (f.chans, s)
  | none => let t := s.takeFree 4; (t.1 + 1, t.2)

/-- The share of the fabric plan that the module at address `a` gets (R608, R612, R614). PRESUMED: assumption 52. -/
def assignBody (rs : List Rec) (hash : List Byte) (h : Nat) (spans : List (Nat × Int × Int)) (w a : Nat) : AssignBody :=
  let px := pitchOf rs
  let web (o : Nat) : Int := match findRec rs 2 0xFF with | some r => r.int o | none => 0
  let span (i : Nat) : Int × Int := (spans.getD i (0, 0, 0)).2
  let last := decide (a + 1 = spans.length)
  let left := if a = 0 then min (span 0).1 (web 0x30) else (span a).1
  { addr := a, h := h, hash := hash
    cutLow := if a = 0 then web 0x30 / px else fabCut px (span (a - 1)).2 (span a).1
    cutHigh := if last then web 0x38 / px + 1 else fabCut px (span a).2 (span (a + 1)).1
    x0 := left / px * px, wLow := if a = 0 then 0 else w, wHigh := if last then 0 else w }

/-- The body of an ASSIGN as it travels (R617); the manual lists its fields in this order without widths.
PRESUMED: assumption 52. -/
def assignBytes (b : AssignBody) : List Byte :=
  beBytes 1 b.addr ++ beBytes 1 b.h ++ pad32 b.hash ++ beBytes 8 (ofSigned 64 b.cutLow) ++ beBytes 8 (ofSigned 64 b.cutHigh) ++
    beBytes 8 (ofSigned 64 b.x0) ++ beBytes 2 b.wLow ++ beBytes 2 b.wHigh

/-- This module takes its address and its share of the fabric plan (R608, R612, R634). -/
def State.takeAddress (s : State) (b : AssignBody) : State :=
  let s := { s with fab := { s.fab with cutLow := b.cutLow, cutHigh := b.cutHigh, x0 := b.x0, wLow := b.wLow, wHigh := b.wHigh, prevCoord := 0 } }
  ((s.setFld fabStatusAddress b.addr).setFld fabStatusHops b.h).fire 288

/-- Every module has answered (R608): the fabric is assigned. -/
def State.assignedCheck (s : State) : State :=
  if s.coordinates && decide (s.fld fabStatusState = 1) && s.fab.members.all Member.acked && !s.fab.members.isEmpty then s.setFld fabStatusState 2 else s

/-- The coordinator assigns the addresses of R608. -/
def State.assignAll (s : State) (rs : List Rec) (spans : List (Nat × Int × Int)) (w : Nat) : State :=
  let hops (serial : Nat) : Nat := match s.livePeers.find? (fun p => decide (p.serial = serial)) with | some p => p.hops | none => 0
  let h := (spans.map (fun e => hops e.1)).foldl max 0
  let ms := spans.zipIdx.map (fun e => (⟨e.2, e.1.1, hops e.1.1, decide (e.1.1 = s.serial)⟩ : Member))
  let addrOf (serial : Nat) : Nat := match ms.find? (fun m => decide (m.serial = serial)) with | some m => m.addr | none => 0xFF
  let s := s.fabDiscover
  let s := { s with fab := { s.fab with members := ms, peers := s.fab.peers.map (fun p => { p with addr := addrOf p.serial }) } }
  let body (a : Nat) : AssignBody := assignBody rs s.fab.hash h spans w a
  let s := ms.foldl (fun (s : State) (m : Member) =>
    if m.serial = s.serial then s.takeAddress (body m.addr) else s.fabSend m.addr 0x01 0 (assignBytes (body m.addr))) s
  s.mismatchCheck.assignedCheck

/-- A fabric plan that the coordinator refuses ends the compile under way (R613, R614). -/
def State.fabRefused (s : State) (st : PlanStatus) : State :=
  match s.pln.compiling with
  | some j => s.compileRefused j.sess j.desc st
  | none => s.planStatus st.status

/-- ADDRESS_ASSIGNMENT (R608, R612 to R614). -/
def execAddressAssignment (s : State) : Host.Outcome State Fault Refusal :=
  let rs := s.fabRecs
  let spans := s.fabSpans
  if !s.fabOn || !s.coordinates || decide (s.fld fabStatusState ≠ 1) || decide (spans.length ≠ s.livePeers.length + 1) then .next s
  else
    let c := s.fabChans
    let s := c.2
    let r := lineRateOf rs
    let most := match s.fabRec with | some f => f.nat 0x28 | none => 0
    .next (match fabDefect rs spans c.1 with
      | some st => s.fabRefused st
      | none => s.assignAll rs spans (seamWidth c.1 r.1 r.2 most))

/-! ### Sequences -/

/-- Sequence `q` lies after `p` in the order of R618. -/
def seqAfter (q p : Nat) : Bool := decide (q ≠ p ∧ (q + (2 ^ 32 - 1) - p) % (2 ^ 32 - 1) < 2 ^ 31)

/-- The message has been delivered before (R618). -/
def State.fabSeen (s : State) (src type seq : Nat) : Bool :=
  let k := fabKey src type
  !seqAfter seq (tblGet s.fab.got 0 k) || s.fab.ahead.contains (k, seq)

/-- The sequences delivered without a gap move on through those delivered ahead. -/
def gotOn (k : Nat) : Nat → Nat → List (Nat × Nat) → Nat × List (Nat × Nat)
  | 0, g, l => (g, l)
  | f + 1, g, l => if l.contains (k, fabNext g) then gotOn k f (fabNext g) (l.erase (k, fabNext g)) else (g, l)

/-- A message of a type that is acknowledged is delivered (R618). -/
def State.fabTook (s : State) (src type seq : Nat) : State :=
  let k := fabKey src type
  let r := gotOn k (s.fab.ahead.length + 1) (tblGet s.fab.got 0 k) ((k, seq) :: s.fab.ahead)
  { s with fab := { s.fab with got := tblSet s.fab.got 0 k r.1, ahead := r.2 } }

/-- A message of a type that is not acknowledged is delivered: what it overtook is lost. -/
def State.fabPassed (s : State) (src type seq : Nat) : State := { s with fab := { s.fab with got := tblSet s.fab.got 0 (fabKey src type) seq } }

/-- A reply that is not kept for retransmission (R617, R619). PRESUMED: assumption 53. -/
def State.fabReply (s : State) (dest type ref : Nat) (body : List Byte) : State :=
  let k := fabKey dest type
  let q := fabNext (tblGet s.fab.sent 0 k)
  ({ s with fab := { s.fab with sent := tblSet s.fab.sent 0 k q } }).fabEmit dest type 0 q ref body

/-- A message for this module of type `type`: read, checked, and noted as a sign of life of its source (R632). -/
def State.fabFor (s : State) (b : List Byte) (type : Nat) : Option (FabMsg × State) :=
  let m := fabOf b
  if s.fabOn && m.head.crcOk && decide (m.type = type ∧ (m.head.dest = s.selfAddr ∨ m.head.dest = 0xFF) ∧ m.head.src ≠ s.selfAddr ∧ s.fld fabStatusAddress < 32) then
    some (m, s.neighbourBack m.head.src)
  else none

/-- An outstanding message of this module (R619). -/
def State.fabOutOf (s : State) (dest type seq : Nat) : Option FabOut :=
  s.fab.outs.find? (fun o => decide ((o.dest = dest ∨ o.dest = 0xFF) ∧ o.type = type ∧ o.seq = seq))

/-- A message is acknowledged and no longer kept. -/
def State.fabDone (s : State) (o : FabOut) : State := { s with fab := { s.fab with outs := s.fab.outs.erase o } }

/-- An acknowledgement that names no outstanding message (R618). -/
def State.fabStale (s : State) : State := s.bump fabCntStaleF 1

/-- ASSIGN (R608, R612, R618): taken while discovering; a repeat is acknowledged again. -/
def execAssign (_e : EthId) (h : FabHead) (body : AssignBody) (s : State) : Host.Outcome State Fault Refusal :=
  if !s.fabOn || !h.crcOk || s.coordinates || decide (32 ≤ body.addr) then .next s
  else if s.fld fabStatusAddress = body.addr ∧ s.fabSeen h.src 0x01 h.seq = true then .next (s.fabReply h.src 0x02 h.seq [])
  else if s.fld fabStatusState ≠ 1 ∨ s.fld fabStatusAddress ≠ 63 then .next s
  else
    let s := (s.fabDiscover.takeAddress body).setFld fabStatusState 2
    let coord : Member := ⟨h.src, s.get64 fabCoordLo, 0, true⟩
    let own : Member := ⟨body.addr, s.serial, 0, true⟩
    let s := { s with fab := { s.fab with members := [coord, own], peers := s.fab.peers.map (fun (p : Peer) => if p.serial = coord.serial then { p with addr := h.src } else p) } }
    let s := (s.fabTook h.src 0x01 h.seq).mismatchCheck
    let s := if s.fab.hash ≠ [] ∧ pad32 s.fab.hash ≠ pad32 body.hash then s.setMismatch else s
    .next (s.fabReply h.src 0x02 h.seq [])

/-- ASSIGN_ACK (R608, R618). -/
def execAssignAck (_e : EthId) (bytes : List Byte) (s : State) : Host.Outcome State Fault Refusal :=
  match s.fabFor bytes 0x02 with
  | none => .next s
  | some (m, s) => match s.fabOutOf m.head.src 0x01 m.head.ref with
    | none => .next s.fabStale
    | some o =>
      let s := s.fabDone o
      let ms := s.fab.members.map (fun (x : Member) => if x.addr = m.head.src then { x with acked := true } else x)
      .next ({ s with fab := { s.fab with members := ms } }).assignedCheck

/-! ### Global operations -/

/-- The effect of a reset order on this module (R624). DEDUCED: assumption 93. -/
def State.resetOrder (s : State) (o : DueOp) (target : Nat) : State :=
  if s.mode < 3 ∨ s.mode = 6 ∨ s.pwr.afterStop.isSome = true then s.finishOrder o 6 []
  else s.modeOrder target (if o.sess < 4 then some (o.sess, o.desc) else none)

/-- A global operation takes effect (R624, R634). DEDUCED: assumption 93. -/
def State.globalEffect (s : State) (o : DueOp) : State :=
  let s := match o.kind with
    | 1 => s.startEffect o
    | 2 => s.stopEffect o
    | 3 => s.zeroEffect o
    | 4 => s.snapEffect o
    | 5 => s.commitLive
    | 6 => s.resetOrder o 5
    | 7 => s.resetOrder o 6
    | _ => s
  s.fire 292

/-- Of two orders the one with the earlier sequence (R626). -/
def firstOrder (b : Option DueOp) (o : DueOp) : Option DueOp :=
  match b with
  | none => some o
  | some p => if seqAfter o.seq p.seq then some p else some o

/-- GLOBAL_OPERATION (R625, R626): of the global operations whose moment has come, the first in the order of their ORDERs.
DEDUCED: assumption 55. -/
def execGlobalOperation (s : State) : Host.Outcome State Fault Refusal :=
  match (s.pln.due.filter (fun o => decide (o.seq ≠ 0) && s.ripe o)).foldl firstOrder none with
  | none => .next s
  | some o => .next ((s.dropDue o).globalEffect o)

/-- The fields of an ORDER body (R617). -/
def orderOf (seq : Nat) (zero : Int) (b : List Byte) : DueOp :=
  let form := beAt b 1 1
  { kind := beAt b 0 1, form := if form = 2 then 2 else 1, val := if form = 2 then toSigned 64 (beAt b 0x10 8) else (beAt b 8 8 : Int),
    zero := zero, sess := 255, desc := 0, seq := seq }

/-- An ORDER_ACK (R617). DEDUCED: assumption 93. -/
def State.orderAnswer (s : State) (dest ref status time : Nat) : State := s.fabReply dest 0x11 ref (beBytes 1 status ++ beBytes 7 0 ++ beBytes 8 time)

/-- ORDER (R625, R628): due at T; executed at once when T has passed; refused where R402 refuses the plan switch.
DEDUCED: assumption 93. -/
def execOrder (_e : EthId) (bytes : List Byte) (s : State) : Host.Outcome State Fault Refusal :=
  match s.fabFor bytes 0x10 with
  | none => .next s
  | some (m, s) =>
    let src := m.head.src
    let t := beAt m.body 8 8
    let late := decide (t < s.taiNs)
    if s.fabSeen src 0x10 m.head.seq then .next (s.orderAnswer src m.head.seq 0 t)
    else
      let s := s.fabTook src 0x10 m.head.seq
      let o := orderOf m.head.seq s.zero m.body
      if o.kind = 5 ∧ (s.pln.commit.isNone = true ∨ s.pln.fault.isSome = true) then .next (s.setMismatch.orderAnswer src m.head.seq 2 t)
      else if late then
        let s := (s.bump fabCntLateOrderF 1).orderAnswer src m.head.seq 1 s.taiNs
        .next (if o.form = 2 then s.queueDue o else s.globalEffect o)
      else .next ((s.queueDue o).orderAnswer src m.head.seq 0 t)

/-- A module has answered an order (R625): its descriptor completes once all have and it has taken effect here.
DEDUCED: assumption 55. -/
def State.orderAcked (s : State) (g : GlobalOp) (src : Nat) : State :=
  let g := { g with waiting := g.waiting.filter (fun a => decide (a ≠ src)) }
  let rest := s.fab.orders.filter (fun q => decide (q.seq ≠ g.seq))
  if !g.waiting.isEmpty then { s with fab := { s.fab with orders := s.fab.orders.map (fun q => if q.seq = g.seq then g else q) } }
  else
    let s := { s with fab := { s.fab with outs := s.fab.outs.filter (fun o => !decide (o.type = 0x10 ∧ o.seq = g.seq)) } }
    match g.result with
    | some r => ({ s with fab := { s.fab with orders := rest } }).finishDesc g.sess g.desc 0 r
    | none => { s with fab := { s.fab with orders := if g.sess < 4 then rest ++ [g] else rest } }

/-- ORDER_ACK (R618, R625, R628). -/
def execOrderAck (_e : EthId) (bytes : List Byte) (s : State) : Host.Outcome State Fault Refusal :=
  match s.fabFor bytes 0x11 with
  | none => .next s
  | some (m, s) =>
    match s.fab.orders.find? (fun g => decide (g.seq = m.head.ref) && g.waiting.contains m.head.src) with
    | none => .next s.fabStale
    | some g =>
      let st := beAt m.body 0 1
      .next (((s.orderAcked g m.head.src).fireIf (decide (st = 1)) 293).fireIf (decide (st = 2)) 294)

/-- ORDER_ACK_DEADLINE (R625): at T + 1 ms an ORDER_ACK is missing. -/
def execOrderAckDeadline (s : State) : Host.Outcome State Fault Refusal :=
  match s.fab.orders.find? (fun g => decide (g.time + 1000000 ≤ s.taiNs) && !g.waiting.isEmpty) with
  | none => .next s
  | some g =>
    let s := { s with fab := { s.fab with orders := s.fab.orders.filter (fun q => decide (q.seq ≠ g.seq)),
                                          outs := s.fab.outs.filter (fun o => !decide (o.type = 0x10 ∧ o.seq = g.seq)) } }
    let s := s.fire 294
    .next (if g.sess < 4 then s.finishDesc g.sess g.desc 6 [] else s)

/-- PLAN_READY (R624): the coordinator orders the switch once every module is ready. -/
def execPlanReady (_e : EthId) (bytes : List Byte) (s : State) : Host.Outcome State Fault Refusal :=
  match s.fabFor bytes 0x30 with
  | none => .next s
  | some (m, s) =>
    if s.fabSeen m.head.src 0x30 m.head.seq ∨ s.coordinates = false then .next s
    else
      let s := s.fabPassed m.head.src 0x30 m.head.seq
      .next ({ s with fab := { s.fab with ready := (m.head.src, m.body) :: s.fab.ready.filter (fun e => decide (e.1 ≠ m.head.src)) } }).readyCheck

/-- SNAPSHOT_DATA (R619, R627): the coordinator collects the blocks. An empty body with a reference acknowledges one.
PRESUMED: assumption 53. -/
def execSnapshotData (_e : EthId) (bytes : List Byte) (s : State) : Host.Outcome State Fault Refusal :=
  match s.fabFor bytes 0x40 with
  | none => .next s
  | some (m, s) =>
    let src := m.head.src
    if m.body = [] then
      match s.fabOutOf src 0x40 m.head.ref with
      | none => .next s.fabStale
      | some o => .next (s.fabDone o)
    else if s.fabSeen src 0x40 m.head.seq then .next (s.fabReply src 0x40 m.head.seq [])
    else
      let s := (s.fabTook src 0x40 m.head.seq).fabReply src 0x40 m.head.seq []
      .next (if s.coordinates then ({ s with fab := { s.fab with snaps := (src, m.body) :: s.fab.snaps.filter (fun e => decide (e.1 ≠ src)) } }).snapGathered else s)

/-! ### Seams -/

/-- BUNTING (R617 to R619, R621): the next message in sequence passes its records to the seam merge unit; its acknowledgement covers all
before it. DEDUCED: assumption 91. -/
def execBunting (_e : EthId) (bytes : List Byte) (s : State) : Host.Outcome State Fault Refusal :=
  match s.fabFor bytes 0x20 with
  | none => .next s
  | some (m, s) =>
    let src := m.head.src
    let g := tblGet s.fab.got 0 (fabKey src 0x20)
    if s.seamAway src then .next s
    else if m.head.seq = fabNext g then
      let bs := buntsOf 127 m.body
      let s := (s.fabPassed src 0x20 m.head.seq).fabReply src 0x21 m.head.seq []
      .next { s with seam := { s.seam with inq := s.seam.inq ++ bs } }
    else .next (if g = 0 then s else s.fabReply src 0x21 g [])

/-- BUNTING_ACK (R619): every BUNTING up to its reference is acknowledged. -/
def execBuntingAck (_e : EthId) (bytes : List Byte) (s : State) : Host.Outcome State Fault Refusal :=
  match s.fabFor bytes 0x21 with
  | none => .next s
  | some (m, s) =>
    if (s.fabOutOf m.head.src 0x20 m.head.ref).isNone then .next s.fabStale
    else
      let covered (o : FabOut) : Bool := decide (o.dest = m.head.src ∧ o.type = 0x20) && !seqAfter o.seq m.head.ref
      .next { s with fab := { s.fab with outs := s.fab.outs.filter (fun o => !covered o) } }

/-- The lines that seam alignment looks at (R731). -/
def seamSpanLines : Int := 4096

/-- SEAM_STRIP (R623): it is kept for seam alignment; a gap in its sequence is counted. -/
def execSeamStrip (_e : EthId) (bytes : List Byte) (s : State) : Host.Outcome State Fault Refusal :=
  match s.fabFor bytes 0x22 with
  | none => .next s
  | some (m, s) =>
    let src := m.head.src
    let g := tblGet s.fab.got 0 (fabKey src 0x22)
    if s.seamAway src ∨ s.fabSeen src 0x22 m.head.seq = true then .next s
    else
      let s := s.bump fabCntStripLostF ((m.head.seq + (2 ^ 32 - 1) - fabNext g) % (2 ^ 32 - 1))
      let s := s.fabPassed src 0x22 m.head.seq
      let d : SeamData := { side := if src + 1 = s.selfAddr then 0 else 1, first := toSigned 64 (beAt m.body 0 8), lines := beAt m.body 0x12 1, bytes := m.body }
      let keep := s.fab.strips.filter (fun (x : SeamData) => decide (x.side ≠ d.side ∨ d.first - seamSpanLines < x.first + x.lines))
      .next { s with fab := { s.fab with strips := keep ++ [d] } }

/-- HEARTBEAT (R629): a sign of life. -/
def execHeartbeat (_e : EthId) (bytes : List Byte) (s : State) : Host.Outcome State Fault Refusal :=
  match s.fabFor bytes 0x41 with
  | none => .next s
  | some (m, s) => .next (if s.fabSeen m.head.src 0x41 m.head.seq then s else s.fabPassed m.head.src 0x41 m.head.seq)

/-- The modules next to this one: at the adjacent addresses, and on a chain at one hop (R629). -/
def State.isNeighbour (s : State) (a : Nat) : Bool :=
  s.livePeers.any (fun p => decide (p.addr = a) && (decide (a + 1 = s.selfAddr ∨ a = s.selfAddr + 1) || (s.flag fabCtrlBridge && decide (p.hops = 1))))

/-- HEARTBEAT_INTERVAL (R629). -/
def execHeartbeatInterval (dest : Fin 32) (s : State) : Host.Outcome State Fault Refusal :=
  .next (if s.fabOn && decide (s.fld fabStatusAddress < 32) && s.isNeighbour dest then s.fabSend dest 0x41 0 [] else s)

/-! ### Forwarding and retransmission -/

/-- FABRIC_MESSAGE_FORWARD (R616): a chain sends on what is for another module, or for every module. -/
def execFabricMessageForward (e : EthId) (bytes : List Byte) (s : State) : Host.Outcome State Fault Refusal :=
  let m := fabOf bytes
  if !s.bridging || !m.head.crcOk || decide (m.head.dest = s.selfAddr ∧ s.fld fabStatusAddress < 32) || decide (m.head.hops = 0) then .next s
  else
    let b := fabBytes m.type m.head.src m.head.dest (m.head.hops - 1) m.head.flags m.head.seq m.head.ref m.body
    .next ((s.emit (.fabric (1 - e) b)).bump fabCntForwardedF 1)

/-- An order may be sent again until T + 1 ms (R619), to a module that has not answered. -/
def State.orderOpen (s : State) (dest seq : Nat) : Bool :=
  s.fab.orders.any (fun g => decide (g.seq = seq ∧ s.taiNs < g.time + 1000000) && g.waiting.contains dest)

/-- FABRIC_RETRANSMIT (R619). -/
def execFabricRetransmit (dest : Fin 32) (type seq : Nat) (s : State) : Host.Outcome State Fault Refusal :=
  match s.fabOutOf dest type seq with
  | none => .next s
  | some o =>
    if !s.fabOn || (decide (type = 0x10) && !s.orderOpen dest seq) then .next s
    else .next ((s.fabEmit dest type 1 seq 0 o.body).bump fabCntRetransmitF 1)

/-! ### Loss of a neighbour -/

/-- Parts that the lost neighbour has not acknowledged are emitted as split halves (R290, R630).
DEDUCED: assumption 92. -/
def State.partsBack (s : State) (a : Nat) : State :=
  let mine (o : FabOut) : Bool := decide (o.dest = a ∧ o.type = 0x20)
  let bs := (s.fab.outs.filter mine).flatMap (fun o => buntsOf 127 o.body)
  let s := { s with fab := { s.fab with outs := s.fab.outs.filter (fun o => !mine o) } }
  (bs.filterMap compOfPart).foldl State.splitOut s

/-- The line up to which the neighbour's PROGRESS covers its side (R282). -/
def State.progressOf (s : State) (a : Nat) : Option Int :=
  (s.seam.cover.filter (fun c => decide (c.addr = a))).foldl (fun (b : Option Int) (c : Cover) =>
    some (match b with | none => c.upTo | some u => max u c.upTo)) none

/-- Its side of the seam counts as MISSING from there on (R630). -/
def State.sideMissing (s : State) (a : Nat) : State :=
  let u := (s.progressOf a).getD (-(2 ^ 63))
  let rest := s.seam.cover.filter (fun c => !decide (c.addr = a ∧ c.edge = 1))
  { s with seam := { s.seam with cover := rest ++ [⟨a, 0, 1, u, [(u + 1, 2 ^ 63)]⟩] } }

/-- This module reports the columns of the lost one (R631): the module next below it, or next above it where that one is missing.
DEDUCED: assumption 92. -/
def State.reports (s : State) (a : Nat) : Bool :=
  decide (a = s.selfAddr + 1) || (decide (a + 1 = s.selfAddr) && (decide (a = 0) || !s.livePeers.any (fun p => decide (p.addr + 1 = a)) ||
    s.fab.lost.any (fun e => decide (e.1 + 1 = a))))

/-- The first line of the gap (R631): after the last that PROGRESS covered. A neighbour above sends no PROGRESS to this module: there the
line is a free value, at most 65 536 lines before the present one (assumption 3). DEDUCED: assumption 92. -/
def State.gapStart (s : State) (a : Nat) : Int × State :=
  match s.progressOf a with
  | some u => (u + 1, s)
  | none =>
    let t := s.takeFree 65536
    (toSigned 64 (s.get64 (geoLineLo (s.seamCtx a 0))) - t.1, t.2)

/-- A neighbour is declared lost (R629 to R631). DEDUCED: assumption 92. -/
def State.neighbourGone (s : State) (a : Nat) : State :=
  if s.fab.lost.contains (a, none) || !s.isNeighbour a then s
  else
    let low := decide (a + 1 = s.selfAddr)
    let high := decide (a = s.selfAddr + 1)
    let s := { s with fab := { s.fab with lost := s.fab.lost.filter (fun (e : Nat × Option Nat) => decide (e.1 ≠ a)) ++ [(a, none)] } }
    let s := if low then s.setFld fabNeighboursLowLost 1 else s
    let s := if high then s.setFld fabNeighboursHighLost 1 else s
    let s := (s.bump fabCntLostF 1).fire 290
    if !low && !high then s
    else
      let s := s.partsBack a
      let s := s.seamApply (splitWhere s.selfAddr (fun p => p.edges.any (fun e => decide (e.2 = .fabric a))) s.seam)
      let s := if low then s.sideMissing a else s
      if s.reports a then
        let g := s.gapStart a
        { g.2 with fab := { g.2.fab with lostGaps := g.2.fab.lostGaps.filter (fun e => decide (e.1 ≠ a)) ++ [(a, g.1)] } }
      else s

/-- NEIGHBOUR_LOST (R629). -/
def execNeighbourLost (addr : Fin 32) (s : State) : Host.Outcome State Fault Refusal :=
  .next (if s.fabOn && decide (s.fld fabStatusAddress < 32) then s.neighbourGone addr else s)

/-- A module that is no neighbour, or the coordinator, is not heard any more (R629). -/
def State.peerGone (s : State) (serial : Nat) : State :=
  let s := { s with fab := { s.fab with peers := s.fab.peers.map (fun (p : Peer) => if p.serial = serial then { p with gone := true } else p) } }
  s.countModules

/-- ENSIGN_ABSENCE (R611, R629): with the coordinator gone, R607 chooses among those still heard. -/
def execEnsignAbsence (serial : Nat) (s : State) : Host.Outcome State Fault Refusal :=
  if !s.fabOn || !s.livePeers.any (fun p => decide (p.serial = serial)) then .next s
  else
    let s := s.peerGone serial
    .next (if s.get64 fabCoordLo = serial ∧ s.candidate = s.serial ∧ s.fld fabStatusAddress < 32 then s.takeRole else s)

/-! ### The columns of a lost module -/

/-- The span of the module at an address, as its ensigns declare it. -/
def State.spanAt (s : State) (a : Nat) : Option (Int × Int) :=
  if a = s.selfAddr then spanOf s.fabRecs
  else match s.fab.peers.find? (fun p => decide (p.addr = a)) with
  | some p => some (p.left, p.right)
  | none => none

/-- The columns that the module at address `a` owns (R612). -/
def State.ownedBy (s : State) (a : Nat) : Int × Int :=
  let px := max 1 s.pitchX
  let web (o : Nat) : Int := match findRec s.fabRecs 2 0xFF with | some r => r.int o | none => 0
  let lo := match (if a = 0 then none else s.spanAt (a - 1)), s.spanAt a with
    | some x, some y => fabCut px x.2 y.1
    | _, _ => web 0x30 / px
  let hi := match s.spanAt a, s.spanAt (a + 1) with
    | some x, some y => fabCut px x.2 y.1 - 1
    | _, _ => web 0x38 / px
  (if a = s.selfAddr + 1 then s.fab.cutHigh else lo, if a + 1 = s.selfAddr then s.fab.cutLow - 1 else hi)

/-- A gap pennant of cause 8 for lines `m` to `k` of a lost module (R319, R631). -/
def State.lostGap (s : State) (a : Nat) (m k : Int) : State :=
  let g := s.ownedBy a
  let p := s.gapPennant (s.seamCtx a 0) ⟨m, k, 8, g.1, g.2, s.taiNs, s.flag (encStatusEncoderSuspect s.refEnc), false, false⟩
  s.penEnter { p with addr := a } m k

/-- The output line that passes the scan line of the seam context now (R317, R631). -/
def State.passingLine (s : State) (a : Nat) : Option Int :=
  match s.ctxPlan (s.seamCtx a 0) with
  | some cp => if s.pitchY = 0 then none else some ((s.webPos - cp.mount) / s.pitchY)
  | none => none

/-- One lost module: a gap is cut at every multiple of 1 024, and ends when the module is heard again (R319, R632). -/
def State.lostGapStep (s : State) (e : Nat × Int) : State :=
  match s.passingLine e.1 with
  | none => s
  | some now =>
    let top := (e.2 / 1024 + 1) * 1024 - 1
    let back := !s.seamAway e.1
    let others := s.fab.lostGaps.filter (fun q => decide (q.1 ≠ e.1))
    if top ≤ now then ({ s with fab := { s.fab with lostGaps := others ++ [(e.1, top + 1)] } }).lostGap e.1 e.2 top
    else if back then
      let s := { s with fab := { s.fab with lostGaps := others } }
      if e.2 ≤ now then s.lostGap e.1 e.2 now else s
    else s

/-- The gaps of lost modules go on as the web passes (R631). -/
def State.lostGapsStep (s : State) : State :=
  if s.inspecting then s.fab.lostGaps.foldl (fun (s : State) (e : Nat × Int) => s.lostGapStep e) s else s

/-! ### FABRIC -/

/-- A global operation stands between its order and its time T (R611). -/
def State.orderStands (s : State) : Bool := s.pln.due.any (fun o => decide (o.seq ≠ 0 ∧ o.form = 1 ∧ (s.taiNs : Int) < o.val))

/-- The result of FABRIC (R557). -/
def State.fabResult (s : State) : List Byte := leBytes 8 (s.get64 fabCoordLo) ++ leBytes 1 (let a := s.fld fabStatusAddress; if a = 63 then 0xFF else a)

/-- The effect of FABRIC: the coordinator is named, or discovery begins anew (R607, R608). -/
def fabricEffect (n : Nat) (d : OutDesc) (s : State) : State :=
  match d.par 0x10 1 with
  | 0 =>
    let s := { s with fab := { s.fab with named := some (d.par 0x18 8) } }
    let s := if s.coordinates ∧ s.candidate ≠ s.serial then s.setFld fabStatusCoordinator 0 else s
    s.doneDesc n d s.fabResult
  | 1 =>
    let s := if s.flag fabCtrlEnable then s.fabDiscover else s
    s.doneDesc n d s.fabResult
  | _ => s.badParam n d 0x10

/-- Naming moves the coordinator. -/
def State.moves (s : State) (serial : Nat) : Bool :=
  decide (({ s with fab := { s.fab with named := some serial } }).candidate ≠ s.get64 fabCoordLo)

/-- FABRIC (0x60). Moving the coordinator while a global operation stands between its order and T is undefined behaviour (R611, R780). -/
def execFabric (n : SessId) (idx : Nat) (s : State) : Host.Outcome State Fault Refusal :=
  let undef := match s.startable n idx with
    | some d => decide (d.opcode = 0x60 ∧ d.par 0x10 1 = 0) && modesMX.contains s.mode && s.orderStands && s.moves (d.par 0x18 8)
    | none => false
  if undef then .fault (.undefinedBehaviour .coordinatorMoved)
  else .next (s.runDesc n idx 0x60 modesMX (fabricEffect n))

end Sys2Proof.Machine
end

