-- ==== Sys2Proof/Machine/Network.lean ====
section
/-! DEFINITION. Cages and Ethernet ports (R32, R507 to R515, R563, R566, R601, R799): modules, links, congestion, flow control,
addresses, bridging. -/

namespace Sys2Proof.Machine

/-! ### Cages -/

/-- The code of HST_PORT.MEDIA for a medium (R507, R563); any other medium shows as none. DEDUCED: assumption 95. -/
def mediaCode : Media → Nat
  | .sr4 => 1
  | .lr4 => 2
  | .cr4 => 3
  | .other => 0

/-- QSFP_MODULE_INSERTED (R32, R507): a module of up to 3.5 W is admitted, any other held in low-power mode and not present.
DEDUCED: assumption 95. -/
def execQsfpModuleInserted (cage : Cage) (powerMw : Nat) (media : Media) (s : State) : Host.Outcome State Fault Refusal :=
  let ok := decide (powerMw ≤ 3500)
  let s := s.emit (.cageLow cage (!ok))
  .next (if cage.val < 12 then s.setFlag (zlpStatusPresent cage) ok
    else (s.setFlag (hspPortPresent (cage - 12)) ok).setFld (hspPortMedia (cage - 12)) (if ok then mediaCode media else 0))

/-- The sessions of port `e` that are open. -/
def State.portSessions (s : State) (e : Nat) : List Nat := (List.range 4).filter (fun n => s.isOpen n && decide (s.fld (hssSessionPort n) = e))

/-- An Ethernet link goes down (R566, R629, R533): neighbours of the fabric beyond it are lost. -/
def State.linkFalls (s : State) (e : Nat) : State :=
  if !s.flag (hspPortLink e) then s
  else
    let v := s.eth e
    let s := ((s.setFld (hspPortLink e) 0).setEth e { v with downSince := some s.clock, pausedAt := none, wireUntil := 0 }).fire (249 + 8 * e)
    let beyond := (s.livePeers.filter (fun p => decide (p.port = e ∧ p.addr < 32))).map Peer.addr
    if s.fld fabStatusAddress < 32 then beyond.foldl (fun (s : State) (a : Nat) => s.neighbourGone a) s else s

/-- QSFP_MODULE_REMOVED (R566, R799): the cage is no longer present; an Ethernet port's link falls and CAGE_FAULT fires. -/
def execQsfpModuleRemoved (cage : Cage) (s : State) : Host.Outcome State Fault Refusal :=
  .next (if cage.val < 12 then s.setFld (zlpStatusPresent cage) 0
    else
      let e := cage.val - 12
      ((((s.linkFalls e).setFld (hspPortPresent e) 0).setFld (hspPortMedia e) 0).fire (255 + 8 * e)))

/-! ### Links -/

/-- LINK_UP (R507, R508, R566): only with an admitted module of a known medium. -/
def execLinkUp (e : EthId) (s : State) : Host.Outcome State Fault Refusal :=
  if s.flag (hspPortLink e) || !s.flag (hspPortPresent e) || decide (s.fld (hspPortMedia e) = 0) || !s.mgmtUp then .next s
  else
    let s := ((s.setFld (hspPortLink e) 1).setEth e { s.eth e with downSince := none }).fire (248 + 8 * e)
    .next ((s.portSessions e).foldl (fun (s : State) (n : Nat) => s.kickFetch n) s)

/-- LINK_DOWN (R566). -/
def execLinkDown (e : EthId) (s : State) : Host.Outcome State Fault Refusal := .next (s.linkFalls e)

/-! ### Congestion and flow control -/

/-- The rate of a queue pair in units of 1/20 Gbit/s, and RATE_REDUCED of its port (R515, R563). -/
def State.setRoceRate (s : State) (n r : Nat) : State :=
  let ss := s.session n
  let s := s.setSession n { ss with qp := { ss.qp with rate := r } }
  let e := s.fld (hssSessionPort n)
  s.setFlag (hspPortRateReduced e) ((s.portSessions e).any (fun k => decide ((s.session k).qp.rate < 2000)))

/-- CE_MARKED_PACKET (R515): one notification per 50 µs and queue pair. -/
def execCeMarkedPacket (n : SessId) (s : State) : Host.Outcome State Fault Refusal :=
  let ss := s.session n
  let due := match ss.qp.lastCnp with | none => true | some t => decide (t + 31250 ≤ s.clock)
  .next (if s.isOpen n && due then (s.setSession n { ss with qp := { ss.qp with lastCnp := some s.clock } }).emit (.cnp n) else s)

/-- CNP (R515, R566): the queue pair's rate halves, to no less than 10 Gbit/s. -/
def execCnp (n : SessId) (s : State) : Host.Outcome State Fault Refusal :=
  if !s.isOpen n then .next s
  else
    let e := s.fld (hssSessionPort n)
    let r := (s.session n).qp.rate
    .next (((s.setRoceRate n (max 200 (r / 2))).bump (hspCntCnpF e) 1).fireIf (decide (200 < r)) (253 + 8 * e))

/-- RATE_RECOVERY (R515): the rate rises by 5 % of the port rate, to 100 Gbit/s. -/
def execRateRecovery (n : SessId) (s : State) : Host.Outcome State Fault Refusal :=
  let r := (s.session n).qp.rate
  .next (if s.isOpen n ∧ r < 2000 then s.setRoceRate n (min 2000 (r + 100)) else s)

/-- PFC_PAUSE (R514): received pauses of priority 4 are honoured with PFC_EN. -/
def execPfcPause (e : EthId) (paused : Bool) (s : State) : Host.Outcome State Fault Refusal :=
  if !s.flag (hspPortPfcEn e) || !s.flag (hspPortLink e) then .next s
  else
    let v := s.eth e
    let s := if paused then s.bump (hspCntPfcReceivedF e) 1 else s
    .next (s.setEth e { v with pausedAt := if paused then some (v.pausedAt.getD s.clock) else none })

/-- PFC_LONG (R566): priority 4 has stayed paused for more than 10 ms. -/
def execPfcLong (e : EthId) (s : State) : Host.Outcome State Fault Refusal :=
  .next (match (s.eth e).pausedAt with
    | some t => if t + 6250000 < s.clock then s.fire (254 + 8 * e) else s
    | none => s)

/-! ### Addresses -/

/-- NEIGHBOUR_SOLICITATION (R509): a port answers for its link-local and its global address. -/
def execNeighbourSolicitation (e : EthId) (target : List Byte) (s : State) : Host.Outcome State Fault Refusal :=
  let mine := decide (target = s.linkLocal e) || (decide ((s.eth e).inForce.getD 4 0 ≠ 0) && decide (target = s.ip6Of e))
  .next (if s.mgmtUp && s.flag (hspPortLink e) && mine then s.emit (.neighbour e target (s.macOf e)) else s)

/-- ARP_REQUEST (R509): a port answers for its IPv4 address. -/
def execArpRequest (e : EthId) (target : List Byte) (s : State) : Host.Outcome State Fault Refusal :=
  let mine := decide (target = s.ip4Of e) && decide ((s.eth e).inForce.getD 5 0 ≠ 0)
  .next (if s.mgmtUp && s.flag (hspPortLink e) && mine then s.emit (.neighbour e target (s.macOf e)) else s)

/-! ### Bridging -/

/-- The VLAN of a frame, 0 for an untagged one. DEDUCED: assumption 95. -/
def vlanOf (b : List Byte) : Nat := if beAt b 12 2 = 0x8100 then beAt b 14 2 % 4096 else 0

/-- BRIDGED_FRAME (R510, R601): a chain sends a frame of its VLAN on out the other port with its PCP, unless it is addressed to this module.
DEDUCED: assumption 95. -/
def execBridgedFrame (e : EthId) (_pcp : Nat) (bytes : List Byte) (s : State) : Host.Outcome State Fault Refusal :=
  let mine := decide (bytes.take 6 = s.macOf e)
  .next (if s.bridging && !mine && s.flag (hspPortLink (1 - e)) && decide (vlanOf bytes = s.fld hstNetCtrlVlanId) then s.emit (.frame (1 - e) false bytes) else s)

end Sys2Proof.Machine
end

