-- ==== Sys2Proof/Machine/Calib.lean ====
section
/-! DEFINITION. Calibration and trimming (R726 to R740), the event inputs of J2 (R708) and the Sync timeout of the servo (R577). -/

namespace Sys2Proof.Machine

/-! ### Figures -/

/-- `a / b` as a whole number; where it is not one, the manual names no rounding, and one of the two next to it is free. -/
def State.divFree (s : State) (a b : Nat) : Nat × State :=
  if a % b = 0 then (a / b, s) else
    let f := s.takeFree 2
    (a / b + f.1, f.2)

/-- The root of `v / n^2` as a whole number; where it is not one, one of the two next to it is free.
DEDUCED: assumption 99. -/
def State.rootFree (s : State) (v n : Nat) : Nat × State :=
  let q := isqrt (v / (n * n))
  if q * q * (n * n) = v then (q, s) else
    let f := s.takeFree 2
    (q + f.1, f.2)

/-- `n^2` times the variance of `n` values. DEDUCED: assumption 99. -/
def spreadOf (l : List Int) : Nat := ((l.length : Int) * sumInt (l.map (fun x => x * x)) - sumInt l * sumInt l).toNat

/-! ### Seams -/

/-- Context `c` owns a band of the live plan (R208). -/
def State.ownsBand (s : State) (c : Nat) : Bool :=
  match s.ctxPlan c with
  | some cp => cp.bands.any Band.owner
  | none => false

/-- A neighbour's fabric address. -/
def Nbr.address (b : Nbr) : Option Nat := match b with | .fabric a => some a | _ => Option.none

/-- Whether context `c` owns a fabric seam toward a module of lower (`low`) or higher address (R623). -/
def State.fabSide (s : State) (c : Nat) (low : Bool) : Bool :=
  match s.ctxPlan c with
  | some cp => [cp.left, cp.right].any (fun b => match b.address with
    | some a => if low then decide (a < s.selfAddr) else decide (s.selfAddr < a)
    | none => false)
  | none => false

/-- The entry of the residual table that an estimate belongs to: the context, or 12 and 13 for the fabric seams. -/
def State.seamKey (s : State) (c : Nat) (fabric : Bool) : Option Nat :=
  if fabric then (if s.fabSide c true then some 12 else if s.fabSide c false then some 13 else none)
  else if s.ownsBand c then some c else none

/-- A plausible estimate gives the residual of its seam (R733), and WORST_NM the largest of all (R740).
DEDUCED: assumption 99. -/
def State.seamResidual (s : State) (key : Nat) (shift : Int) : State :=
  match s.pln.plan with
  | none => s
  | some p =>
    let r := s.divFree (shift.natAbs * p.pitchX) 64
    let rs := (key, r.1) :: r.2.cal.residuals.filter (fun e => decide (e.1 ≠ key))
    let worst := (rs.map Prod.snd).foldl max 0
    ({ r.2 with cal := { r.2.cal with residuals := rs } }).setFld calSeamWorstNm (min worst 65535)

/-- A plausible estimate waits for the context's next strip boundary, unless the total is beyond ±8 columns (R731, R732). -/
def State.seamAsk (s : State) (c : Nat) (shift : Int) : State :=
  if shift = 0 then s
  else if s.seamFar c then s.setFld calSeamSeamLimit 1
  else { s with cal := { s.cal with waiting := tblSet s.cal.waiting 0 c (tblGet s.cal.waiting 0 c + shift) } }

/-- SEAM_ESTIMATE (R730 to R733): a correlation over 4 096 lines; the module of higher address corrects a fabric seam. -/
def execSeamEstimate (c : CtxId) (fabricSeam : Bool) (peak : Nat) (shift : Int) (s : State) : Host.Outcome State Fault Refusal :=
  if !s.inspecting || !s.flag calCtrlF then .next s
  else match s.seamKey c fabricSeam with
  | none => .next s
  | some key =>
    if 800 ≤ peak ∧ -32 ≤ shift ∧ shift ≤ 32 then
      let s := s.seamResidual key shift
      .next (if key = 13 then s else s.seamAsk c shift)
    else .next (s.bump calSeamSkipped 1)

/-- SEAM_CORRECTION_SAVE (R739): every 10 min the corrections go to flash with the plan. DEDUCED: assumption 102. -/
def execSeamCorrectionSave (s : State) : Host.Outcome State Fault Refusal :=
  .next (if decide (3 ≤ s.mode) && s.pln.plan.isSome then s.saveSeams else s)

/-! ### Flat field -/

/-- Lines of a context up to strip `last` still wait for its front end. -/
def CtxSt.linesBefore (x : CtxSt) (stop : Nat) : Bool :=
  x.fifo.any (fun l => !l.sliceTook && decide (l.line.strip < stop)) || x.filling.any (fun l => decide (l.strip < stop)) ||
    x.complete.any (fun q => q.any (fun l => decide (l.strip < stop))) || x.reading.any (fun l => decide (l.strip < stop))

/-- The strips of an acquisition have ended and every line of them has passed (R734). -/
def State.flatEnded (s : State) (r : CalRun) : Bool :=
  let x := s.ctx r.target
  let stop := r.nextStrip + r.strips
  (decide (stop < x.num.nextStrip) || (decide (x.num.nextStrip = stop) && decide (x.num.held = 0))) && !x.linesBefore stop && decide (0 < r.lines)

/-- The gains of a row (R736): rdiv(med × 4 096, mean), saturated to 4.12; a mean that is not positive gives a free value.
DEDUCED: assumption 100. -/
def State.rowGains (med : Int) : List Int → State → List Nat × State
  | [], s => ([], s)
  | m :: rest, s =>
    let g := if 0 < m then (satU 16 (rdiv (med * 4096) m), s) else s.takeFree 65536
    let t := State.rowGains med rest g.2
    (g.1 :: t.1, t.2)

/-- The median of a row's means: the lower middle value (R203's convention). DEDUCED: assumption 99. -/
def medianOf (l : List Int) : Int := (sortKey id l).getD ((l.length - 1) / 2) 0

/-- Gains and medians of every row. DEDUCED: assumption 100. -/
def State.flatGains : List (List Int) → State → List Nat × List Int × State
  | [], s => ([], [], s)
  | row :: rest, s =>
    let med := medianOf row
    let g := State.rowGains med row s
    let t := State.flatGains rest g.2
    (g.1 ++ t.1, med :: t.2.1, t.2.2)

/-- A GAINMAP record (R388, R390): G, then O. DEDUCED: assumption 100. -/
def gainRecord (c : Nat) (gains : List Nat) (offs : List Int) : List Byte :=
  let body := gains.flatMap (leBytes 2) ++ (List.range gains.length).flatMap (fun i => leBytes 2 (ofSigned 16 (intAt offs i)))
  let body := body ++ List.replicate ((8 - body.length % 8) % 8) 0#8
  leBytes 2 0x23 ++ leBytes 1 c ++ leBytes 1 1 ++ leBytes 4 (16 + body.length) ++ leBytes 4 0 ++ leBytes 4 (crc32c body).toNat ++ body

/-- The limits of R736: medians from 25 % to 90 % of FS, fewer than 0.1 % CLIPPED samples, at most 1 % outliers. -/
def flatPasses (meds : List Int) (clipped samples outliers pixels : Nat) : Bool :=
  meds.all (fun m => decide (fullScale ≤ 4 * m ∧ 10 * m ≤ 9 * fullScale)) && decide (1000 * clipped < samples) && decide (100 * outliers ≤ pixels)

/-- The acquisition's result (R736, R737): judged, written as a GAINMAP record when it passes, and reported.
DEDUCED: assumption 100. -/
def State.flatResult (s : State) (r : CalRun) : State :=
  let means := r.sums.map (fun row => row.map (fun v => rdiv v r.lines))
  let g := State.flatGains means s
  let gains := g.1
  let out := (gains.filter (fun v => decide (v < 2048 ∨ 8192 < v))).length
  let sd := g.2.2.rootFree (spreadOf (gains.map Int.ofNat)) gains.length
  let record := gainRecord r.target gains (s.activeBank r.target).front.offs
  let pass := flatPasses g.2.1 r.clipped (r.lines * gains.length) out gains.length && decide (record.length ≤ r.outLen)
  let w := if pass then sd.2.hostWrite r.out record 6 0 else (sd.2, none)
  match w.2 with
  | some _ => (w.1.calGone 4 r.target false).finishDesc r.sess r.desc 7 []
  | none => w.1.calDone r pass (min sd.1 65535 + 65536 * out) (w.1.calElapsed r)

/-- FLAT_FIELD_DONE (R734 to R737). DEDUCED: assumption 100. -/
def execFlatFieldDone (c : CtxId) (s : State) : Host.Outcome State Fault Refusal :=
  match s.calRun 4 c with
  | none => .next s
  | some r => .next (if s.flatEnded r then s.flatResult r else s)

/-! ### PTP path asymmetry and the event inputs -/

/-- A new asymmetry of a port, in the register and in flash. -/
def State.asymNew (s : State) (e : Nat) (v : Int) (f : Flash) : State :=
  let s := s.setFldInt (timAsymF e) v
  { s with pwr := { s.pwr with flash := { f with asym := f.asym.set e v } } }

/-- The result of kind 6 (R738): spread at most 5 ns and the new value within ±1 000 ns; it goes to flash on each pass (R739).
DEDUCED: assumption 101. -/
def State.asymResult (s : State) (r : CalRun) : State :=
  let e := r.target
  let v := s.fldInt (timAsymF e) + rdiv (sumInt r.edges) (64 * 256)
  let spread := spreadOf r.edges
  let pass := decide (spread ≤ (64 * 5 * 65536) ^ 2) && decide (-256000 ≤ v ∧ v ≤ 256000)
  let q := s.rootFree spread (64 * 256)
  let s := q.2
  let f := s.pwr.flash
  let s := if pass then s.asymNew e v f else s
  s.calDone r pass (q.1 % 2 ^ 32 + 2 ^ 32 * (v % 2 ^ 31).toNat) 0

/-- An edge of the reference pulse (R568, R738): its offset from the nearest whole second, at a free 0.4 ns within the cycle.
DEDUCED: assumption 101. -/
def State.asymEdge (s : State) (e : Nat) : State :=
  match s.calRun 6 e with
  | none => s
  | some r =>
    if !s.lockedOn e then s
    else
      let f := s.takeFree 4
      let sec : Int := 65536 * 1000000000
      let t := f.2.taiFine f.1 % sec
      let o := if 2 * t < sec then t else t - sec
      let r := { r with active := true, edges := r.edges ++ [o] }
      let s := f.2.setCalRun 6 e (fun _ => r)
      if r.edges.length < 64 then s else s.asymResult r

/-- The level of an event input. -/
def setPin (pins p : Nat) (level : Bool) : Nat :=
  let b := pins / 2 ^ p % 2
  pins - b * 2 ^ p + (if level then 2 ^ p else 0)

/-- EIN_EDGE (R708, R738): the pin takes its level; a rising edge at EIN3 serves the path calibrations. -/
def execEinEdge (p : Fin 4) (level : Bool) (s : State) : Host.Outcome State Fault Refusal :=
  let rises := level && decide (s.evt.pins / 2 ^ p.val % 2 = 0)
  let s := { s with evt := { s.evt with pins := setPin s.evt.pins p level } }
  .next (if rises && decide (p.val = 3) then (s.asymEdge 0).asymEdge 1 else s)

/-- SYNC_TIMEOUT (R577): four Sync intervals without a Sync. -/
def execSyncTimeout (s : State) : Host.Outcome State Fault Refusal := .next s.syncTimeout

/-! ### CALIBRATE -/

/-- The modes of a kind (R727). DEDUCED: assumption 96. -/
def calModes (kind : Nat) : ModeSet := if kind = 2 then [7] else if kind = 1 ∨ kind = 4 then modesMX else if kind = 5 then modesAll else modesMNAX

/-- The target byte names an object of the kind (R727). DEDUCED: assumption 96. -/
def State.calTarget (s : State) (kind t : Nat) : Bool :=
  match kind with
  | 1 => decide (t < 12)
  | 2 => decide (t < 16)
  | 3 => decide (t = 12) || s.ownsBand t
  | 4 => decide (t < 12)
  | _ => decide (t < 2)

/-- A new calibration of a kind on a target. DEDUCED: assumption 96. -/
def newCal (s : State) (n : Nat) (d : OutDesc) (kind t : Nat) : CalRun :=
  { kind, target := t, sess := n, desc := d.idx, strips := d.par 0x12 2, began := s.clock, active := decide (kind = 4),
    nextStrip := (s.ctx t).num.nextStrip, lines := 0, clipped := 0, sums := [], prev := [],
    edges := if kind = 1 then [256, 256] else [], out := d.par 0x18 8, outLen := d.par 0x20 4, lane := 0 }

/-- Enter a calibration among those under way. -/
def State.addCal (s : State) (r : CalRun) : State := { s with cal := { s.cal with runs := s.cal.runs ++ [r] } }

/-- Kind 1 (R727): the port leaves LINKED for STEP_UP, and its active lanes adapt in turn. A port that is not LINKED is in the wrong
state. DEDUCED: assumption 97. -/
def State.calLanes (s : State) (n : Nat) (d : OutDesc) (t : Nat) : State :=
  if s.fld (zlpStatusState t) ≠ 6 then s.wrongState n d
  else
    let rate := s.fld (zlpStatusRate t)
    let s := (s.addCal (newCal s n d 1 t)).setFld (zlpStatusState t) 4
    (s.modPort t (fun x => { x with agreed := rate })).adaptLane t 0

/-- Kind 2 (R444, R727): the channel trains. DEDUCED: assumption 98. -/
def State.calTrain (s : State) (n : Nat) (d : OutDesc) (t : Nat) : State := (s.addCal (newCal s n d 2 t)).setFld (mcStatusState t) 1

/-- Kind 3 (R728): the residual of a seam and the last shift applied to its context; with no plausible estimate yet nothing is
delivered, and the residual is free. DEDUCED: assumption 99. -/
def State.calSeamReport (s : State) (n : Nat) (d : OutDesc) (t : Nat) : State :=
  let rs := s.cal.residuals.filter (fun e => if t = 12 then decide (12 ≤ e.1) else decide (e.1 = t))
  let c := if t = 12 then ((s.liveCtxs.find? (fun c => s.fabSide c true)).getD 12) else t
  let last := ofSigned 16 (tblGet s.cal.last 0 c)
  let f := if rs.isEmpty then s.takeFree (2 ^ 32) else ((rs.map Prod.snd).foldl max 0, s)
  f.2.calDone (newCal s n d 3 t) (!rs.isEmpty) (f.1 % 2 ^ 32 + 2 ^ 32 * last) 0

/-- Kind 4 (R735, R736): the acquisition begins at the next strip boundary; it needs a live plan that has the context.
DEDUCED: assumption 100. -/
def State.calFlat (s : State) (n : Nat) (d : OutDesc) (t : Nat) : State :=
  let k := d.par 0x12 2
  if k = 0 ∨ 64 < k then s.badParam n d 0x12
  else if (s.ctxPlan t).isNone then s.wrongState n d
  else s.addCal (newCal s n d 4 t)

/-- Kind 5 (R669, R728): the residuals of both phases. -/
def State.calChop (s : State) (n : Nat) (d : OutDesc) (t : Nat) : State :=
  let a := s.ax t
  s.calDone (newCal s n d 5 t) (!s.flag (axStatusChopLimit t)) (min a.residA 65535 + 65536 * min a.residB 65535) 0

/-- Kind 6 (R738): the edges of the reference pulse count from now on. DEDUCED: assumption 101. -/
def State.calAsym (s : State) (n : Nat) (d : OutDesc) (t : Nat) : State := s.addCal { newCal s n d 6 t with active := s.lockedOn t }

/-- The effect of CALIBRATE (R727). DEDUCED: assumption 96. -/
def calEffect (n : Nat) (d : OutDesc) (s : State) : State :=
  let kind := d.par 0x10 1
  let t := d.par 0x11 1
  if kind = 0 ∨ 6 < kind then s.badParam n d 0x10
  else if !(calModes kind).contains s.mode then s.finishDesc n d.idx 5 []
  else if !s.calTarget kind t then s.badParam n d 0x11
  else if (s.calRun kind t).isSome || (decide (kind = 3) && (s.calRun 4 t).isSome) then s.wrongState n d
  else match kind with
  | 1 => s.calLanes n d t
  | 2 => s.calTrain n d t
  | 3 => s.calSeamReport n d t
  | 4 => s.calFlat n d t
  | 5 => s.calChop n d t
  | _ => s.calAsym n d t

/-- CALIBRATE (0x59). -/
def execCalibrate (n : SessId) (idx : Nat) (s : State) : Host.Outcome State Fault Refusal :=
  .next (s.runDesc n idx 0x59 modesMNAX (calEffect n))

end Sys2Proof.Machine
end

