-- ==== Sys2Proof/Machine/Dispatch.lean ====
section
/-! DEFINITION. The dispatch of the commands: one arm per row of the table, each one call of its meaning. -/

namespace Sys2Proof.Machine

def exec (i : Instr) (s : State) : Host.Outcome State Fault Refusal :=
  match i with
  | .qsfpModuleInserted cage powerMw media => Sys2Proof.Machine.execQsfpModuleInserted cage powerMw media s
  | .signalDetect p => Sys2Proof.Machine.execSignalDetect p s
  | .dscInterval p => Sys2Proof.Machine.execDscInterval p s
  | .dsc p role seq => Sys2Proof.Machine.execDsc p role seq s
  | .capabilityRecord p ty seq bytes => Sys2Proof.Machine.execCapabilityRecord p ty seq bytes s
  | .ack p ty seq => Sys2Proof.Machine.execAck p ty seq s
  | .nak p ty seq => Sys2Proof.Machine.execNak p ty seq s
  | .recordTimeout p => Sys2Proof.Machine.execRecordTimeout p s
  | .stepAck p rate lane => Sys2Proof.Machine.execStepAck p rate lane s
  | .laneRateSwitch p lane => Sys2Proof.Machine.execLaneRateSwitch p lane s
  | .adaptationDone p lane eye => Sys2Proof.Machine.execAdaptationDone p lane eye s
  | .result p fom lane => Sys2Proof.Machine.execResult p fom lane s
  | .resultTimeout p lane => Sys2Proof.Machine.execResultTimeout p lane s
  | .switch p rate lanes => Sys2Proof.Machine.execSwitch p rate lanes s
  | .lineCodeSwitch p => Sys2Proof.Machine.execLineCodeSwitch p s
  | .lockTimeout p => Sys2Proof.Machine.execLockTimeout p s
  | .blockLock p lane headers => Sys2Proof.Machine.execBlockLock p lane headers s
  | .blockLockLost p lane headers => Sys2Proof.Machine.execBlockLockLost p lane headers s
  | .align p lane block arrivalPs => Sys2Proof.Machine.execAlign p lane block arrivalPs s
  | .status p lane block => Sys2Proof.Machine.execStatus p lane block s
  | .bringupTimeout p => Sys2Proof.Machine.execBringupTimeout p s
  | .discoverRetry p => Sys2Proof.Machine.execDiscoverRetry p s
  | .line p pkt => Sys2Proof.Machine.execLine p pkt s
  | .ctrlAcknowledgement p pkt => Sys2Proof.Machine.execCtrlAcknowledgement p pkt s
  | .cevt p pkt => Sys2Proof.Machine.execCevt p pkt s
  | .applyTimeout p => Sys2Proof.Machine.execApplyTimeout p s
  | .ctrlTimeout p => Sys2Proof.Machine.execCtrlTimeout p s
  | .phyIdleTimeout p => Sys2Proof.Machine.execPhyIdleTimeout p s
  | .phyWake p => Sys2Proof.Machine.execPhyWake p s
  | .phyWakeTimeout p => Sys2Proof.Machine.execPhyWakeTimeout p s
  | .warmResumeAdaptDone p eyes => Sys2Proof.Machine.execWarmResumeAdaptDone p eyes s
  | .warmStatusTimeout p => Sys2Proof.Machine.execWarmStatusTimeout p s
  | .fomLow p => Sys2Proof.Machine.execFomLow p s
  | .rediscover p => Sys2Proof.Machine.execRediscover p s
  | .adapt p => Sys2Proof.Machine.execAdapt p s
  | .flushTimer c => Sys2Proof.Machine.execFlushTimer c s
  | .granuleBoundary sl => Sys2Proof.Machine.execGranuleBoundary sl s
  | .bankCopyDone c => Sys2Proof.Machine.execBankCopyDone c s
  | .sliceIdleTimeout sl => Sys2Proof.Machine.execSliceIdleTimeout sl s
  | .sliceWake sl => Sys2Proof.Machine.execSliceWake sl s
  | .frontEndLine c => Sys2Proof.Machine.execFrontEndLine c s
  | .outputLine c => Sys2Proof.Machine.execOutputLine c s
  | .bandDeadline c partner => Sys2Proof.Machine.execBandDeadline c partner s
  | .overviewLine => Sys2Proof.Machine.execOverviewLine s
  | .ovwRateLimit => Sys2Proof.Machine.execOvwRateLimit s
  | .labelLine c => Sys2Proof.Machine.execLabelLine c s
  | .buntingRecord => Sys2Proof.Machine.execBuntingRecord s
  | .pennantWrite => Sys2Proof.Machine.execPennantWrite s
  | .gatherTimeout => Sys2Proof.Machine.execGatherTimeout s
  | .lineCompress c carried => Sys2Proof.Machine.execLineCompress c carried s
  | .tableDelivery c strip lens => Sys2Proof.Machine.execTableDelivery c strip lens s
  | .depthUpdate => Sys2Proof.Machine.execDepthUpdate s
  | .ratioUpdate => Sys2Proof.Machine.execRatioUpdate s
  | .jobUnit job => Sys2Proof.Machine.execJobUnit job s
  | .jobPreempt job => Sys2Proof.Machine.execJobPreempt job s
  | .compileDone res => Sys2Proof.Machine.execCompileDone res s
  | .planGoLive => Sys2Proof.Machine.execPlanGoLive s
  | .fallbackCompiled n plan tenMs => Sys2Proof.Machine.execFallbackCompiled n plan tenMs s
  | .fallbackLoadDone => Sys2Proof.Machine.execFallbackLoadDone s
  | .fallbackSwitch => Sys2Proof.Machine.execFallbackSwitch s
  | .refresh m => Sys2Proof.Machine.execRefresh m s
  | .retrain m corrections errors => Sys2Proof.Machine.execRetrain m corrections errors s
  | .refreshVariantSwitch => Sys2Proof.Machine.execRefreshVariantSwitch s
  | .codewordRead m rank burst word use => Sys2Proof.Machine.execCodewordRead m rank burst word use s
  | .commandAddressParity m rank => Sys2Proof.Machine.execCommandAddressParity m rank s
  | .dramTemperatureRead dies => Sys2Proof.Machine.execDramTemperatureRead dies s
  | .hotExitTimer => Sys2Proof.Machine.execHotExitTimer s
  | .migrationBurst m word => Sys2Proof.Machine.execMigrationBurst m word s
  | .dramTrainingDone m width height vref => Sys2Proof.Machine.execDramTrainingDone m width height vref s
  | .retiredClear m v => Sys2Proof.Machine.execRetiredClear m v s
  | .journalDurable n => Sys2Proof.Machine.execJournalDurable n s
  | .journalRebuildDone => Sys2Proof.Machine.execJournalRebuildDone s
  | .replayDone => Sys2Proof.Machine.execReplayDone s
  | .catchupReturn c => Sys2Proof.Machine.execCatchupReturn c s
  | .fenceDone ss win => Sys2Proof.Machine.execFenceDone ss win s
  | .descriptorFetch ss descs => Sys2Proof.Machine.execDescriptorFetch ss descs s
  | .descriptorRefetch ss desc => Sys2Proof.Machine.execDescriptorRefetch ss desc s
  | .rdmaAcknowledgement ss psn => Sys2Proof.Machine.execRdmaAcknowledgement ss psn s
  | .ackTimeout ss => Sys2Proof.Machine.execAckTimeout ss s
  | .invalidRequestNak ss => Sys2Proof.Machine.execInvalidRequestNak ss s
  | .sessionNoLink ss => Sys2Proof.Machine.execSessionNoLink ss s
  | .linkUp e => Sys2Proof.Machine.execLinkUp e s
  | .linkDown e => Sys2Proof.Machine.execLinkDown e s
  | .ceMarkedPacket ss => Sys2Proof.Machine.execCeMarkedPacket ss s
  | .cnp ss => Sys2Proof.Machine.execCnp ss s
  | .rateRecovery ss => Sys2Proof.Machine.execRateRecovery ss s
  | .pfcPause e paused => Sys2Proof.Machine.execPfcPause e paused s
  | .neighbourSolicitation e target => Sys2Proof.Machine.execNeighbourSolicitation e target s
  | .arpRequest e target => Sys2Proof.Machine.execArpRequest e target s
  | .hello f => Sys2Proof.Machine.execHello f s
  | .read f => Sys2Proof.Machine.execRead f s
  | .write f => Sys2Proof.Machine.execWrite f s
  | .openSession f => Sys2Proof.Machine.execOpenSession f s
  | .closeSession f => Sys2Proof.Machine.execCloseSession f s
  | .doorbell f => Sys2Proof.Machine.execDoorbell f s
  | .restartRings f => Sys2Proof.Machine.execRestartRings f s
  | .provision f => Sys2Proof.Machine.execProvision f s
  | .keySet f => Sys2Proof.Machine.execKeySet f s
  | .keyClear f => Sys2Proof.Machine.execKeyClear f s
  | .mgmtUnusedType f => Sys2Proof.Machine.execMgmtUnusedType f s
  | .authLockoutEnd ss => Sys2Proof.Machine.execAuthLockoutEnd ss s
  | .rdmaDoorbell ss key addr bytes => Sys2Proof.Machine.execRdmaDoorbell ss key addr bytes s
  | .nop ss idx => Sys2Proof.Machine.execNop ss idx s
  | .windowDefine ss idx => Sys2Proof.Machine.execWindowDefine ss idx s
  | .mapInline ss idx => Sys2Proof.Machine.execMapInline ss idx s
  | .mapTable ss idx => Sys2Proof.Machine.execMapTable ss idx s
  | .fence ss idx => Sys2Proof.Machine.execFence ss idx s
  | .release ss idx => Sys2Proof.Machine.execRelease ss idx s
  | .compile ss idx => Sys2Proof.Machine.execCompile ss idx s
  | .commit ss idx => Sys2Proof.Machine.execCommit ss idx s
  | .bankUpdate ss idx set => Sys2Proof.Machine.execBankUpdate ss idx set s
  | .slotLoad ss idx set => Sys2Proof.Machine.execSlotLoad ss idx set s
  | .start ss idx => Sys2Proof.Machine.execStart ss idx s
  | .inspectionStart => Sys2Proof.Machine.execInspectionStart s
  | .stop ss idx => Sys2Proof.Machine.execStop ss idx s
  | .stopEffect => Sys2Proof.Machine.execStopEffect s
  | .setZero ss idx => Sys2Proof.Machine.execSetZero ss idx s
  | .zeroLatch => Sys2Proof.Machine.execZeroLatch s
  | .settings ss idx => Sys2Proof.Machine.execSettings ss idx s
  | .cameraCtrl ss idx => Sys2Proof.Machine.execCameraCtrl ss idx s
  | .exportJob ss idx => Sys2Proof.Machine.execExportJob ss idx s
  | .reprocess ss idx => Sys2Proof.Machine.execReprocess ss idx s
  | .resume ss idx => Sys2Proof.Machine.execResume ss idx s
  | .cancel ss idx => Sys2Proof.Machine.execCancel ss idx s
  | .axisMove ss idx => Sys2Proof.Machine.execAxisMove ss idx s
  | .axisLimits ss idx => Sys2Proof.Machine.execAxisLimits ss idx s
  | .axisTable ss idx => Sys2Proof.Machine.execAxisTable ss idx s
  | .axisStop ss idx => Sys2Proof.Machine.execAxisStop ss idx s
  | .compareArm ss idx => Sys2Proof.Machine.execCompareArm ss idx s
  | .sineLoad ss idx => Sys2Proof.Machine.execSineLoad ss idx s
  | .toutArm ss idx => Sys2Proof.Machine.execToutArm ss idx s
  | .frameLaunch ss idx => Sys2Proof.Machine.execFrameLaunch ss idx s
  | .checkRun ss idx => Sys2Proof.Machine.execCheckRun ss idx s
  | .encoderClear ss idx => Sys2Proof.Machine.execEncoderClear ss idx s
  | .snapshot ss idx => Sys2Proof.Machine.execSnapshot ss idx s
  | .snapshotLatch => Sys2Proof.Machine.execSnapshotLatch s
  | .mode ss idx => Sys2Proof.Machine.execMode ss idx s
  | .calibrate ss idx => Sys2Proof.Machine.execCalibrate ss idx s
  | .fabric ss idx => Sys2Proof.Machine.execFabric ss idx s
  | .unusedOpcode ss idx => Sys2Proof.Machine.execUnusedOpcode ss idx s
  | .sync e m => Sys2Proof.Machine.execSync e m s
  | .followUp e m => Sys2Proof.Machine.execFollowUp e m s
  | .delayResp e m => Sys2Proof.Machine.execDelayResp e m s
  | .pdelay e kind m => Sys2Proof.Machine.execPdelay e kind m s
  | .announce e m => Sys2Proof.Machine.execAnnounce e m s
  | .announceTimeout => Sys2Proof.Machine.execAnnounceTimeout s
  | .syncTimeout => Sys2Proof.Machine.execSyncTimeout s
  | .syncInterval e => Sys2Proof.Machine.execSyncInterval e s
  | .ptpTransit e m kind dwell => Sys2Proof.Machine.execPtpTransit e m kind dwell s
  | .toutEdge t => Sys2Proof.Machine.execToutEdge t s
  | .toutPulseEnd t => Sys2Proof.Machine.execToutPulseEnd t s
  | .frameLaunchTime e q => Sys2Proof.Machine.execFrameLaunchTime e q s
  | .aoTrimMeasure trim => Sys2Proof.Machine.execAoTrimMeasure trim s
  | .taiSecond => Sys2Proof.Machine.execTaiSecond s
  | .ensignInterval => Sys2Proof.Machine.execEnsignInterval s
  | .ensign e bytes => Sys2Proof.Machine.execEnsign e bytes s
  | .coordinatorSettle => Sys2Proof.Machine.execCoordinatorSettle s
  | .addressAssignment => Sys2Proof.Machine.execAddressAssignment s
  | .assign e h body => Sys2Proof.Machine.execAssign e h body s
  | .assignAck e bytes => Sys2Proof.Machine.execAssignAck e bytes s
  | .order e bytes => Sys2Proof.Machine.execOrder e bytes s
  | .orderAck e bytes => Sys2Proof.Machine.execOrderAck e bytes s
  | .globalOperation => Sys2Proof.Machine.execGlobalOperation s
  | .orderAckDeadline => Sys2Proof.Machine.execOrderAckDeadline s
  | .bunting e bytes => Sys2Proof.Machine.execBunting e bytes s
  | .buntingAck e bytes => Sys2Proof.Machine.execBuntingAck e bytes s
  | .seamStrip e bytes => Sys2Proof.Machine.execSeamStrip e bytes s
  | .planReady e bytes => Sys2Proof.Machine.execPlanReady e bytes s
  | .snapshotData e bytes => Sys2Proof.Machine.execSnapshotData e bytes s
  | .heartbeat e bytes => Sys2Proof.Machine.execHeartbeat e bytes s
  | .fabricMessageForward e bytes => Sys2Proof.Machine.execFabricMessageForward e bytes s
  | .fabricRetransmit dest type seq => Sys2Proof.Machine.execFabricRetransmit dest type seq s
  | .heartbeatInterval dest => Sys2Proof.Machine.execHeartbeatInterval dest s
  | .neighbourLost addr => Sys2Proof.Machine.execNeighbourLost addr s
  | .ensignAbsence serial => Sys2Proof.Machine.execEnsignAbsence serial s
  | .ringClear => Sys2Proof.Machine.execRingClear s
  | .encoderEdge k a b z => Sys2Proof.Machine.execEncoderEdge k a b z s
  | .indexPulse k => Sys2Proof.Machine.execIndexPulse k s
  | .extensionRead k => Sys2Proof.Machine.execExtensionRead k s
  | .speedWindow k => Sys2Proof.Machine.execSpeedWindow k s
  | .requalificationEnd k => Sys2Proof.Machine.execRequalificationEnd k s
  | .handoverCompare k => Sys2Proof.Machine.execHandoverCompare k s
  | .motionTick x => Sys2Proof.Machine.execMotionTick x s
  | .stepEvaluation x => Sys2Proof.Machine.execStepEvaluation x s
  | .holdCurrentTimer x => Sys2Proof.Machine.execHoldCurrentTimer x s
  | .chopperOffsetUpdate x phaseB mean => Sys2Proof.Machine.execChopperOffsetUpdate x phaseB mean s
  | .limitSwitch x high => Sys2Proof.Machine.execLimitSwitch x high s
  | .axisFault x cause => Sys2Proof.Machine.execAxisFault x cause s
  | .markerOverload x => Sys2Proof.Machine.execMarkerOverload x s
  | .eventDelivery v => Sys2Proof.Machine.execEventDelivery v s
  | .pendingEvent v => Sys2Proof.Machine.execPendingEvent v s
  | .einEdge p level => Sys2Proof.Machine.execEinEdge p level s
  | .logicCellFire l => Sys2Proof.Machine.execLogicCellFire l s
  | .crcLoad u v => Sys2Proof.Machine.execCrcLoad u v s
  | .seamEstimate c fabricSeam peak shift => Sys2Proof.Machine.execSeamEstimate c fabricSeam peak shift s
  | .flatFieldDone c => Sys2Proof.Machine.execFlatFieldDone c s
  | .wakeInput => Sys2Proof.Machine.execWakeInput s
  | .wakeTimer => Sys2Proof.Machine.execWakeTimer s
  | .nightSignalDetect => Sys2Proof.Machine.execNightSignalDetect s
  | .domainWake d ns => Sys2Proof.Machine.execDomainWake d ns s
  | .temperatureRead die dram stage bridge => Sys2Proof.Machine.execTemperatureRead die dram stage bridge s
  | .criticalCooldown => Sys2Proof.Machine.execCriticalCooldown s
  | .currentLimit current => Sys2Proof.Machine.execCurrentLimit current s
  | .currentReduction current => Sys2Proof.Machine.execCurrentReduction current s
  | .deratingEvaluation mv => Sys2Proof.Machine.execDeratingEvaluation mv s
  | .presentAsserted => Sys2Proof.Machine.execPresentAsserted s
  | .inputQualified mv => Sys2Proof.Machine.execInputQualified mv s
  | .dawnStep r => Sys2Proof.Machine.execDawnStep r s
  | .sunriseStep n r => Sys2Proof.Machine.execSunriseStep n r s
  | .warmFailRetry => Sys2Proof.Machine.execWarmFailRetry s
  | .holdUp undervoltage => Sys2Proof.Machine.execHoldUp undervoltage s
  | .overvoltage => Sys2Proof.Machine.execOvervoltage s
  | .inputReturn => Sys2Proof.Machine.execInputReturn s
  | .holdupExhausted => Sys2Proof.Machine.execHoldupExhausted s
  | .pllLockLoss pll => Sys2Proof.Machine.execPllLockLoss pll s
  | .watchdogService core => Sys2Proof.Machine.execWatchdogService core s
  | .watchdogExpiry core => Sys2Proof.Machine.execWatchdogExpiry core s
  | .duskDrainEnd => Sys2Proof.Machine.execDuskDrainEnd s
  | .drainTimeout => Sys2Proof.Machine.execDrainTimeout s
  | .sliceLoss sl => Sys2Proof.Machine.execSliceLoss sl s
  | .engineLoss g => Sys2Proof.Machine.execEngineLoss g s
  | .fresetHold ms => Sys2Proof.Machine.execFresetHold ms s
  | .pwrRestart v => Sys2Proof.Machine.execPwrRestart v s
  | .hstNetCommit e v => Sys2Proof.Machine.execHstNetCommit e v s
  | .startFailClear v => Sys2Proof.Machine.execStartFailClear v s
  | .latchingLoRead reader addr => Sys2Proof.Machine.execLatchingLoRead reader addr s
  | .fifoPeakClear c v => Sys2Proof.Machine.execFifoPeakClear c v s
  | .partsPeakClear v => Sys2Proof.Machine.execPartsPeakClear v s
  | .queuePeakClear v => Sys2Proof.Machine.execQueuePeakClear v s
  | .timeTrigger p => Sys2Proof.Machine.execTimeTrigger p s
  | .qsfpModuleRemoved cage => Sys2Proof.Machine.execQsfpModuleRemoved cage s
  | .bridgedFrame e pcp bytes => Sys2Proof.Machine.execBridgedFrame e pcp bytes s
  | .imageARestored => Sys2Proof.Machine.execImageARestored s
  | .seamCorrectionSave => Sys2Proof.Machine.execSeamCorrectionSave s
  | .delayReq e m => Sys2Proof.Machine.execDelayReq e m s
  | .delayReqInterval e => Sys2Proof.Machine.execDelayReqInterval e s
  | .announceInterval e => Sys2Proof.Machine.execAnnounceInterval e s
  | .pfcLong e => Sys2Proof.Machine.execPfcLong e s
  | .remoteAccessError ss => Sys2Proof.Machine.execRemoteAccessError ss s
  | .rdmaReadResponse ss bytes => Sys2Proof.Machine.execRdmaReadResponse ss bytes s
  | .limitSwitchRelease x high => Sys2Proof.Machine.execLimitSwitchRelease x high s

end Sys2Proof.Machine
end

