-- ==== Sys2Proof/Machine/Tick.lean ====
section
/-! DEFINITION. What one cycle of the clock does by itself (assumption 1): TAI time, schedule frames, logic cells, and in NIGHT the
always-on domain's time and wake timer. -/

namespace Sys2Proof.Machine

/-- Ticks of the always-on clock, 30.517 578 125 µs each, after a number of cycles of 1.6 ns (R594).
DEDUCED: assumption 109. -/
def aoTicks (cycles : Nat) : Nat := cycles * 1600000 / 30517578125

/-- One tick of the always-on clock (R594): TAI advances by it, corrected by TIM_AO_TRIM and by the temperature; the wake timer counts
seconds (R751) down to its last, which WAKE_TIMER takes. DEDUCED: assumption 109. -/
def State.aoTick (s : State) (k : Nat) : State :=
  let c : Int := 2 ^ 32 + s.fldInt timAoTrimF + Config.aoTemperature k
  let s := { s with tim := { s.tim with tai := ((s.tim.tai : Int) + 5 ^ 10 * 2 ^ 10 * c).toNat } }
  let w : Nat := s.fld pwrWakeTimerF
  if k % 32768 = 0 ∧ 1 < w then s.setFld pwrWakeTimerF (w - 1) else s

/-- A cycle in NIGHT: only the always-on domain has time.
DESIGN CHOICE: assumptions 1 and 104; DEDUCED: assumption 70. -/
def State.nightTick (s : State) : State :=
  let k := aoTicks s.clock
  let s := { s with clock := s.clock + 1 }
  if aoTicks s.clock = k then s else s.aoTick (k + 1)

/-- A schedule frame begins (R407, R425). DESIGN CHOICE: assumption 104. -/
def State.nextFrame (s : State) : State := ({ s with frameTick := 0 }).set64 plnFrameLo (s.frameNo + 1)

/-- Schedule frames of 124.8 µs (R407); in a fabric they begin at multiples of 124 800 ns of TAI time (R626), `before` being the time before
the cycle. DESIGN CHOICE: assumptions 1 and 4 and 104. -/
def State.frameStep (s : State) (before : Nat) : State :=
  if s.mode < 3 then s
  else
    let edge := if s.fab.aligned then decide (before / 124800 < s.taiNs / 124800) else decide (frameCycles ≤ s.frameTick + 1)
    if edge then s.nextFrame else { s with frameTick := s.frameTick + 1 }

/-- A cycle outside NIGHT (R567, R708, R630). DESIGN CHOICE: assumptions 1 and 104. -/
def State.dayTick (s : State) : State :=
  let before := s.taiNs
  let s := ({ s with clock := s.clock + 1 }).clockTick
  ((s.frameStep before).cellsTick).lostGapsStep

/-- One cycle with no command waiting. -/
def tick (s : State) : State := if s.mode = 0 then s.nightTick else s.dayTick

end Sys2Proof.Machine
end

