-- ==== Sys2Proof/Machine/Step.lean ====
section
/-! DEFINITION. One step of the block: the command at the front of the queue, or, on an empty queue, one cycle
of the module's clock (assumption 1). -/

namespace Sys2Proof.Machine

/-- The command at the front of the queue runs on the state with the queue's rest; with nothing waiting the
block's clock ticks. DESIGN CHOICE: assumption 1. -/
def step (s : State) : Host.Outcome State Fault Refusal :=
  match s.pending with
  | [] => .next (tick s)
  | c :: r => exec c { s with pending := r }

/-- `s` with the command that a word spells at the front of its queue; no word spells one.
DESIGN CHOICE: assumption 1. -/
def State.withFetchWord (s : State) (nbits w : Nat) : State :=
  match decodeTableWord nbits w with
  | none => s
  | some c => { s with pending := c :: s.pending }

end Sys2Proof.Machine
end

