-- ==== Sys2Proof/Safety.lean ====
section
/-! DEFINITION. What counts as a sound state and a safe step, and the conditions under which a command has its
effect, in the terms the claims use. -/

namespace Sys2Proof.Safety

open Sys2Proof.Machine

/-- The setup registers are in canonical form: addresses strictly rising, none listed at its cold value.
DEDUCED: assumption 116. -/
def RegsCanonical (s : State) : Prop := tblWf coldWord s.regs = true

/-- A step does not stop. -/
def Completes (s : State) : Prop := ∃ t, step s = .next t

/-- Descriptor `idx` of session `n` is `d`, may start now, has opcode `op` and stands in one of the modes that take it
(R553, R555). -/
def Ready (s : State) (n idx op : Nat) (modes : ModeSet) (d : OutDesc) : Prop :=
  s.startable n idx = some d ∧ d.opcode = op ∧ modes.contains s.mode = true

/-- A management request of type `ty` without a session arrives in a mode that takes it (R516, R517, R522). -/
def Anonymous (s : State) (f : MgmtFrame) (m : Mgmt) (ty : Nat) : Prop :=
  m = mgmtOf f.bytes ∧ 16 ≤ f.bytes.length ∧ s.mgmtUp = true ∧ bitAt (beAt f.bytes 3 1) 0 = false ∧ m.sess = 0xFF ∧ m.type = ty ∧
    m.version = 1 ∧ m.len ≤ 1024 ∧ 3 ≤ s.mode

/-- A management request of type `ty` is verified under the key `k` of its session and has a new sequence (R516 to R520),
in a mode that takes every type (R812). -/
def Authentic (s : State) (f : MgmtFrame) (m : Mgmt) (k : List Byte) (ty : Nat) : Prop :=
  m = mgmtOf f.bytes ∧ 16 ≤ f.bytes.length ∧ s.mgmtUp = true ∧ bitAt (beAt f.bytes 3 1) 0 = false ∧ m.sess ≤ 3 ∧ m.type = ty ∧
    m.version = 1 ∧ m.len ≤ 1024 ∧ 3 ≤ s.mode ∧ s.lockedOut m.sess = false ∧ (s.session m.sess).key = some k ∧ hmac k m.head = m.mac ∧
    s.get64 (hssSeqLo m.sess) < m.seq

/-- The state after an authenticated request of the state `t` has been answered, its reply kept (R517, R519). -/
def answered (t : State) (f : MgmtFrame) (m : Mgmt) (k : List Byte) (status : Nat) (body : List Byte) : State :=
  (t.setSession m.sess { t.session m.sess with reply := replyBytes m status body (some k) }).mgmtSend f (replyBytes m status body (some k))

/-- The parts of `State`. -/
inductive Part where
  | pending | clock | frameTick | freeIdx | out | regs | latches | ports | ctxs | slices
  | coders | ring | jobs | seam | pen | jnl | ovw | mem | pln | sess
  | eths | tim | fab | encs | dividers | axes | evt | crcs | cal | pwr
  | statHeld | zeroLatched
  deriving DecidableEq, Repr

/-- Part `p` is the same in both states. -/
def Part.same (s t : State) : Part → Prop
  | .pending => t.pending = s.pending
  | .clock => t.clock = s.clock
  | .frameTick => t.frameTick = s.frameTick
  | .freeIdx => t.freeIdx = s.freeIdx
  | .out => t.out = s.out
  | .regs => t.regs = s.regs
  | .latches => t.latches = s.latches
  | .ports => t.ports = s.ports
  | .ctxs => t.ctxs = s.ctxs
  | .slices => t.slices = s.slices
  | .coders => t.coders = s.coders
  | .ring => t.ring = s.ring
  | .jobs => t.jobs = s.jobs
  | .seam => t.seam = s.seam
  | .pen => t.pen = s.pen
  | .jnl => t.jnl = s.jnl
  | .ovw => t.ovw = s.ovw
  | .mem => t.mem = s.mem
  | .pln => t.pln = s.pln
  | .sess => t.sess = s.sess
  | .eths => t.eths = s.eths
  | .tim => t.tim = s.tim
  | .fab => t.fab = s.fab
  | .encs => t.encs = s.encs
  | .dividers => t.dividers = s.dividers
  | .axes => t.axes = s.axes
  | .evt => t.evt = s.evt
  | .crcs => t.crcs = s.crcs
  | .cal => t.cal = s.cal
  | .pwr => t.pwr = s.pwr
  | .statHeld => t.statHeld = s.statHeld
  | .zeroLatched => t.zeroLatched = s.zeroLatched

/-- Every part but the queue of commands and the clock. -/
def allParts : List Part :=
  [.frameTick, .freeIdx, .out, .regs, .latches, .ports, .ctxs, .slices, .coders, .ring, .jobs, .seam, .pen, .jnl, .ovw, .mem,
   .pln, .sess, .eths, .tim, .fab, .encs, .dividers, .axes, .evt, .crcs, .cal, .pwr, .statHeld, .zeroLatched]

/-- The parts of `State` that a command may change; the queue and the clock are never among them. -/
def scope : Instr → List Part
  | .qsfpModuleInserted _ _ _ | .fabricMessageForward _ _ | .holdCurrentTimer _ => [.out, .regs]
  | .signalDetect _ | .capabilityRecord _ _ _ _ | .nak _ _ _ | .recordTimeout _ | .lockTimeout _
  | .bringupTimeout _ | .discoverRetry _ | .phyWakeTimeout _ | .warmStatusTimeout _ =>
    [.out, .regs, .ports, .jnl, .sess, .evt, .cal]
  | .dscInterval _ | .laneRateSwitch _ _ => [.out, .ports]
  | .dsc _ _ _ | .lineCodeSwitch _ => [.regs, .ports]
  | .ack _ _ _ | .phyIdleTimeout _ | .phyWake _ | .adapt _ => [.out, .regs, .ports]
  | .stepAck _ _ _ | .switch _ _ _ | .blockLock _ _ _ => [.ports]
  | .adaptationDone _ _ _ | .result _ _ _ | .resultTimeout _ _ | .calibrate _ _ =>
    [.freeIdx, .out, .regs, .ports, .jnl, .sess, .evt, .cal]
  | .blockLockLost _ _ _ | .rediscover _ => [.out, .regs, .ports, .jnl, .pln, .sess, .evt, .cal]
  | .align _ _ _ _ | .status _ _ _ | .warmResumeAdaptDone _ _ =>
    [.out, .regs, .ports, .ctxs, .jnl, .pln, .sess, .evt, .cal]
  | .line _ _ => [.regs, .ports, .ctxs, .slices, .ring, .evt, .cal]
  | .ctrlAcknowledgement _ _ | .cevt _ _ | .applyTimeout _ | .ctrlTimeout _ | .settings _ _ | .cameraCtrl _ _ =>
    [.out, .regs, .ports, .jnl, .sess, .evt]
  | .fomLow _ | .depthUpdate | .logicCellFire _ | .domainWake _ _ | .pfcLong _ => [.regs, .evt]
  | .flushTimer _ => [.regs, .ctxs, .slices, .evt]
  | .granuleBoundary _ => [.ctxs, .slices]
  | .bankCopyDone _ => [.regs, .ctxs]
  | .sliceIdleTimeout _ | .sliceWake _ => [.regs, .slices]
  | .frontEndLine _ => [.out, .regs, .ctxs, .slices, .jnl, .sess, .evt, .cal, .statHeld]
  | .outputLine _ | .bandDeadline _ _ => [.out, .regs, .ctxs, .ovw, .tim, .fab]
  | .overviewLine => [.out, .regs, .ovw, .sess, .evt]
  | .ovwRateLimit => [.regs, .ovw, .evt]
  | .labelLine _ => [.freeIdx, .out, .regs, .ctxs, .jobs, .seam, .pen, .jnl, .tim, .fab, .axes, .evt, .pwr]
  | .buntingRecord => [.out, .regs, .jobs, .seam, .pen, .jnl, .tim, .fab, .axes, .evt, .pwr]
  | .pennantWrite | .gatherTimeout => [.out, .regs, .pen, .jnl, .sess, .tim, .evt]
  | .lineCompress _ _ => [.regs, .ctxs, .coders, .ring, .evt]
  | .tableDelivery _ _ _ => [.regs, .coders, .evt]
  | .ratioUpdate => [.freeIdx, .regs, .ring, .evt]
  | .jobUnit _ => [.freeIdx, .out, .regs, .jobs, .pen, .jnl, .sess, .evt, .crcs, .pwr]
  | .jobPreempt _ => [.freeIdx, .regs, .jobs, .jnl, .evt]
  | .compileDone _ => [.out, .regs, .jnl, .pln, .sess, .fab, .evt]
  | .planGoLive =>
    [.freeIdx, .out, .regs, .ports, .ctxs, .coders, .jobs, .seam, .pen, .jnl, .ovw, .pln, .sess, .tim, .fab, .encs, .dividers, .axes, .evt, .cal, .pwr]
  | .fallbackCompiled _ _ _ => [.out, .regs, .pln, .sess, .evt]
  | .fallbackLoadDone => [.pln]
  | .fallbackSwitch =>
    [.freeIdx, .out, .regs, .ports, .ctxs, .slices, .coders, .ring, .jobs, .seam, .pen, .jnl, .ovw, .mem, .pln, .sess, .tim, .fab, .encs, .dividers, .axes, .evt, .cal, .pwr]
  | .refresh _ | .hotExitTimer => [.mem]
  | .retrain _ _ _ | .dramTemperatureRead _ => [.regs, .mem, .evt]
  | .refreshVariantSwitch => [.regs, .mem]
  | .codewordRead _ _ _ _ _ => [.out, .regs, .ctxs, .ring, .jobs, .pen, .jnl, .mem, .pln, .sess, .evt, .pwr]
  | .commandAddressParity _ _ => [.out, .regs, .jobs, .pen, .jnl, .mem, .pln, .sess, .evt, .pwr]
  | .migrationBurst _ _ => [.freeIdx, .out, .regs, .jobs, .pen, .jnl, .mem, .pln, .sess, .evt, .pwr]
  | .dramTrainingDone _ _ _ _ => [.out, .regs, .jnl, .mem, .sess, .evt, .cal]
  | .retiredClear _ _ | .imageARestored => [.regs, .pwr]
  | .journalDurable _ | .fenceDone _ _ | .nop _ _ | .windowDefine _ _ | .mapTable _ _ | .fence _ _ | .release _ _
  | .axisTable _ _ | .sineLoad _ _ | .frameLaunch _ _ | .unusedOpcode _ _ => [.out, .regs, .jnl, .sess, .evt]
  | .journalRebuildDone | .ringClear | .requalificationEnd _ | .startFailClear _ | .fifoPeakClear _ _
  | .partsPeakClear _ | .queuePeakClear _ | .limitSwitchRelease _ _ => [.regs]
  | .replayDone | .ackTimeout _ | .invalidRequestNak _ | .sessionNoLink _ => [.out, .regs, .sess, .evt]
  | .catchupReturn _ => [.out, .regs, .ctxs, .jnl, .sess, .evt]
  | .descriptorFetch _ _ | .descriptorRefetch _ _ | .exportJob _ _ | .reprocess _ _ | .resume _ _ | .cancel _ _ =>
    [.out, .regs, .jobs, .jnl, .sess, .evt]
  | .rdmaAcknowledgement _ _ => [.sess]
  | .linkUp _ => [.out, .regs, .sess, .eths, .evt]
  | .linkDown _ | .qsfpModuleRemoved _ =>
    [.freeIdx, .out, .regs, .jobs, .seam, .pen, .jnl, .eths, .tim, .fab, .axes, .evt, .pwr]
  | .ceMarkedPacket _ => [.out, .sess]
  | .cnp _ => [.regs, .sess, .evt]
  | .rateRecovery _ | .authLockoutEnd _ => [.regs, .sess]
  | .pfcPause _ _ | .hstNetCommit _ _ => [.regs, .eths]
  | .neighbourSolicitation _ _ | .arpRequest _ _ | .bridgedFrame _ _ _ | .delayReq _ _ => [.out]
  | .hello _ | .restartRings _ | .provision _ | .keySet _ | .keyClear _ | .mgmtUnusedType _ =>
    [.out, .regs, .sess, .evt, .pwr]
  | .read _ => [.out, .regs, .latches, .sess, .evt, .pwr]
  | .write _ =>
    [.freeIdx, .out, .regs, .ports, .ctxs, .slices, .coders, .jobs, .seam, .pen, .jnl, .ovw, .pln, .sess, .eths, .tim, .fab, .encs, .axes, .evt, .crcs, .cal, .pwr]
  | .openSession _ =>
    [.freeIdx, .out, .regs, .ports, .jobs, .pen, .jnl, .ovw, .pln, .sess, .tim, .fab, .axes, .evt, .crcs, .cal, .pwr]
  | .closeSession _ => [.out, .regs, .ports, .jobs, .jnl, .pln, .sess, .tim, .fab, .axes, .evt, .crcs, .cal, .pwr]
  | .doorbell _ => [.out, .regs, .jnl, .sess, .evt, .pwr, .statHeld]
  | .rdmaDoorbell _ _ _ _ | .mapInline _ _ => [.out, .regs, .jnl, .sess, .evt, .statHeld]
  | .compile _ _ | .bankUpdate _ _ _ | .slotLoad _ _ _ => [.out, .regs, .jnl, .pln, .sess, .evt]
  | .commit _ _ | .start _ _ | .stop _ _ | .setZero _ _ | .snapshot _ _ | .snapshotLatch =>
    [.out, .regs, .jnl, .pln, .sess, .tim, .fab, .evt]
  | .inspectionStart =>
    [.out, .regs, .ctxs, .jnl, .ovw, .pln, .sess, .fab, .dividers, .axes, .evt, .pwr, .zeroLatched]
  | .stopEffect | .mode _ _ | .pwrRestart _ =>
    [.freeIdx, .out, .regs, .ports, .ctxs, .slices, .jobs, .seam, .pen, .jnl, .ovw, .pln, .sess, .tim, .fab, .axes, .evt, .cal, .pwr]
  | .zeroLatch =>
    [.freeIdx, .out, .regs, .ctxs, .jobs, .seam, .pen, .jnl, .ovw, .pln, .sess, .tim, .fab, .dividers, .axes, .evt, .pwr, .zeroLatched]
  | .axisMove _ _ | .axisLimits _ _ | .axisStop _ _ | .limitSwitch _ _ | .axisFault _ _ =>
    [.out, .regs, .jnl, .sess, .axes, .evt]
  | .compareArm _ _ => [.freeIdx, .out, .regs, .pen, .jnl, .sess, .tim, .axes, .evt, .pwr]
  | .toutArm _ _ => [.out, .regs, .jnl, .sess, .tim, .evt]
  | .checkRun _ _ => [.out, .regs, .jobs, .jnl, .sess, .evt, .crcs]
  | .encoderClear _ _ => [.out, .regs, .jnl, .sess, .encs, .evt]
  | .fabric _ _ | .orderAckDeadline => [.out, .regs, .jnl, .sess, .fab, .evt]
  | .sync _ _ | .followUp _ _ | .announce _ _ | .announceTimeout | .syncTimeout =>
    [.freeIdx, .out, .regs, .jnl, .sess, .tim, .evt, .cal]
  | .delayResp _ _ => [.tim]
  | .pdelay _ _ _ | .syncInterval _ | .ptpTransit _ _ _ _ | .markerOverload _ | .delayReqInterval _
  | .announceInterval _ => [.out, .tim]
  | .toutEdge _ => [.out, .regs, .tim, .evt]
  | .toutPulseEnd _ | .fabricRetransmit _ _ _ => [.out, .regs, .tim]
  | .frameLaunchTime _ _ => [.out, .regs, .jnl, .sess, .eths, .tim, .evt]
  | .aoTrimMeasure _ => [.regs, .tim, .pwr]
  | .taiSecond => [.regs, .tim, .evt]
  | .ensignInterval => [.out, .regs, .fab]
  | .ensign _ _ => [.out, .regs, .seam, .fab, .evt]
  | .coordinatorSettle | .ensignAbsence _ => [.regs, .fab, .evt]
  | .addressAssignment => [.freeIdx, .out, .regs, .jnl, .pln, .sess, .tim, .fab, .evt]
  | .assign _ _ _ => [.out, .regs, .tim, .fab, .evt]
  | .assignAck _ _ | .buntingAck _ _ | .seamStrip _ _ | .heartbeat _ _ => [.regs, .seam, .fab, .evt]
  | .order _ _ | .globalOperation =>
    [.freeIdx, .out, .regs, .ports, .ctxs, .slices, .coders, .jobs, .seam, .pen, .jnl, .ovw, .pln, .sess, .tim, .fab, .encs, .dividers, .axes, .evt, .cal, .pwr, .zeroLatched]
  | .orderAck _ _ => [.out, .regs, .seam, .jnl, .sess, .fab, .evt]
  | .bunting _ _ => [.out, .regs, .seam, .tim, .fab, .evt]
  | .planReady _ _ => [.out, .regs, .seam, .pln, .tim, .fab, .evt]
  | .snapshotData _ _ => [.out, .regs, .seam, .jnl, .sess, .tim, .fab, .evt]
  | .heartbeatInterval _ => [.out, .tim, .fab]
  | .neighbourLost _ => [.freeIdx, .out, .regs, .jobs, .seam, .pen, .jnl, .tim, .fab, .axes, .evt, .pwr]
  | .encoderEdge _ _ _ _ | .wakeInput | .wakeTimer | .nightSignalDetect | .inputQualified _ | .dawnStep _
  | .warmFailRetry | .holdUp _ | .overvoltage | .inputReturn | .pllLockLoss _ | .duskDrainEnd => allParts
  | .indexPulse _ =>
    [.out, .regs, .ports, .ctxs, .slices, .pen, .jnl, .ovw, .sess, .tim, .fab, .encs, .dividers, .axes, .evt, .pwr]
  | .extensionRead _ | .speedWindow _ => [.regs, .encs]
  | .handoverCompare _ => [.regs, .encs, .evt]
  | .motionTick _ | .stepEvaluation _ => [.out, .regs, .pen, .jnl, .sess, .tim, .axes, .evt, .pwr]
  | .chopperOffsetUpdate _ _ _ => [.regs, .axes]
  | .eventDelivery _ | .pendingEvent _ => [.out, .regs, .jnl, .sess, .tim, .axes, .evt]
  | .einEdge _ _ => [.freeIdx, .out, .regs, .jnl, .sess, .evt, .cal, .pwr]
  | .crcLoad _ _ => [.regs, .evt, .crcs]
  | .seamEstimate _ _ _ _ => [.freeIdx, .regs, .cal]
  | .flatFieldDone _ => [.freeIdx, .out, .regs, .jnl, .sess, .evt, .cal]
  | .temperatureRead _ _ _ _ =>
    [.freeIdx, .out, .regs, .ctxs, .jobs, .seam, .pen, .jnl, .ovw, .pln, .sess, .tim, .fab, .axes, .evt, .pwr]
  | .criticalCooldown | .watchdogService _ | .seamCorrectionSave => [.pwr]
  | .currentLimit _ => [.regs, .evt, .pwr]
  | .currentReduction _ => [.out, .regs, .axes, .pwr]
  | .deratingEvaluation _ => [.regs, .axes, .evt]
  | .presentAsserted => [.out, .pwr]
  | .sunriseStep _ _ =>
    [.frameTick, .out, .regs, .ports, .ctxs, .pen, .jnl, .mem, .pln, .sess, .eths, .tim, .encs, .dividers, .axes, .evt, .cal, .pwr]
  | .holdupExhausted => [.out, .regs, .tim, .encs, .pwr]
  | .watchdogExpiry _ =>
    [.out, .regs, .latches, .ports, .ctxs, .slices, .coders, .ring, .jobs, .seam, .pen, .jnl, .ovw, .mem, .pln, .sess, .eths, .tim, .fab, .encs, .axes, .evt, .crcs, .cal, .pwr, .statHeld]
  | .drainTimeout => [.freeIdx, .out, .regs, .ctxs, .jobs, .seam, .pen, .jnl, .ovw, .tim, .fab, .axes, .evt, .pwr]
  | .sliceLoss _ => [.out, .regs, .ctxs, .slices, .jnl, .pln, .sess, .evt]
  | .engineLoss _ => [.out, .regs, .ctxs, .ring, .jnl, .pln, .sess, .evt, .pwr]
  | .fresetHold _ => [.regs, .sess, .pwr]
  | .latchingLoRead _ _ => [.latches]
  | .timeTrigger _ => [.out, .regs, .ports, .tim, .evt]
  | .remoteAccessError _ => [.freeIdx, .out, .regs, .jobs, .jnl, .pln, .sess, .evt, .crcs]
  | .rdmaReadResponse _ _ =>
    [.out, .regs, .ports, .ctxs, .jobs, .jnl, .pln, .sess, .tim, .fab, .axes, .evt, .crcs, .statHeld]

/-- The families of commands, after the chapters that describe them. -/
inductive Family where
  | camera | context | pixel | pennant | lookback | plan | memory | journal | ring | management
  | descriptor | time | fabric | encoder | axis | event | calibration | power | setup
  deriving DecidableEq, Repr

/-- The family of a command. -/
def family : Instr → Family
  | .qsfpModuleInserted _ _ _ | .signalDetect _ | .dscInterval _ | .dsc _ _ _ | .capabilityRecord _ _ _ _
  | .ack _ _ _ | .nak _ _ _ | .recordTimeout _ | .stepAck _ _ _ | .laneRateSwitch _ _ | .adaptationDone _ _ _
  | .result _ _ _ | .resultTimeout _ _ | .switch _ _ _ | .lineCodeSwitch _ | .lockTimeout _ | .blockLock _ _ _
  | .blockLockLost _ _ _ | .align _ _ _ _ | .status _ _ _ | .bringupTimeout _ | .discoverRetry _ | .line _ _
  | .ctrlAcknowledgement _ _ | .cevt _ _ | .applyTimeout _ | .ctrlTimeout _ | .phyIdleTimeout _ | .phyWake _
  | .phyWakeTimeout _ | .warmResumeAdaptDone _ _ | .warmStatusTimeout _ | .fomLow _ | .rediscover _ | .adapt _
  | .timeTrigger _ | .qsfpModuleRemoved _ => .camera
  | .flushTimer _ | .granuleBoundary _ | .bankCopyDone _ | .sliceIdleTimeout _ | .sliceWake _ => .context
  | .frontEndLine _ | .outputLine _ | .bandDeadline _ _ | .overviewLine | .ovwRateLimit => .pixel
  | .labelLine _ | .buntingRecord | .pennantWrite | .gatherTimeout => .pennant
  | .lineCompress _ _ | .tableDelivery _ _ _ | .depthUpdate | .ratioUpdate | .jobUnit _ | .jobPreempt _ => .lookback
  | .compileDone _ | .planGoLive | .fallbackCompiled _ _ _ | .fallbackLoadDone | .fallbackSwitch => .plan
  | .refresh _ | .retrain _ _ _ | .refreshVariantSwitch | .codewordRead _ _ _ _ _ | .commandAddressParity _ _
  | .dramTemperatureRead _ | .hotExitTimer | .migrationBurst _ _ | .dramTrainingDone _ _ _ _ | .retiredClear _ _ => .memory
  | .journalDurable _ | .journalRebuildDone | .replayDone | .catchupReturn _ => .journal
  | .fenceDone _ _ | .descriptorFetch _ _ | .descriptorRefetch _ _ | .rdmaAcknowledgement _ _ | .ackTimeout _
  | .invalidRequestNak _ | .sessionNoLink _ | .linkUp _ | .linkDown _ | .ceMarkedPacket _ | .cnp _
  | .rateRecovery _ | .pfcPause _ _ | .neighbourSolicitation _ _ | .arpRequest _ _ | .bridgedFrame _ _ _
  | .pfcLong _ | .remoteAccessError _ | .rdmaReadResponse _ _ => .ring
  | .hello _ | .read _ | .write _ | .openSession _ | .closeSession _ | .doorbell _ | .restartRings _ | .provision _
  | .keySet _ | .keyClear _ | .mgmtUnusedType _ | .authLockoutEnd _ | .rdmaDoorbell _ _ _ _ => .management
  | .nop _ _ | .windowDefine _ _ | .mapInline _ _ | .mapTable _ _ | .fence _ _ | .release _ _ | .compile _ _
  | .commit _ _ | .bankUpdate _ _ _ | .slotLoad _ _ _ | .start _ _ | .inspectionStart | .stop _ _ | .stopEffect
  | .setZero _ _ | .zeroLatch | .settings _ _ | .cameraCtrl _ _ | .exportJob _ _ | .reprocess _ _ | .resume _ _
  | .cancel _ _ | .axisMove _ _ | .axisLimits _ _ | .axisTable _ _ | .axisStop _ _ | .compareArm _ _
  | .sineLoad _ _ | .toutArm _ _ | .frameLaunch _ _ | .checkRun _ _ | .encoderClear _ _ | .snapshot _ _
  | .snapshotLatch | .mode _ _ | .calibrate _ _ | .fabric _ _ | .unusedOpcode _ _ => .descriptor
  | .sync _ _ | .followUp _ _ | .delayResp _ _ | .pdelay _ _ _ | .announce _ _ | .announceTimeout | .syncTimeout
  | .syncInterval _ | .ptpTransit _ _ _ _ | .toutEdge _ | .toutPulseEnd _ | .frameLaunchTime _ _ | .aoTrimMeasure _
  | .taiSecond | .delayReq _ _ | .delayReqInterval _ | .announceInterval _ => .time
  | .ensignInterval | .ensign _ _ | .coordinatorSettle | .addressAssignment | .assign _ _ _ | .assignAck _ _
  | .order _ _ | .orderAck _ _ | .globalOperation | .orderAckDeadline | .bunting _ _ | .buntingAck _ _
  | .seamStrip _ _ | .planReady _ _ | .snapshotData _ _ | .heartbeat _ _ | .fabricMessageForward _ _
  | .fabricRetransmit _ _ _ | .heartbeatInterval _ | .neighbourLost _ | .ensignAbsence _ | .ringClear => .fabric
  | .encoderEdge _ _ _ _ | .indexPulse _ | .extensionRead _ | .speedWindow _ | .requalificationEnd _
  | .handoverCompare _ => .encoder
  | .motionTick _ | .stepEvaluation _ | .holdCurrentTimer _ | .chopperOffsetUpdate _ _ _ | .limitSwitch _ _
  | .axisFault _ _ | .markerOverload _ | .limitSwitchRelease _ _ => .axis
  | .eventDelivery _ | .pendingEvent _ | .einEdge _ _ | .logicCellFire _ | .crcLoad _ _ => .event
  | .seamEstimate _ _ _ _ | .flatFieldDone _ | .seamCorrectionSave => .calibration
  | .wakeInput | .wakeTimer | .nightSignalDetect | .domainWake _ _ | .temperatureRead _ _ _ _ | .criticalCooldown
  | .currentLimit _ | .currentReduction _ | .deratingEvaluation _ | .presentAsserted | .inputQualified _
  | .dawnStep _ | .sunriseStep _ _ | .warmFailRetry | .holdUp _ | .overvoltage | .inputReturn | .holdupExhausted
  | .pllLockLoss _ | .watchdogService _ | .watchdogExpiry _ | .duskDrainEnd | .drainTimeout | .sliceLoss _
  | .engineLoss _ | .fresetHold _ | .imageARestored => .power
  | .pwrRestart _ | .hstNetCommit _ _ | .startFailClear _ | .latchingLoRead _ _ | .fifoPeakClear _ _
  | .partsPeakClear _ | .queuePeakClear _ => .setup

/-- The commands that can meet a case that R780 calls undefined behaviour. -/
def mayStop : Instr → Bool
  | .line _ _ | .write _ | .descriptorFetch _ _ | .descriptorRefetch _ _ | .mapInline _ _ | .sineLoad _ _
  | .fabric _ _ | .syncInterval _ | .ptpTransit _ _ _ _ | .rdmaReadResponse _ _ => true
  | _ => false

end Sys2Proof.Safety
end

