-- ==== Sys2Proof/Certificates/Slice0/Obligations.lean ====
section
/-! DEFINITION. The statements for the provers. -/

open Sys2Proof Sys2Proof.Machine Sys2Proof.Safety

/-- A step runs the command at the front of the queue. With a command at the front of its queue, step is exec of that
command on the state with the queue's rest; with a command put in front by withFetchWord the same holds where a word
spells one, and no word spells one. The queue is the model's own (log entry 1). -/
def Obligations.StepRunsTheFrontCommand : Prop :=
  (∀ (c : Instr) (rest : List Instr) (s : State), s.pending = c :: rest → step s = exec c { s with pending := rest }) ∧
  (∀ (c : Instr) (s : State), step { s with pending := c :: s.pending } = exec c s) ∧
  (∀ (nbits w : Nat) (s : State), s.withFetchWord nbits w = s)

/-- With nothing waiting the module's clock advances. With an empty queue step answers the state after one cycle of
the module's clock (the model's choice, log entry 1): outside NIGHT the clock is one further, and, with no clock step
pending and the rate correction r within its clamp, TAI time has advanced by 8 × (2^48 + r) of its units of 1/(5 ×
2^48) ns, which is 1.6 ns × (1 + r) (R567). -/
def Obligations.EmptyQueueTicks : Prop :=
  (∀ s : State, s.pending = [] → step s = .next (tick s)) ∧
  (∀ s : State, s.mode ≠ 0 → s.tim.step = none → -(2 ^ 36) ≤ s.tim.r → s.tim.r ≤ 2 ^ 36 →
    (tick s).clock = s.clock + 1 ∧ (tick s).pending = s.pending ∧ ((tick s).tim.tai : Int) = s.tim.tai + 8 * (2 ^ 48 + s.tim.r))

/-- The module after reset. After reset the mode is MORNING, nothing waits, every setup register reads its cold word
(values the spec does not give are the model's, log entry 2), no plan is live and no session is open, and the
registers stand in canonical form. -/
def Obligations.ResetState : Prop :=
  State.reset.mode = 3 ∧ State.reset.pending = [] ∧ State.reset.pln.plan = none ∧ (∀ a, State.reset.reg a = coldWord a) ∧
  (∀ n : SessId, State.reset.isOpen n = false) ∧ RegsCanonical State.reset

/-- Every step keeps the setup registers in canonical form. From every state whose register table is canonical
(addresses strictly rising, no entry at its cold value), whatever command is at the front of the queue or whether the
clock ticks, a step that answers a next state leaves it canonical: equal register contents are equal data. -/
def Obligations.StepKeepsRegistersCanonical : Prop :=
  ∀ s t : State, RegsCanonical s → step s = .next t → RegsCanonical t

/-- Every command answers, and only undefined behaviour stops it. For every command and state, exec answers a next
state, or the command is one of those that can meet a case of R780 and exec stops with the fault that names the case;
no command is refused. -/
def Obligations.NoCommandIsRefused : Prop :=
  ∀ (c : Instr) (s : State), (∃ t, exec c s = .next t) ∨ (mayStop c = true ∧ ∃ u, exec c s = .fault (.undefinedBehaviour u))

/-- What no command touches. A command that answers a next state leaves the queue and the clock alone, takes nothing
back of what has left the module, and never uses a free value twice. -/
def Obligations.QueueAndOutputs : Prop :=
  ∀ (c : Instr) (s t : State), exec c s = .next t → t.pending = s.pending ∧ t.clock = s.clock ∧ s.out <+: t.out ∧ s.freeIdx ≤ t.freeIdx

/-- What commands of cameras, contexts, pixels, pennants and the look-back ring leave alone. A command of one of these
families changes no part of the state outside its scope, when it answers a next state. -/
def Obligations.FrameOfCameraCommands : Prop :=
  ∀ (c : Instr) (s t : State), family c ∈ [.camera, .context, .pixel, .pennant, .lookback] → exec c s = .next t →
    ∀ p, p ∉ scope c → p.same s t

/-- What commands of the Planner, memory, the journal and the host leave alone. A command of one of these families
(plan, memory, journal, ring, management, descriptor, setup) changes no part of the state outside its scope, when it
answers a next state. -/
def Obligations.FrameOfHostCommands : Prop :=
  ∀ (c : Instr) (s t : State), family c ∈ [.plan, .memory, .journal, .ring, .management, .descriptor, .setup] → exec c s = .next t →
    ∀ p, p ∉ scope c → p.same s t

/-- What commands of time, the fabric, encoders, axes, events, calibration and power leave alone. A command of one of
these families changes no part of the state outside its scope, when it answers a next state. -/
def Obligations.FrameOfDeviceCommands : Prop :=
  ∀ (c : Instr) (s t : State), family c ∈ [.time, .fabric, .encoder, .axis, .event, .calibration, .power] → exec c s = .next t →
    ∀ p, p ∉ scope c → p.same s t

/-- Discovery of a camera port. In the conditions given, SIGNAL_DETECT from DOWN, DISCOVER_RETRY and BRINGUP_TIMEOUT
put the port where the manual says; DSC_INTERVAL sends one DSC with the next sequence number; the third consecutive
DSC of the camera's role brings the port to its record exchange, an earlier one only counts, one of another role
starts the count again. Each answers a next state that differs from the old one in nothing but what its right side
names. -/
def Obligations.PortDiscovery : Prop :=
  (∀ (p : PortId) (s : State), s.portUsable p = true → s.fld (zlpStatusState p) = 0 → (s.port p).wait = .none →
    (s.port p).asleep = false → exec (.signalDetect p) s = .next (s.discover p)) ∧
  (∀ (p : PortId) (s : State), s.fld (zlpStatusState p) = 1 →
    exec (.dscInterval p) s = .next ((s.emit (.orderedSet p 0 2 2 (s.port p).dscSeq)).modPort p
      (fun x => { x with dscSeq := ((s.port p).dscSeq + 1) % 256 }))) ∧
  (∀ (p : PortId) (seq : Byte) (s : State), s.fld (zlpStatusState p) = 1 → 2 ≤ (s.port p).dscSeen →
    exec (.dsc p 1 seq) s = .next ((s.modPort p (fun x => { x with dscSeen := (s.port p).dscSeen + 1 })).setFld (zlpStatusState p) 2)) ∧
  (∀ (p : PortId) (seq : Byte) (s : State), s.fld (zlpStatusState p) = 1 → (s.port p).dscSeen < 2 →
    exec (.dsc p 1 seq) s = .next (s.modPort p (fun x => { x with dscSeen := (s.port p).dscSeen + 1 }))) ∧
  (∀ (p : PortId) (role seq : Byte) (s : State), s.fld (zlpStatusState p) = 1 → role ≠ 1 →
    exec (.dsc p role seq) s = .next (s.modPort p (fun x => { x with dscSeen := 0 }))) ∧
  (∀ (p : PortId) (s : State), (s.port p).wait = .retry → exec (.discoverRetry p) s = .next (s.discover p)) ∧
  (∀ (p : PortId) (s : State), 1 ≤ s.fld (zlpStatusState p) → s.fld (zlpStatusState p) ≤ 5 →
    exec (.bringupTimeout p) s = .next ((((s.bump (zlpCntBringupF p) 1).discover p).setFld (zlpStatusState p) 0).modPort p
      (fun x => { x with wait := .retry })))

/-- Exchange of records with a camera. An acceptable capability record is acknowledged, held in the capability
registers and answered by SELECT with the agreed rate and lane count; an unacceptable one below the eighth is answered
by NAK; the camera's ACK of SELECT begins STEP_UP; its NAK, or no answer, sends SELECT again, and after 8 sends
returns the port to DISCOVER. -/
def Obligations.PortRecords : Prop :=
  (∀ (p : PortId) (seq : Byte) (b : List Byte) (s : State), s.fld (zlpStatusState p) = 2 → capOk b = true →
    ∃ (t u : State) (rate n : Nat), u = s.emit (.orderedSet p 0 3 1 seq.toNat) ∧
      t = (List.range 16).foldl (fun s i => s.setFld (zlpCapabilityF p i) (leAt b (4 * i) 4)) u ∧
      rate = agreedRate (beAt b 2 2) (t.fld (zlpCtrlMaxRate p)) ∧ n = t.selectLanes p b ∧
      exec (.capabilityRecord p 1 seq b) s = .next (((t.modPort p (fun x =>
        { x with agreed := rate, declared := n, recSeq := (x.recSeq + 1) % 256, recSends := 1 })).setFld (zlpStatusState p) 3).sendSelect p)) ∧
  (∀ (p : PortId) (seq : Byte) (b : List Byte) (s : State), s.fld (zlpStatusState p) = 2 → capOk b = false →
    (s.port p).recSends < 7 →
    exec (.capabilityRecord p 1 seq b) s = .next ((s.emit (.orderedSet p 0 4 1 seq.toNat)).modPort p
      (fun x => { x with recSends := (s.port p).recSends + 1 }))) ∧
  (∀ (p : PortId) (seq : Byte) (s : State), s.fld (zlpStatusState p) = 3 → seq.toNat = (s.port p).recSeq →
    exec (.ack p 2 seq) s = .next (s.stepUp p)) ∧
  (∀ (p : PortId) (seq : Byte) (s : State), s.fld (zlpStatusState p) = 3 → seq.toNat = (s.port p).recSeq →
    (s.port p).recSends < 8 →
    exec (.nak p 2 seq) s = .next ((s.modPort p (fun x => { x with recSends := x.recSends + 1 })).sendSelect p)) ∧
  (∀ (p : PortId) (s : State), s.fld (zlpStatusState p) = 3 → (s.port p).recSends < 8 →
    exec (.recordTimeout p) s = .next ((s.modPort p (fun x => { x with recSends := x.recSends + 1 })).sendSelect p)) ∧
  (∀ (p : PortId) (s : State), s.fld (zlpStatusState p) = 3 → 8 ≤ (s.port p).recSends →
    exec (.recordTimeout p) s = .next (s.discover p))

/-- The rate step of a lane. In STEP_UP, STEP_ACK for the rate asked starts the wait, the switch takes the lane to
that rate and sends TRAIN, the end of adaptation stores and sends the figure of merit, RESULT stores the camera's, and
no RESULT in time fails the step. -/
def Obligations.PortStepUp : Prop :=
  (∀ (p : PortId) (rate lane : Byte) (s : State), s.fld (zlpStatusState p) = 4 → (s.lane p lane.toNat).phase = .stepSent →
    rate.toNat = (s.lane p lane.toNat).target →
    exec (.stepAck p rate lane) s = .next (s.setLane p lane.toNat { s.lane p lane.toNat with phase := .waitSwitch })) ∧
  (∀ (p : PortId) (l : LaneId) (s : State), s.fld (zlpStatusState p) = 4 → (s.lane p l).phase = .waitSwitch →
    exec (.laneRateSwitch p l) s = .next ((s.setLane p l { s.lane p l with phase := .adapting, rate := (s.lane p l).target }).emit
      (.train p l (s.lane p l).target))) ∧
  (∀ (p : PortId) (l : LaneId) (eye : Eye) (s : State), s.fld (zlpStatusState p) = 4 → (s.lane p l).phase = .adapting →
    exec (.adaptationDone p l eye) s = .next ((((s.setLane p l { s.lane p l with own := some (fomOf eye), phase := .waitResult }).setFld
      (fomFld p l) (fomOf eye)).emit (.orderedSet p l 7 (fomOf eye) l)).judgeStep p l)) ∧
  (∀ (p : PortId) (fom lane : Byte) (s : State), s.fld (zlpStatusState p) = 4 → (s.lane p lane.toNat).phase = .waitResult →
    exec (.result p fom lane) s = .next ((s.setLane p lane.toNat { s.lane p lane.toNat with peer := some fom.toNat }).judgeStep p lane.toNat)) ∧
  (∀ (p : PortId) (l : LaneId) (s : State), s.fld (zlpStatusState p) = 4 → (s.lane p l).phase = .waitResult →
    exec (.resultTimeout p l) s = .next (s.stepFails p l (s.lane p l)))

/-- Switch, block lock and alignment of a port. The camera's echo of SWITCH is taken, the line code changes on every
lane, 64 valid sync headers give block lock, 16 invalid of 64 on a locked lane lose it, the third good marker on every
lane links the port, and no lock in time returns the port to DISCOVER. -/
def Obligations.PortLock : Prop :=
  (∀ (p : PortId) (rate lanes : Byte) (s : State), s.fld (zlpStatusState p) = 5 → (s.port p).wait = .switchEcho →
    rate.toNat = s.fld (zlpStatusRate p) → lanes.toNat = s.fld (zlpStatusLanes p) →
    exec (.switch p rate lanes) s = .next (s.modPort p (fun x => { x with wait := .codeSwitch }))) ∧
  (∀ (p : PortId) (s : State), s.fld (zlpStatusState p) = 5 → (s.port p).wait = .codeSwitch →
    ∃ t : State, exec (.lineCodeSwitch p) s = .next ((t.modPort p (fun x => { x with wait := .lock })).setDegraded p) ∧
      t = (List.range 8).foldl (fun s l =>
        s.setLane p l { s.lane p l with locked := false, goodMarks := 0, badMarks := 0, mark := none }) s) ∧
  (∀ (p : PortId) (s : State), s.fld (zlpStatusState p) = 5 → (s.port p).wait = .lock →
    exec (.lockTimeout p) s = .next (s.discover p)) ∧
  (∀ (p : PortId) (l : LaneId) (hs : List (BitVec 2)) (s : State), s.blocksRun p = true → hs.length = 64 →
    hs.all headerOk = true → exec (.blockLock p l hs) s = .next (s.setLane p l { s.lane p l with locked := true })) ∧
  (∀ (p : PortId) (l : LaneId) (hs : List (BitVec 2)) (s : State), s.blocksRun p = true → (s.lane p l).locked = true →
    hs.length = 64 → 16 ≤ (hs.filter (fun h => !headerOk h)).length →
    exec (.blockLockLost p l hs) s = .next ((s.setLane p l { s.lane p l with locked := false }).lockLost p)) ∧
  (∀ (p : PortId) (l : LaneId) (block : Option (List Byte)) (at_ : Nat) (s t : State), s.blocksRun p = true →
    l.val < s.fld (zlpStatusLanes p) → s.fld (zlpStatusState p) = 5 → t = s.takeMark p l block at_ → (t.lane p l).badMarks < 4 →
    t.aligned p 3 = true →
    exec (.align p l block at_) s = .next ((t.modPort p (fun x => { x with deskew := t.deskewNow p })).linkUp p)) ∧
  (∀ (p : PortId) (l : LaneId) (block : Option (List Byte)) (at_ : Nat) (s t : State), s.blocksRun p = true →
    l.val < s.fld (zlpStatusLanes p) → t = s.takeMark p l block at_ → 4 ≤ (t.lane p l).badMarks →
    exec (.align p l block at_) s = .next (t.lockLost p))

/-- Sleep, resume and maintenance of a linked port. STATUS stores the camera's figure of merit; an idle encoder-
triggered port sleeps and a wake cause resumes it; the adaptation of a warm resume stores the module's figures; a
resume that does not come in time rediscovers; a low figure of merit fires its source; REDISCOVER on a linked port
drops the link, and ADAPT steps every active lane at its present rate. -/
def Obligations.PortSleepResume : Prop :=
  (∀ (p : PortId) (l : LaneId) (b : List Byte) (s : State), s.blocksRun p = true → b.length = 8 → leAt b 0 1 = 0x96 →
    crc8 (slice b 1 6) = b.getD 7 0 →
    exec (.status p l b) s = .next (((s.setFld (camFomFld p l) (leAt b 1 1)).setLane p l
      { s.lane p l with camFom := some (leAt b 1 1) }).resumeJudge p)) ∧
  (∀ (p : PortId) (cm : CamPlan) (s : State), s.camPlan p = some cm → cm.trigSource = 0 → s.linked p = true → s.mode = 4 →
    exec (.phyIdleTimeout p) s = .next (s.phySleep p)) ∧
  (∀ (p : PortId) (s : State), (s.port p).asleep = true → s.mode ≠ 0 → exec (.phyWake p) s = .next (s.phyResume p .wake)) ∧
  (∀ (p : PortId) (s : State), s.fld (zlpStatusState p) = 8 → (s.port p).wait = .wake →
    exec (.phyWakeTimeout p) s = .next (s.discover p)) ∧
  (∀ (p : PortId) (eyes : List Eye) (s : State), s.fld (zlpStatusState p) = 8 → (s.port p).wait = .warmAdapt →
    exec (.warmResumeAdaptDone p eyes) s = .next ((((s.activeLanes p).foldl (fun s l => s.setFld (fomFld p l)
      (fomOf (eyes.getD l ⟨0, 0⟩))) s).modPort p (fun x => { x with wait := .warmStatus })).resumeJudge p)) ∧
  (∀ (p : PortId) (s : State), s.fld (zlpStatusState p) = 8 → (s.port p).wait = .warmStatus →
    exec (.warmStatusTimeout p) s = .next (s.discover p)) ∧
  (∀ (p : PortId) (l : Nat) (s : State), s.linked p = true → l ∈ s.activeLanes p →
    (s.fld (fomFld p l) < 64 ∨ s.fld (camFomFld p l) < 64) → exec (.fomLow p) s = .next (s.fire (8 * p + 5))) ∧
  (∀ (p : PortId) (s : State), s.portUsable p = true → s.linked p = true → exec (.rediscover p) s = .next (s.linkLost p)) ∧
  (∀ (p : PortId) (s : State), (s.mode = 3 ∨ s.mode = 7) → s.linked p = true →
    exec (.adapt p) s = .next ((s.activeLanes p).foldl (fun (s : State) (l : Nat) => s.adaptLane p l)
      ((s.setFld (zlpStatusState p) 4).modPort p (fun x => { x with agreed := (s.fld (zlpStatusRate p)) }))))

/-- Packets of a linked camera. A good LINE of a context in the plan is taken as a line, a damaged one by the rule for
damaged lines, one beyond the declared format is the undefined behaviour of R780; a packet with a bad start block only
counts; a CTRL acknowledgement that fits the outstanding request with status 0 ends it; camera codes 3 to 5 are
counted or forwarded; a periodic trigger makes a line trigger. -/
def Obligations.CameraLines : Prop :=
  (∀ (p : PortId) (k : Pkt) (cp : CtxPlan) (s : State), s.linked p = true → sopOk k = true → pktType k = 1 →
    s.flag (zlpStatusCameraChanged p) = false → s.ctxPlan p = some cp → checkLine (s.capRecord p) cp k = .good →
    exec (.line p k) s = .next (s.goodLine p p cp k)) ∧
  (∀ (p : PortId) (k : Pkt) (cp : CtxPlan) (h : Bool) (s : State), s.linked p = true → sopOk k = true → pktType k = 1 →
    s.flag (zlpStatusCameraChanged p) = false → s.ctxPlan p = some cp → checkLine (s.capRecord p) cp k = .damaged h →
    exec (.line p k) s = .next (s.badLine p p cp k h)) ∧
  (∀ (p : PortId) (k : Pkt) (cp : CtxPlan) (s : State), s.linked p = true → sopOk k = true → pktType k = 1 →
    s.flag (zlpStatusCameraChanged p) = false → s.ctxPlan p = some cp → checkLine (s.capRecord p) cp k = .beyond →
    exec (.line p k) s = .fault (.undefinedBehaviour .lineBeyondDeclared)) ∧
  (∀ (p : PortId) (k : Pkt) (s : State), s.linked p = true → sopOk k = false →
    exec (.line p k) s = .next (s.bump (zlpCntBadpktF p) 1) ∧ exec (.ctrlAcknowledgement p k) s = .next (s.bump (zlpCntBadpktF p) 1) ∧
    exec (.cevt p k) s = .next (s.bump (zlpCntBadpktF p) 1)) ∧
  (∀ (p : PortId) (k : Pkt) (r : CtrlReq) (s : State), s.linked p = true → sopOk k = true → (s.port p).ctrl = some r →
    pktGood k 3 = true → beAt k.body 0 1 = r.op + 128 → beAt k.body 1 1 = r.tag → beAt k.body 2 2 = r.words →
    beAt k.body 4 1 = 0 →
    exec (.ctrlAcknowledgement p k) s = .next (((s.modPort p (fun x => { x with ctrl := none })).ctrlDone r 0
      (slice k.body 5 (4 * r.words))).ctrlNext p)) ∧
  (∀ (p : PortId) (k : Pkt) (s : State), s.linked p = true → sopOk k = true → pktGood k 7 = true → beAt k.body 0 2 = 3 →
    exec (.cevt p k) s = .next ((s.bump (zlpCntTrigOverrunF p) 1).forwardCevt p 3 (beAt k.body 2 2) (beAt k.body 4 4))) ∧
  (∀ (p : PortId) (k : Pkt) (s : State), s.linked p = true → sopOk k = true → pktGood k 7 = true →
    (beAt k.body 0 2 = 4 ∨ beAt k.body 0 2 = 5) →
    exec (.cevt p k) s = .next (s.forwardCevt p (beAt k.body 0 2) (beAt k.body 2 2) (beAt k.body 4 4))) ∧
  (∀ (p : PortId) (cm : CamPlan) (s : State), s.camPlan p = some cm → cm.trigSource = 1 →
    exec (.timeTrigger p) s = .next (s.lineTrigger p))

/-- Unanswered requests to a camera. An APPLY or CTRL request unanswered within its time is sent again as long as it
has been sent at most three times, with its count raised; the next time out gives NOTICE cause 5 and fails the
settings request, or NOTICE cause 2 and status 13 for the host's CTRL request, after which the next request goes out.
-/
def Obligations.CameraTimeouts : Prop :=
  (∀ (p : PortId) (a : Apply) (s : State), (s.port p).applies.find? (fun a => !a.accepted) = some a → a.sends ≤ 3 →
    exec (.applyTimeout p) s = .next ((s.modPort p (fun x => { x with applies := x.applies.map (fun q => if q = a then
      { q with sends := q.sends + 1 } else q) })).sendPkt p 5 a.body)) ∧
  (∀ (p : PortId) (a : Apply) (s : State), (s.port p).applies.find? (fun a => !a.accepted) = some a → 3 < a.sends →
    exec (.applyTimeout p) s = .next ((s.camNotice p 5).applyFail p a)) ∧
  (∀ (p : PortId) (r : CtrlReq) (s : State), (s.port p).ctrl = some r → r.sends ≤ 3 →
    exec (.ctrlTimeout p) s = .next ((s.modPort p (fun x => { x with ctrl := some { r with sends := r.sends + 1 } })).sendPkt p 2 r.body)) ∧
  (∀ (p : PortId) (r : CtrlReq) (s : State), (s.port p).ctrl = some r → 3 < r.sends → r.sess < 4 →
    exec (.ctrlTimeout p) s = .next ((((s.modPort p (fun x => { x with ctrl := none })).camNotice p 2).finishDesc r.sess r.desc 13
      (leBytes 1 0)).ctrlNext p))

/-- Strips and shared slices of a context. A flush timer that has run out on a held partial strip of a context with
its own slice closes the strip; a granule boundary gives a slice its granule and owner, and that context's strip; the
copy of a retired bank ends once no line of a strip before its end waits and none is in the pixel path; an idle slice
sleeps and a wake cause starts it. -/
def Obligations.ContextService : Prop :=
  (∀ (c : CtxId) (s : State) (cp : CtxPlan), s.fld (ctxCtrlFlushMs c) ≠ 0 → (s.ctx c).num.held ≠ 0 →
    (s.ctx c).num.lastAccept + s.fld (ctxCtrlFlushMs c) * 625000 ≤ s.clock → (s.rebase c).ctxPlan c = some cp → cp.service ≠ 2 →
    exec (.flushTimer c) s = .next (s.rebase c)) ∧
  (∀ (k : SliceId) (c : Nat) (s t : State), (s.slice k).asleep = false → (s.slice k).lost = false →
    s.granuleOwner k (granuleAt s.frameTick) = some c →
    t = s.setSlice k { s.slice k with granule := granuleAt s.frameTick, owner := some c } → t.processing c = true →
    exec (.granuleBoundary k) s = .next (t.takeStrip c)) ∧
  (∀ (k : SliceId) (s : State), (s.slice k).asleep = false → (s.slice k).lost = false →
    s.granuleOwner k (granuleAt s.frameTick) = none →
    exec (.granuleBoundary k) s = .next (s.setSlice k { s.slice k with granule := granuleAt s.frameTick, owner := none })) ∧
  (∀ (c : CtxId) (first : Nat) (s : State), (s.ctx c).num.retired = some first → (s.ctx c).fifo = [] → (s.ctx c).filling = [] →
    (s.ctx c).complete = [] → (s.ctx c).reading = [] → s.inspected c = false →
    exec (.bankCopyDone c) s = .next ((s.setNum c (fun n =>
      { n with retired := none, b0 := n.bank (n.bankNo first), b1 := n.bank (n.bankNo first) })).setFld (ctxStatusBankWritable c) 1)) ∧
  (∀ (k : SliceId) (s : State), (s.slice k).asleep = false → (s.slice k).lost = false →
    (s.slice k).idleSince + 625000 ≤ s.clock → (∀ e ∈ s.sliceCtxs k, s.ctxIdle e.1 = true) →
    exec (.sliceIdleTimeout k) s = .next (((s.setSlice k { s.slice k with asleep := true }).setDomain (13 + k) false).setDomain (17 + k) false)) ∧
  (∀ (k : SliceId) (s : State), (s.slice k).asleep = true → (s.slice k).lost = false →
    exec (.sliceWake k) s = .next (s.sliceUp k))

/-- Lines through the pixel path. The front end takes the next line of a context in service and corrects it, an output
line leaves the geometry stage when it is complete, a band deadline closes a blend whose partner is late, and the
labelling takes the next line of its queue. Only the lines named here move. -/
def Obligations.PixelLines : Prop :=
  (∀ (c : CtxId) (cp : CtxPlan) (p : Plan) (ln : CamLine) (s t u : State), s.ctxPlan c = some cp → s.pln.plan = some p →
    s.processing c = true → s.sliceRuns c cp.slice = true → s.feSource c cp = some (ln, t) → ln.poisoned = false →
    u = t.setSlice cp.slice { t.slice cp.slice with idleSince := t.clock } → u.flatRun c = none →
    exec (.frontEndLine c) s = .next (u.feRun c cp p.scale ln)) ∧
  (∀ (c : CtxId) (cp : CtxPlan) (o : OutLine) (e : Bool) (g : GeoSt) (s : State), s.ctxPlan c = some cp → s.backRuns c cp = true →
    geoEmit cp s.pitchY (s.ctx c).geo = some (o, e, g) →
    exec (.outputLine c) s = .next ((s.setCtx c { s.ctx c with geo := g }).putLine c cp o e)) ∧
  (∀ (c partner : CtxId) (cp : CtxPlan) (b : Band) (s t : State), s.ctxPlan c = some cp → (s.ctx c).geo.waiting ≠ [] →
    b ∈ ownedBands cp → b.partner = partner.val →
    t = s.setCtx c { s.ctx c with geo := { (s.ctx c).geo with gave := partner.val :: (s.ctx c).geo.gave } } →
    exec (.bandDeadline c partner) s = .next (t.flushWaiting c cp ((s.ctx c).geo.waiting.length + 1))) ∧
  (∀ (c : CtxId) (cp : CtxPlan) (o : OutLine) (rest : List OutLine) (s : State), s.ctxPlan c = some cp →
    (s.ctx c).segq = o :: rest → s.inspected c = true → (s.slice cp.slice).asleep = false →
    exec (.labelLine c) s = .next ((s.setCtx c { s.ctx c with segq := rest }).labelOne c cp o))

/-- Overview lines, bunting and pennants. An overview line goes to the ring of the session that has it when there is
room, and is dropped and counted without one; the rate limit marks and fires; a bunting record is taken in order;
gathered pennants are delivered. -/
def Obligations.PennantsAndOverview : Prop :=
  (∀ (l : OvwLine) (rest : List OvwLine) (pl : Plan) (n : Nat) (s t : State), s.ovw.ready = l :: rest → s.pln.plan = some pl →
    s.ovw.limited = false → s.ovwSess = some n → (s.hring n 4).free ≠ 0 →
    s.ringPut n 4 (ovwRecord pl.ovw s.ovw.number (aliveOf (s.hring n 4).prod (s.hring n 4).entries) s.ovw.dropped l) 4 0 = (t, none) →
    exec .overviewLine s = .next (t.ovwWritten pl.ovw l rest)) ∧
  (∀ (l : OvwLine) (rest : List OvwLine) (pl : Plan) (s : State), s.ovw.ready = l :: rest → s.pln.plan = some pl →
    s.ovw.limited = false → s.ovwSess = none →
    exec .overviewLine s = .next (((s.bump ovwCntDroppedF 1).ovwDrop rest).fire 147)) ∧
  (∀ s : State, s.flag ovwStatusRunning = true →
    exec .ovwRateLimit s = .next (({ s with ovw := { s.ovw with limited := true } }).fire 149)) ∧
  (∀ (b : Bunt) (rest : List Bunt) (s : State), s.seam.inq = b :: rest →
    exec .buntingRecord s = .next (({ s with seam := { s.seam with inq := rest } }).buntTake b)) ∧
  (∀ s : State, s.pen.gathered ≠ 0 → exec .pennantWrite s = .next s.penDeliver) ∧
  (∀ s : State, s.pen.gathered = 0 → exec .pennantWrite s = .next s.penGather.penDeliver) ∧
  (∀ s : State, exec .gatherTimeout s = .next s.penGather.penDeliver)

/-- Compression and the look-back ring. An engine that is up takes a context's next line into the ring when it is
carried and skips it when it is not, and the FIFO drains; a table for a dynamic mode that is complete and in time is
queued for two strips later and a late one is counted and fired; the depth and ratio registers take their new values,
with the flag and the source below the plan's minima. -/
def Obligations.LookbackRing : Prop :=
  (∀ (c : CtxId) (cp : CtxPlan) (l : FifoLine) (s t : State), s.ctxPlan c = some cp →
    (s.ctx c).fifo.find? (fun l => !l.engineTook) = some l → s.engineUp cp.engine = true →
    t = s.setCtx c { s.ctx c with fifo := (s.ctx c).fifo.map (fun q => if q.line.abs = l.line.abs then { q with engineTook := true } else q) } →
    exec (.lineCompress c true) s = .next ((t.ringAppend c cp.engine cp l.line).fifoDrain c) ∧
    exec (.lineCompress c false) s = .next ((t.ringSkip c cp.engine l.line).fifoDrain c)) ∧
  (∀ (c : CtxId) (cp : CtxPlan) (strip : Nat) (lens : List (List Nat)) (s : State), s.ctxPlan c = some cp →
    s.flag (cmpTableDynamic c) = true → tableOk lens = true → (∀ t ∈ lens, 0 ∉ t) → (s.coder c).prevIdx = none →
    exec (.tableDelivery c strip lens) s = .next (s.setCoder c { s.coder c with due := (s.coder c).due ++ [(strip + 2, ⟨0, true, lens⟩)] })) ∧
  (∀ (c : CtxId) (cp : CtxPlan) (strip n : Nat) (i : Nat) (lens : List (List Nat)) (s : State), s.ctxPlan c = some cp →
    s.flag (cmpTableDynamic c) = true → tableOk lens = true → (∀ t ∈ lens, 0 ∉ t) → (s.coder c).prevIdx = some (n, i) → strip + 2 ≤ n →
    exec (.tableDelivery c strip lens) s = .next ((s.bump cmpCntTableLateF 1).cmpFire cp.engine 1)) ∧
  (∀ (p : Plan) (c : Nat) (s : State), s.pln.plan = some p → s.liveCtxs = [c] → p.minDepth ≤ s.ctxDepth c →
    exec .depthUpdate s = .next ((s.setFld cmpDepthF (min (s.ctxDepth c) countMax)).setFlag cmpStatusDepthLow false)) ∧
  (∀ (p : Plan) (s : State), s.pln.plan = some p → s.ring.codedBytes ≠ 0 →
    p.minRatio ≤ min (s.ring.rawBytes * 256 / s.ring.codedBytes) 65535 →
    exec .ratioUpdate s = .next (({ s with ring := { s.ring with rawBytes := 0, codedBytes := 0 } }).setFld cmpRatioF
      (min (s.ring.rawBytes * 256 / s.ring.codedBytes) 65535))) ∧
  (∀ (p : Plan) (s : State), s.pln.plan = some p → s.ring.codedBytes ≠ 0 →
    min (s.ring.rawBytes * 256 / s.ring.codedBytes) 65535 < p.minRatio →
    exec .ratioUpdate s = .next (((({ s with ring := { s.ring with rawBytes := 0, codedBytes := 0 } }).setFld cmpRatioF
      (min (s.ring.rawBytes * 256 / s.ring.codedBytes) 65535)).setFld cmpStatusRatioLow 1).cmpFire 0 3))

/-- Units of jobs. A unit of a job that may run does the unit of its kind, where no other running job writes into the
same host memory, and stops as undefined where one does; pre-emption of a running job puts it last in its queue, takes
its checkpoint, counts and fires. -/
def Obligations.JobUnits : Prop :=
  (∀ (i : Nat) (j k : Job) (pl : Plan) (s t : State), s.job i = some j → s.pln.plan = some pl → 4 ≤ j.sess →
    s.jobStart j = some (t, k) → t.jobOverlaps k = false → k.par.kind = .crop → exec (.jobUnit i) s = .next (t.cropUnit k)) ∧
  (∀ (i : Nat) (j k : Job) (s t : State), s.job i = some j → j.par.kind = .check → s.flag (hssSessionResumable j.sess) = false →
    s.jobStart j = some (t, k) → t.jobOverlaps k = false → k.par.kind = .check → exec (.jobUnit i) s = .next (t.checkUnit k)) ∧
  (∀ (i : Nat) (j k : Job) (pl : Plan) (s t : State), s.job i = some j → s.pln.plan = some pl → s.flag (hssSessionResumable j.sess) = false →
    s.jobStart j = some (t, k) → t.jobOverlaps k = false → k.par.kind = .reprocess → exec (.jobUnit i) s = .next (t.reproUnit k)) ∧
  (∀ (i : Nat) (j k : Job) (pl : Plan) (s t : State), s.job i = some j → s.pln.plan = some pl → s.flag (hssSessionResumable j.sess) = false →
    s.jobStart j = some (t, k) → t.jobOverlaps k = true → exec (.jobUnit i) s = .fault (.undefinedBehaviour .jobOverlap)) ∧
  (∀ (i : Nat) (j : Job) (s t : State), s.job i = some j → j.phase = .running →
    t = { s with jobs := s.jobs.filter (fun x => decide (x.id ≠ i)) ++ [{ j with phase := .queued }] } →
    exec (.jobPreempt i) s = .next (((t.checkpoint j).bump jnlCntPreemptF 1).fire 402))

/-- Compiles, go-live and fallbacks. The end of a compile without a defect stores the compiled plan, with one refuses
it; outside a fabric a frame boundary takes a waiting plan live; a compiled fallback becomes ready with its compile
time; a ready fallback of the waiting fault is loaded; a loaded one goes live and ends the fault. -/
def Obligations.PlanAndFallbacks : Prop :=
  (∀ (res : Compiled) (j : PlanJob) (b : List Byte) (s : State), s.pln.compiling = some j → j.bytes = some b → 4 ≤ j.sess →
    s.compileDefect b.length b res (planFromRecs (cutRecs (b.length / 16 + 1) b).1 s.camMosaic res.plan) = none →
    exec (.compileDone res) s = .next (s.compileOk j b res (planFromRecs (cutRecs (b.length / 16 + 1) b).1 s.camMosaic res.plan))) ∧
  (∀ (res : Compiled) (j : PlanJob) (b : List Byte) (st : PlanStatus) (s : State), s.pln.compiling = some j → j.bytes = some b → 4 ≤ j.sess →
    s.compileDefect b.length b res (planFromRecs (cutRecs (b.length / 16 + 1) b).1 s.camMosaic res.plan) = some st →
    exec (.compileDone res) s = .next (s.compileRefused j.sess j.desc st)) ∧
  (∀ s : State, s.fabricMember = false → exec .planGoLive s = .next s.commitLive) ∧
  (∀ (n : Fin 80) (plan pl : Plan) (tenMs : Nat) (s : State), s.pln.plan = some pl →
    exec (.fallbackCompiled n plan tenMs) s = .next ((s.fallbackDone n plan).setFld plnCompileFallback10ms tenMs)) ∧
  (∀ (n : Nat) (s : State), s.pln.fault = some n → s.fallbackReady n = true →
    exec .fallbackLoadDone s = .next { s with pln := { s.pln with loaded := true } }) ∧
  (∀ (n : Nat) (p : Plan) (s t : State), s.pln.fault = some n → s.pln.loaded = true → planEntry s.pln.fallbacks n = some p →
    t = s.fallbackLive n p → t.pln.queued = [] →
    exec .fallbackSwitch s = .next { t with pln := { t.pln with fault := none, loaded := false, queued := [] } })

/-- DRAM service: refresh, retraining, refresh rate and codewords. A channel in service is refreshed; a retraining
within its limits and without errors trims the lanes, any other is counted with ALERT cause 1; the refresh variant
changes when due; a codeword that decodes clean changes nothing, one corrected is counted, a poisoned one ends its use
with ALERT cause 6, an uncorrectable one is counted, ends its use and takes the rank out; a command or address parity
error is counted and takes the rank out; a temperature of at most 78 degrees on every die starts the cool time, after
1 s of which the hot variant ends. -/
def Obligations.MemoryService : Prop :=
  (∀ (m : ChanId) (s : State), s.mcUp m = true →
    exec (.refresh m) s = .next (s.modMc m (fun x => { x with refreshes := x.refreshes + 1 }))) ∧
  (∀ (m : ChanId) (cs : List Int) (s : State), s.inspecting = true → s.mcUp m = true → (∀ c ∈ cs, -2 ≤ c ∧ c ≤ 2) →
    exec (.retrain m cs false) s = .next (s.modMc m (fun x => { x with trimmed := cs.mapIdx (fun i c => intAt x.trimmed i + c) }))) ∧
  (∀ (m : ChanId) (cs : List Int) (s : State), s.inspecting = true → s.mcUp m = true →
    exec (.retrain m cs true) s = .next (((s.modMc m (fun x => { x with retrainDue := true })).bump (mcCntRetrainFailF m) 1).mcAlert m 1)) ∧
  (∀ (b : Bool) (s : State), s.mem.hotDue = some b →
    exec .refreshVariantSwitch s = .next ((({ s with mem := { s.mem with hotDue := none } }).setFlag mcgStatusHot b).setFlag plnStatusHot b)) ∧
  (∀ (m : ChanId) (k : Fin 4) (b : Nat) (w d : List Byte) (u : MemUse) (s : State), s.fld (retiredFld m k) = 0 →
    rsDecode none w = .clean d → exec (.codewordRead m k b w u) s = .next s) ∧
  (∀ (m : ChanId) (k : Fin 4) (b : Nat) (n : List Nat) (w d : List Byte) (u : MemUse) (s : State), s.fld (retiredFld m k) = 0 →
    rsDecode none w = .corrected d n → exec (.codewordRead m k b w u) s = .next (s.correctedWord m k n)) ∧
  (∀ (m : ChanId) (k : Fin 4) (b : Nat) (w : List Byte) (u : MemUse) (s : State), s.fld (retiredFld m k) = 0 →
    rsDecode none w = .poisoned → exec (.codewordRead m k b w u) s = .next ((s.mcAlert m 6).poisonUse u)) ∧
  (∀ (m : ChanId) (k : Fin 4) (b : Nat) (w : List Byte) (u : MemUse) (s : State), s.fld (retiredFld m k) = 0 →
    rsDecode none w = .uncorrectable →
    exec (.codewordRead m k b w u) s = .next (((s.bump (mcCntUncorrectableF m) 1).poisonUse u).rankOut m k)) ∧
  (∀ (m : ChanId) (k : Fin 4) (s : State),
    exec (.commandAddressParity m k) s = .next ((s.bump (mcCntParityF m) 1).rankOut m k)) ∧
  (∀ (dies : List (List Int)) (s t : State), t = dies.zipIdx.foldl (fun s d => s.mcTemp d.2 d.1) s → (∀ x ∈ dies.flatten, x ≤ 78) →
    exec (.dramTemperatureRead dies) s = .next { t with mem := { t.mem with coolSince := some (t.mem.coolSince.getD t.clock) } }) ∧
  (∀ (a : Nat) (s : State), s.mem.coolSince = some a → s.flag mcgStatusHot = true → a + 625000000 ≤ s.clock →
    exec .hotExitTimer s = .next { s with mem := { s.mem with hotDue := some false } })

/-- Migration, training and retired symbols. A burst of a migration is decoded, encoded anew at the spare and counted,
or skipped where its map bit says it was written since; a training within its limits stores the eye and puts the
channel in service; the clear bit clears the retired symbols of a channel. -/
def Obligations.MemoryRanks : Prop :=
  (∀ (m : ChanId) (w d : List Byte) (g : Migration) (s t u : State), (s.mc m).migration = some g → t = (s.takeFree 2).2 →
    t.fld (retiredFld m g.rank) = 0 → rsDecode none w = .clean d →
    u = { t with mem := { t.mem with bursts := tblSet t.mem.bursts [] (burstKey m (t.spareOf m) g.next) (rsEncode d) } } →
    exec (.migrationBurst m w) s = .next (if (s.takeFree 2).1 = 1 then
        t.migrateOn m { g with next := g.next + 1, written := g.next :: g.written }
      else u.migrateOn m { g with next := g.next + 1, copied := g.copied + 1 })) ∧
  (∀ (m : ChanId) (width height : Nat) (vref : Int) (s t : State), s.fld (mcStatusState m) = 1 → trainingOk width vref = true →
    t = ((s.setFld (mcEyeWidth m) width).setFld (mcEyeHeight m) height).setFldInt (mcEyeVrefDev m) vref →
    exec (.dramTrainingDone m width height vref) s = .next (((t.modMc m (fun x =>
      { x with storedVref := x.storedVref + vref, trimmed := [], retrainDue := false, tested := true })).mcService m true).calTrained m width height vref)) ∧
  (∀ (m : ChanId) (width height : Nat) (vref : Int) (s : State), s.fld (mcStatusState m) = 1 → trainingOk width vref = false → s.mode = 1 →
    exec (.dramTrainingDone m width height vref) s = .next ((s.mcService m false).calTrained m width height vref)) ∧
  (∀ (m : ChanId) (v : Word) (s : State), v.getLsbD 12 = true → exec (.retiredClear m v) s = .next (s.retiredClear m))

/-- The journal, replay and catch-up. Entries of the journal become durable; a rebuilt copy clears SINGLE; a replay
with no pennant left clears REPLAYING and ends; a context with less than a strip left to catch up returns to its
camera with the lines that are left, and loses its catch-up bit. -/
def Obligations.JournalCommands : Prop :=
  (∀ (n : Nat) (s : State), exec (.journalDurable n) s = .next (s.jnlDurable n)) ∧
  (∀ s : State, exec .journalRebuildDone s = .next (s.setFld jnlStatusSingle 0)) ∧
  (∀ s : State, s.flag jnlStatusReplaying = true → s.jnl.replayPen = [] →
    exec .replayDone s = .next (s.setFld jnlStatusReplaying 0).replayEnds) ∧
  (∀ (c : CtxId) (pos : Nat) (cp : CtxPlan) (s t : State) (x : CtxSt), s.catchAt c = some pos → s.ctxPlan c = some cp → cp.service ≠ 2 →
    s.ring.lines = [] → 0 < cp.lines → (s.ctx c).num.held = 0 → x = s.ctx c →
    t = { s.setCtx c x with jnl := { s.jnl with catchPos := s.jnl.catchPos.filter (fun e => decide (e.1 ≠ c.val)), matchLeft := s.jnl.matchLeft.filter (fun e => decide (e.1 ≠ c.val)), matchParts := s.jnl.matchParts.filter (fun e => decide (e.1 ≠ c.val)) } } →
    s.jnl.catchPos.filter (fun e => decide (e.1 ≠ c.val)) ≠ [] →
    exec (.catchupReturn c) s = .next (t.setFld ⟨jnlCatchup, c, 1⟩ 0))

/-- RDMA answers and losses of a session. A fence with no write left to its window completes every FENCE of that
window; a fetched block of descriptors is accepted and the fetch ends; an acknowledgement retires the writes it
covers; the seventh time out in a row loses the session, an earlier one sends every outstanding request again; an
invalid request, or 50 ms without a link, loses it; a read response of the length asked is delivered to its reader. -/
def Obligations.RingTraffic : Prop :=
  (∀ (n : SessId) (w d : Nat) (s : State), (s.session n).fences = [(w, d)] → (∀ o ∈ (s.session n).qp.ops, o.win ≠ w) →
    exec (.fenceDone n w) s = .next (((s.setSession n { s.session n with fences := [] }).finishDesc n d 0 []).fire 401)) ∧
  (∀ (n : SessId) (ds : List (List Byte)) (o : RdmaOp) (ops : List RdmaOp) (s t u : State),
    takeOp RdmaOp.fetches (s.session n).qp.ops = some (o, ops) →
    t = (s.setOps n ops).setSession n { (s.setOps n ops).session n with fetching := false } →
    t.acceptAll n (ds.take (o.len / 128)) = .ok u → exec (.descriptorFetch n ds) s = .next (u.fetchEnd n)) ∧
  (∀ (n : SessId) (d : List Byte) (r : Refetch) (s t u : State) (w : State × Option (Nat × Nat)), (s.session n).refetch = some r →
    s.isOpen n = true →
    w = s.hostRead ((s.hring n 0).addr + (s.hring n 0).unit * slotOf (s.hring n 0).cons (s.hring n 0).entries) 128
      (.descriptors (s.hring n 0).cons 1) 7 0 → w.2 = none → t = w.1.setOps n (w.1.session n).qp.ops.dropLast →
    fetchStatus d (s.hring n 0).cons (s.hring n 0).entries = 0 →
    (t.setSession n { t.session n with refetch := none }).acceptAll n [d] = .ok u →
    exec (.descriptorRefetch n d) s = .next (u.fetchEnd n)) ∧
  (∀ (n : SessId) (psn : Nat) (o : RdmaOp) (s : State), (s.session n).qp.ops = [o] → o.read = none → o.psn = psn →
    exec (.rdmaAcknowledgement n psn) s = .next (s.setOps n [])) ∧
  (∀ (n : SessId) (s : State), s.isOpen n = true → (s.session n).qp.ops ≠ [] → 7 ≤ (s.session n).qp.retries →
    exec (.ackTimeout n) s = .next (s.sessLost n)) ∧
  (∀ (n : SessId) (s : State), s.isOpen n = true → (s.session n).qp.ops ≠ [] → (s.session n).qp.retries < 7 →
    exec (.ackTimeout n) s = .next ((s.session n).qp.ops.foldl (fun (s : State) (o : RdmaOp) => s.resendOp n o)
      (s.setSession n { s.session n with qp := { (s.session n).qp with retries := (s.session n).qp.retries + 1 } }))) ∧
  (∀ (n : SessId) (s : State), exec (.invalidRequestNak n) s = .next (s.sessLost n)) ∧
  (∀ (n : SessId) (a : Nat) (s : State), (s.eth (s.fld (hssSessionPort n))).downSince = some a → a + 31250000 ≤ s.clock →
    exec (.sessionNoLink n) s = .next (s.sessLost n)) ∧
  (∀ (n : SessId) (o : RdmaOp) (rest : List RdmaOp) (s : State), (s.session n).qp.ops = o :: rest →
    exec (.remoteAccessError n) s =
      .next (((s.setOps n (rest.filter (fun q => !refusedToo o q))).xfault n o.win o.off 5 o.who).opRefused n o rest)) ∧
  (∀ (n : SessId) (b : List Byte) (o : RdmaOp) (ops : List RdmaOp) (why : ReadFor) (s t : State),
    takeOp (fun o => o.read.isSome && !o.fetches) (s.session n).qp.ops = some (o, ops) → o.read = some why → b.length = o.len →
    (s.setOps n ops).readCame n why b = .ok t → exec (.rdmaReadResponse n b) s = .next t)

/-- Ethernet ports. A present module's link that comes up is shown and fires, and its sessions fetch; its loss drops
it; congestion marks send a CNP at most every 50 µs, a CNP halves the rate down to a floor of 200 and counts, recovery
raises it by 100 up to 2000; PFC frames are counted and held; solicitations and ARP requests for the port's own
addresses are answered, a pause of more than 10 ms fires; bridged frames of the module's VLAN pass to the other port;
inserted and removed modules are shown, a module above 3.5 W stays in low power. -/
def Obligations.EthernetPorts : Prop :=
  (∀ (e : EthId) (s : State), s.flag (hspPortLink e) = false → s.flag (hspPortPresent e) = true → s.fld (hspPortMedia e) ≠ 0 →
    s.mgmtUp = true → ∃ t : State, t = ((s.setFld (hspPortLink e) 1).setEth e { s.eth e with downSince := none }).fire (248 + 8 * e) ∧
      exec (.linkUp e) s = .next ((t.portSessions e).foldl (fun (s : State) (n : Nat) => s.kickFetch n) t)) ∧
  (∀ (e : EthId) (s : State), exec (.linkDown e) s = .next (s.linkFalls e)) ∧
  (∀ (n : SessId) (s : State), s.isOpen n = true → (s.session n).qp.lastCnp = none →
    exec (.ceMarkedPacket n) s = .next ((s.setSession n { s.session n with qp := { (s.session n).qp with lastCnp := some s.clock } }).emit (.cnp n))) ∧
  (∀ (n : SessId) (s : State), s.isOpen n = true → 400 < (s.session n).qp.rate →
    exec (.cnp n) s = .next (((s.setRoceRate n ((s.session n).qp.rate / 2)).bump (hspCntCnpF (s.fld (hssSessionPort n))) 1).fire
      (253 + 8 * s.fld (hssSessionPort n)))) ∧
  (∀ (n : SessId) (s : State), s.isOpen n = true → (s.session n).qp.rate < 2000 →
    exec (.rateRecovery n) s = .next (s.setRoceRate n (min 2000 ((s.session n).qp.rate + 100)))) ∧
  (∀ (e : EthId) (s : State), s.flag (hspPortPfcEn e) = true → s.flag (hspPortLink e) = true →
    exec (.pfcPause e true) s = .next ((s.bump (hspCntPfcReceivedF e) 1).setEth e { s.eth e with pausedAt := some ((s.eth e).pausedAt.getD s.clock) }) ∧
    exec (.pfcPause e false) s = .next (s.setEth e { s.eth e with pausedAt := none })) ∧
  (∀ (e : EthId) (s : State), s.mgmtUp = true → s.flag (hspPortLink e) = true →
    exec (.neighbourSolicitation e (s.linkLocal e)) s = .next (s.emit (.neighbour e (s.linkLocal e) (s.macOf e)))) ∧
  (∀ (e : EthId) (s : State), s.mgmtUp = true → s.flag (hspPortLink e) = true → (s.eth e).inForce.getD 5 0 ≠ 0 →
    exec (.arpRequest e (s.ip4Of e)) s = .next (s.emit (.neighbour e (s.ip4Of e) (s.macOf e)))) ∧
  (∀ (e : EthId) (a : Nat) (s : State), (s.eth e).pausedAt = some a → a + 6250000 < s.clock →
    exec (.pfcLong e) s = .next (s.fire (254 + 8 * e))) ∧
  (∀ (e : EthId) (pcp : Nat) (b : List Byte) (s : State), s.bridging = true → b.take 6 ≠ s.macOf e → s.flag (hspPortLink (1 - e)) = true →
    vlanOf b = s.fld hstNetCtrlVlanId → exec (.bridgedFrame e pcp b) s = .next (s.emit (.frame (1 - e) false b))) ∧
  (∀ (c : Cage) (mw : Nat) (md : Media) (s : State), c.val < 12 → mw ≤ 3500 →
    exec (.qsfpModuleInserted c mw md) s = .next ((s.emit (.cageLow c false)).setFlag (zlpStatusPresent c) true)) ∧
  (∀ (c : Cage) (mw : Nat) (md : Media) (s : State), c.val < 12 → 3500 < mw →
    exec (.qsfpModuleInserted c mw md) s = .next ((s.emit (.cageLow c true)).setFlag (zlpStatusPresent c) false)) ∧
  (∀ (c : Cage) (s : State), c.val < 12 → exec (.qsfpModuleRemoved c) s = .next (s.setFld (zlpStatusPresent c) 0))

/-- Management requests that read and write the setup window. HELLO without a session is answered with status 0 and
its body, and a request of an unused type with status 3; an authenticated READ of a valid range answers the words in
rising order; an authenticated WRITE of a valid range that its session may write stores the words with their side
effects and answers status 0. The accepted sequence and the kept reply are the only other changes. -/
def Obligations.ManagementSetup : Prop :=
  (∀ (f : MgmtFrame) (m : Mgmt) (s : State), Anonymous s f m 1 → m.len = 0 →
    exec (.hello f) s = .next (s.mgmtSend f (replyBytes m 0 (s.helloBody false) none))) ∧
  (∀ (f : MgmtFrame) (m : Mgmt) (k : List Byte) (s : State), Authentic s f m k 1 → m.len = 0 →
    exec (.hello f) s = .next (answered (s.seqAccept m.sess m.seq) f m k 0 ((s.seqAccept m.sess m.seq).helloBody true))) ∧
  (∀ (f : MgmtFrame) (m : Mgmt) (s : State), Anonymous s f m 11 →
    exec (.mgmtUnusedType f) s = .next (s.mgmtSend f (replyBytes m 3 [] none))) ∧
  (∀ (f : MgmtFrame) (m : Mgmt) (k : List Byte) (s u : State) (r : List Byte × State), Authentic s f m k 2 → m.len = 8 →
    regRangeOk m.body = true → u = s.seqAccept m.sess m.seq → r = u.regReads m.sess (beAt m.body 4 2) (beAt m.body 0 4) →
    exec (.read f) s = .next (answered r.2 f m k 0 r.1)) ∧
  (∀ (f : MgmtFrame) (m : Mgmt) (k : List Byte) (ws : List Word) (s t : State), Authentic s f m k 3 →
    m.len = 8 + 4 * beAt m.body 4 2 → regRangeOk m.body = true → writeAllowed m.sess (beAt m.body 0 4) (beAt m.body 4 2) = true →
    ws = (List.range (beAt m.body 4 2)).map (fun i => BitVec.ofNat 32 (beAt m.body (8 + 4 * i) 4)) →
    (s.seqAccept m.sess m.seq).regWrites m.sess (beAt m.body 0 4) ws = .ok t →
    exec (.write f) s = .next (answered (t.writeEnds (beAt m.body 0 4) ws) f m k 0 []))

/-- Sessions and doorbells by request. An authenticated OPEN, CLOSE or RESTART_RINGS does what its session operation
answers, DOORBELL takes its record and answers 0; an RDMA write of 16 bytes at a slot of the doorbell page under its
key is acknowledged and taken; outside that page it receives an invalid-request NAK and the session is lost; a lockout
ends at its time; a request that fails verification is counted and answered by nothing. -/
def Obligations.ManagementSessions : Prop :=
  (∀ (f : MgmtFrame) (m : Mgmt) (k : List Byte) (s : State) (r : Nat × List Byte × State), Authentic s f m k 4 →
    (s.seqAccept m.sess m.seq).sessOpen m.sess m.body = r → exec (.openSession f) s = .next (answered r.2.2 f m k r.1 r.2.1)) ∧
  (∀ (f : MgmtFrame) (m : Mgmt) (k : List Byte) (s : State) (r : Nat × List Byte × State), Authentic s f m k 5 →
    (s.seqAccept m.sess m.seq).sessClose m.sess m.body = r → exec (.closeSession f) s = .next (answered r.2.2 f m k r.1 r.2.1)) ∧
  (∀ (f : MgmtFrame) (m : Mgmt) (k : List Byte) (s : State) (r : Nat × List Byte × State), Authentic s f m k 7 →
    (s.seqAccept m.sess m.seq).sessRestart m.sess m.body = r → exec (.restartRings f) s = .next (answered r.2.2 f m k r.1 r.2.1)) ∧
  (∀ (f : MgmtFrame) (m : Mgmt) (k : List Byte) (s : State), Authentic s f m k 6 → m.len = 16 →
    exec (.doorbell f) s = .next (answered ((s.seqAccept m.sess m.seq).doorbell m.sess none m.body) f m k 0 [])) ∧
  (∀ (n : SessId) (off : Nat) (b : List Byte) (s : State), s.isOpen n = true → off % 16 = 0 → off ≤ 1008 → b.length = 16 →
    exec (.rdmaDoorbell n (s.fld (hrbDbKeyF n)) (s.get64 (hrbDbAddrLo n) + off) b) s =
      .next ((s.emit (.rdmaAck n true)).doorbell n (some (off / 16)) b)) ∧
  (∀ (n : SessId) (key addr : Nat) (b : List Byte) (s : State), s.isOpen n = true → key ≠ s.fld (hrbDbKeyF n) →
    exec (.rdmaDoorbell n key addr b) s = .next ((s.emit (.rdmaAck n false)).sessLost n)) ∧
  (∀ (n : SessId) (a : Nat) (s : State), (s.session n).lockUntil = some a → a ≤ s.clock →
    exec (.authLockoutEnd n) s = .next ((s.setSession n { s.session n with lockUntil := none }).setFld ⟨hstKeys, 4 + n, 1⟩ 0)) ∧
  (∀ (f : MgmtFrame) (m : Mgmt) (k : List Byte) (s : State), m = mgmtOf f.bytes → 16 ≤ f.bytes.length → s.mgmtUp = true →
    bitAt (beAt f.bytes 3 1) 0 = false → m.sess ≤ 3 → m.type = 6 → s.lockedOut m.sess = false → (s.session m.sess).key = some k →
    hmac k m.head ≠ m.mac → exec (.doorbell f) s = .next (s.authFail m.sess))

/-- Keys of the sessions. PROVISION over a direct link on port A sets the key of session 0 on an unprovisioned module;
KEY_SET of session 0 unwraps and sets a key, or, where the wrapped key fails its check, sets nothing and answers
status 8; KEY_CLEAR of session 0 in MIDNIGHT clears the keys of its mask, and every key when that mask has session 0.
-/
def Obligations.ManagementKeys : Prop :=
  (∀ (f : MgmtFrame) (m : Mgmt) (s : State), Anonymous s f m 8 → m.len = 32 → (s.session 0).key = none → s.mode = 3 → f.port = 0 →
    f.hop = 255 → isLinkLocal f.src → exec (.provision f) s = .next ((s.setKey 0 m.body).mgmtSend f (replyBytes m 0 [] none))) ∧
  (∀ (f : MgmtFrame) (m : Mgmt) (k : List Byte) (s : State), Authentic s f m k 9 → m.sess = 0 → m.len = 48 → beAt m.body 0 1 ≤ 3 →
    exec (.keySet f) s = .next (match keyUnwrap (wrapKey k m.seq) (m.body.drop 8) with
      | some q => answered ((s.seqAccept 0 m.seq).setKey (beAt m.body 0 1) q) f m k 0 []
      | none => answered (s.seqAccept 0 m.seq) f m k 8 [])) ∧
  (∀ (f : MgmtFrame) (m : Mgmt) (k : List Byte) (s : State), Authentic s f m k 10 → m.sess = 0 → m.len = 8 → s.mode = 7 →
    beAt m.body 0 1 = 4 → exec (.keyClear f) s = .next (answered ((s.seqAccept 0 m.seq).clearKey 2) f m k 0 [])) ∧
  (∀ (f : MgmtFrame) (m : Mgmt) (k : List Byte) (s : State), Authentic s f m k 10 → m.sess = 0 → m.len = 8 → s.mode = 7 →
    beAt m.body 0 1 = 1 →
    exec (.keyClear f) s = .next (answered (((((s.seqAccept 0 m.seq).clearKey 0).clearKey 1).clearKey 2).clearKey 3) f m k 0 []))

/-- Descriptors on windows, NOP and unused opcodes. A ready NOP completes with status 0; WINDOW_DEFINE of a free
window with sound parameters makes it; MAP_INLINE that passes its checks and revokes nothing in use maps its pages,
and one that revokes pages of a window without a fence is the undefined behaviour of R780; MAP_TABLE reads its table;
FENCE marks the window and waits; RELEASE after a fence frees it; an opcode that the manual does not use completes
with status 3. -/
def Obligations.WindowDescriptors : Prop :=
  (∀ (n : SessId) (idx : Nat) (d : OutDesc) (s : State), Ready s n idx 0x01 modesAll d →
    exec (.nop n idx) s = .next ((s.startDesc n idx).doneDesc n d [])) ∧
  (∀ (n : SessId) (idx : Nat) (d : OutDesc) (s t : State) (w base len f : Nat), Ready s n idx 0x02 modesMNAX d → t = s.startDesc n idx →
    w = d.par 0x10 1 → base = d.par 0x18 8 → len = d.par 0x20 8 → f = d.par 0x11 1 → 1 ≤ w → w ≤ 31 → base % 65536 = 0 →
    len % 65536 = 0 → len ≠ 0 → len ≤ 2 ^ 40 → t.window n w = none → t.pagesUsed + len / 65536 ≤ 2 ^ 24 →
    exec (.windowDefine n idx) s = .next ((t.setWindow n w { base := base, len := len, key := d.par 0x14 4, linear := bitAt f 2, flags := f % 4, pages := [], fenced := false }).doneDesc n d [])) ∧
  (∀ (n : SessId) (idx : Nat) (d : OutDesc) (s t : State) (es : List Nat), Ready s n idx 0x03 modesMNAX d → t = s.startDesc n idx →
    es = pageEntries (d.par 0x11 1) (slice d.bytes 0x18 88) →
    s.mapCheck n (d.par 0x10 1) (d.par 0x14 4) (d.par 0x11 1) 0x11 11 = none →
    t.mapCheck n (d.par 0x10 1) (d.par 0x14 4) (d.par 0x11 1) 0x11 11 = none →
    s.revokes n (d.par 0x10 1) (d.par 0x14 4) es = false →
    exec (.mapInline n idx) s = .next ((t.mapPages n (d.par 0x10 1) (d.par 0x14 4) es).doneDesc n d [])) ∧
  (∀ (n : SessId) (idx : Nat) (d : OutDesc) (s : State), Ready s n idx 0x03 modesMNAX d →
    s.mapCheck n (d.par 0x10 1) (d.par 0x14 4) (d.par 0x11 1) 0x11 11 = none →
    s.revokes n (d.par 0x10 1) (d.par 0x14 4) (pageEntries (d.par 0x11 1) (slice d.bytes 0x18 88)) = true →
    exec (.mapInline n idx) s = .fault (.undefinedBehaviour .revokeUnfenced)) ∧
  (∀ (n : SessId) (idx : Nat) (d : OutDesc) (s t : State), Ready s n idx 0x04 modesMNAX d → t = s.startDesc n idx →
    t.mapCheck n (d.par 0x10 1) (d.par 0x14 4) (d.par 0x18 4) 0x18 (2 ^ 24) = none →
    exec (.mapTable n idx) s = .next (t.loadRead n d 0x20 (8 * d.par 0x18 4) (.pages d.idx))) ∧
  (∀ (n : SessId) (idx : Nat) (d : OutDesc) (v : Window) (s t u : State), Ready s n idx 0x05 modesAll d → t = s.startDesc n idx →
    1 ≤ d.par 0x10 1 → d.par 0x10 1 ≤ 31 → t.window n (d.par 0x10 1) = some v → u = t.setWindow n (d.par 0x10 1) { v with fenced := true } →
    exec (.fence n idx) s = .next (u.setSession n { u.session n with fences := (u.session n).fences ++ [(d.par 0x10 1, d.idx)] })) ∧
  (∀ (n : SessId) (idx : Nat) (d : OutDesc) (v : Window) (s t : State), Ready s n idx 0x06 modesAll d → t = s.startDesc n idx →
    1 ≤ d.par 0x10 1 → d.par 0x10 1 ≤ 31 → t.window n (d.par 0x10 1) = some v → v.fenced = true →
    exec (.release n idx) s = .next ((t.setWindow n (d.par 0x10 1) initWindow).doneDesc n d [])) ∧
  (∀ (n : SessId) (idx : Nat) (d : OutDesc) (s : State), s.startable n idx = some d → d.opcode ∉ usedOpcodes →
    exec (.unusedOpcode n idx) s = .next ((s.startDesc n idx).finishDesc n idx 3 []))

/-- Descriptors on plans. COMPILE with sound parameters reads its recipe and marks a compile under way; COMMIT of the
compiled plan's hash with nothing pending waits for its frame boundary; BANK_UPDATE and SLOT_LOAD with sound
parameters read their records and wait for them. -/
def Obligations.PlanDescriptors : Prop :=
  (∀ (n : SessId) (idx : Nat) (d : OutDesc) (s t w : State), Ready s n idx 0x10 modesMNAX d → t = s.startDesc n idx →
    devHost (d.par 0x10 8) = true → d.par 0x18 4 ≠ 0 → d.par 0x28 4 = 0 → t.pln.compiling = none → tooLong d = false →
    w = t.loadRead n d 0x10 (d.par 0x18 4) (.recipe d.idx) → (w.desc n d.idx).isSome = true →
    exec (.compile n idx) s = .next (({ w with pln := { w.pln with compiling := some ⟨n, d.idx, none, none⟩ } }).setFld plnStatusState 1)) ∧
  (∀ (n : SessId) (idx : Nat) (d : OutDesc) (p : Plan) (s t u : State), Ready s n idx 0x11 [3, 4] d → t = s.startDesc n idx →
    t.pln.compiled = some p → slice d.bytes 0x10 32 = p.hash → t.pln.commit = none → t.pln.fault = none →
    u = { t with pln := { t.pln with commit := some ⟨n, d.idx⟩ } } → u.fabricMember = false →
    exec (.commit n idx) s = .next u) ∧
  (∀ (n : SessId) (idx : Nat) (set : BankSet) (d : OutDesc) (s t w : State), Ready s n idx 0x12 modesMNA d → t = s.startDesc n idx →
    devHost (d.par 0x10 8) = true → d.par 0x18 4 ≠ 0 → tooLong d = false →
    w = t.loadRead n d 0x10 (d.par 0x18 4) (.recipe d.idx) → (w.desc n d.idx).isSome = true →
    exec (.bankUpdate n idx set) s = .next { w with pln := { w.pln with sets := w.pln.sets ++ [⟨n, d.idx, none, some set⟩] } }) ∧
  (∀ (n : SessId) (idx : Nat) (set : BankSet) (d : OutDesc) (s t w : State), Ready s n idx 0x13 modesMNAX d → t = s.startDesc n idx →
    devHost (d.par 0x10 8) = true → d.par 0x18 4 ≠ 0 → d.par 0x1C 1 ≠ 0 → d.par 0x1C 1 ≤ 4 → tooLong d = false →
    w = t.loadRead n d 0x10 (d.par 0x18 4) (.recipe d.idx) → (w.desc n d.idx).isSome = true →
    exec (.slotLoad n idx set) s = .next { w with pln := { w.pln with sets := w.pln.sets ++ [⟨n, d.idx, none, some set⟩] } })

/-- Orders to start, stop, set zero and take a snapshot. A ready START with a live plan, STOP, SET_ZERO and SNAPSHOT
of a form that the manual lists, not global, wait as due operations with their form, time or position; a due operation
then has its effect; a mode change that waits for its stop follows the stop. -/
def Obligations.InspectionDescriptors : Prop :=
  (∀ (n : SessId) (idx : Nat) (d : OutDesc) (p : Plan) (s t : State), Ready s n idx 0x20 modesM d → t = s.startDesc n idx →
    t.pln.plan = some p → d.par 0x10 1 < 2 → bitAt (d.par 0x11 1) 0 = false →
    exec (.start n idx) s = .next (t.queueDue ⟨1, d.par 0x10 1, (d.par 0x18 8 : Int), t.zero, n, d.idx, 0⟩)) ∧
  (∀ (n : SessId) (idx : Nat) (d : OutDesc) (p : Plan) (s t : State), Ready s n idx 0x20 modesM d → t = s.startDesc n idx →
    t.pln.plan = some p → d.par 0x10 1 = 2 → bitAt (d.par 0x11 1) 0 = false →
    exec (.start n idx) s = .next (t.queueDue ⟨1, 2, d.parInt 0x18, t.zero, n, d.idx, 0⟩)) ∧
  (∀ (n : SessId) (idx : Nat) (d : OutDesc) (s t : State), Ready s n idx 0x21 modesNA d → t = s.startDesc n idx →
    d.par 0x10 1 < 2 → bitAt (d.par 0x11 1) 0 = false →
    exec (.stop n idx) s = .next (t.queueDue ⟨2, d.par 0x10 1, (d.par 0x18 8 : Int), t.zero, n, d.idx, 0⟩)) ∧
  (∀ (n : SessId) (idx : Nat) (d : OutDesc) (s t : State), Ready s n idx 0x22 modesMNA d → t = s.startDesc n idx →
    d.par 0x10 1 < 2 → bitAt (d.par 0x11 1) 0 = false →
    exec (.setZero n idx) s = .next (t.queueDue ⟨3, d.par 0x10 1, (d.par 0x18 8 : Int), t.zero, n, d.idx, 0⟩)) ∧
  (∀ (n : SessId) (idx : Nat) (d : OutDesc) (s t : State), Ready s n idx 0x50 modesMNAX d → t = s.startDesc n idx →
    devHost (d.par 0x20 8) = true → d.par 0x10 1 < 2 → bitAt (d.par 0x11 1) 0 = false →
    exec (.snapshot n idx) s = .next (t.queueDue ⟨4, d.par 0x10 1, (d.par 0x18 8 : Int), t.zero, n, d.idx, 0⟩)) ∧
  (∀ (o : DueOp) (s : State), s.dueLocal 1 = some o → exec .inspectionStart s = .next ((s.dropDue o).startEffect o)) ∧
  (∀ (o : DueOp) (s : State), s.dueLocal 2 = some o → s.pln.fault = none → exec .stopEffect s = .next ((s.dropDue o).stopEffect o)) ∧
  (∀ (t : Nat) (s : State), s.dueLocal 2 = none → s.pln.fault = none → s.pwr.afterStop = some t → s.inspecting = true →
    exec .stopEffect s = .next (s.stopThenMode t)) ∧
  (∀ (o : DueOp) (s : State), s.dueLocal 3 = some o → exec .zeroLatch s = .next ((s.dropDue o).zeroEffect o)) ∧
  (∀ (o : DueOp) (s : State), s.dueLocal 4 = some o → exec .snapshotLatch s = .next ((s.dropDue o).snapEffect o))

/-- Descriptors on cameras. SETTINGS without pairs for a linked camera of the plan becomes an APPLY, one with pairs
reads them first; CAMERA_CTRL of a read queues its request, of a write reads its data first. -/
def Obligations.CameraDescriptors : Prop :=
  (∀ (n : SessId) (idx : Nat) (d : OutDesc) (cp : CtxPlan) (s t : State), Ready s n idx 0x28 modesMNA d → t = s.startDesc n idx →
    d.par 0x10 1 < 12 → d.par 0x11 1 = 0 → d.par 0x12 1 = 0 → t.ctxPlan (d.par 0x10 1) = some cp → t.linked (d.par 0x10 1) = true →
    (t.port (d.par 0x10 1)).applies.length < 2 → exec (.settings n idx) s = .next (settingsApply n d [] t)) ∧
  (∀ (n : SessId) (idx : Nat) (d : OutDesc) (cp : CtxPlan) (s t : State) (r : State × Option (Nat × Nat)), Ready s n idx 0x28 modesMNA d →
    t = s.startDesc n idx → d.par 0x10 1 < 12 → 1 ≤ d.par 0x11 1 → d.par 0x11 1 ≤ 32 → d.par 0x12 1 = 0 →
    t.ctxPlan (d.par 0x10 1) = some cp → t.linked (d.par 0x10 1) = true → (t.port (d.par 0x10 1)).applies.length < 2 →
    r = t.hostRead (d.par 0x20 8) (8 * d.par 0x11 1) (.pairs d.idx) 6 0 → r.2 = none → exec (.settings n idx) s = .next r.1) ∧
  (∀ (n : SessId) (idx : Nat) (d : OutDesc) (s t : State) (p w : Nat), Ready s n idx 0x29 modesMNAX d → t = s.startDesc n idx →
    p = d.par 0x10 1 → w = d.par 0x12 2 → p < 12 → d.par 0x11 1 = 1 → 1 ≤ w → w ≤ 64 → t.linked p = true →
    exec (.cameraCtrl n idx) s = .next (t.ctrlAdd p ⟨1, 0, w, ctrlBody 1 0 w (d.par 0x14 4) [], 0, d.par 0x18 8, n, d.idx⟩)) ∧
  (∀ (n : SessId) (idx : Nat) (d : OutDesc) (s t : State) (p w : Nat) (r : State × Option (Nat × Nat)), Ready s n idx 0x29 modesMNAX d →
    t = s.startDesc n idx → p = d.par 0x10 1 → w = d.par 0x12 2 → p < 12 → d.par 0x11 1 = 2 → 1 ≤ w → w ≤ 64 → t.linked p = true →
    r = t.hostRead (d.par 0x18 8) (4 * w) (.ctrlData d.idx) 6 0 → r.2 = none → exec (.cameraCtrl n idx) s = .next r.1)

/-- Descriptors on jobs. EXPORT_JOB and REPROCESS with sound parameters, not blocked, add their job; RESUME of a
suspended reprocess or check job queues it again; CANCEL of a suspended job without an open record drops it and
completes; CHECK_RUN on a free unit starts a check job that shows the unit busy. -/
def Obligations.JobDescriptors : Prop :=
  (∀ (n : SessId) (idx : Nat) (d : OutDesc) (s t : State), Ready s n idx 0x30 modesMNA d → t = s.startDesc n idx →
    jobParamBad d false = none → t.jobBlocked (d.par 0x14 1) = false →
    exec (.exportJob n idx) s = .next (t.addJob { initJob with sess := n, tag := d.tagGen, desc := d.idx, par := jobParams d .crop, out := d.par 0x40 8, outLen := d.par 0x48 8, fresh := false })) ∧
  (∀ (n : SessId) (idx : Nat) (d : OutDesc) (s t : State) (ring : Nat), Ready s n idx 0x31 modesMNA d → t = s.startDesc n idx →
    jobParamBad d true = none → t.jobBlocked (d.par 0x14 1) = false → t.jobs = [] → ring = 8 + d.par 0x4C 1 →
    exec (.reprocess n idx) s = .next ((t.setHring n ring { initHRing with addr := d.par 0x40 8, entries := d.par 0x48 4, unit := 64 }).addJob
      { initJob with sess := n, tag := d.tagGen, desc := d.idx, par := jobParams d .reprocess, ring := ring })) ∧
  (∀ (n : SessId) (idx : Nat) (d : OutDesc) (j : Job) (s t : State), Ready s n idx 0x32 modesMNA d → t = s.startDesc n idx →
    t.jobOf n (d.par 0x10 2) = some j → j.phase = .suspended → j.par.kind ≠ .crop →
    exec (.resume n idx) s = .next (t.setJob { j with desc := d.idx, phase := .queued, units := 0, fault := 0, faultWin := 0, faultOff := 0 })) ∧
  (∀ (n : SessId) (idx : Nat) (d : OutDesc) (j : Job) (s t : State), Ready s n idx 0x33 modesAll d → t = s.startDesc n idx →
    t.jobOf n (d.par 0x10 2) = some j → (recBack j).phase = .suspended → (recBack j).opened = false →
    exec (.cancel n idx) s = .next ((t.dropJob (recBack j).id).doneDesc n d (jobResult (recBack j)))) ∧
  (∀ (n : SessId) (idx : Nat) (d : OutDesc) (s t v : State) (u : Nat), Ready s n idx 0x4A modesMNAX d → t = s.startDesc n idx →
    u = d.par 0x10 1 → u ≤ 7 → devHost (d.par 0x20 8) = true → d.par 0x28 8 ≠ 0 → d.par 0x28 8 ≤ 2 ^ 32 → (t.crc u).job = none →
    t.hostJobs < 256 → bitAt (d.par 0x11 1) 0 = false → v = (t.crcShow u (t.crcParams u).init).setFld (crcStatusBusy u) 1 →
    exec (.checkRun n idx) s = .next ((v.setCrc u { v.crc u with job := some (freeJobId t.jobs) }).addJob
      { initJob with sess := n, tag := d.tagGen, desc := d.idx, par := { initJob.par with kind := .check, unit := u, source := d.par 0x20 8, srcLen := d.par 0x28 8 } }))

/-- Descriptors on marker axes. AXIS_MOVE of an axis that is on, has a plan and no move under way, to a target within
its limits takes the move with the descriptor's or the plan's rates; AXIS_LIMITS with all three above zero takes them
and completes; AXIS_TABLE and SINE_LOAD with sound parameters read their table; AXIS_STOP stops an axis that is in no
fault; COMPARE_ARM takes a free compare unit, its pennant's context a free value (log entry 3). -/
def Obligations.AxisDescriptors : Prop :=
  (∀ (n : SessId) (idx : Nat) (d : OutDesc) (pl : AxisPlan) (s t : State) (x : Nat), Ready s n idx 0x40 modesMNAX d → t = s.startDesc n idx →
    x = d.par 0x10 1 → x < 2 → d.parInt 0x18 = toSigned 40 (ofSigned 40 (d.parInt 0x18)) → d.par 0x20 4 ≤ 4000000 → t.markOwned x = false →
    t.axPlan x = some pl → t.axIs x 1 = true → t.axIs x 0 = false → t.axIs x 3 = false → t.axIs x 4 = false → t.axIs x 5 = false →
    t.outside x (d.parInt 0x18) = false → t.towardSwitch x (t.ax x).p (d.parInt 0x18) = false → (t.ax x).newMove = none → (t.ax x).move = none →
    exec (.axisMove n idx) s = .next (t.setAx x { t.ax x with newMove := some ⟨d.parInt 0x18, if d.par 0x20 4 = 0 then pl.vel else d.par 0x20 4, if d.par 0x24 4 = 0 then pl.acc else d.par 0x24 4, if d.par 0x28 4 = 0 then pl.dec else d.par 0x28 4, n, d.idx, false⟩, move := none })) ∧
  (∀ (n : SessId) (idx : Nat) (d : OutDesc) (s t : State) (x v a c : Nat), Ready s n idx 0x41 modesMNAX d → t = s.startDesc n idx →
    x = d.par 0x10 1 → v = d.par 0x14 4 → a = d.par 0x18 4 → c = d.par 0x1C 4 → x < 2 → v ≠ 0 → v ≤ 4000000 → a ≠ 0 → c ≠ 0 →
    t.markOwned x = false → exec (.axisLimits n idx) s = .next ((t.setAx x { t.ax x with newLims := some (v, a, c) }).doneDesc n d [])) ∧
  (∀ (n : SessId) (idx : Nat) (d : OutDesc) (pl : AxisPlan) (s t : State) (x : Nat), Ready s n idx 0x42 modesMNAX d → t = s.startDesc n idx →
    x = d.par 0x10 1 → x < 2 → d.par 0x11 1 < 2 → d.par 0x12 2 ≠ 0 → d.par 0x12 2 ≤ 1024 → t.markOwned x = false →
    t.axPlan x = some pl → t.axIs x 0 = false → t.axIs x 4 = false → t.axIs x 5 = false → (t.ax x).nextRaw = none →
    exec (.axisTable n idx) s = .next (t.loadRead n d 0x20 (16 * d.par 0x12 2 + 16) (.segments d.idx))) ∧
  (∀ (n : SessId) (idx : Nat) (d : OutDesc) (s t : State) (x : Nat), Ready s n idx 0x43 modesAll d → t = s.startDesc n idx →
    x = d.par 0x10 1 → x < 2 → d.par 0x11 1 < 2 → t.axIs x 5 = false →
    exec (.axisStop n idx) s = .next (t.axStop x (decide (d.par 0x11 1 = 1)) [(n, d.idx, 0)])) ∧
  (∀ (n : SessId) (idx : Nat) (d : OutDesc) (pl : AxisPlan) (s t : State) (x u : Nat), Ready s n idx 0x44 modesMNA d → t = s.startDesc n idx →
    x = d.par 0x10 1 → x < 2 → d.par 0x11 1 < 2 → d.par 0x12 1 < 2 → d.par 0x13 1 < 2 → t.freeUnit x = some u → t.axPlan x = some pl →
    exec (.compareArm n idx) s = .next (((t.takeFree 12).2.setClaim 1 (8 * x + u) (some (ownerOf n))).armCompare x
      ⟨u, decide (d.par 0x11 1 = 0), d.parInt 0x18, decide (d.par 0x12 1 = 1), decide (d.par 0x13 1 = 1), n, d.idx, 0, 0, (t.takeFree 12).1, 0⟩)) ∧
  (∀ (n : SessId) (idx : Nat) (d : OutDesc) (s t : State), Ready s n idx 0x45 modesMX d → t = s.startDesc n idx → d.par 0x10 1 < 2 →
    s.axMoving (d.par 0x10 1) = false → exec (.sineLoad n idx) s = .next (t.loadRead n d 0x18 2056 (.sine d.idx)))

/-- Descriptors on timed outputs, frames, encoders, modes, calibrations and the fabric. TOUT_ARM claims its output and
places its first edge; FRAME_LAUNCH claims its queue and reads its frame; ENCODER_CLEAR clears the run and the
suspicion of its channel; MODE asks for its mode, a fabric's coordinator by a global order; CALIBRATE of the seams in
its modes reports; FABRIC names the coordinator or begins discovery anew. -/
def Obligations.OtherDescriptors : Prop :=
  (∀ (n : SessId) (idx : Nat) (d : OutDesc) (s t u : State) (o e : Nat), Ready s n idx 0x48 modesMNAX d → t = s.startDesc n idx →
    o = d.par 0x10 1 → o < 16 → d.par 0x11 1 = 0 → 10 ≤ d.par 0x24 4 → t.tryClaim 0 o (ownerOf n) = some u →
    e = firstEdge false (d.par 0x18 8) (d.par 0x20 4) u.taiNs →
    exec (.toutArm n idx) s = .next (((u.setTout o { u.tout o with arm := some ⟨false, d.par 0x20 4, d.par 0x24 4, n⟩, next := some e, dues := [] }).toutActive o).doneDesc n d (leBytes 8 e))) ∧
  (∀ (n : SessId) (idx : Nat) (d : OutDesc) (s t u : State), Ready s n idx 0x49 modesMNAX d → t = s.startDesc n idx →
    d.par 0x10 1 < 2 → d.par 0x11 1 < 8 → 64 ≤ d.par 0x12 2 → d.par 0x12 2 ≤ 1518 →
    t.tryClaim 3 (8 * d.par 0x10 1 + d.par 0x11 1) (ownerOf n) = some u → u.launchFits d = none →
    exec (.frameLaunch n idx) s = .next (u.loadRead n d 0x20 (d.par 0x12 2) (.frame d.idx))) ∧
  (∀ (n : SessId) (idx : Nat) (d : OutDesc) (s t : State) (k : Nat), Ready s n idx 0x4B modesMNA d → t = s.startDesc n idx →
    k = d.par 0x10 1 → k < 4 →
    exec (.encoderClear n idx) s = .next (((t.setEnc k { t.enc k with run := 0 }).setFld (encStatusEncoderSuspect k) 0).doneDesc n d [])) ∧
  (∀ (n : SessId) (idx : Nat) (d : OutDesc) (s t : State), Ready s n idx 0x58 modesMNAX d → t = s.startDesc n idx →
    d.par 0x10 1 < 7 → t.pwr.afterStop = none → t.coordinates = false →
    exec (.mode n idx) s = .next (t.modeOrder (d.par 0x10 1) (some (n.val, d.idx)))) ∧
  (∀ (n : SessId) (idx : Nat) (d : OutDesc) (s t : State), Ready s n idx 0x58 modesMNAX d → t = s.startDesc n idx →
    (d.par 0x10 1 = 5 ∨ d.par 0x10 1 = 6) → t.pwr.afterStop = none → t.coordinates = true → t.fabricMember = true →
    exec (.mode n idx) s = .next (t.issueOrder (d.par 0x10 1 + 1) 0 0 0 [] n d.idx)) ∧
  (∀ (n : SessId) (idx : Nat) (d : OutDesc) (s t : State) (c : Nat), Ready s n idx 0x59 modesMNAX d → t = s.startDesc n idx →
    d.par 0x10 1 = 3 → c = d.par 0x11 1 → (calModes 3).contains t.mode = true → t.calTarget 3 c = true → t.calRun 3 c = none → t.calRun 4 c = none →
    exec (.calibrate n idx) s = .next (t.calSeamReport n d c)) ∧
  (∀ (n : SessId) (idx : Nat) (d : OutDesc) (s t u : State), Ready s n idx 0x60 modesMX d → t = s.startDesc n idx → d.par 0x10 1 = 0 →
    s.orderStands = false → u = { t with fab := { t.fab with named := some (d.par 0x18 8) } } → u.coordinates = false →
    exec (.fabric n idx) s = .next (u.doneDesc n d u.fabResult)) ∧
  (∀ (n : SessId) (idx : Nat) (d : OutDesc) (s t u : State), Ready s n idx 0x60 modesMX d → t = s.startDesc n idx → d.par 0x10 1 = 1 →
    t.flag fabCtrlEnable = true → u = t.fabDiscover → exec (.fabric n idx) s = .next (u.doneDesc n d u.fabResult))

/-- PTP messages of the master. A two-step Sync of the master is held until its Follow_Up, a one-step Sync and the
Follow_Up of the held Sync end the measurement; a Delay_Resp or a peer-delay response to the module's outstanding
request gives the link delay, rounded to the nearest; a peer-delay request is answered by its response and follow-up;
an Announce replaces its source's entry and the master is chosen again, as it is when the master falls silent. -/
def Obligations.PtpSlave : Prop :=
  (∀ (e : EthId) (m : PtpMsg) (s : State), s.fromMaster e m.src = true → m.twoStep = true →
    exec (.sync e m) s = .next (s.setPtp e { s.ptp e with sync := some ⟨m.src, m.seq, s.taiFine m.sub.val, m.corr + s.asym e⟩ })) ∧
  (∀ (e : EthId) (m : PtpMsg) (s : State), s.fromMaster e m.src = true → m.twoStep = false →
    exec (.sync e m) s = .next (s.syncDone e m.origin (s.taiFine m.sub.val) (m.corr + s.asym e))) ∧
  (∀ (e : EthId) (m : PtpMsg) (r : SyncRx) (s : State), s.fromMaster e m.src = true → (s.ptp e).sync = some r → r.src = m.src → r.seq = m.seq →
    exec (.followUp e m) s = .next (s.syncDone e m.origin r.arrival (r.corr + m.corr))) ∧
  (∀ (e : EthId) (m : PtpMsg) (t3 t1 t2 : Int) (s : State), s.fromMaster e m.src = true → s.flag timCtrlP2p = false →
    m.seq = (s.ptp e).reqSeq → m.req = s.portIdentity e → (s.ptp e).reqTime = some t3 → (s.ptp e).lastSync = some (t1, t2) →
    exec (.delayResp e m) s = .next (s.setPtp e { s.ptp e with delay := rnd ((t2 - t1) + (m.origin - t3 - m.corr)) 1, reqTime := none })) ∧
  (∀ (e : EthId) (m : PtpMsg) (s : State), s.ptpOn = true → s.flag timCtrlP2p = true →
    exec (.pdelay e .req m) s = .next (s.emits [.ptp e 3 [m.seq, m.src, s.taiFine m.sub.val, m.corr], .ptp e 10 [m.seq, m.src, s.taiFine 0, 0]])) ∧
  (∀ (e : EthId) (m : PtpMsg) (t1 : Int) (s : State), s.ptpOn = true → s.flag timCtrlP2p = true → m.seq = (s.ptp e).reqSeq →
    m.req = s.portIdentity e → (s.ptp e).reqTime = some t1 → m.twoStep = false →
    exec (.pdelay e .resp m) s = .next (s.setPtp e { s.ptp e with delay := rnd (s.taiFine m.sub.val - t1 - (m.corr + s.asym e)) 1, reqTime := none })) ∧
  (∀ (e : EthId) (m : PtpMsg) (t1 t2 t4 c : Int) (s : State), s.ptpOn = true → s.flag timCtrlP2p = true → m.seq = (s.ptp e).reqSeq →
    m.req = s.portIdentity e → (s.ptp e).reqTime = some t1 → (s.ptp e).respTime = some (t4, t2, c) →
    exec (.pdelay e .respFollowUp m) s = .next (s.setPtp e { s.ptp e with delay := rnd ((t4 - t1) - (m.origin - t2) - c - m.corr) 1, reqTime := none, respTime := none })) ∧
  (∀ (e : EthId) (m : AnnMsg) (s : State), s.ptpOn = true →
    exec (.announce e m) s = .next (({ s with tim := { s.tim with foreign := s.tim.foreign.filter (fun (x : Nat × AnnMsg) => decide (x.2.src ≠ m.src)) ++ [(e.val, m)] } }).selectMaster)) ∧
  (∀ (a : AnnMsg) (s : State), s.tim.master = some a →
    exec .announceTimeout s = .next (({ s with tim := { s.tim with foreign := s.tim.foreign.filter (fun (x : Nat × AnnMsg) => decide (x.2.src ≠ a.src)), master := none } }).selectMaster)) ∧
  (∀ s : State, exec .syncTimeout s = .next s.syncTimeout)

/-- PTP messages that the module sends or forwards. A master sends Sync, in one step with its time or in two, Announce
with its data set, and Delay_Resp; a slave port sends its delay request; a transparent clock adds the residence time
to the correction of a passing message; a port with transparent clock and one step together is the undefined behaviour
of R780. -/
def Obligations.PtpMaster : Prop :=
  (∀ (e : EthId) (s : State), s.flag (timPortOneStep e) = true → s.flag (timPortTcEn e) = false → s.isMaster = true →
    exec (.syncInterval e) s = .next ((s.setPtp e { s.ptp e with syncSeq := ((s.ptp e).syncSeq + 1) % 65536 }).emit
      (.ptp e 0 [(((s.ptp e).syncSeq + 1) % 65536 : Nat), s.taiFine 0 / 65536, s.taiFine 0 % 65536]))) ∧
  (∀ (e : EthId) (s : State), s.flag (timPortOneStep e) = false → s.isMaster = true →
    exec (.syncInterval e) s = .next ((s.setPtp e { s.ptp e with syncSeq := ((s.ptp e).syncSeq + 1) % 65536 }).emits
      [.ptp e 0 [(((s.ptp e).syncSeq + 1) % 65536 : Nat), 0, 0],
       .ptp e 8 [(((s.ptp e).syncSeq + 1) % 65536 : Nat), s.taiFine 0 / 65536, s.taiFine 0 % 65536]])) ∧
  (∀ (e : EthId) (s : State), s.flag (timPortOneStep e) = true → s.flag (timPortTcEn e) = true →
    exec (.syncInterval e) s = .fault (.undefinedBehaviour .tcOneStep)) ∧
  (∀ (e : EthId) (m : PtpMsg) (dwell : Nat) (s : State), s.flag (timPortOneStep 0) = false → s.flag (timPortOneStep 1) = false →
    s.ptpOn = true → s.transitOn = true → s.flag timCtrlP2p = false →
    exec (.ptpTransit e m .delayReq dwell) s = .next (s.emit (.ptp (1 - e.val) 1 [m.seq, m.src, m.origin, m.corr + dwell]))) ∧
  (∀ (e : EthId) (m : PtpMsg) (dwell : Nat) (s : State), s.flag (timPortOneStep 0) = false → s.flag (timPortOneStep 1) = false →
    s.ptpOn = true → s.transitOn = true → s.flag timCtrlP2p = false → m.twoStep = false →
    exec (.ptpTransit e m .sync dwell) s = .next (s.emit (.ptp (1 - e.val) 0 [m.seq, m.src, m.origin, m.corr + dwell]))) ∧
  (∀ (e : EthId) (m : PtpMsg) (s : State), s.isMaster = true → s.flag timCtrlP2p = false →
    exec (.delayReq e m) s = .next (s.emit (.ptp e 9 [m.seq, m.src, s.taiFine m.sub.val, m.corr]))) ∧
  (∀ (e : EthId) (s : State), s.ptpOn = true → s.flag timCtrlP2p = true →
    exec (.delayReqInterval e) s = .next ((s.setPtp e { s.ptp e with reqSeq := ((s.ptp e).reqSeq + 1) % 65536, reqTime := some (s.taiFine 0), respTime := none }).emit (.ptp e 2 [(((s.ptp e).reqSeq + 1) % 65536 : Nat), s.portIdentity e, -s.asym e]))) ∧
  (∀ (e : EthId) (s : State), s.isMaster = true →
    exec (.announceInterval e) s = .next ((s.setPtp e { s.ptp e with annSeq := ((s.ptp e).annSeq + 1) % 65536 }).emit
      (.ptp e 11 ((((s.ptp e).annSeq + 1) % 65536 : Nat) :: (annRank s.ownAnn).map (fun (v : Nat) => (v : Int))))))

/-- Timed outputs, timed frames and the second. A timed output whose edge is due rises, and a periodic arm places its
next edge one period later; its pulse ends when its time has come; a queue's front frame leaves at its time when no
queue of a higher priority is due; the always-on trim is stored while LOCKED; each new TAI second fires SECOND once.
-/
def Obligations.TimedActions : Prop :=
  (∀ (t : ToutId) (n : Nat) (a : ToutArm) (s : State), (s.tout t).next = some n → n ≤ s.taiNs → (s.tout t).arm = some a → a.periodic = true →
    a.period ≠ 0 → exec (.toutEdge t) s = .next ((s.setTout t { s.tout t with next := some (n + a.period) }).toutRise t n)) ∧
  (∀ (t : ToutId) (n : Nat) (a : ToutArm) (s : State), (s.tout t).next = some n → n ≤ s.taiNs → (s.tout t).arm = some a → a.periodic = false →
    exec (.toutEdge t) s = .next ((s.setTout t { s.tout t with next := none }).toutRise t n)) ∧
  (∀ (t : ToutId) (e : Nat) (s : State), (s.tout t).high = some e → e ≤ s.taiNs → (s.tout t).arm = none → (s.tout t).overload = true →
    exec (.toutPulseEnd t) s = .next (((s.setTout t { s.tout t with high := none, arm := none, overload := false }).emit
      (.tout t (s.toutLevel t false) e)).toutActive t)) ∧
  (∀ (e : EthId) (q : Fin 8) (l : Launch) (rest : List Launch) (s t u : State), s.queue e q = l :: rest → l.time ≤ s.taiNs →
    (List.range q.val).any (fun k => s.queueDueAt e k) = false → (max s.taiNs (s.eth e).wireUntil) ≤ l.time + 4 → 4 ≤ l.sess →
    t = (s.setQueue e q rest).setEth e { s.eth e with wireUntil := (max s.taiNs (s.eth e).wireUntil) + wireNs l.bytes.length } →
    u = t.launchOut e l false → exec (.frameLaunchTime e q) s = .next (u.fire 286)) ∧
  (∀ (trim : Int) (s : State), s.fld timStatusServo = 2 →
    exec (.aoTrimMeasure trim) s = .next (({ s with tim := { s.tim with aoTrim := trim }, pwr := { s.pwr with flash := { s.pwr.flash with aoTrim := trim } } }).setFldInt timAoTrimF trim)) ∧
  (∀ s : State, s.tim.second < s.taiNs / 1000000000 →
    exec .taiSecond s = .next (({ s with tim := { s.tim with second := s.taiNs / 1000000000 } }).fire 285))

/-- Discovery, the coordinator and addresses of the fabric. A running fabric engine sends an ensign per interval and
hears one of another module, its own tells of a ring; the candidate that is itself takes the role; a coordinator
assigns sound addresses; an ASSIGN is taken once and acknowledged; a neighbour or module that falls silent is gone; a
ring that has cleared clears its flag. -/
def Obligations.FabricDiscovery : Prop :=
  (∀ s t : State, s.fabOn = true →
    t = ({ s with fab := { s.fab with ensignSeq := (s.fab.ensignSeq + 1) % 2 ^ 32 } }).countModules →
    t.flag (hspPortLink 0) = true → t.flag (hspPortLink 1) = false → exec .ensignInterval s = .next (t.emit (.ensign 0 t.ensignBytes))) ∧
  (∀ (e : EthId) (b : List Byte) (s : State), s.fabOn = true → ensignOk b = true → beAt b 8 8 = s.serial →
    exec (.ensign e b) s = .next s.ringFound) ∧
  (∀ (e : EthId) (b : List Byte) (s : State), s.fabOn = true → ensignOk b = true → beAt b 8 8 ≠ s.serial →
    s.fab.seen.contains (beAt b 8 8, beAt b 4 4) = false → exec (.ensign e b) s = .next ((s.ensignHeard e b).ensignForward e b)) ∧
  (∀ s : State, s.fabOn = true → s.candidate = s.serial → s.coordinates = false → exec .coordinatorSettle s = .next s.takeRole) ∧
  (∀ (f : Rec) (s : State), s.fabOn = true → s.coordinates = true → s.fld fabStatusState = 1 → s.fabSpans.length = s.livePeers.length + 1 →
    fabDefect s.fabRecs s.fabSpans s.fabChans.1 = none → s.fabRec = some f →
    exec .addressAssignment s = .next (s.fabChans.2.assignAll s.fabRecs s.fabSpans
      (seamWidth s.fabChans.1 (lineRateOf s.fabRecs).1 (lineRateOf s.fabRecs).2 (f.nat 0x28)))) ∧
  (∀ (st : PlanStatus) (s : State), s.fabOn = true → s.coordinates = true → s.fld fabStatusState = 1 →
    s.fabSpans.length = s.livePeers.length + 1 → fabDefect s.fabRecs s.fabSpans s.fabChans.1 = some st →
    exec .addressAssignment s = .next (s.fabChans.2.fabRefused st)) ∧
  (∀ (e : EthId) (h : FabHead) (b : AssignBody) (s t u v : State), s.fabOn = true → h.crcOk = true → s.coordinates = false → b.addr < 32 →
    s.fld fabStatusState = 1 → s.fld fabStatusAddress = 63 → t = (s.fabDiscover.takeAddress b).setFld fabStatusState 2 →
    u = { t with fab := { t.fab with members := [⟨h.src, t.get64 fabCoordLo, 0, true⟩, ⟨b.addr, t.serial, 0, true⟩], peers := t.fab.peers.map (fun (p : Peer) => if p.serial = t.get64 fabCoordLo then { p with addr := h.src } else p) } } →
    v = (u.fabTook h.src 0x01 h.seq).mismatchCheck → v.fab.hash = [] →
    exec (.assign e h b) s = .next (v.fabReply h.src 0x02 h.seq [])) ∧
  (∀ (e : EthId) (b : List Byte) (m : FabMsg) (o : FabOut) (s t u : State), s.fabFor b 0x02 = some (m, t) →
    t.fabOutOf m.head.src 0x01 m.head.ref = some o → u = t.fabDone o →
    exec (.assignAck e b) s = .next ({ u with fab := { u.fab with members := u.fab.members.map (fun (x : Member) => if x.addr = m.head.src then { x with acked := true } else x) } }).assignedCheck) ∧
  (∀ (a : Fin 32) (s : State), s.fabOn = true → s.fld fabStatusAddress < 32 → exec (.neighbourLost a) s = .next (s.neighbourGone a)) ∧
  (∀ (serial : Nat) (s t : State), s.fabOn = true → s.livePeers.any (fun p => decide (p.serial = serial)) = true → t = s.peerGone serial →
    t.get64 fabCoordLo ≠ serial → exec (.ensignAbsence serial) s = .next t) ∧
  (∀ s : State, exec .ringClear s = .next (s.setFld fabStatusRingDetected 0))

/-- Messages between modules. Bunting in sequence is acknowledged and queued, an acknowledgement retires what it
covers, a new seam strip and heartbeat are noted, PLAN_READY of a member is noted by the coordinator, a new part of a
snapshot is acknowledged, a chain module passes a message for another with one hop less and counts it, an unanswered
message is sent again and counted, and a heartbeat goes to a neighbour. -/
def Obligations.FabricMessages : Prop :=
  (∀ (e : EthId) (b : List Byte) (m : FabMsg) (s t u : State), s.fabFor b 0x20 = some (m, t) → t.seamAway m.head.src = false →
    m.head.seq = fabNext (tblGet t.fab.got 0 (fabKey m.head.src 0x20)) →
    u = (t.fabPassed m.head.src 0x20 m.head.seq).fabReply m.head.src 0x21 m.head.seq [] →
    exec (.bunting e b) s = .next { u with seam := { u.seam with inq := u.seam.inq ++ buntsOf 127 m.body } }) ∧
  (∀ (e : EthId) (b : List Byte) (m : FabMsg) (s t : State), s.fabFor b 0x21 = some (m, t) → (t.fabOutOf m.head.src 0x20 m.head.ref).isSome = true →
    exec (.buntingAck e b) s = .next { t with fab := { t.fab with outs := t.fab.outs.filter (fun o => !(decide (o.dest = m.head.src ∧ o.type = 0x20) && !seqAfter o.seq m.head.ref)) } }) ∧
  (∀ (e : EthId) (b : List Byte) (m : FabMsg) (s t u : State) (d : SeamData), s.fabFor b 0x22 = some (m, t) → t.seamAway m.head.src = false →
    t.fabSeen m.head.src 0x22 m.head.seq = false →
    u = (t.bump fabCntStripLostF ((m.head.seq + (2 ^ 32 - 1) - fabNext (tblGet t.fab.got 0 (fabKey m.head.src 0x22))) % (2 ^ 32 - 1))).fabPassed m.head.src 0x22 m.head.seq →
    u.fab.strips = [] →
    d = { side := if m.head.src + 1 = u.selfAddr then 0 else 1, first := toSigned 64 (beAt m.body 0 8), lines := beAt m.body 0x12 1, bytes := m.body } →
    exec (.seamStrip e b) s = .next { u with fab := { u.fab with strips := [d] } }) ∧
  (∀ (e : EthId) (b : List Byte) (m : FabMsg) (s t u : State), s.fabFor b 0x30 = some (m, t) → t.fabSeen m.head.src 0x30 m.head.seq = false →
    t.coordinates = true → u = t.fabPassed m.head.src 0x30 m.head.seq →
    exec (.planReady e b) s = .next ({ u with fab := { u.fab with ready := (m.head.src, m.body) :: u.fab.ready.filter (fun e => decide (e.1 ≠ m.head.src)) } }).readyCheck) ∧
  (∀ (e : EthId) (b : List Byte) (m : FabMsg) (s t u : State), s.fabFor b 0x40 = some (m, t) → m.body ≠ [] →
    t.fabSeen m.head.src 0x40 m.head.seq = false → u = (t.fabTook m.head.src 0x40 m.head.seq).fabReply m.head.src 0x40 m.head.seq [] →
    u.coordinates = false → exec (.snapshotData e b) s = .next u) ∧
  (∀ (e : EthId) (b : List Byte) (m : FabMsg) (s t : State), s.fabFor b 0x41 = some (m, t) → t.fabSeen m.head.src 0x41 m.head.seq = false →
    exec (.heartbeat e b) s = .next (t.fabPassed m.head.src 0x41 m.head.seq)) ∧
  (∀ (e : EthId) (b : List Byte) (m : FabMsg) (s : State), m = fabOf b → s.bridging = true → m.head.crcOk = true → m.head.dest ≠ s.selfAddr →
    m.head.hops ≠ 0 → exec (.fabricMessageForward e b) s = .next ((s.emit (.fabric (1 - e) (fabBytes m.type m.head.src m.head.dest
      (m.head.hops - 1) m.head.flags m.head.seq m.head.ref m.body))).bump fabCntForwardedF 1)) ∧
  (∀ (dest : Fin 32) (ty seq : Nat) (o : FabOut) (s : State), s.fabOutOf dest ty seq = some o → s.fabOn = true → ty ≠ 0x10 →
    exec (.fabricRetransmit dest ty seq) s = .next ((s.fabEmit dest ty 1 seq 0 o.body).bump fabCntRetransmitF 1)) ∧
  (∀ (dest : Fin 32) (s : State), s.fabOn = true → s.fld fabStatusAddress < 32 → s.isNeighbour dest = true →
    exec (.heartbeatInterval dest) s = .next (s.fabSend dest 0x41 0 []))

/-- Global orders. A new ORDER in time that is no plan switch waits and is acknowledged with status 0; a late one is
counted and acknowledged with status 1 and the module's time; an ORDER_ACK of an open order takes its sender off, with
its source on a late or refused status; a ripe global operation has its effect; an order without every acknowledgement
after 1 ms fires and ends with status 6. -/
def Obligations.FabricOrders : Prop :=
  (∀ (e : EthId) (b : List Byte) (m : FabMsg) (o : DueOp) (s t u : State), s.fabFor b 0x10 = some (m, t) →
    t.fabSeen m.head.src 0x10 m.head.seq = false → u = t.fabTook m.head.src 0x10 m.head.seq → o = orderOf m.head.seq u.zero m.body →
    o.kind ≠ 5 → t.taiNs ≤ beAt m.body 8 8 →
    exec (.order e b) s = .next ((u.queueDue o).orderAnswer m.head.src m.head.seq 0 (beAt m.body 8 8))) ∧
  (∀ (e : EthId) (b : List Byte) (m : FabMsg) (o : DueOp) (s t u : State), s.fabFor b 0x10 = some (m, t) →
    t.fabSeen m.head.src 0x10 m.head.seq = false → u = t.fabTook m.head.src 0x10 m.head.seq → o = orderOf m.head.seq u.zero m.body →
    o.kind ≠ 5 → o.form ≠ 2 → beAt m.body 8 8 < t.taiNs →
    exec (.order e b) s = .next (((u.bump fabCntLateOrderF 1).orderAnswer m.head.src m.head.seq 1 u.taiNs).globalEffect o)) ∧
  (∀ (e : EthId) (b : List Byte) (m : FabMsg) (g : GlobalOp) (s t : State), s.fabFor b 0x11 = some (m, t) →
    t.fab.orders.find? (fun g => decide (g.seq = m.head.ref) && g.waiting.contains m.head.src) = some g → beAt m.body 0 1 = 0 →
    exec (.orderAck e b) s = .next (t.orderAcked g m.head.src)) ∧
  (∀ (o : DueOp) (s : State), (s.pln.due.filter (fun o => decide (o.seq ≠ 0) && s.ripe o)).foldl firstOrder none = some o →
    exec .globalOperation s = .next ((s.dropDue o).globalEffect o)) ∧
  (∀ (g : GlobalOp) (s t : State), s.fab.orders.find? (fun g => decide (g.time + 1000000 ≤ s.taiNs) && !g.waiting.isEmpty) = some g → g.sess < 4 →
    t = { s with fab := { s.fab with orders := s.fab.orders.filter (fun q => decide (q.seq ≠ g.seq)), outs := s.fab.outs.filter (fun o => !decide (o.type = 0x10 ∧ o.seq = g.seq)) } } →
    exec .orderAckDeadline s = .next ((t.fire 294).finishDesc g.sess g.desc 6 []))

/-- Web encoders. A valid step of a channel in a mode in which the main counter runs sets the direction and counts by
the channel's sign; an edge that changes nothing only takes the levels; an index pulse of a quadrature channel latches
its count, ends requalification and fires; a read of the extension re-bases the position without changing it; a speed
window stores count × 10^6 / window, truncated and saturated; requalification ends without an index; the handover
compares the counters. -/
def Obligations.EncoderCommands : Prop :=
  (∀ (k : EncId) (a b z : Bool) (d : Int) (s t : State), encDecode (s.fld (encCtrlMode k)) (s.enc k) a b z = .step d →
    t = s.setEnc k ((s.enc k).take a b z) → t.mainCounts = true → t.aoCounts k = false →
    exec (.encoderEdge k a b z) s = .next ((t.encDirection k (d * t.encSign k)).encCount k (d * t.encSign k))) ∧
  (∀ (k : EncId) (a b z : Bool) (s : State), encDecode (s.fld (encCtrlMode k)) (s.enc k) a b z = .none →
    exec (.encoderEdge k a b z) s = .next (s.setEnc k ((s.enc k).take a b z))) ∧
  (∀ (k : EncId) (a b z : Bool) (s : State), encDecode (s.fld (encCtrlMode k)) (s.enc k) a b z = .invalid →
    exec (.encoderEdge k a b z) s = .next ((s.setEnc k ((s.enc k).take a b z)).encInvalid k)) ∧
  (∀ (k : EncId) (s t : State), s.fld (encCtrlMode k) = 1 → s.mainCounts = true → t = s.fire (296 + 6 * k) → (t.enc k).index = none →
    exec (.indexPulse k) s = .next ((((t.setEnc k { t.enc k with index := some (t.fld (encCountF k)) }).setFld (encIndexPosF k)
      (t.fld (encCountF k))).setFld (encStatusRequalifying k) 0).redConfirm k)) ∧
  (∀ (k : EncId) (s : State), s.fld (encCtrlMode k) ≠ 0 →
    exec (.extensionRead k) s = .next ((s.setEnc k { s.enc k with base := s.encPos k, rawBase := s.fld (encCountF k) }).setInt64 (encPosLo k) (s.encPos k))) ∧
  (∀ (k : EncId) (s : State), s.fld (encWindowF k) ≠ 0 →
    exec (.speedWindow k) s = .next ((s.setFldInt (encSpeedF k) (satS 32 (Int.tdiv ((s.enc k).window * 1000000) (s.fld (encWindowF k))))).setEnc k { s.enc k with window := 0 })) ∧
  (∀ (k : EncId) (s : State), s.fld (encCtrlMode k) = 2 → exec (.requalificationEnd k) s = .next (s.setFld (encStatusRequalifying k) 0)) ∧
  (∀ (k : EncId) (s : State), (s.enc k).handover = true → s.encPos k = (s.enc k).ao →
    exec (.handoverCompare k) s = .next ((s.setEnc k { s.enc k with handover := false, index := none }).setFld (encStatusRequalifying k) 1)) ∧
  (∀ (k : EncId) (s t : State), (s.enc k).handover = true → s.encPos k ≠ (s.enc k).ao → t = s.encSuspect k →
    exec (.handoverCompare k) s = .next ((t.setEnc k { t.enc k with handover := false, index := none }).setFld (encStatusRequalifying k) 1))

/-- Marker axes. A motion tick takes a new move when the coils need nothing else, and serves the marks; a step
evaluation advances a moving axis and drives its coils; a still axis goes to hold current after 100 ms; the chopper
offset moves by a quarter of the current error within ±50; a limit switch that the axis does not move toward only sets
its bit and fires, one that it moves toward stops the axis; a fault of an axis that is on stops it; an overload drops
the marker output; a released switch clears its bit. -/
def Obligations.AxisCommands : Prop :=
  (∀ (x : AxisId) (m : AxisMove) (s t : State), (s.ax x).newSine = none → (s.ax x).limitDue = none → (s.ax x).newMove = some m →
    (s.ax x).newLims = none → t = (s.setAx x { s.ax x with newMove := none }).replan x m false → (t.ax x).nextRaw = none →
    exec (.motionTick x) s = .next (t.serveMarks x 257)) ∧
  (∀ (x : AxisId) (s : State), (s.ax x).newSine = none → (s.ax x).limitDue = none → (s.ax x).newMove = none →
    (s.ax x).newLims = none → (s.ax x).nextRaw = none → exec (.motionTick x) s = .next (s.serveMarks x 257)) ∧
  (∀ (x : AxisId) (s : State), (s.ax x).segs ≠ [] →
    exec (.stepEvaluation x) s = .next ((s.stepAxis x ((s.ax x).segs.length + 1)).axCoils x)) ∧
  (∀ (x : AxisId) (s : State), s.axIs x 1 = true → s.flag (axStatusHold x) = false → (s.ax x).endedAt + 100000000 ≤ s.taiNs →
    exec (.holdCurrentTimer x) s = .next ((s.setFld (axStatusHold x) 1).axCoils x)) ∧
  (∀ (x : AxisId) (mean o : Int) (s t : State), o = s.fldInt (axChopOffsetOffsetA x) + rdiv (s.phaseRef x false - mean) 4 → o.natAbs ≤ 50 →
    t = (s.setAx x { s.ax x with residA := (s.phaseRef x false - mean).natAbs }).setFld (axChopOffsetResidual x) (satU 8 (s.phaseRef x false - mean).natAbs) →
    exec (.chopperOffsetUpdate x false mean) s = .next (t.setFldInt (axChopOffsetOffsetA x) o)) ∧
  (∀ (x : AxisId) (s : State), (s.ax x).v ≤ 0 →
    exec (.limitSwitch x true) s = .next ((s.setFld (axStatusHighActive x) 1).fire (320 + 10 * x + 6))) ∧
  (∀ (x : AxisId) (s t : State), 0 < (s.ax x).v → t = (s.setFld (axStatusHighActive x) 1).fire (320 + 10 * x + 6) →
    exec (.limitSwitch x true) s = .next (t.axStop x (t.flag (axCtrlHighRamped x)) [])) ∧
  (∀ (x : AxisId) (c : Fin 8) (s : State), c.val ≠ 0 → c.val ≤ 5 → s.axIs x 0 = false → s.axIs x 5 = false →
    exec (.axisFault x c) s = .next (s.axFault x c)) ∧
  (∀ (x : AxisId) (e : Nat) (s : State), s.flag (axCtrlEnable x) = true → (s.tout (s.fld (axCtrlMarkTout x))).high = some e →
    (s.tout (s.fld (axCtrlMarkTout x))).overload = false →
    exec (.markerOverload x) s = .next ((s.setTout (s.fld (axCtrlMarkTout x)) { s.tout (s.fld (axCtrlMarkTout x)) with overload := true }).emit (.marker x false))) ∧
  (∀ (x : AxisId) (s : State), exec (.limitSwitchRelease x true) s = .next (s.setFld (axStatusHighActive x) 0) ∧
    exec (.limitSwitchRelease x false) s = .next (s.setFld (axStatusLowActive x) 0))

/-- Events, inputs, logic cells and check units. A flight that has been on its way for two cycles on an enabled
channel is delivered to its consumer, and one with hop count 15 is dropped with LOOP; a pending event acts when its
consumer is free; an input edge takes the pin's level; a logic cell whose condition has held long enough sets its
output and fires with its hop count; a write of a check unit's load register does what its rule says. -/
def Obligations.EventRouting : Prop :=
  (∀ (v : EvcId) (f : Flight) (s t : State), s.evt.flights = [f] → f.chan = v.val → f.cycle + 2 ≤ s.clock → s.sameInput f.chan v = true →
    f.hop < 15 → t = { s with evt := { s.evt with flights := [] } } → t.flag (evcChanCfgEnable f.chan) = true → t.secureOk f.chan = true →
    exec (.eventDelivery v) s = .next (t.deliver f [f])) ∧
  (∀ (v : EvcId) (f : Flight) (s t : State), s.evt.flights = [f] → f.chan = v.val → f.cycle + 2 ≤ s.clock → s.sameInput f.chan v = true →
    15 ≤ f.hop → t = { s with evt := { s.evt with flights := [] } } → t.flag (evcChanCfgEnable f.chan) = true → t.secureOk f.chan = true →
    exec (.eventDelivery v) s = .next (t.loopDrop f.chan)) ∧
  (∀ (v : EvcId) (f : Flight) (s t : State), s.waitingAt v = some f → s.consumerBusy v = false →
    t = { s with evt := { s.evt with waiting := s.evt.waiting.erase f } } →
    exec (.pendingEvent v) s = .next ((t.setFld (evcChanStatusPending f.chan) 0).consume f)) ∧
  (∀ (p : Fin 4) (level : Bool) (s : State), p.val ≠ 3 →
    exec (.einEdge p level) s = .next { s with evt := { s.evt with pins := setPin s.evt.pins p level } }) ∧
  (∀ (l : CellId) (s t : State), s.flag (lcCfgEnable l) = true → (s.cell l).level = true → s.fld (lcCfgFilter l) ≤ (s.cell l).held →
    s.flag (lcStatusOut l) = false →
    t = ((s.setFld (lcStatusOut l) 1).setFld (lcStatusHop l) (s.cell l).hop).setCell l { s.cell l with hop := 0 } →
    exec (.logicCellFire l) s = .next (t.fireAt (340 + l) (s.cell l).hop t.taiNs)) ∧
  (∀ (u : UnitId) (v : Word) (s : State), v.getLsbD 4 = false → exec (.crcLoad u v) s = .next s) ∧
  (∀ (u : UnitId) (v : Word) (s : State), v.getLsbD 4 = true → (s.crc u).loads ≠ 0 → s.fld (crcStatusLastAlive u) = v.toNat % 16 →
    exec (.crcLoad u v) s = .next (((s.setFld (crcStatusRepeat u) 1).bump (crcCntRepeatF u) 1).crcFire u 2)) ∧
  (∀ (u : UnitId) (v : Word) (s : State), v.getLsbD 4 = true → (s.crc u).loads = 0 → (s.crc u).job = none →
    exec (.crcLoad u v) s = .next (((s.setCrc u { s.crc u with loads := 1 }).crcShow u
      ((s.crc u).staged % 2 ^ s.fld (crcCfgWidth u))).setFld (crcStatusLastAlive u) (v.toNat % 16)))

/-- Seam estimates, flat field and saved corrections. A plausible estimate of a corrected seam is taken into the
residual and asks for the seam's correction, an implausible one is counted; a flat field whose lines are complete
answers its result; corrections are saved with a live plan. -/
def Obligations.CalibrationCommands : Prop :=
  (∀ (c : CtxId) (fab : Bool) (peak : Nat) (sh : Int) (key : Nat) (s : State), s.inspecting = true → s.flag calCtrlF = true →
    s.seamKey c fab = some key → key ≠ 13 → 800 ≤ peak → -32 ≤ sh → sh ≤ 32 →
    exec (.seamEstimate c fab peak sh) s = .next ((s.seamResidual key sh).seamAsk c sh)) ∧
  (∀ (c : CtxId) (fab : Bool) (peak : Nat) (sh : Int) (key : Nat) (s : State), s.inspecting = true → s.flag calCtrlF = true →
    s.seamKey c fab = some key → peak < 800 → exec (.seamEstimate c fab peak sh) s = .next (s.bump calSeamSkipped 1)) ∧
  (∀ (c : CtxId) (r : CalRun) (s : State), s.calRun 4 c = some r → s.flatEnded r = true → exec (.flatFieldDone c) s = .next (s.flatResult r)) ∧
  (∀ (p : Plan) (s : State), 3 ≤ s.mode → s.pln.plan = some p →
    exec .seamCorrectionSave s = .next { s with pwr := { s.pwr with flash := { s.pwr.flash with seams := s.cal.totals, seamRecipe := p.recipeHash } } })

/-- Wake sources and starts. A heeded wake source ends NIGHT, one in DUSK toward NIGHT is latched; the wake timer that
ends is 0 and wakes; PRESENT switches the supply on, and qualified input begins DAWN; a sound step of DAWN or SUNRISE
has its effect, one that fails ends the start with its cause; a failed warm start is tried again while it is not the
third in 10 minutes, the third begins DAWN; a factory reset held for 5 s in step 1 clears keys and sequences. -/
def Obligations.PowerWake : Prop :=
  (∀ s : State, s.mode = 0 → s.duskToNight = false → s.wakeHeeded 1 = true → exec .wakeInput s = .next s.leaveNight) ∧
  (∀ s : State, s.duskToNight = true → s.pwr.latched = [] → exec .wakeInput s = .next { s with pwr := { s.pwr with latched := [1] } }) ∧
  (∀ s : State, s.mode = 0 → s.fld pwrWakeTimerF ≠ 0 → exec .wakeTimer s = .next ((s.setFld pwrWakeTimerF 0).wakeSource 2)) ∧
  (∀ s : State, s.fld (hspPortMedia 0) = 3 → exec .nightSignalDetect s = .next (s.wakeSource 3)) ∧
  (∀ s : State, s.pwr.holding = false → s.pwr.supply = false →
    exec .presentAsserted s = .next (({ s with pwr := { s.pwr with present := true, supply := true, inserted := true } }).emit (.power 1 true))) ∧
  (∀ (mv : Nat) (s t u : State), s.mode = 0 → s.pwr.present = true → s.pwr.inserted = true → 8800 ≤ mv → mv ≤ 62000 → s.pwr.supply = true →
    t = (s.setFld pwrInputVin mv).setFld pwrStatusHoldupCharged 1 → u = ({ t with pwr := { t.pwr with supply := true } }).startDawn →
    exec (.inputQualified mv) s = .next { u with pwr := { u.pwr with inserted := false } }) ∧
  (∀ (r : StepResult) (n : Nat) (s : State), s.mode = 1 → n = s.pwr.step + 1 → n ≠ 6 → n ≠ 11 → s.dawnBad n r = false →
    exec (.dawnStep r) s = .next (({ s with pwr := { s.pwr with step := n } }).dawnEffect n r)) ∧
  (∀ (r : StepResult) (n : Nat) (s : State), s.mode = 1 → n = s.pwr.step + 1 → n ≠ 6 → n ≠ 11 → s.dawnBad n r = true →
    exec (.dawnStep r) s = .next (s.dawnFails n (dawnCause n))) ∧
  (∀ (n : Fin 16) (r : StepResult) (s : State), s.mode = 2 → s.pwr.retry = false → sunriseRuns s.pwr.done n.val = true → n.val ≠ 7 → r.ok = true →
    exec (.sunriseStep n r) s = .next (({ s with pwr := { s.pwr with done := s.pwr.done ++ [n.val], step := n.val } }).sunriseEffect n.val r)) ∧
  (∀ s : State, s.mode = 2 → s.pwr.retry = true → (s.pwr.warmFails.filter (fun t => decide (s.clock < t + 375000000000))).length < 3 →
    exec .warmFailRetry s = .next { s with pwr := { s.pwr with retry := false, step := 0, done := [] } }) ∧
  (∀ s : State, s.mode = 2 → s.pwr.retry = true → 3 ≤ (s.pwr.warmFails.filter (fun t => decide (s.clock < t + 375000000000))).length →
    exec .warmFailRetry s = .next ((s.setFld pwrStartFailCause 7).startDawn)) ∧
  (∀ (ms : Nat) (s t : State), s.mode = 1 → s.pwr.step = 1 → s.pwr.freset = false → 5000 ≤ ms →
    t = ({ s with pwr := { s.pwr with freset := true, flash := { s.pwr.flash with seqMarks := [0, 0, 0, 0] } } }).setFld hstKeysProvisioned 0 →
    exec (.fresetHold ms) s = .next ([0, 1, 2, 3].foldl (fun (s : State) (n : Nat) =>
      ((s.setSession n { s.session n with key := none, reply := [] }).set64 (hssSeqLo n) 0).setFld (hstKeyGenF n) 0) t))

/-- Domains, temperatures, currents and watchdogs of a running module. A domain that wakes in a running mode is on,
and a late wake is counted and fires; temperatures below every limit are stored with their checks; the critical
cooldown lets wake sources count again; an input current of 40 A or more begins limiting, it ends below 38 A and is
cut further otherwise; an input below 24 V derates the axes to their share of 3 A; a core's watchdog takes its
service, and 100 ms without it lead to the core's fault and a warm start. -/
def Obligations.PowerRunning : Prop :=
  (∀ (d : Fin 48) (ns b : Nat) (s : State), s.mode = 4 → s.domainDue d = true → wakeBound d = some b → ns ≤ b →
    exec (.domainWake d ns) s = .next (s.setDomain d true)) ∧
  (∀ (d : Fin 48) (ns b : Nat) (s : State), s.mode = 4 → s.domainDue d = true → wakeBound d = some b → b < ns →
    exec (.domainWake d ns) s = .next (((s.setDomain d true).bump pwrCntWakeLateF 1).fire 390)) ∧
  (∀ (die : List Int) (dram stage bridge : Int) (s t u : State), s.mode ≠ 0 →
    t = (((s.setFldInt pwrTempDie (satS 8 (hottest die))).setFldInt pwrTempDram (satS 8 dram)).setFldInt pwrTempStage (satS 8 stage)).setFldInt pwrTempBridge (satS 8 bridge) →
    u = (((t.tempCheck 0 (hottest die) 110 125).tempCheck 1 dram 95 105).tempCheck 2 stage 120 135).tempCheck 3 bridge 140 150 →
    u.pwr.warned.filter (fun j => decide (4 ≤ j)) = [] → u.mode ≠ 6 → exec (.temperatureRead die dram stage bridge) s = .next u) ∧
  (∀ s : State, exec .criticalCooldown s = .next { s with pwr := { s.pwr with ignoreWake := false } }) ∧
  (∀ (i : Nat) (s t : State), s.mode ≠ 0 → 4000 ≤ i → s.pwr.limiting = false → t = (s.setFld pwrInputIin (min i 65535)).setFld pwrStatusCurrentLimit 1 →
    exec (.currentLimit i) s = .next (({ t with pwr := { t.pwr with limiting := true } }).fire 391)) ∧
  (∀ (i : Nat) (s t : State), s.pwr.limiting = true → t = s.setFld pwrInputIin (min i 65535) → i < 3800 →
    exec (.currentReduction i) s = .next { t with pwr := { t.pwr with limiting := false } }) ∧
  (∀ (i : Nat) (s : State), s.pwr.limiting = true → 3800 ≤ i →
    exec (.currentReduction i) s = .next (s.setFld pwrInputIin (min i 65535)).cutCurrents) ∧
  (∀ (mv : Nat) (s : State), s.mode ≠ 0 → s.flag pwrStatusDerated = false → mv < 24000 →
    exec (.deratingEvaluation mv) s = .next ((((s.setFld pwrInputVin mv).setFld pwrStatusDerated 1).fire 384).limitAxes (some (3000 * mv / 24000)))) ∧
  (∀ (mv : Nat) (s : State), s.mode ≠ 0 → s.flag pwrStatusDerated = true → 24500 ≤ mv →
    exec (.deratingEvaluation mv) s = .next (((s.setFld pwrInputVin (min mv 65535)).setFld pwrStatusDerated 0).limitAxes none)) ∧
  (∀ (c : Fin 4) (s : State), exec (.watchdogService c) s = .next { s with pwr := { s.pwr with watchdog := s.pwr.watchdog.set c s.clock } }) ∧
  (∀ (c : Fin 4) (s : State), 3 ≤ s.mode → natAt s.pwr.watchdog c + 62500000 ≤ s.clock →
    exec (.watchdogExpiry c) s = .next (s.catalogue 9 c none).warmFault)

/-- Hold-up, overvoltage, losses and the end of DUSK. Loss of the supply of a running module sets its cause and runs
the hold-up; overvoltage and an exhausted hold-up lose what the always-on supply holds; a returning input begins
SUNRISE with DRAM held, otherwise DAWN; a PLL loss of a running module, a lost slice and a lost engine have their
fault's effect; DUSK ends with its queues drained or its drain timed out. -/
def Obligations.PowerLoss : Prop :=
  (∀ (u : Bool) (s t : State), s.pwr.supply = true → s.pwr.holding = false →
    t = ((s.setFld pwrStartFailLastLoss (if u then 2 else 1)).setFld pwrStartFailHoldupDone 0).fire (if u then 385 else 386) → 3 ≤ t.mode →
    exec (.holdUp u) s = .next (({ t with pwr := { t.pwr with present := u && t.pwr.present, holding := true } }).holdUp (if u then 1 else 0))) ∧
  (∀ s t u : State, s.pwr.supply = true → t = ((s.fire 387).setFld pwrStartFailLastLoss 3).setFld pwrStartFailHoldupDone 0 → t.mode = 0 →
    u = ({ t with pwr := { t.pwr with holding := true } }).alwaysOnLost →
    exec .overvoltage s = .next (({ u with pwr := { u.pwr with inserted := true } }).emit (.power 1 false))) ∧
  (∀ s : State, s.pwr.holding = true → s.mode = 0 → s.pwr.dramKept = true → s.pwr.recordValid = true →
    exec .inputReturn s = .next (({ s with pwr := { s.pwr with present := true, holding := false } }).startSunrise s.pwr.faultMode)) ∧
  (∀ s : State, s.pwr.holding = true → s.mode = 0 → s.pwr.dramKept = false → s.pwr.blocked = false →
    exec .inputReturn s = .next ({ s with pwr := { s.pwr with present := true, holding := false } }).startDawn) ∧
  (∀ s : State, s.pwr.holding = true → exec .holdupExhausted s = .next (s.alwaysOnLost.emit (.power 1 false))) ∧
  (∀ (p : Fin 4) (s : State), 3 ≤ s.mode → exec (.pllLockLoss p) s = .next (s.pllLost p)) ∧
  (∀ s : State, s.mode = 6 → s.pwr.duskStep = 4 → exec .duskDrainEnd s = .next s.duskEnd) ∧
  (∀ s t : State, s.mode = 6 → s.pwr.duskStep = 2 → s.drained = true →
    t = ({ s.gateAll with pwr := { s.gateAll.pwr with duskStep := 3 } }).drainPennants → t.pen.queue = [] → t.pen.staging = [] →
    exec .duskDrainEnd s = .next t.duskEnd) ∧
  (∀ s : State, s.mode = 6 → s.pwr.duskStep = 3 → exec .drainTimeout s = .next { s with pwr := { s.pwr with duskStep := 4 } }) ∧
  (∀ (k : SliceId) (s t : State), 3 ≤ s.mode → (s.slice k).lost = false →
    t = ((s.setSlice k { s.slice k with lost := true, asleep := false }).setDomain (13 + k) false).setDomain (17 + k) false →
    exec (.sliceLoss k) s = .next ((((t.sliceCtxs k).map Prod.fst).foldl State.ctxLost t).catalogue 3 k (some (76 + k)))) ∧
  (∀ (g : EngineId) (s t : State), 3 ≤ s.mode → s.pwr.engineLost.contains g.val = false → s.pln.plan = none →
    t = ({ s with pwr := { s.pwr with engineLost := s.pwr.engineLost ++ [g.val] } }).setDomain (23 + g) false →
    exec (.engineLoss g) s = .next ((t.catalogue 7 g none).cmpFire g 7))

/-- Setup registers with an effect of their own. A write of PWR_RESTART with the key and the target MIDNIGHT or DUSK
in a running mode asks for that mode, and any other key changes nothing; a commit bit commits the staged network
addresses; the clear bit clears the start record; a read of a latching LO register loads the reader's latch of its HI
register and nothing else; a peak's clear bit sets it to the present level; a restored image A clears IMAGE_B. -/
def Obligations.SetupCommands : Prop :=
  (∀ (v : Word) (s : State), getBits v 16 16 = 0x5A1C → (getBits v 0 3 = 5 ∨ getBits v 0 3 = 6) → 3 ≤ s.mode → s.mode ≠ 6 → s.pwr.afterStop = none →
    exec (.pwrRestart v) s = .next (s.modeOrder (getBits v 0 3) none)) ∧
  (∀ (v : Word) (s : State), getBits v 16 16 ≠ 0x5A1C → exec (.pwrRestart v) s = .next s) ∧
  (∀ (e : EthId) (v : Word) (s : State), v.getLsbD 0 = true → exec (.hstNetCommit e v) s = .next (s.netCommit e)) ∧
  (∀ (v : Word) (s : State), v.getLsbD 20 = true →
    exec (.startFailClear v) s = .next (((s.setReg pwrStartFail 0#32).setReg pwrStartFailTimeLo 0#32).setReg pwrStartFailTimeHi 0#32)) ∧
  (∀ (n : SessId) (a : Nat) (s : State), latchLos.contains a = true → (4 ≤ a → latchLos.contains (a - 4) = false) →
    exec (.latchingLoRead (some n) a) s = .next { s with latches := tblSet s.latches 0 (n.val * 2 ^ 17 + a) (s.regLive (a + 4)) }) ∧
  (∀ (c : CtxId) (v : Word) (s : State), v.getLsbD 31 = true →
    exec (.fifoPeakClear c v) s = .next (s.setFld (ctxFifoPeak c) (s.fld (ctxFifoLevel c)))) ∧
  (∀ (v : Word) (s : State), v.getLsbD 31 = true → exec (.partsPeakClear v) s = .next (s.setFld semPartsPartsPeak (s.fld semPartsParts))) ∧
  (∀ (v : Word) (s : State), v.getLsbD 31 = true → exec (.queuePeakClear v) s = .next (s.setFld penQueuePeakPeak (s.fld penQueueF))) ∧
  (∀ s : State, s.flag pwrStatusImageB = true → s.mode ≠ 0 →
    exec .imageARestored s = .next (({ s with pwr := { s.pwr with flash := { s.pwr.flash with imageA := true } } }).setFld pwrStatusImageB 0))

/-- rdiv rounds to nearest with ties to the even result. For b > 0, rdiv(a, b) lies within half of b of a / b, and
where a / b lies halfway between two integers it is the even one. -/
def Obligations.RoundedDivision : Prop :=
  ∀ a b : Int, 0 < b → 2 * (rdiv a b * b - a) ≤ b ∧ -b ≤ 2 * (rdiv a b * b - a) ∧
    ((2 * (rdiv a b * b - a)).natAbs = b.natAbs → rdiv a b % 2 = 0)

/-- rnd rounds to nearest with ties to the even result. rnd(v, s) times 2^s lies within half of 2^s of v, on a tie
rnd(v, s) is even, and rnd(v, 0) is v. -/
def Obligations.RoundedShift : Prop :=
  (∀ v : Int, rnd v 0 = v) ∧
  (∀ (v : Int) (s : Nat), 2 * (rnd v s * 2 ^ s - v) ≤ 2 ^ s ∧ -(2 ^ s) ≤ 2 * (rnd v s * 2 ^ s - v) ∧
    (2 * (rnd v s * 2 ^ s - v) = 2 ^ s ∨ 2 * (rnd v s * 2 ^ s - v) = -(2 ^ s) → 1 ≤ s → rnd v s % 2 = 0))

/-- The lanes and rate of a port. The chosen lane count is one of 1, 2, 4 and 8 not above the declared count, its rate
is the lowest highest-rate over its lanes, no other count gives a larger n × baud(r), and none of those that give the
same is larger; no count is chosen only where no count has a rate. -/
def Obligations.LaneChoice : Prop :=
  (∀ (x : PortSt) (n r : Nat), chooseLanes x = some (n, r) → n ∈ [1, 2, 4, 8] ∧ n ≤ x.declared ∧ rateOver x n = some r ∧
    (∀ m q, m ∈ [1, 2, 4, 8] → m ≤ x.declared → rateOver x m = some q → m * baudOf q ≤ n * baudOf r ∧
      (m * baudOf q = n * baudOf r → m ≤ n))) ∧
  (∀ (x : PortSt) (m : Nat), chooseLanes x = none → m ∈ [1, 2, 4, 8] → m ≤ x.declared → rateOver x m = none)

/-- Block lock and its loss. After 64 consecutive valid sync headers the lane has block lock; 16 invalid of 64
consecutive headers on a lane that has it leave it without. -/
def Obligations.BlockLockRule : Prop :=
  (∀ (p : PortId) (l : LaneId) (hs : List (BitVec 2)) (s : State), s.blocksRun p = true → hs.length = 64 → hs.all headerOk = true →
    ∃ t, exec (.blockLock p l hs) s = .next t ∧ (t.lane p l).locked = true) ∧
  (∀ (p : PortId) (l : LaneId) (hs : List (BitVec 2)) (s : State), s.blocksRun p = true → (s.lane p l).locked = true → hs.length = 64 →
    16 ≤ (hs.filter (fun h => !headerOk h)).length → ∃ t, exec (.blockLockLost p l hs) s = .next t ∧ (t.lane p l).locked = false)

/-- The flush timer of a context. With FLUSH_MS not 0, a strip that holds a line and no line accepted for FLUSH_MS
milliseconds, the context rebases (and its sleeping slice is woken where it is a memory-borne context being
processed); with FLUSH_MS 0 nothing happens. -/
def Obligations.FlushTimerRule : Prop :=
  (∀ (c : CtxId) (s : State), s.fld (ctxCtrlFlushMs c) ≠ 0 → 1 ≤ (s.ctx c).num.held →
    (s.ctx c).num.lastAccept + s.fld (ctxCtrlFlushMs c) * 625000 ≤ s.clock →
    exec (.flushTimer c) s = .next (s.rebase c) ∨ ∃ k, exec (.flushTimer c) s = .next ((s.rebase c).wakeSlice k)) ∧
  (∀ (c : CtxId) (s : State), s.fld (ctxCtrlFlushMs c) = 0 → exec (.flushTimer c) s = .next s)

/-- MODE in DUSK. A MODE descriptor that may start while the module is in DUSK completes with status 5, and nothing
else happens. -/
def Obligations.ModeDescriptorInDusk : Prop :=
  ∀ (n : SessId) (idx : Nat) (d : OutDesc) (s : State), s.startable n idx = some d → d.opcode = 0x58 → s.mode = 6 →
    exec (.mode n idx) s = .next ((s.startDesc n idx).finishDesc n idx 5 [])

/-- Loading a sine table while the axis moves. A ready SINE_LOAD of an axis that moves is the undefined behaviour of
R780, and the step stops with the fault that names it. -/
def Obligations.SineLoadWhileMoving : Prop :=
  ∀ (n : SessId) (idx : Nat) (d : OutDesc) (s : State), Ready s n idx 0x45 modesMX d → d.par 0x10 1 < 2 →
    s.axMoving (d.par 0x10 1) = true → exec (.sineLoad n idx) s = .fault (.undefinedBehaviour .sineWhileMoving)

/-- Descriptors outside their modes, and those that may not start. A descriptor that may start in a mode that its
opcode does not name completes with status 5 and has no other effect (shown of a row of each set of modes), and one
that may not start yet changes nothing. -/
def Obligations.DescriptorModes : Prop :=
  (∀ (n : SessId) (idx : Nat) (d : OutDesc) (s : State), s.startable n idx = some d → d.opcode = 0x20 → s.mode ≠ 3 →
    exec (.start n idx) s = .next ((s.startDesc n idx).finishDesc n idx 5 [])) ∧
  (∀ (n : SessId) (idx : Nat) (d : OutDesc) (s : State), s.startable n idx = some d → d.opcode = 0x21 → s.mode ≠ 4 → s.mode ≠ 5 →
    exec (.stop n idx) s = .next ((s.startDesc n idx).finishDesc n idx 5 [])) ∧
  (∀ (n : SessId) (idx : Nat) (d : OutDesc) (s : State), s.startable n idx = some d → d.opcode = 0x40 → s.mode = 6 →
    exec (.axisMove n idx) s = .next ((s.startDesc n idx).finishDesc n idx 5 [])) ∧
  (∀ (n : SessId) (idx : Nat) (s : State), s.startable n idx = none → exec (.nop n idx) s = .next s ∧ exec (.axisMove n idx) s = .next s ∧
    exec (.compile n idx) s = .next s ∧ exec (.mode n idx) s = .next s)
end

