-- ==== Sys2Proof/Laws/Table.lean ====
section
/-! SUPPORT. What the table operations do: reading after storing, and the canonical form. -/

namespace Sys2Proof.Machine

variable {α : Type}

theorem tblGet_tblErase (t : Tbl α) (d : α) (k j : Nat) : tblGet (tblErase k t) d j = if j = k then d else tblGet t d j := by
  induction t with
  | nil => simp [tblErase, tblGet]
  | cons e r ih =>
    obtain ⟨a, v⟩ := e
    by_cases h : a = k <;> by_cases g : a = j <;> simp_all [tblErase, tblGet]

theorem tblGet_tblInsert_other (t : Tbl α) (d v : α) (k j : Nat) (h : j ≠ k) : tblGet (tblInsert k v t) d j = tblGet t d j := by
  induction t with
  | nil => simp [tblInsert, tblGet, Ne.symm h]
  | cons e r ih =>
    obtain ⟨a, w⟩ := e
    by_cases g : k < a <;> simp [tblInsert, tblGet, g, ih, Ne.symm h]

theorem tblGet_tblInsert_self (t : Tbl α) (d v : α) (k : Nat) (h : ∀ e ∈ t, e.1 ≠ k) : tblGet (tblInsert k v t) d k = v := by
  induction t with
  | nil => simp [tblInsert, tblGet]
  | cons e r ih =>
    obtain ⟨a, w⟩ := e
    have ha : a ≠ k := h (a, w) (by simp)
    have hr := ih (fun e he => h e (by simp [he]))
    by_cases g : k < a <;> simp [tblInsert, tblGet, g, hr, ha]

theorem tblErase_ne (t : Tbl α) (k : Nat) : ∀ e ∈ tblErase k t, e.1 ≠ k := by
  intro e he
  simpa using (List.mem_filter.mp he).2

/-- A key reads what was last stored at it; every other key reads as before. -/
theorem tblGet_tblSet [DecidableEq α] (t : Tbl α) (d v : α) (k j : Nat) :
    tblGet (tblSet t d k v) d j = if j = k then v else tblGet t d j := by
  unfold tblSet
  by_cases hv : v = d
  · simp [hv, tblGet_tblErase]
  · by_cases h : j = k
    · subst h; simp [hv, tblGet_tblInsert_self _ d v j (tblErase_ne t j)]
    · simp [hv, h, tblGet_tblInsert_other _ d v k j h, tblGet_tblErase]

theorem tblGet_tblSet_self [DecidableEq α] (t : Tbl α) (d v : α) (k : Nat) : tblGet (tblSet t d k v) d k = v := by
  simp [tblGet_tblSet]

theorem tblGet_tblSet_other [DecidableEq α] (t : Tbl α) (d d' v : α) (k j : Nat) (h : j ≠ k) :
    tblGet (tblSet t d k v) d' j = tblGet t d' j := by
  unfold tblSet
  by_cases hv : v = d
  · simp [hv, h, tblGet_tblErase]
  · simp [hv, h, tblGet_tblInsert_other _ d' v k j h, tblGet_tblErase]

/-- The canonical form said of the whole list: keys rise strictly, and no entry holds its default. -/
theorem tblWf_iff [DecidableEq α] (d : Nat → α) (t : Tbl α) :
    tblWf d t = true ↔ t.Pairwise (fun a b => a.1 < b.1) ∧ ∀ e ∈ t, e.2 ≠ d e.1 := by
  induction t with
  | nil => simp [tblWf]
  | cons e r ih =>
    obtain ⟨a, v⟩ := e
    cases r with
    | nil => simp [tblWf]
    | cons f q =>
      obtain ⟨b, w⟩ := f
      simp only [tblWf, Bool.and_eq_true, decide_eq_true_eq, ih, List.pairwise_cons, List.mem_cons, forall_eq_or_imp]
      constructor
      · rintro ⟨⟨hv, hab⟩, ⟨hb, hq⟩, hw, hr⟩
        exact ⟨⟨⟨hab, fun x hx => Nat.lt_trans hab (hb x hx)⟩, hb, hq⟩, hv, hw, hr⟩
      · rintro ⟨⟨⟨hab, _⟩, hb, hq⟩, hv, hw, hr⟩
        exact ⟨⟨hv, hab⟩, ⟨hb, hq⟩, hw, hr⟩

theorem mem_tblInsert (t : Tbl α) (k : Nat) (v : α) (e : Nat × α) : e ∈ tblInsert k v t ↔ e = (k, v) ∨ e ∈ t := by
  induction t with
  | nil => simp [tblInsert]
  | cons f r ih =>
    obtain ⟨a, w⟩ := f
    by_cases g : k < a
    · simp [tblInsert, g]
    · simp [tblInsert, g, ih, or_left_comm]

theorem tblInsert_rising (t : Tbl α) (k : Nat) (v : α) (h : t.Pairwise (fun a b => a.1 < b.1)) (hk : ∀ e ∈ t, e.1 ≠ k) :
    (tblInsert k v t).Pairwise (fun a b => a.1 < b.1) := by
  induction t with
  | nil => simp [tblInsert]
  | cons f r ih =>
    obtain ⟨a, w⟩ := f
    rw [List.pairwise_cons] at h
    by_cases g : k < a
    · rw [tblInsert, if_pos g]
      simp only [List.pairwise_cons, List.mem_cons, forall_eq_or_imp]
      exact ⟨⟨g, fun x hx => Nat.lt_trans g (h.1 x hx)⟩, h.1, h.2⟩
    · have hak : a ≠ k := hk (a, w) (by simp)
      have : a < k := by omega
      simp only [tblInsert, g, if_false, List.pairwise_cons]
      refine ⟨fun x hx => ?_, ih h.2 (fun e he => hk e (by simp [he]))⟩
      rcases (mem_tblInsert r k v x).mp hx with rfl | hx
      · exact this
      · exact h.1 x hx

/-- Storing keeps the canonical form. -/
theorem tblWf_tblSet [DecidableEq α] (d : Nat → α) (t : Tbl α) (k : Nat) (v : α) (h : tblWf d t = true) :
    tblWf d (tblSet t (d k) k v) = true := by
  rw [tblWf_iff] at h ⊢
  have he : (tblErase k t).Pairwise (fun a b => a.1 < b.1) := h.1.filter _
  unfold tblSet
  split
  · exact ⟨he, fun e hm => h.2 e (List.mem_of_mem_filter hm)⟩
  · rename_i hv
    refine ⟨tblInsert_rising _ k v he (tblErase_ne t k), fun e hm => ?_⟩
    rcases (mem_tblInsert _ k v e).mp hm with rfl | hm
    · exact hv
    · exact h.2 e (List.mem_of_mem_filter hm)

end Sys2Proof.Machine
end

