-- ==== Sys2Proof/Laws/State.lean ====
section
/-! SUPPORT. Reading State after an update: registers and their fields, indexed records, and what each named
operation leaves alone. -/

namespace Sys2Proof.Machine

/-! ### Bits of a word -/

theorem setBits_getLsbD (w : Word) (lo n v i : Nat) (h : lo + n ≤ 32) :
    (setBits w lo n v).getLsbD i = if lo ≤ i ∧ i < lo + n then v.testBit (i - lo) else w.getLsbD i := by
  unfold setBits
  simp only [BitVec.getLsbD_or, BitVec.getLsbD_and, BitVec.getLsbD_not, BitVec.getLsbD_shiftLeft, BitVec.getLsbD_ofNat,
    Nat.testBit_two_pow_sub_one, Nat.testBit_mod_two_pow]
  by_cases hi : i < 32
  · by_cases h1 : lo ≤ i
    · by_cases h2 : i < lo + n
      · have : i - lo < n := by omega
        have h3 : i - lo < 32 := by omega
        have h4 : ¬ i < lo := by omega
        simp [hi, h1, h2, this, h3, h4]
      · have : ¬ (i - lo < n) := by omega
        simp [hi, h1, h2, this]
    · have : i < lo := by omega
      simp [hi, h1, this]
  · have hw : w.getLsbD i = false := BitVec.getLsbD_of_ge w i (by omega)
    have : ¬ (lo ≤ i ∧ i < lo + n) := by omega
    simp [hi, hw, this]

theorem getBits_testBit (w : Word) (lo n i : Nat) : (getBits w lo n).testBit i = (decide (i < n) && w.getLsbD (lo + i)) := by
  simp [getBits, BitVec.getLsbD, Nat.testBit_mod_two_pow, Nat.testBit_shiftRight]

/-- A field reads the low bits of what was stored in it. -/
theorem getBits_setBits_self (w : Word) (lo n v : Nat) (h : lo + n ≤ 32) : getBits (setBits w lo n v) lo n = v % 2 ^ n := by
  apply Nat.eq_of_testBit_eq
  intro i
  rw [getBits_testBit, setBits_getLsbD _ _ _ _ _ h, Nat.testBit_mod_two_pow]
  by_cases hi : i < n <;> simp [hi]

/-- A field with no bit in common reads as before. -/
theorem getBits_setBits_other (w : Word) (lo n v lo' n' : Nat) (h : lo + n ≤ 32) (hd : lo' + n' ≤ lo ∨ lo + n ≤ lo') :
    getBits (setBits w lo n v) lo' n' = getBits w lo' n' := by
  apply Nat.eq_of_testBit_eq
  intro i
  rw [getBits_testBit, getBits_testBit, setBits_getLsbD _ _ _ _ _ h]
  by_cases hi : i < n'
  · have : ¬ (lo ≤ lo' + i ∧ lo' + i < lo + n) := by omega
    simp [this]
  · simp [hi]

/-! ### Registers -/

theorem reg_setReg (s : State) (a b : Nat) (v : Word) : (s.setReg a v).reg b = if b = a then v else s.reg b := by
  unfold State.reg State.setReg
  by_cases h : b = a
  · subst h; simp [tblGet_tblSet_self]
  · simp [h, tblGet_tblSet_other _ _ _ _ _ _ h]

@[simp] theorem reg_setReg_self (s : State) (a : Nat) (v : Word) : (s.setReg a v).reg a = v := by simp [reg_setReg]

theorem fld_setFld_self (s : State) (f : Fld) (v : Nat) (h : f.lo + f.width ≤ 32) : (s.setFld f v).fld f = v % 2 ^ f.width := by
  simp [State.fld, State.setFld, getBits_setBits_self _ _ _ _ h]

/-- A field of another register reads as before. -/
theorem fld_setFld_addr (s : State) (f g : Fld) (v : Nat) (h : g.addr ≠ f.addr) : (s.setFld f v).fld g = s.fld g := by
  simp [State.fld, State.setFld, reg_setReg, h]

/-- A field of the same register with no bit in common reads as before. -/
theorem fld_setFld_bits (s : State) (f g : Fld) (v : Nat) (h : f.lo + f.width ≤ 32)
    (hd : g.lo + g.width ≤ f.lo ∨ f.lo + f.width ≤ g.lo) : (s.setFld f v).fld g = s.fld g := by
  unfold State.fld State.setFld
  rw [reg_setReg]
  by_cases ha : g.addr = f.addr
  · simp [ha, getBits_setBits_other _ _ _ _ _ _ h hd]
  · simp [ha]

/-- Every field whose register or bits differ reads as before. -/
theorem fld_setFld_other (s : State) (f g : Fld) (v : Nat) (h : f.lo + f.width ≤ 32)
    (hd : g.addr ≠ f.addr ∨ g.lo + g.width ≤ f.lo ∨ f.lo + f.width ≤ g.lo) : (s.setFld f v).fld g = s.fld g := by
  rcases hd with hd | hd
  · exact fld_setFld_addr s f g v hd
  · exact fld_setFld_bits s f g v h hd

theorem flag_setFlag_self (s : State) (f : Fld) (b : Bool) (h : f.lo + f.width ≤ 32) (h1 : f.width = 1) :
    (s.setFlag f b).flag f = b := by
  have := fld_setFld_self s f (b2n b) h
  rw [h1] at this
  cases b <;> simp_all [State.flag, State.setFlag, b2n]

/-- Storing registers keeps their canonical form. -/
theorem regs_setReg_wf (s : State) (a : Nat) (v : Word) (h : tblWf coldWord s.regs = true) :
    tblWf coldWord (s.setReg a v).regs = true := tblWf_tblSet coldWord s.regs a v h

theorem regs_setFld_wf (s : State) (f : Fld) (v : Nat) (h : tblWf coldWord s.regs = true) :
    tblWf coldWord (s.setFld f v).regs = true := regs_setReg_wf s _ _ h

/-! ### Indexed records -/

theorem port_setPort (s : State) (i j : Nat) (v : PortSt) : (s.setPort i v).port j = if j = i then v else s.port j := by
  simp [State.port, State.setPort, tblGet_tblSet]
@[simp] theorem port_setPort_self (s : State) (i : Nat) (v : PortSt) : (s.setPort i v).port i = v := by simp [port_setPort]
theorem ctx_setCtx (s : State) (i j : Nat) (v : CtxSt) : (s.setCtx i v).ctx j = if j = i then v else s.ctx j := by
  simp [State.ctx, State.setCtx, tblGet_tblSet]
@[simp] theorem ctx_setCtx_self (s : State) (i : Nat) (v : CtxSt) : (s.setCtx i v).ctx i = v := by simp [ctx_setCtx]
theorem slice_setSlice (s : State) (i j : Nat) (v : SliceSt) : (s.setSlice i v).slice j = if j = i then v else s.slice j := by
  simp [State.slice, State.setSlice, tblGet_tblSet]
@[simp] theorem slice_setSlice_self (s : State) (i : Nat) (v : SliceSt) : (s.setSlice i v).slice i = v := by simp [slice_setSlice]
theorem coder_setCoder (s : State) (i j : Nat) (v : Coder) : (s.setCoder i v).coder j = if j = i then v else s.coder j := by
  simp [State.coder, State.setCoder, tblGet_tblSet]
@[simp] theorem coder_setCoder_self (s : State) (i : Nat) (v : Coder) : (s.setCoder i v).coder i = v := by simp [coder_setCoder]
theorem mc_setMc (s : State) (i j : Nat) (v : McSt) : (s.setMc i v).mc j = if j = i then v else s.mc j := by
  simp [State.mc, State.setMc, tblGet_tblSet]
@[simp] theorem mc_setMc_self (s : State) (i : Nat) (v : McSt) : (s.setMc i v).mc i = v := by simp [mc_setMc]
theorem session_setSession (s : State) (i j : Nat) (v : Sess) : (s.setSession i v).session j = if j = i then v else s.session j := by
  simp [State.session, State.setSession, tblGet_tblSet]
@[simp] theorem session_setSession_self (s : State) (i : Nat) (v : Sess) : (s.setSession i v).session i = v := by simp [session_setSession]
theorem eth_setEth (s : State) (i j : Nat) (v : EthSt) : (s.setEth i v).eth j = if j = i then v else s.eth j := by
  simp [State.eth, State.setEth, tblGet_tblSet]
@[simp] theorem eth_setEth_self (s : State) (i : Nat) (v : EthSt) : (s.setEth i v).eth i = v := by simp [eth_setEth]
theorem enc_setEnc (s : State) (i j : Nat) (v : EncSt) : (s.setEnc i v).enc j = if j = i then v else s.enc j := by
  simp [State.enc, State.setEnc, tblGet_tblSet]
@[simp] theorem enc_setEnc_self (s : State) (i : Nat) (v : EncSt) : (s.setEnc i v).enc i = v := by simp [enc_setEnc]
theorem divider_setDivider (s : State) (i j : Nat) (v : Int) : (s.setDivider i v).divider j = if j = i then v else s.divider j := by
  simp [State.divider, State.setDivider, tblGet_tblSet]
@[simp] theorem divider_setDivider_self (s : State) (i : Nat) (v : Int) : (s.setDivider i v).divider i = v := by simp [divider_setDivider]
theorem ax_setAx (s : State) (i j : Nat) (v : AxSt) : (s.setAx i v).ax j = if j = i then v else s.ax j := by
  simp [State.ax, State.setAx, tblGet_tblSet]
@[simp] theorem ax_setAx_self (s : State) (i : Nat) (v : AxSt) : (s.setAx i v).ax i = v := by simp [ax_setAx]
theorem crc_setCrc (s : State) (i j : Nat) (v : CrcSt) : (s.setCrc i v).crc j = if j = i then v else s.crc j := by
  simp [State.crc, State.setCrc, tblGet_tblSet]
@[simp] theorem crc_setCrc_self (s : State) (i : Nat) (v : CrcSt) : (s.setCrc i v).crc i = v := by simp [crc_setCrc]
theorem tout_setTout (s : State) (i j : Nat) (v : ToutSt) : (s.setTout i v).tout j = if j = i then v else s.tout j := by
  simp [State.tout, State.setTout, tblGet_tblSet]
@[simp] theorem tout_setTout_self (s : State) (i : Nat) (v : ToutSt) : (s.setTout i v).tout i = v := by simp [tout_setTout]
theorem ptp_setPtp (s : State) (i j : Nat) (v : PtpPort) : (s.setPtp i v).ptp j = if j = i then v else s.ptp j := by
  simp [State.ptp, State.setPtp, tblGet_tblSet]
@[simp] theorem ptp_setPtp_self (s : State) (i : Nat) (v : PtpPort) : (s.setPtp i v).ptp i = v := by simp [ptp_setPtp]
theorem cell_setCell (s : State) (i j : Nat) (v : CellSt) : (s.setCell i v).cell j = if j = i then v else s.cell j := by
  simp [State.cell, State.setCell, tblGet_tblSet]
@[simp] theorem cell_setCell_self (s : State) (i : Nat) (v : CellSt) : (s.setCell i v).cell i = v := by simp [cell_setCell]

/-! ### What each operation leaves alone -/

@[simp] theorem pending_setPort (s : State) (i : Nat) (v : PortSt) : (s.setPort i v).pending = s.pending := rfl
@[simp] theorem clock_setPort (s : State) (i : Nat) (v : PortSt) : (s.setPort i v).clock = s.clock := rfl
@[simp] theorem frameTick_setPort (s : State) (i : Nat) (v : PortSt) : (s.setPort i v).frameTick = s.frameTick := rfl
@[simp] theorem freeIdx_setPort (s : State) (i : Nat) (v : PortSt) : (s.setPort i v).freeIdx = s.freeIdx := rfl
@[simp] theorem out_setPort (s : State) (i : Nat) (v : PortSt) : (s.setPort i v).out = s.out := rfl
@[simp] theorem regs_setPort (s : State) (i : Nat) (v : PortSt) : (s.setPort i v).regs = s.regs := rfl
@[simp] theorem latches_setPort (s : State) (i : Nat) (v : PortSt) : (s.setPort i v).latches = s.latches := rfl
@[simp] theorem ctxs_setPort (s : State) (i : Nat) (v : PortSt) : (s.setPort i v).ctxs = s.ctxs := rfl
@[simp] theorem slices_setPort (s : State) (i : Nat) (v : PortSt) : (s.setPort i v).slices = s.slices := rfl
@[simp] theorem coders_setPort (s : State) (i : Nat) (v : PortSt) : (s.setPort i v).coders = s.coders := rfl
@[simp] theorem ring_setPort (s : State) (i : Nat) (v : PortSt) : (s.setPort i v).ring = s.ring := rfl
@[simp] theorem jobs_setPort (s : State) (i : Nat) (v : PortSt) : (s.setPort i v).jobs = s.jobs := rfl
@[simp] theorem seam_setPort (s : State) (i : Nat) (v : PortSt) : (s.setPort i v).seam = s.seam := rfl
@[simp] theorem pen_setPort (s : State) (i : Nat) (v : PortSt) : (s.setPort i v).pen = s.pen := rfl
@[simp] theorem jnl_setPort (s : State) (i : Nat) (v : PortSt) : (s.setPort i v).jnl = s.jnl := rfl
@[simp] theorem ovw_setPort (s : State) (i : Nat) (v : PortSt) : (s.setPort i v).ovw = s.ovw := rfl
@[simp] theorem mem_setPort (s : State) (i : Nat) (v : PortSt) : (s.setPort i v).mem = s.mem := rfl
@[simp] theorem pln_setPort (s : State) (i : Nat) (v : PortSt) : (s.setPort i v).pln = s.pln := rfl
@[simp] theorem sess_setPort (s : State) (i : Nat) (v : PortSt) : (s.setPort i v).sess = s.sess := rfl
@[simp] theorem eths_setPort (s : State) (i : Nat) (v : PortSt) : (s.setPort i v).eths = s.eths := rfl
@[simp] theorem tim_setPort (s : State) (i : Nat) (v : PortSt) : (s.setPort i v).tim = s.tim := rfl
@[simp] theorem fab_setPort (s : State) (i : Nat) (v : PortSt) : (s.setPort i v).fab = s.fab := rfl
@[simp] theorem encs_setPort (s : State) (i : Nat) (v : PortSt) : (s.setPort i v).encs = s.encs := rfl
@[simp] theorem dividers_setPort (s : State) (i : Nat) (v : PortSt) : (s.setPort i v).dividers = s.dividers := rfl
@[simp] theorem axes_setPort (s : State) (i : Nat) (v : PortSt) : (s.setPort i v).axes = s.axes := rfl
@[simp] theorem evt_setPort (s : State) (i : Nat) (v : PortSt) : (s.setPort i v).evt = s.evt := rfl
@[simp] theorem crcs_setPort (s : State) (i : Nat) (v : PortSt) : (s.setPort i v).crcs = s.crcs := rfl
@[simp] theorem cal_setPort (s : State) (i : Nat) (v : PortSt) : (s.setPort i v).cal = s.cal := rfl
@[simp] theorem pwr_setPort (s : State) (i : Nat) (v : PortSt) : (s.setPort i v).pwr = s.pwr := rfl
@[simp] theorem statHeld_setPort (s : State) (i : Nat) (v : PortSt) : (s.setPort i v).statHeld = s.statHeld := rfl
@[simp] theorem zeroLatched_setPort (s : State) (i : Nat) (v : PortSt) : (s.setPort i v).zeroLatched = s.zeroLatched := rfl
@[simp] theorem pending_setCtx (s : State) (i : Nat) (v : CtxSt) : (s.setCtx i v).pending = s.pending := rfl
@[simp] theorem clock_setCtx (s : State) (i : Nat) (v : CtxSt) : (s.setCtx i v).clock = s.clock := rfl
@[simp] theorem frameTick_setCtx (s : State) (i : Nat) (v : CtxSt) : (s.setCtx i v).frameTick = s.frameTick := rfl
@[simp] theorem freeIdx_setCtx (s : State) (i : Nat) (v : CtxSt) : (s.setCtx i v).freeIdx = s.freeIdx := rfl
@[simp] theorem out_setCtx (s : State) (i : Nat) (v : CtxSt) : (s.setCtx i v).out = s.out := rfl
@[simp] theorem regs_setCtx (s : State) (i : Nat) (v : CtxSt) : (s.setCtx i v).regs = s.regs := rfl
@[simp] theorem latches_setCtx (s : State) (i : Nat) (v : CtxSt) : (s.setCtx i v).latches = s.latches := rfl
@[simp] theorem ports_setCtx (s : State) (i : Nat) (v : CtxSt) : (s.setCtx i v).ports = s.ports := rfl
@[simp] theorem slices_setCtx (s : State) (i : Nat) (v : CtxSt) : (s.setCtx i v).slices = s.slices := rfl
@[simp] theorem coders_setCtx (s : State) (i : Nat) (v : CtxSt) : (s.setCtx i v).coders = s.coders := rfl
@[simp] theorem ring_setCtx (s : State) (i : Nat) (v : CtxSt) : (s.setCtx i v).ring = s.ring := rfl
@[simp] theorem jobs_setCtx (s : State) (i : Nat) (v : CtxSt) : (s.setCtx i v).jobs = s.jobs := rfl
@[simp] theorem seam_setCtx (s : State) (i : Nat) (v : CtxSt) : (s.setCtx i v).seam = s.seam := rfl
@[simp] theorem pen_setCtx (s : State) (i : Nat) (v : CtxSt) : (s.setCtx i v).pen = s.pen := rfl
@[simp] theorem jnl_setCtx (s : State) (i : Nat) (v : CtxSt) : (s.setCtx i v).jnl = s.jnl := rfl
@[simp] theorem ovw_setCtx (s : State) (i : Nat) (v : CtxSt) : (s.setCtx i v).ovw = s.ovw := rfl
@[simp] theorem mem_setCtx (s : State) (i : Nat) (v : CtxSt) : (s.setCtx i v).mem = s.mem := rfl
@[simp] theorem pln_setCtx (s : State) (i : Nat) (v : CtxSt) : (s.setCtx i v).pln = s.pln := rfl
@[simp] theorem sess_setCtx (s : State) (i : Nat) (v : CtxSt) : (s.setCtx i v).sess = s.sess := rfl
@[simp] theorem eths_setCtx (s : State) (i : Nat) (v : CtxSt) : (s.setCtx i v).eths = s.eths := rfl
@[simp] theorem tim_setCtx (s : State) (i : Nat) (v : CtxSt) : (s.setCtx i v).tim = s.tim := rfl
@[simp] theorem fab_setCtx (s : State) (i : Nat) (v : CtxSt) : (s.setCtx i v).fab = s.fab := rfl
@[simp] theorem encs_setCtx (s : State) (i : Nat) (v : CtxSt) : (s.setCtx i v).encs = s.encs := rfl
@[simp] theorem dividers_setCtx (s : State) (i : Nat) (v : CtxSt) : (s.setCtx i v).dividers = s.dividers := rfl
@[simp] theorem axes_setCtx (s : State) (i : Nat) (v : CtxSt) : (s.setCtx i v).axes = s.axes := rfl
@[simp] theorem evt_setCtx (s : State) (i : Nat) (v : CtxSt) : (s.setCtx i v).evt = s.evt := rfl
@[simp] theorem crcs_setCtx (s : State) (i : Nat) (v : CtxSt) : (s.setCtx i v).crcs = s.crcs := rfl
@[simp] theorem cal_setCtx (s : State) (i : Nat) (v : CtxSt) : (s.setCtx i v).cal = s.cal := rfl
@[simp] theorem pwr_setCtx (s : State) (i : Nat) (v : CtxSt) : (s.setCtx i v).pwr = s.pwr := rfl
@[simp] theorem statHeld_setCtx (s : State) (i : Nat) (v : CtxSt) : (s.setCtx i v).statHeld = s.statHeld := rfl
@[simp] theorem zeroLatched_setCtx (s : State) (i : Nat) (v : CtxSt) : (s.setCtx i v).zeroLatched = s.zeroLatched := rfl
@[simp] theorem pending_setSlice (s : State) (i : Nat) (v : SliceSt) : (s.setSlice i v).pending = s.pending := rfl
@[simp] theorem clock_setSlice (s : State) (i : Nat) (v : SliceSt) : (s.setSlice i v).clock = s.clock := rfl
@[simp] theorem frameTick_setSlice (s : State) (i : Nat) (v : SliceSt) : (s.setSlice i v).frameTick = s.frameTick := rfl
@[simp] theorem freeIdx_setSlice (s : State) (i : Nat) (v : SliceSt) : (s.setSlice i v).freeIdx = s.freeIdx := rfl
@[simp] theorem out_setSlice (s : State) (i : Nat) (v : SliceSt) : (s.setSlice i v).out = s.out := rfl
@[simp] theorem regs_setSlice (s : State) (i : Nat) (v : SliceSt) : (s.setSlice i v).regs = s.regs := rfl
@[simp] theorem latches_setSlice (s : State) (i : Nat) (v : SliceSt) : (s.setSlice i v).latches = s.latches := rfl
@[simp] theorem ports_setSlice (s : State) (i : Nat) (v : SliceSt) : (s.setSlice i v).ports = s.ports := rfl
@[simp] theorem ctxs_setSlice (s : State) (i : Nat) (v : SliceSt) : (s.setSlice i v).ctxs = s.ctxs := rfl
@[simp] theorem coders_setSlice (s : State) (i : Nat) (v : SliceSt) : (s.setSlice i v).coders = s.coders := rfl
@[simp] theorem ring_setSlice (s : State) (i : Nat) (v : SliceSt) : (s.setSlice i v).ring = s.ring := rfl
@[simp] theorem jobs_setSlice (s : State) (i : Nat) (v : SliceSt) : (s.setSlice i v).jobs = s.jobs := rfl
@[simp] theorem seam_setSlice (s : State) (i : Nat) (v : SliceSt) : (s.setSlice i v).seam = s.seam := rfl
@[simp] theorem pen_setSlice (s : State) (i : Nat) (v : SliceSt) : (s.setSlice i v).pen = s.pen := rfl
@[simp] theorem jnl_setSlice (s : State) (i : Nat) (v : SliceSt) : (s.setSlice i v).jnl = s.jnl := rfl
@[simp] theorem ovw_setSlice (s : State) (i : Nat) (v : SliceSt) : (s.setSlice i v).ovw = s.ovw := rfl
@[simp] theorem mem_setSlice (s : State) (i : Nat) (v : SliceSt) : (s.setSlice i v).mem = s.mem := rfl
@[simp] theorem pln_setSlice (s : State) (i : Nat) (v : SliceSt) : (s.setSlice i v).pln = s.pln := rfl
@[simp] theorem sess_setSlice (s : State) (i : Nat) (v : SliceSt) : (s.setSlice i v).sess = s.sess := rfl
@[simp] theorem eths_setSlice (s : State) (i : Nat) (v : SliceSt) : (s.setSlice i v).eths = s.eths := rfl
@[simp] theorem tim_setSlice (s : State) (i : Nat) (v : SliceSt) : (s.setSlice i v).tim = s.tim := rfl
@[simp] theorem fab_setSlice (s : State) (i : Nat) (v : SliceSt) : (s.setSlice i v).fab = s.fab := rfl
@[simp] theorem encs_setSlice (s : State) (i : Nat) (v : SliceSt) : (s.setSlice i v).encs = s.encs := rfl
@[simp] theorem dividers_setSlice (s : State) (i : Nat) (v : SliceSt) : (s.setSlice i v).dividers = s.dividers := rfl
@[simp] theorem axes_setSlice (s : State) (i : Nat) (v : SliceSt) : (s.setSlice i v).axes = s.axes := rfl
@[simp] theorem evt_setSlice (s : State) (i : Nat) (v : SliceSt) : (s.setSlice i v).evt = s.evt := rfl
@[simp] theorem crcs_setSlice (s : State) (i : Nat) (v : SliceSt) : (s.setSlice i v).crcs = s.crcs := rfl
@[simp] theorem cal_setSlice (s : State) (i : Nat) (v : SliceSt) : (s.setSlice i v).cal = s.cal := rfl
@[simp] theorem pwr_setSlice (s : State) (i : Nat) (v : SliceSt) : (s.setSlice i v).pwr = s.pwr := rfl
@[simp] theorem statHeld_setSlice (s : State) (i : Nat) (v : SliceSt) : (s.setSlice i v).statHeld = s.statHeld := rfl
@[simp] theorem zeroLatched_setSlice (s : State) (i : Nat) (v : SliceSt) : (s.setSlice i v).zeroLatched = s.zeroLatched := rfl
@[simp] theorem pending_setCoder (s : State) (i : Nat) (v : Coder) : (s.setCoder i v).pending = s.pending := rfl
@[simp] theorem clock_setCoder (s : State) (i : Nat) (v : Coder) : (s.setCoder i v).clock = s.clock := rfl
@[simp] theorem frameTick_setCoder (s : State) (i : Nat) (v : Coder) : (s.setCoder i v).frameTick = s.frameTick := rfl
@[simp] theorem freeIdx_setCoder (s : State) (i : Nat) (v : Coder) : (s.setCoder i v).freeIdx = s.freeIdx := rfl
@[simp] theorem out_setCoder (s : State) (i : Nat) (v : Coder) : (s.setCoder i v).out = s.out := rfl
@[simp] theorem regs_setCoder (s : State) (i : Nat) (v : Coder) : (s.setCoder i v).regs = s.regs := rfl
@[simp] theorem latches_setCoder (s : State) (i : Nat) (v : Coder) : (s.setCoder i v).latches = s.latches := rfl
@[simp] theorem ports_setCoder (s : State) (i : Nat) (v : Coder) : (s.setCoder i v).ports = s.ports := rfl
@[simp] theorem ctxs_setCoder (s : State) (i : Nat) (v : Coder) : (s.setCoder i v).ctxs = s.ctxs := rfl
@[simp] theorem slices_setCoder (s : State) (i : Nat) (v : Coder) : (s.setCoder i v).slices = s.slices := rfl
@[simp] theorem ring_setCoder (s : State) (i : Nat) (v : Coder) : (s.setCoder i v).ring = s.ring := rfl
@[simp] theorem jobs_setCoder (s : State) (i : Nat) (v : Coder) : (s.setCoder i v).jobs = s.jobs := rfl
@[simp] theorem seam_setCoder (s : State) (i : Nat) (v : Coder) : (s.setCoder i v).seam = s.seam := rfl
@[simp] theorem pen_setCoder (s : State) (i : Nat) (v : Coder) : (s.setCoder i v).pen = s.pen := rfl
@[simp] theorem jnl_setCoder (s : State) (i : Nat) (v : Coder) : (s.setCoder i v).jnl = s.jnl := rfl
@[simp] theorem ovw_setCoder (s : State) (i : Nat) (v : Coder) : (s.setCoder i v).ovw = s.ovw := rfl
@[simp] theorem mem_setCoder (s : State) (i : Nat) (v : Coder) : (s.setCoder i v).mem = s.mem := rfl
@[simp] theorem pln_setCoder (s : State) (i : Nat) (v : Coder) : (s.setCoder i v).pln = s.pln := rfl
@[simp] theorem sess_setCoder (s : State) (i : Nat) (v : Coder) : (s.setCoder i v).sess = s.sess := rfl
@[simp] theorem eths_setCoder (s : State) (i : Nat) (v : Coder) : (s.setCoder i v).eths = s.eths := rfl
@[simp] theorem tim_setCoder (s : State) (i : Nat) (v : Coder) : (s.setCoder i v).tim = s.tim := rfl
@[simp] theorem fab_setCoder (s : State) (i : Nat) (v : Coder) : (s.setCoder i v).fab = s.fab := rfl
@[simp] theorem encs_setCoder (s : State) (i : Nat) (v : Coder) : (s.setCoder i v).encs = s.encs := rfl
@[simp] theorem dividers_setCoder (s : State) (i : Nat) (v : Coder) : (s.setCoder i v).dividers = s.dividers := rfl
@[simp] theorem axes_setCoder (s : State) (i : Nat) (v : Coder) : (s.setCoder i v).axes = s.axes := rfl
@[simp] theorem evt_setCoder (s : State) (i : Nat) (v : Coder) : (s.setCoder i v).evt = s.evt := rfl
@[simp] theorem crcs_setCoder (s : State) (i : Nat) (v : Coder) : (s.setCoder i v).crcs = s.crcs := rfl
@[simp] theorem cal_setCoder (s : State) (i : Nat) (v : Coder) : (s.setCoder i v).cal = s.cal := rfl
@[simp] theorem pwr_setCoder (s : State) (i : Nat) (v : Coder) : (s.setCoder i v).pwr = s.pwr := rfl
@[simp] theorem statHeld_setCoder (s : State) (i : Nat) (v : Coder) : (s.setCoder i v).statHeld = s.statHeld := rfl
@[simp] theorem zeroLatched_setCoder (s : State) (i : Nat) (v : Coder) : (s.setCoder i v).zeroLatched = s.zeroLatched := rfl
@[simp] theorem pending_setMc (s : State) (i : Nat) (v : McSt) : (s.setMc i v).pending = s.pending := rfl
@[simp] theorem clock_setMc (s : State) (i : Nat) (v : McSt) : (s.setMc i v).clock = s.clock := rfl
@[simp] theorem frameTick_setMc (s : State) (i : Nat) (v : McSt) : (s.setMc i v).frameTick = s.frameTick := rfl
@[simp] theorem freeIdx_setMc (s : State) (i : Nat) (v : McSt) : (s.setMc i v).freeIdx = s.freeIdx := rfl
@[simp] theorem out_setMc (s : State) (i : Nat) (v : McSt) : (s.setMc i v).out = s.out := rfl
@[simp] theorem regs_setMc (s : State) (i : Nat) (v : McSt) : (s.setMc i v).regs = s.regs := rfl
@[simp] theorem latches_setMc (s : State) (i : Nat) (v : McSt) : (s.setMc i v).latches = s.latches := rfl
@[simp] theorem ports_setMc (s : State) (i : Nat) (v : McSt) : (s.setMc i v).ports = s.ports := rfl
@[simp] theorem ctxs_setMc (s : State) (i : Nat) (v : McSt) : (s.setMc i v).ctxs = s.ctxs := rfl
@[simp] theorem slices_setMc (s : State) (i : Nat) (v : McSt) : (s.setMc i v).slices = s.slices := rfl
@[simp] theorem coders_setMc (s : State) (i : Nat) (v : McSt) : (s.setMc i v).coders = s.coders := rfl
@[simp] theorem ring_setMc (s : State) (i : Nat) (v : McSt) : (s.setMc i v).ring = s.ring := rfl
@[simp] theorem jobs_setMc (s : State) (i : Nat) (v : McSt) : (s.setMc i v).jobs = s.jobs := rfl
@[simp] theorem seam_setMc (s : State) (i : Nat) (v : McSt) : (s.setMc i v).seam = s.seam := rfl
@[simp] theorem pen_setMc (s : State) (i : Nat) (v : McSt) : (s.setMc i v).pen = s.pen := rfl
@[simp] theorem jnl_setMc (s : State) (i : Nat) (v : McSt) : (s.setMc i v).jnl = s.jnl := rfl
@[simp] theorem ovw_setMc (s : State) (i : Nat) (v : McSt) : (s.setMc i v).ovw = s.ovw := rfl
@[simp] theorem pln_setMc (s : State) (i : Nat) (v : McSt) : (s.setMc i v).pln = s.pln := rfl
@[simp] theorem sess_setMc (s : State) (i : Nat) (v : McSt) : (s.setMc i v).sess = s.sess := rfl
@[simp] theorem eths_setMc (s : State) (i : Nat) (v : McSt) : (s.setMc i v).eths = s.eths := rfl
@[simp] theorem tim_setMc (s : State) (i : Nat) (v : McSt) : (s.setMc i v).tim = s.tim := rfl
@[simp] theorem fab_setMc (s : State) (i : Nat) (v : McSt) : (s.setMc i v).fab = s.fab := rfl
@[simp] theorem encs_setMc (s : State) (i : Nat) (v : McSt) : (s.setMc i v).encs = s.encs := rfl
@[simp] theorem dividers_setMc (s : State) (i : Nat) (v : McSt) : (s.setMc i v).dividers = s.dividers := rfl
@[simp] theorem axes_setMc (s : State) (i : Nat) (v : McSt) : (s.setMc i v).axes = s.axes := rfl
@[simp] theorem evt_setMc (s : State) (i : Nat) (v : McSt) : (s.setMc i v).evt = s.evt := rfl
@[simp] theorem crcs_setMc (s : State) (i : Nat) (v : McSt) : (s.setMc i v).crcs = s.crcs := rfl
@[simp] theorem cal_setMc (s : State) (i : Nat) (v : McSt) : (s.setMc i v).cal = s.cal := rfl
@[simp] theorem pwr_setMc (s : State) (i : Nat) (v : McSt) : (s.setMc i v).pwr = s.pwr := rfl
@[simp] theorem statHeld_setMc (s : State) (i : Nat) (v : McSt) : (s.setMc i v).statHeld = s.statHeld := rfl
@[simp] theorem zeroLatched_setMc (s : State) (i : Nat) (v : McSt) : (s.setMc i v).zeroLatched = s.zeroLatched := rfl
@[simp] theorem pending_setSession (s : State) (i : Nat) (v : Sess) : (s.setSession i v).pending = s.pending := rfl
@[simp] theorem clock_setSession (s : State) (i : Nat) (v : Sess) : (s.setSession i v).clock = s.clock := rfl
@[simp] theorem frameTick_setSession (s : State) (i : Nat) (v : Sess) : (s.setSession i v).frameTick = s.frameTick := rfl
@[simp] theorem freeIdx_setSession (s : State) (i : Nat) (v : Sess) : (s.setSession i v).freeIdx = s.freeIdx := rfl
@[simp] theorem out_setSession (s : State) (i : Nat) (v : Sess) : (s.setSession i v).out = s.out := rfl
@[simp] theorem regs_setSession (s : State) (i : Nat) (v : Sess) : (s.setSession i v).regs = s.regs := rfl
@[simp] theorem latches_setSession (s : State) (i : Nat) (v : Sess) : (s.setSession i v).latches = s.latches := rfl
@[simp] theorem ports_setSession (s : State) (i : Nat) (v : Sess) : (s.setSession i v).ports = s.ports := rfl
@[simp] theorem ctxs_setSession (s : State) (i : Nat) (v : Sess) : (s.setSession i v).ctxs = s.ctxs := rfl
@[simp] theorem slices_setSession (s : State) (i : Nat) (v : Sess) : (s.setSession i v).slices = s.slices := rfl
@[simp] theorem coders_setSession (s : State) (i : Nat) (v : Sess) : (s.setSession i v).coders = s.coders := rfl
@[simp] theorem ring_setSession (s : State) (i : Nat) (v : Sess) : (s.setSession i v).ring = s.ring := rfl
@[simp] theorem jobs_setSession (s : State) (i : Nat) (v : Sess) : (s.setSession i v).jobs = s.jobs := rfl
@[simp] theorem seam_setSession (s : State) (i : Nat) (v : Sess) : (s.setSession i v).seam = s.seam := rfl
@[simp] theorem pen_setSession (s : State) (i : Nat) (v : Sess) : (s.setSession i v).pen = s.pen := rfl
@[simp] theorem jnl_setSession (s : State) (i : Nat) (v : Sess) : (s.setSession i v).jnl = s.jnl := rfl
@[simp] theorem ovw_setSession (s : State) (i : Nat) (v : Sess) : (s.setSession i v).ovw = s.ovw := rfl
@[simp] theorem mem_setSession (s : State) (i : Nat) (v : Sess) : (s.setSession i v).mem = s.mem := rfl
@[simp] theorem pln_setSession (s : State) (i : Nat) (v : Sess) : (s.setSession i v).pln = s.pln := rfl
@[simp] theorem eths_setSession (s : State) (i : Nat) (v : Sess) : (s.setSession i v).eths = s.eths := rfl
@[simp] theorem tim_setSession (s : State) (i : Nat) (v : Sess) : (s.setSession i v).tim = s.tim := rfl
@[simp] theorem fab_setSession (s : State) (i : Nat) (v : Sess) : (s.setSession i v).fab = s.fab := rfl
@[simp] theorem encs_setSession (s : State) (i : Nat) (v : Sess) : (s.setSession i v).encs = s.encs := rfl
@[simp] theorem dividers_setSession (s : State) (i : Nat) (v : Sess) : (s.setSession i v).dividers = s.dividers := rfl
@[simp] theorem axes_setSession (s : State) (i : Nat) (v : Sess) : (s.setSession i v).axes = s.axes := rfl
@[simp] theorem evt_setSession (s : State) (i : Nat) (v : Sess) : (s.setSession i v).evt = s.evt := rfl
@[simp] theorem crcs_setSession (s : State) (i : Nat) (v : Sess) : (s.setSession i v).crcs = s.crcs := rfl
@[simp] theorem cal_setSession (s : State) (i : Nat) (v : Sess) : (s.setSession i v).cal = s.cal := rfl
@[simp] theorem pwr_setSession (s : State) (i : Nat) (v : Sess) : (s.setSession i v).pwr = s.pwr := rfl
@[simp] theorem statHeld_setSession (s : State) (i : Nat) (v : Sess) : (s.setSession i v).statHeld = s.statHeld := rfl
@[simp] theorem zeroLatched_setSession (s : State) (i : Nat) (v : Sess) : (s.setSession i v).zeroLatched = s.zeroLatched := rfl
@[simp] theorem pending_setEth (s : State) (i : Nat) (v : EthSt) : (s.setEth i v).pending = s.pending := rfl
@[simp] theorem clock_setEth (s : State) (i : Nat) (v : EthSt) : (s.setEth i v).clock = s.clock := rfl
@[simp] theorem frameTick_setEth (s : State) (i : Nat) (v : EthSt) : (s.setEth i v).frameTick = s.frameTick := rfl
@[simp] theorem freeIdx_setEth (s : State) (i : Nat) (v : EthSt) : (s.setEth i v).freeIdx = s.freeIdx := rfl
@[simp] theorem out_setEth (s : State) (i : Nat) (v : EthSt) : (s.setEth i v).out = s.out := rfl
@[simp] theorem regs_setEth (s : State) (i : Nat) (v : EthSt) : (s.setEth i v).regs = s.regs := rfl
@[simp] theorem latches_setEth (s : State) (i : Nat) (v : EthSt) : (s.setEth i v).latches = s.latches := rfl
@[simp] theorem ports_setEth (s : State) (i : Nat) (v : EthSt) : (s.setEth i v).ports = s.ports := rfl
@[simp] theorem ctxs_setEth (s : State) (i : Nat) (v : EthSt) : (s.setEth i v).ctxs = s.ctxs := rfl
@[simp] theorem slices_setEth (s : State) (i : Nat) (v : EthSt) : (s.setEth i v).slices = s.slices := rfl
@[simp] theorem coders_setEth (s : State) (i : Nat) (v : EthSt) : (s.setEth i v).coders = s.coders := rfl
@[simp] theorem ring_setEth (s : State) (i : Nat) (v : EthSt) : (s.setEth i v).ring = s.ring := rfl
@[simp] theorem jobs_setEth (s : State) (i : Nat) (v : EthSt) : (s.setEth i v).jobs = s.jobs := rfl
@[simp] theorem seam_setEth (s : State) (i : Nat) (v : EthSt) : (s.setEth i v).seam = s.seam := rfl
@[simp] theorem pen_setEth (s : State) (i : Nat) (v : EthSt) : (s.setEth i v).pen = s.pen := rfl
@[simp] theorem jnl_setEth (s : State) (i : Nat) (v : EthSt) : (s.setEth i v).jnl = s.jnl := rfl
@[simp] theorem ovw_setEth (s : State) (i : Nat) (v : EthSt) : (s.setEth i v).ovw = s.ovw := rfl
@[simp] theorem mem_setEth (s : State) (i : Nat) (v : EthSt) : (s.setEth i v).mem = s.mem := rfl
@[simp] theorem pln_setEth (s : State) (i : Nat) (v : EthSt) : (s.setEth i v).pln = s.pln := rfl
@[simp] theorem sess_setEth (s : State) (i : Nat) (v : EthSt) : (s.setEth i v).sess = s.sess := rfl
@[simp] theorem tim_setEth (s : State) (i : Nat) (v : EthSt) : (s.setEth i v).tim = s.tim := rfl
@[simp] theorem fab_setEth (s : State) (i : Nat) (v : EthSt) : (s.setEth i v).fab = s.fab := rfl
@[simp] theorem encs_setEth (s : State) (i : Nat) (v : EthSt) : (s.setEth i v).encs = s.encs := rfl
@[simp] theorem dividers_setEth (s : State) (i : Nat) (v : EthSt) : (s.setEth i v).dividers = s.dividers := rfl
@[simp] theorem axes_setEth (s : State) (i : Nat) (v : EthSt) : (s.setEth i v).axes = s.axes := rfl
@[simp] theorem evt_setEth (s : State) (i : Nat) (v : EthSt) : (s.setEth i v).evt = s.evt := rfl
@[simp] theorem crcs_setEth (s : State) (i : Nat) (v : EthSt) : (s.setEth i v).crcs = s.crcs := rfl
@[simp] theorem cal_setEth (s : State) (i : Nat) (v : EthSt) : (s.setEth i v).cal = s.cal := rfl
@[simp] theorem pwr_setEth (s : State) (i : Nat) (v : EthSt) : (s.setEth i v).pwr = s.pwr := rfl
@[simp] theorem statHeld_setEth (s : State) (i : Nat) (v : EthSt) : (s.setEth i v).statHeld = s.statHeld := rfl
@[simp] theorem zeroLatched_setEth (s : State) (i : Nat) (v : EthSt) : (s.setEth i v).zeroLatched = s.zeroLatched := rfl
@[simp] theorem pending_setEnc (s : State) (i : Nat) (v : EncSt) : (s.setEnc i v).pending = s.pending := rfl
@[simp] theorem clock_setEnc (s : State) (i : Nat) (v : EncSt) : (s.setEnc i v).clock = s.clock := rfl
@[simp] theorem frameTick_setEnc (s : State) (i : Nat) (v : EncSt) : (s.setEnc i v).frameTick = s.frameTick := rfl
@[simp] theorem freeIdx_setEnc (s : State) (i : Nat) (v : EncSt) : (s.setEnc i v).freeIdx = s.freeIdx := rfl
@[simp] theorem out_setEnc (s : State) (i : Nat) (v : EncSt) : (s.setEnc i v).out = s.out := rfl
@[simp] theorem regs_setEnc (s : State) (i : Nat) (v : EncSt) : (s.setEnc i v).regs = s.regs := rfl
@[simp] theorem latches_setEnc (s : State) (i : Nat) (v : EncSt) : (s.setEnc i v).latches = s.latches := rfl
@[simp] theorem ports_setEnc (s : State) (i : Nat) (v : EncSt) : (s.setEnc i v).ports = s.ports := rfl
@[simp] theorem ctxs_setEnc (s : State) (i : Nat) (v : EncSt) : (s.setEnc i v).ctxs = s.ctxs := rfl
@[simp] theorem slices_setEnc (s : State) (i : Nat) (v : EncSt) : (s.setEnc i v).slices = s.slices := rfl
@[simp] theorem coders_setEnc (s : State) (i : Nat) (v : EncSt) : (s.setEnc i v).coders = s.coders := rfl
@[simp] theorem ring_setEnc (s : State) (i : Nat) (v : EncSt) : (s.setEnc i v).ring = s.ring := rfl
@[simp] theorem jobs_setEnc (s : State) (i : Nat) (v : EncSt) : (s.setEnc i v).jobs = s.jobs := rfl
@[simp] theorem seam_setEnc (s : State) (i : Nat) (v : EncSt) : (s.setEnc i v).seam = s.seam := rfl
@[simp] theorem pen_setEnc (s : State) (i : Nat) (v : EncSt) : (s.setEnc i v).pen = s.pen := rfl
@[simp] theorem jnl_setEnc (s : State) (i : Nat) (v : EncSt) : (s.setEnc i v).jnl = s.jnl := rfl
@[simp] theorem ovw_setEnc (s : State) (i : Nat) (v : EncSt) : (s.setEnc i v).ovw = s.ovw := rfl
@[simp] theorem mem_setEnc (s : State) (i : Nat) (v : EncSt) : (s.setEnc i v).mem = s.mem := rfl
@[simp] theorem pln_setEnc (s : State) (i : Nat) (v : EncSt) : (s.setEnc i v).pln = s.pln := rfl
@[simp] theorem sess_setEnc (s : State) (i : Nat) (v : EncSt) : (s.setEnc i v).sess = s.sess := rfl
@[simp] theorem eths_setEnc (s : State) (i : Nat) (v : EncSt) : (s.setEnc i v).eths = s.eths := rfl
@[simp] theorem tim_setEnc (s : State) (i : Nat) (v : EncSt) : (s.setEnc i v).tim = s.tim := rfl
@[simp] theorem fab_setEnc (s : State) (i : Nat) (v : EncSt) : (s.setEnc i v).fab = s.fab := rfl
@[simp] theorem dividers_setEnc (s : State) (i : Nat) (v : EncSt) : (s.setEnc i v).dividers = s.dividers := rfl
@[simp] theorem axes_setEnc (s : State) (i : Nat) (v : EncSt) : (s.setEnc i v).axes = s.axes := rfl
@[simp] theorem evt_setEnc (s : State) (i : Nat) (v : EncSt) : (s.setEnc i v).evt = s.evt := rfl
@[simp] theorem crcs_setEnc (s : State) (i : Nat) (v : EncSt) : (s.setEnc i v).crcs = s.crcs := rfl
@[simp] theorem cal_setEnc (s : State) (i : Nat) (v : EncSt) : (s.setEnc i v).cal = s.cal := rfl
@[simp] theorem pwr_setEnc (s : State) (i : Nat) (v : EncSt) : (s.setEnc i v).pwr = s.pwr := rfl
@[simp] theorem statHeld_setEnc (s : State) (i : Nat) (v : EncSt) : (s.setEnc i v).statHeld = s.statHeld := rfl
@[simp] theorem zeroLatched_setEnc (s : State) (i : Nat) (v : EncSt) : (s.setEnc i v).zeroLatched = s.zeroLatched := rfl
@[simp] theorem pending_setDivider (s : State) (i : Nat) (v : Int) : (s.setDivider i v).pending = s.pending := rfl
@[simp] theorem clock_setDivider (s : State) (i : Nat) (v : Int) : (s.setDivider i v).clock = s.clock := rfl
@[simp] theorem frameTick_setDivider (s : State) (i : Nat) (v : Int) : (s.setDivider i v).frameTick = s.frameTick := rfl
@[simp] theorem freeIdx_setDivider (s : State) (i : Nat) (v : Int) : (s.setDivider i v).freeIdx = s.freeIdx := rfl
@[simp] theorem out_setDivider (s : State) (i : Nat) (v : Int) : (s.setDivider i v).out = s.out := rfl
@[simp] theorem regs_setDivider (s : State) (i : Nat) (v : Int) : (s.setDivider i v).regs = s.regs := rfl
@[simp] theorem latches_setDivider (s : State) (i : Nat) (v : Int) : (s.setDivider i v).latches = s.latches := rfl
@[simp] theorem ports_setDivider (s : State) (i : Nat) (v : Int) : (s.setDivider i v).ports = s.ports := rfl
@[simp] theorem ctxs_setDivider (s : State) (i : Nat) (v : Int) : (s.setDivider i v).ctxs = s.ctxs := rfl
@[simp] theorem slices_setDivider (s : State) (i : Nat) (v : Int) : (s.setDivider i v).slices = s.slices := rfl
@[simp] theorem coders_setDivider (s : State) (i : Nat) (v : Int) : (s.setDivider i v).coders = s.coders := rfl
@[simp] theorem ring_setDivider (s : State) (i : Nat) (v : Int) : (s.setDivider i v).ring = s.ring := rfl
@[simp] theorem jobs_setDivider (s : State) (i : Nat) (v : Int) : (s.setDivider i v).jobs = s.jobs := rfl
@[simp] theorem seam_setDivider (s : State) (i : Nat) (v : Int) : (s.setDivider i v).seam = s.seam := rfl
@[simp] theorem pen_setDivider (s : State) (i : Nat) (v : Int) : (s.setDivider i v).pen = s.pen := rfl
@[simp] theorem jnl_setDivider (s : State) (i : Nat) (v : Int) : (s.setDivider i v).jnl = s.jnl := rfl
@[simp] theorem ovw_setDivider (s : State) (i : Nat) (v : Int) : (s.setDivider i v).ovw = s.ovw := rfl
@[simp] theorem mem_setDivider (s : State) (i : Nat) (v : Int) : (s.setDivider i v).mem = s.mem := rfl
@[simp] theorem pln_setDivider (s : State) (i : Nat) (v : Int) : (s.setDivider i v).pln = s.pln := rfl
@[simp] theorem sess_setDivider (s : State) (i : Nat) (v : Int) : (s.setDivider i v).sess = s.sess := rfl
@[simp] theorem eths_setDivider (s : State) (i : Nat) (v : Int) : (s.setDivider i v).eths = s.eths := rfl
@[simp] theorem tim_setDivider (s : State) (i : Nat) (v : Int) : (s.setDivider i v).tim = s.tim := rfl
@[simp] theorem fab_setDivider (s : State) (i : Nat) (v : Int) : (s.setDivider i v).fab = s.fab := rfl
@[simp] theorem encs_setDivider (s : State) (i : Nat) (v : Int) : (s.setDivider i v).encs = s.encs := rfl
@[simp] theorem axes_setDivider (s : State) (i : Nat) (v : Int) : (s.setDivider i v).axes = s.axes := rfl
@[simp] theorem evt_setDivider (s : State) (i : Nat) (v : Int) : (s.setDivider i v).evt = s.evt := rfl
@[simp] theorem crcs_setDivider (s : State) (i : Nat) (v : Int) : (s.setDivider i v).crcs = s.crcs := rfl
@[simp] theorem cal_setDivider (s : State) (i : Nat) (v : Int) : (s.setDivider i v).cal = s.cal := rfl
@[simp] theorem pwr_setDivider (s : State) (i : Nat) (v : Int) : (s.setDivider i v).pwr = s.pwr := rfl
@[simp] theorem statHeld_setDivider (s : State) (i : Nat) (v : Int) : (s.setDivider i v).statHeld = s.statHeld := rfl
@[simp] theorem zeroLatched_setDivider (s : State) (i : Nat) (v : Int) : (s.setDivider i v).zeroLatched = s.zeroLatched := rfl
@[simp] theorem pending_setAx (s : State) (i : Nat) (v : AxSt) : (s.setAx i v).pending = s.pending := rfl
@[simp] theorem clock_setAx (s : State) (i : Nat) (v : AxSt) : (s.setAx i v).clock = s.clock := rfl
@[simp] theorem frameTick_setAx (s : State) (i : Nat) (v : AxSt) : (s.setAx i v).frameTick = s.frameTick := rfl
@[simp] theorem freeIdx_setAx (s : State) (i : Nat) (v : AxSt) : (s.setAx i v).freeIdx = s.freeIdx := rfl
@[simp] theorem out_setAx (s : State) (i : Nat) (v : AxSt) : (s.setAx i v).out = s.out := rfl
@[simp] theorem regs_setAx (s : State) (i : Nat) (v : AxSt) : (s.setAx i v).regs = s.regs := rfl
@[simp] theorem latches_setAx (s : State) (i : Nat) (v : AxSt) : (s.setAx i v).latches = s.latches := rfl
@[simp] theorem ports_setAx (s : State) (i : Nat) (v : AxSt) : (s.setAx i v).ports = s.ports := rfl
@[simp] theorem ctxs_setAx (s : State) (i : Nat) (v : AxSt) : (s.setAx i v).ctxs = s.ctxs := rfl
@[simp] theorem slices_setAx (s : State) (i : Nat) (v : AxSt) : (s.setAx i v).slices = s.slices := rfl
@[simp] theorem coders_setAx (s : State) (i : Nat) (v : AxSt) : (s.setAx i v).coders = s.coders := rfl
@[simp] theorem ring_setAx (s : State) (i : Nat) (v : AxSt) : (s.setAx i v).ring = s.ring := rfl
@[simp] theorem jobs_setAx (s : State) (i : Nat) (v : AxSt) : (s.setAx i v).jobs = s.jobs := rfl
@[simp] theorem seam_setAx (s : State) (i : Nat) (v : AxSt) : (s.setAx i v).seam = s.seam := rfl
@[simp] theorem pen_setAx (s : State) (i : Nat) (v : AxSt) : (s.setAx i v).pen = s.pen := rfl
@[simp] theorem jnl_setAx (s : State) (i : Nat) (v : AxSt) : (s.setAx i v).jnl = s.jnl := rfl
@[simp] theorem ovw_setAx (s : State) (i : Nat) (v : AxSt) : (s.setAx i v).ovw = s.ovw := rfl
@[simp] theorem mem_setAx (s : State) (i : Nat) (v : AxSt) : (s.setAx i v).mem = s.mem := rfl
@[simp] theorem pln_setAx (s : State) (i : Nat) (v : AxSt) : (s.setAx i v).pln = s.pln := rfl
@[simp] theorem sess_setAx (s : State) (i : Nat) (v : AxSt) : (s.setAx i v).sess = s.sess := rfl
@[simp] theorem eths_setAx (s : State) (i : Nat) (v : AxSt) : (s.setAx i v).eths = s.eths := rfl
@[simp] theorem tim_setAx (s : State) (i : Nat) (v : AxSt) : (s.setAx i v).tim = s.tim := rfl
@[simp] theorem fab_setAx (s : State) (i : Nat) (v : AxSt) : (s.setAx i v).fab = s.fab := rfl
@[simp] theorem encs_setAx (s : State) (i : Nat) (v : AxSt) : (s.setAx i v).encs = s.encs := rfl
@[simp] theorem dividers_setAx (s : State) (i : Nat) (v : AxSt) : (s.setAx i v).dividers = s.dividers := rfl
@[simp] theorem evt_setAx (s : State) (i : Nat) (v : AxSt) : (s.setAx i v).evt = s.evt := rfl
@[simp] theorem crcs_setAx (s : State) (i : Nat) (v : AxSt) : (s.setAx i v).crcs = s.crcs := rfl
@[simp] theorem cal_setAx (s : State) (i : Nat) (v : AxSt) : (s.setAx i v).cal = s.cal := rfl
@[simp] theorem pwr_setAx (s : State) (i : Nat) (v : AxSt) : (s.setAx i v).pwr = s.pwr := rfl
@[simp] theorem statHeld_setAx (s : State) (i : Nat) (v : AxSt) : (s.setAx i v).statHeld = s.statHeld := rfl
@[simp] theorem zeroLatched_setAx (s : State) (i : Nat) (v : AxSt) : (s.setAx i v).zeroLatched = s.zeroLatched := rfl
@[simp] theorem pending_setCrc (s : State) (i : Nat) (v : CrcSt) : (s.setCrc i v).pending = s.pending := rfl
@[simp] theorem clock_setCrc (s : State) (i : Nat) (v : CrcSt) : (s.setCrc i v).clock = s.clock := rfl
@[simp] theorem frameTick_setCrc (s : State) (i : Nat) (v : CrcSt) : (s.setCrc i v).frameTick = s.frameTick := rfl
@[simp] theorem freeIdx_setCrc (s : State) (i : Nat) (v : CrcSt) : (s.setCrc i v).freeIdx = s.freeIdx := rfl
@[simp] theorem out_setCrc (s : State) (i : Nat) (v : CrcSt) : (s.setCrc i v).out = s.out := rfl
@[simp] theorem regs_setCrc (s : State) (i : Nat) (v : CrcSt) : (s.setCrc i v).regs = s.regs := rfl
@[simp] theorem latches_setCrc (s : State) (i : Nat) (v : CrcSt) : (s.setCrc i v).latches = s.latches := rfl
@[simp] theorem ports_setCrc (s : State) (i : Nat) (v : CrcSt) : (s.setCrc i v).ports = s.ports := rfl
@[simp] theorem ctxs_setCrc (s : State) (i : Nat) (v : CrcSt) : (s.setCrc i v).ctxs = s.ctxs := rfl
@[simp] theorem slices_setCrc (s : State) (i : Nat) (v : CrcSt) : (s.setCrc i v).slices = s.slices := rfl
@[simp] theorem coders_setCrc (s : State) (i : Nat) (v : CrcSt) : (s.setCrc i v).coders = s.coders := rfl
@[simp] theorem ring_setCrc (s : State) (i : Nat) (v : CrcSt) : (s.setCrc i v).ring = s.ring := rfl
@[simp] theorem jobs_setCrc (s : State) (i : Nat) (v : CrcSt) : (s.setCrc i v).jobs = s.jobs := rfl
@[simp] theorem seam_setCrc (s : State) (i : Nat) (v : CrcSt) : (s.setCrc i v).seam = s.seam := rfl
@[simp] theorem pen_setCrc (s : State) (i : Nat) (v : CrcSt) : (s.setCrc i v).pen = s.pen := rfl
@[simp] theorem jnl_setCrc (s : State) (i : Nat) (v : CrcSt) : (s.setCrc i v).jnl = s.jnl := rfl
@[simp] theorem ovw_setCrc (s : State) (i : Nat) (v : CrcSt) : (s.setCrc i v).ovw = s.ovw := rfl
@[simp] theorem mem_setCrc (s : State) (i : Nat) (v : CrcSt) : (s.setCrc i v).mem = s.mem := rfl
@[simp] theorem pln_setCrc (s : State) (i : Nat) (v : CrcSt) : (s.setCrc i v).pln = s.pln := rfl
@[simp] theorem sess_setCrc (s : State) (i : Nat) (v : CrcSt) : (s.setCrc i v).sess = s.sess := rfl
@[simp] theorem eths_setCrc (s : State) (i : Nat) (v : CrcSt) : (s.setCrc i v).eths = s.eths := rfl
@[simp] theorem tim_setCrc (s : State) (i : Nat) (v : CrcSt) : (s.setCrc i v).tim = s.tim := rfl
@[simp] theorem fab_setCrc (s : State) (i : Nat) (v : CrcSt) : (s.setCrc i v).fab = s.fab := rfl
@[simp] theorem encs_setCrc (s : State) (i : Nat) (v : CrcSt) : (s.setCrc i v).encs = s.encs := rfl
@[simp] theorem dividers_setCrc (s : State) (i : Nat) (v : CrcSt) : (s.setCrc i v).dividers = s.dividers := rfl
@[simp] theorem axes_setCrc (s : State) (i : Nat) (v : CrcSt) : (s.setCrc i v).axes = s.axes := rfl
@[simp] theorem evt_setCrc (s : State) (i : Nat) (v : CrcSt) : (s.setCrc i v).evt = s.evt := rfl
@[simp] theorem cal_setCrc (s : State) (i : Nat) (v : CrcSt) : (s.setCrc i v).cal = s.cal := rfl
@[simp] theorem pwr_setCrc (s : State) (i : Nat) (v : CrcSt) : (s.setCrc i v).pwr = s.pwr := rfl
@[simp] theorem statHeld_setCrc (s : State) (i : Nat) (v : CrcSt) : (s.setCrc i v).statHeld = s.statHeld := rfl
@[simp] theorem zeroLatched_setCrc (s : State) (i : Nat) (v : CrcSt) : (s.setCrc i v).zeroLatched = s.zeroLatched := rfl
@[simp] theorem pending_setTout (s : State) (i : Nat) (v : ToutSt) : (s.setTout i v).pending = s.pending := rfl
@[simp] theorem clock_setTout (s : State) (i : Nat) (v : ToutSt) : (s.setTout i v).clock = s.clock := rfl
@[simp] theorem frameTick_setTout (s : State) (i : Nat) (v : ToutSt) : (s.setTout i v).frameTick = s.frameTick := rfl
@[simp] theorem freeIdx_setTout (s : State) (i : Nat) (v : ToutSt) : (s.setTout i v).freeIdx = s.freeIdx := rfl
@[simp] theorem out_setTout (s : State) (i : Nat) (v : ToutSt) : (s.setTout i v).out = s.out := rfl
@[simp] theorem regs_setTout (s : State) (i : Nat) (v : ToutSt) : (s.setTout i v).regs = s.regs := rfl
@[simp] theorem latches_setTout (s : State) (i : Nat) (v : ToutSt) : (s.setTout i v).latches = s.latches := rfl
@[simp] theorem ports_setTout (s : State) (i : Nat) (v : ToutSt) : (s.setTout i v).ports = s.ports := rfl
@[simp] theorem ctxs_setTout (s : State) (i : Nat) (v : ToutSt) : (s.setTout i v).ctxs = s.ctxs := rfl
@[simp] theorem slices_setTout (s : State) (i : Nat) (v : ToutSt) : (s.setTout i v).slices = s.slices := rfl
@[simp] theorem coders_setTout (s : State) (i : Nat) (v : ToutSt) : (s.setTout i v).coders = s.coders := rfl
@[simp] theorem ring_setTout (s : State) (i : Nat) (v : ToutSt) : (s.setTout i v).ring = s.ring := rfl
@[simp] theorem jobs_setTout (s : State) (i : Nat) (v : ToutSt) : (s.setTout i v).jobs = s.jobs := rfl
@[simp] theorem seam_setTout (s : State) (i : Nat) (v : ToutSt) : (s.setTout i v).seam = s.seam := rfl
@[simp] theorem pen_setTout (s : State) (i : Nat) (v : ToutSt) : (s.setTout i v).pen = s.pen := rfl
@[simp] theorem jnl_setTout (s : State) (i : Nat) (v : ToutSt) : (s.setTout i v).jnl = s.jnl := rfl
@[simp] theorem ovw_setTout (s : State) (i : Nat) (v : ToutSt) : (s.setTout i v).ovw = s.ovw := rfl
@[simp] theorem mem_setTout (s : State) (i : Nat) (v : ToutSt) : (s.setTout i v).mem = s.mem := rfl
@[simp] theorem pln_setTout (s : State) (i : Nat) (v : ToutSt) : (s.setTout i v).pln = s.pln := rfl
@[simp] theorem sess_setTout (s : State) (i : Nat) (v : ToutSt) : (s.setTout i v).sess = s.sess := rfl
@[simp] theorem eths_setTout (s : State) (i : Nat) (v : ToutSt) : (s.setTout i v).eths = s.eths := rfl
@[simp] theorem fab_setTout (s : State) (i : Nat) (v : ToutSt) : (s.setTout i v).fab = s.fab := rfl
@[simp] theorem encs_setTout (s : State) (i : Nat) (v : ToutSt) : (s.setTout i v).encs = s.encs := rfl
@[simp] theorem dividers_setTout (s : State) (i : Nat) (v : ToutSt) : (s.setTout i v).dividers = s.dividers := rfl
@[simp] theorem axes_setTout (s : State) (i : Nat) (v : ToutSt) : (s.setTout i v).axes = s.axes := rfl
@[simp] theorem evt_setTout (s : State) (i : Nat) (v : ToutSt) : (s.setTout i v).evt = s.evt := rfl
@[simp] theorem crcs_setTout (s : State) (i : Nat) (v : ToutSt) : (s.setTout i v).crcs = s.crcs := rfl
@[simp] theorem cal_setTout (s : State) (i : Nat) (v : ToutSt) : (s.setTout i v).cal = s.cal := rfl
@[simp] theorem pwr_setTout (s : State) (i : Nat) (v : ToutSt) : (s.setTout i v).pwr = s.pwr := rfl
@[simp] theorem statHeld_setTout (s : State) (i : Nat) (v : ToutSt) : (s.setTout i v).statHeld = s.statHeld := rfl
@[simp] theorem zeroLatched_setTout (s : State) (i : Nat) (v : ToutSt) : (s.setTout i v).zeroLatched = s.zeroLatched := rfl
@[simp] theorem pending_setPtp (s : State) (i : Nat) (v : PtpPort) : (s.setPtp i v).pending = s.pending := rfl
@[simp] theorem clock_setPtp (s : State) (i : Nat) (v : PtpPort) : (s.setPtp i v).clock = s.clock := rfl
@[simp] theorem frameTick_setPtp (s : State) (i : Nat) (v : PtpPort) : (s.setPtp i v).frameTick = s.frameTick := rfl
@[simp] theorem freeIdx_setPtp (s : State) (i : Nat) (v : PtpPort) : (s.setPtp i v).freeIdx = s.freeIdx := rfl
@[simp] theorem out_setPtp (s : State) (i : Nat) (v : PtpPort) : (s.setPtp i v).out = s.out := rfl
@[simp] theorem regs_setPtp (s : State) (i : Nat) (v : PtpPort) : (s.setPtp i v).regs = s.regs := rfl
@[simp] theorem latches_setPtp (s : State) (i : Nat) (v : PtpPort) : (s.setPtp i v).latches = s.latches := rfl
@[simp] theorem ports_setPtp (s : State) (i : Nat) (v : PtpPort) : (s.setPtp i v).ports = s.ports := rfl
@[simp] theorem ctxs_setPtp (s : State) (i : Nat) (v : PtpPort) : (s.setPtp i v).ctxs = s.ctxs := rfl
@[simp] theorem slices_setPtp (s : State) (i : Nat) (v : PtpPort) : (s.setPtp i v).slices = s.slices := rfl
@[simp] theorem coders_setPtp (s : State) (i : Nat) (v : PtpPort) : (s.setPtp i v).coders = s.coders := rfl
@[simp] theorem ring_setPtp (s : State) (i : Nat) (v : PtpPort) : (s.setPtp i v).ring = s.ring := rfl
@[simp] theorem jobs_setPtp (s : State) (i : Nat) (v : PtpPort) : (s.setPtp i v).jobs = s.jobs := rfl
@[simp] theorem seam_setPtp (s : State) (i : Nat) (v : PtpPort) : (s.setPtp i v).seam = s.seam := rfl
@[simp] theorem pen_setPtp (s : State) (i : Nat) (v : PtpPort) : (s.setPtp i v).pen = s.pen := rfl
@[simp] theorem jnl_setPtp (s : State) (i : Nat) (v : PtpPort) : (s.setPtp i v).jnl = s.jnl := rfl
@[simp] theorem ovw_setPtp (s : State) (i : Nat) (v : PtpPort) : (s.setPtp i v).ovw = s.ovw := rfl
@[simp] theorem mem_setPtp (s : State) (i : Nat) (v : PtpPort) : (s.setPtp i v).mem = s.mem := rfl
@[simp] theorem pln_setPtp (s : State) (i : Nat) (v : PtpPort) : (s.setPtp i v).pln = s.pln := rfl
@[simp] theorem sess_setPtp (s : State) (i : Nat) (v : PtpPort) : (s.setPtp i v).sess = s.sess := rfl
@[simp] theorem eths_setPtp (s : State) (i : Nat) (v : PtpPort) : (s.setPtp i v).eths = s.eths := rfl
@[simp] theorem fab_setPtp (s : State) (i : Nat) (v : PtpPort) : (s.setPtp i v).fab = s.fab := rfl
@[simp] theorem encs_setPtp (s : State) (i : Nat) (v : PtpPort) : (s.setPtp i v).encs = s.encs := rfl
@[simp] theorem dividers_setPtp (s : State) (i : Nat) (v : PtpPort) : (s.setPtp i v).dividers = s.dividers := rfl
@[simp] theorem axes_setPtp (s : State) (i : Nat) (v : PtpPort) : (s.setPtp i v).axes = s.axes := rfl
@[simp] theorem evt_setPtp (s : State) (i : Nat) (v : PtpPort) : (s.setPtp i v).evt = s.evt := rfl
@[simp] theorem crcs_setPtp (s : State) (i : Nat) (v : PtpPort) : (s.setPtp i v).crcs = s.crcs := rfl
@[simp] theorem cal_setPtp (s : State) (i : Nat) (v : PtpPort) : (s.setPtp i v).cal = s.cal := rfl
@[simp] theorem pwr_setPtp (s : State) (i : Nat) (v : PtpPort) : (s.setPtp i v).pwr = s.pwr := rfl
@[simp] theorem statHeld_setPtp (s : State) (i : Nat) (v : PtpPort) : (s.setPtp i v).statHeld = s.statHeld := rfl
@[simp] theorem zeroLatched_setPtp (s : State) (i : Nat) (v : PtpPort) : (s.setPtp i v).zeroLatched = s.zeroLatched := rfl
@[simp] theorem pending_setCell (s : State) (i : Nat) (v : CellSt) : (s.setCell i v).pending = s.pending := rfl
@[simp] theorem clock_setCell (s : State) (i : Nat) (v : CellSt) : (s.setCell i v).clock = s.clock := rfl
@[simp] theorem frameTick_setCell (s : State) (i : Nat) (v : CellSt) : (s.setCell i v).frameTick = s.frameTick := rfl
@[simp] theorem freeIdx_setCell (s : State) (i : Nat) (v : CellSt) : (s.setCell i v).freeIdx = s.freeIdx := rfl
@[simp] theorem out_setCell (s : State) (i : Nat) (v : CellSt) : (s.setCell i v).out = s.out := rfl
@[simp] theorem regs_setCell (s : State) (i : Nat) (v : CellSt) : (s.setCell i v).regs = s.regs := rfl
@[simp] theorem latches_setCell (s : State) (i : Nat) (v : CellSt) : (s.setCell i v).latches = s.latches := rfl
@[simp] theorem ports_setCell (s : State) (i : Nat) (v : CellSt) : (s.setCell i v).ports = s.ports := rfl
@[simp] theorem ctxs_setCell (s : State) (i : Nat) (v : CellSt) : (s.setCell i v).ctxs = s.ctxs := rfl
@[simp] theorem slices_setCell (s : State) (i : Nat) (v : CellSt) : (s.setCell i v).slices = s.slices := rfl
@[simp] theorem coders_setCell (s : State) (i : Nat) (v : CellSt) : (s.setCell i v).coders = s.coders := rfl
@[simp] theorem ring_setCell (s : State) (i : Nat) (v : CellSt) : (s.setCell i v).ring = s.ring := rfl
@[simp] theorem jobs_setCell (s : State) (i : Nat) (v : CellSt) : (s.setCell i v).jobs = s.jobs := rfl
@[simp] theorem seam_setCell (s : State) (i : Nat) (v : CellSt) : (s.setCell i v).seam = s.seam := rfl
@[simp] theorem pen_setCell (s : State) (i : Nat) (v : CellSt) : (s.setCell i v).pen = s.pen := rfl
@[simp] theorem jnl_setCell (s : State) (i : Nat) (v : CellSt) : (s.setCell i v).jnl = s.jnl := rfl
@[simp] theorem ovw_setCell (s : State) (i : Nat) (v : CellSt) : (s.setCell i v).ovw = s.ovw := rfl
@[simp] theorem mem_setCell (s : State) (i : Nat) (v : CellSt) : (s.setCell i v).mem = s.mem := rfl
@[simp] theorem pln_setCell (s : State) (i : Nat) (v : CellSt) : (s.setCell i v).pln = s.pln := rfl
@[simp] theorem sess_setCell (s : State) (i : Nat) (v : CellSt) : (s.setCell i v).sess = s.sess := rfl
@[simp] theorem eths_setCell (s : State) (i : Nat) (v : CellSt) : (s.setCell i v).eths = s.eths := rfl
@[simp] theorem tim_setCell (s : State) (i : Nat) (v : CellSt) : (s.setCell i v).tim = s.tim := rfl
@[simp] theorem fab_setCell (s : State) (i : Nat) (v : CellSt) : (s.setCell i v).fab = s.fab := rfl
@[simp] theorem encs_setCell (s : State) (i : Nat) (v : CellSt) : (s.setCell i v).encs = s.encs := rfl
@[simp] theorem dividers_setCell (s : State) (i : Nat) (v : CellSt) : (s.setCell i v).dividers = s.dividers := rfl
@[simp] theorem axes_setCell (s : State) (i : Nat) (v : CellSt) : (s.setCell i v).axes = s.axes := rfl
@[simp] theorem crcs_setCell (s : State) (i : Nat) (v : CellSt) : (s.setCell i v).crcs = s.crcs := rfl
@[simp] theorem cal_setCell (s : State) (i : Nat) (v : CellSt) : (s.setCell i v).cal = s.cal := rfl
@[simp] theorem pwr_setCell (s : State) (i : Nat) (v : CellSt) : (s.setCell i v).pwr = s.pwr := rfl
@[simp] theorem statHeld_setCell (s : State) (i : Nat) (v : CellSt) : (s.setCell i v).statHeld = s.statHeld := rfl
@[simp] theorem zeroLatched_setCell (s : State) (i : Nat) (v : CellSt) : (s.setCell i v).zeroLatched = s.zeroLatched := rfl
@[simp] theorem pending_setReg (s : State) (a : Nat) (w : Word) : (s.setReg a w).pending = s.pending := rfl
@[simp] theorem clock_setReg (s : State) (a : Nat) (w : Word) : (s.setReg a w).clock = s.clock := rfl
@[simp] theorem frameTick_setReg (s : State) (a : Nat) (w : Word) : (s.setReg a w).frameTick = s.frameTick := rfl
@[simp] theorem freeIdx_setReg (s : State) (a : Nat) (w : Word) : (s.setReg a w).freeIdx = s.freeIdx := rfl
@[simp] theorem out_setReg (s : State) (a : Nat) (w : Word) : (s.setReg a w).out = s.out := rfl
@[simp] theorem latches_setReg (s : State) (a : Nat) (w : Word) : (s.setReg a w).latches = s.latches := rfl
@[simp] theorem ports_setReg (s : State) (a : Nat) (w : Word) : (s.setReg a w).ports = s.ports := rfl
@[simp] theorem ctxs_setReg (s : State) (a : Nat) (w : Word) : (s.setReg a w).ctxs = s.ctxs := rfl
@[simp] theorem slices_setReg (s : State) (a : Nat) (w : Word) : (s.setReg a w).slices = s.slices := rfl
@[simp] theorem coders_setReg (s : State) (a : Nat) (w : Word) : (s.setReg a w).coders = s.coders := rfl
@[simp] theorem ring_setReg (s : State) (a : Nat) (w : Word) : (s.setReg a w).ring = s.ring := rfl
@[simp] theorem jobs_setReg (s : State) (a : Nat) (w : Word) : (s.setReg a w).jobs = s.jobs := rfl
@[simp] theorem seam_setReg (s : State) (a : Nat) (w : Word) : (s.setReg a w).seam = s.seam := rfl
@[simp] theorem pen_setReg (s : State) (a : Nat) (w : Word) : (s.setReg a w).pen = s.pen := rfl
@[simp] theorem jnl_setReg (s : State) (a : Nat) (w : Word) : (s.setReg a w).jnl = s.jnl := rfl
@[simp] theorem ovw_setReg (s : State) (a : Nat) (w : Word) : (s.setReg a w).ovw = s.ovw := rfl
@[simp] theorem mem_setReg (s : State) (a : Nat) (w : Word) : (s.setReg a w).mem = s.mem := rfl
@[simp] theorem pln_setReg (s : State) (a : Nat) (w : Word) : (s.setReg a w).pln = s.pln := rfl
@[simp] theorem sess_setReg (s : State) (a : Nat) (w : Word) : (s.setReg a w).sess = s.sess := rfl
@[simp] theorem eths_setReg (s : State) (a : Nat) (w : Word) : (s.setReg a w).eths = s.eths := rfl
@[simp] theorem tim_setReg (s : State) (a : Nat) (w : Word) : (s.setReg a w).tim = s.tim := rfl
@[simp] theorem fab_setReg (s : State) (a : Nat) (w : Word) : (s.setReg a w).fab = s.fab := rfl
@[simp] theorem encs_setReg (s : State) (a : Nat) (w : Word) : (s.setReg a w).encs = s.encs := rfl
@[simp] theorem dividers_setReg (s : State) (a : Nat) (w : Word) : (s.setReg a w).dividers = s.dividers := rfl
@[simp] theorem axes_setReg (s : State) (a : Nat) (w : Word) : (s.setReg a w).axes = s.axes := rfl
@[simp] theorem evt_setReg (s : State) (a : Nat) (w : Word) : (s.setReg a w).evt = s.evt := rfl
@[simp] theorem crcs_setReg (s : State) (a : Nat) (w : Word) : (s.setReg a w).crcs = s.crcs := rfl
@[simp] theorem cal_setReg (s : State) (a : Nat) (w : Word) : (s.setReg a w).cal = s.cal := rfl
@[simp] theorem pwr_setReg (s : State) (a : Nat) (w : Word) : (s.setReg a w).pwr = s.pwr := rfl
@[simp] theorem statHeld_setReg (s : State) (a : Nat) (w : Word) : (s.setReg a w).statHeld = s.statHeld := rfl
@[simp] theorem zeroLatched_setReg (s : State) (a : Nat) (w : Word) : (s.setReg a w).zeroLatched = s.zeroLatched := rfl
@[simp] theorem pending_setFld (s : State) (f : Fld) (n : Nat) : (s.setFld f n).pending = s.pending := rfl
@[simp] theorem clock_setFld (s : State) (f : Fld) (n : Nat) : (s.setFld f n).clock = s.clock := rfl
@[simp] theorem frameTick_setFld (s : State) (f : Fld) (n : Nat) : (s.setFld f n).frameTick = s.frameTick := rfl
@[simp] theorem freeIdx_setFld (s : State) (f : Fld) (n : Nat) : (s.setFld f n).freeIdx = s.freeIdx := rfl
@[simp] theorem out_setFld (s : State) (f : Fld) (n : Nat) : (s.setFld f n).out = s.out := rfl
@[simp] theorem latches_setFld (s : State) (f : Fld) (n : Nat) : (s.setFld f n).latches = s.latches := rfl
@[simp] theorem ports_setFld (s : State) (f : Fld) (n : Nat) : (s.setFld f n).ports = s.ports := rfl
@[simp] theorem ctxs_setFld (s : State) (f : Fld) (n : Nat) : (s.setFld f n).ctxs = s.ctxs := rfl
@[simp] theorem slices_setFld (s : State) (f : Fld) (n : Nat) : (s.setFld f n).slices = s.slices := rfl
@[simp] theorem coders_setFld (s : State) (f : Fld) (n : Nat) : (s.setFld f n).coders = s.coders := rfl
@[simp] theorem ring_setFld (s : State) (f : Fld) (n : Nat) : (s.setFld f n).ring = s.ring := rfl
@[simp] theorem jobs_setFld (s : State) (f : Fld) (n : Nat) : (s.setFld f n).jobs = s.jobs := rfl
@[simp] theorem seam_setFld (s : State) (f : Fld) (n : Nat) : (s.setFld f n).seam = s.seam := rfl
@[simp] theorem pen_setFld (s : State) (f : Fld) (n : Nat) : (s.setFld f n).pen = s.pen := rfl
@[simp] theorem jnl_setFld (s : State) (f : Fld) (n : Nat) : (s.setFld f n).jnl = s.jnl := rfl
@[simp] theorem ovw_setFld (s : State) (f : Fld) (n : Nat) : (s.setFld f n).ovw = s.ovw := rfl
@[simp] theorem mem_setFld (s : State) (f : Fld) (n : Nat) : (s.setFld f n).mem = s.mem := rfl
@[simp] theorem pln_setFld (s : State) (f : Fld) (n : Nat) : (s.setFld f n).pln = s.pln := rfl
@[simp] theorem sess_setFld (s : State) (f : Fld) (n : Nat) : (s.setFld f n).sess = s.sess := rfl
@[simp] theorem eths_setFld (s : State) (f : Fld) (n : Nat) : (s.setFld f n).eths = s.eths := rfl
@[simp] theorem tim_setFld (s : State) (f : Fld) (n : Nat) : (s.setFld f n).tim = s.tim := rfl
@[simp] theorem fab_setFld (s : State) (f : Fld) (n : Nat) : (s.setFld f n).fab = s.fab := rfl
@[simp] theorem encs_setFld (s : State) (f : Fld) (n : Nat) : (s.setFld f n).encs = s.encs := rfl
@[simp] theorem dividers_setFld (s : State) (f : Fld) (n : Nat) : (s.setFld f n).dividers = s.dividers := rfl
@[simp] theorem axes_setFld (s : State) (f : Fld) (n : Nat) : (s.setFld f n).axes = s.axes := rfl
@[simp] theorem evt_setFld (s : State) (f : Fld) (n : Nat) : (s.setFld f n).evt = s.evt := rfl
@[simp] theorem crcs_setFld (s : State) (f : Fld) (n : Nat) : (s.setFld f n).crcs = s.crcs := rfl
@[simp] theorem cal_setFld (s : State) (f : Fld) (n : Nat) : (s.setFld f n).cal = s.cal := rfl
@[simp] theorem pwr_setFld (s : State) (f : Fld) (n : Nat) : (s.setFld f n).pwr = s.pwr := rfl
@[simp] theorem statHeld_setFld (s : State) (f : Fld) (n : Nat) : (s.setFld f n).statHeld = s.statHeld := rfl
@[simp] theorem zeroLatched_setFld (s : State) (f : Fld) (n : Nat) : (s.setFld f n).zeroLatched = s.zeroLatched := rfl
@[simp] theorem pending_setFlag (s : State) (f : Fld) (b : Bool) : (s.setFlag f b).pending = s.pending := rfl
@[simp] theorem clock_setFlag (s : State) (f : Fld) (b : Bool) : (s.setFlag f b).clock = s.clock := rfl
@[simp] theorem frameTick_setFlag (s : State) (f : Fld) (b : Bool) : (s.setFlag f b).frameTick = s.frameTick := rfl
@[simp] theorem freeIdx_setFlag (s : State) (f : Fld) (b : Bool) : (s.setFlag f b).freeIdx = s.freeIdx := rfl
@[simp] theorem out_setFlag (s : State) (f : Fld) (b : Bool) : (s.setFlag f b).out = s.out := rfl
@[simp] theorem latches_setFlag (s : State) (f : Fld) (b : Bool) : (s.setFlag f b).latches = s.latches := rfl
@[simp] theorem ports_setFlag (s : State) (f : Fld) (b : Bool) : (s.setFlag f b).ports = s.ports := rfl
@[simp] theorem ctxs_setFlag (s : State) (f : Fld) (b : Bool) : (s.setFlag f b).ctxs = s.ctxs := rfl
@[simp] theorem slices_setFlag (s : State) (f : Fld) (b : Bool) : (s.setFlag f b).slices = s.slices := rfl
@[simp] theorem coders_setFlag (s : State) (f : Fld) (b : Bool) : (s.setFlag f b).coders = s.coders := rfl
@[simp] theorem ring_setFlag (s : State) (f : Fld) (b : Bool) : (s.setFlag f b).ring = s.ring := rfl
@[simp] theorem jobs_setFlag (s : State) (f : Fld) (b : Bool) : (s.setFlag f b).jobs = s.jobs := rfl
@[simp] theorem seam_setFlag (s : State) (f : Fld) (b : Bool) : (s.setFlag f b).seam = s.seam := rfl
@[simp] theorem pen_setFlag (s : State) (f : Fld) (b : Bool) : (s.setFlag f b).pen = s.pen := rfl
@[simp] theorem jnl_setFlag (s : State) (f : Fld) (b : Bool) : (s.setFlag f b).jnl = s.jnl := rfl
@[simp] theorem ovw_setFlag (s : State) (f : Fld) (b : Bool) : (s.setFlag f b).ovw = s.ovw := rfl
@[simp] theorem mem_setFlag (s : State) (f : Fld) (b : Bool) : (s.setFlag f b).mem = s.mem := rfl
@[simp] theorem pln_setFlag (s : State) (f : Fld) (b : Bool) : (s.setFlag f b).pln = s.pln := rfl
@[simp] theorem sess_setFlag (s : State) (f : Fld) (b : Bool) : (s.setFlag f b).sess = s.sess := rfl
@[simp] theorem eths_setFlag (s : State) (f : Fld) (b : Bool) : (s.setFlag f b).eths = s.eths := rfl
@[simp] theorem tim_setFlag (s : State) (f : Fld) (b : Bool) : (s.setFlag f b).tim = s.tim := rfl
@[simp] theorem fab_setFlag (s : State) (f : Fld) (b : Bool) : (s.setFlag f b).fab = s.fab := rfl
@[simp] theorem encs_setFlag (s : State) (f : Fld) (b : Bool) : (s.setFlag f b).encs = s.encs := rfl
@[simp] theorem dividers_setFlag (s : State) (f : Fld) (b : Bool) : (s.setFlag f b).dividers = s.dividers := rfl
@[simp] theorem axes_setFlag (s : State) (f : Fld) (b : Bool) : (s.setFlag f b).axes = s.axes := rfl
@[simp] theorem evt_setFlag (s : State) (f : Fld) (b : Bool) : (s.setFlag f b).evt = s.evt := rfl
@[simp] theorem crcs_setFlag (s : State) (f : Fld) (b : Bool) : (s.setFlag f b).crcs = s.crcs := rfl
@[simp] theorem cal_setFlag (s : State) (f : Fld) (b : Bool) : (s.setFlag f b).cal = s.cal := rfl
@[simp] theorem pwr_setFlag (s : State) (f : Fld) (b : Bool) : (s.setFlag f b).pwr = s.pwr := rfl
@[simp] theorem statHeld_setFlag (s : State) (f : Fld) (b : Bool) : (s.setFlag f b).statHeld = s.statHeld := rfl
@[simp] theorem zeroLatched_setFlag (s : State) (f : Fld) (b : Bool) : (s.setFlag f b).zeroLatched = s.zeroLatched := rfl
@[simp] theorem pending_bump (s : State) (f : Fld) (n : Nat) : (s.bump f n).pending = s.pending := rfl
@[simp] theorem clock_bump (s : State) (f : Fld) (n : Nat) : (s.bump f n).clock = s.clock := rfl
@[simp] theorem frameTick_bump (s : State) (f : Fld) (n : Nat) : (s.bump f n).frameTick = s.frameTick := rfl
@[simp] theorem freeIdx_bump (s : State) (f : Fld) (n : Nat) : (s.bump f n).freeIdx = s.freeIdx := rfl
@[simp] theorem out_bump (s : State) (f : Fld) (n : Nat) : (s.bump f n).out = s.out := rfl
@[simp] theorem latches_bump (s : State) (f : Fld) (n : Nat) : (s.bump f n).latches = s.latches := rfl
@[simp] theorem ports_bump (s : State) (f : Fld) (n : Nat) : (s.bump f n).ports = s.ports := rfl
@[simp] theorem ctxs_bump (s : State) (f : Fld) (n : Nat) : (s.bump f n).ctxs = s.ctxs := rfl
@[simp] theorem slices_bump (s : State) (f : Fld) (n : Nat) : (s.bump f n).slices = s.slices := rfl
@[simp] theorem coders_bump (s : State) (f : Fld) (n : Nat) : (s.bump f n).coders = s.coders := rfl
@[simp] theorem ring_bump (s : State) (f : Fld) (n : Nat) : (s.bump f n).ring = s.ring := rfl
@[simp] theorem jobs_bump (s : State) (f : Fld) (n : Nat) : (s.bump f n).jobs = s.jobs := rfl
@[simp] theorem seam_bump (s : State) (f : Fld) (n : Nat) : (s.bump f n).seam = s.seam := rfl
@[simp] theorem pen_bump (s : State) (f : Fld) (n : Nat) : (s.bump f n).pen = s.pen := rfl
@[simp] theorem jnl_bump (s : State) (f : Fld) (n : Nat) : (s.bump f n).jnl = s.jnl := rfl
@[simp] theorem ovw_bump (s : State) (f : Fld) (n : Nat) : (s.bump f n).ovw = s.ovw := rfl
@[simp] theorem mem_bump (s : State) (f : Fld) (n : Nat) : (s.bump f n).mem = s.mem := rfl
@[simp] theorem pln_bump (s : State) (f : Fld) (n : Nat) : (s.bump f n).pln = s.pln := rfl
@[simp] theorem sess_bump (s : State) (f : Fld) (n : Nat) : (s.bump f n).sess = s.sess := rfl
@[simp] theorem eths_bump (s : State) (f : Fld) (n : Nat) : (s.bump f n).eths = s.eths := rfl
@[simp] theorem tim_bump (s : State) (f : Fld) (n : Nat) : (s.bump f n).tim = s.tim := rfl
@[simp] theorem fab_bump (s : State) (f : Fld) (n : Nat) : (s.bump f n).fab = s.fab := rfl
@[simp] theorem encs_bump (s : State) (f : Fld) (n : Nat) : (s.bump f n).encs = s.encs := rfl
@[simp] theorem dividers_bump (s : State) (f : Fld) (n : Nat) : (s.bump f n).dividers = s.dividers := rfl
@[simp] theorem axes_bump (s : State) (f : Fld) (n : Nat) : (s.bump f n).axes = s.axes := rfl
@[simp] theorem evt_bump (s : State) (f : Fld) (n : Nat) : (s.bump f n).evt = s.evt := rfl
@[simp] theorem crcs_bump (s : State) (f : Fld) (n : Nat) : (s.bump f n).crcs = s.crcs := rfl
@[simp] theorem cal_bump (s : State) (f : Fld) (n : Nat) : (s.bump f n).cal = s.cal := rfl
@[simp] theorem pwr_bump (s : State) (f : Fld) (n : Nat) : (s.bump f n).pwr = s.pwr := rfl
@[simp] theorem statHeld_bump (s : State) (f : Fld) (n : Nat) : (s.bump f n).statHeld = s.statHeld := rfl
@[simp] theorem zeroLatched_bump (s : State) (f : Fld) (n : Nat) : (s.bump f n).zeroLatched = s.zeroLatched := rfl
@[simp] theorem pending_set64 (s : State) (a n : Nat) : (s.set64 a n).pending = s.pending := rfl
@[simp] theorem clock_set64 (s : State) (a n : Nat) : (s.set64 a n).clock = s.clock := rfl
@[simp] theorem frameTick_set64 (s : State) (a n : Nat) : (s.set64 a n).frameTick = s.frameTick := rfl
@[simp] theorem freeIdx_set64 (s : State) (a n : Nat) : (s.set64 a n).freeIdx = s.freeIdx := rfl
@[simp] theorem out_set64 (s : State) (a n : Nat) : (s.set64 a n).out = s.out := rfl
@[simp] theorem latches_set64 (s : State) (a n : Nat) : (s.set64 a n).latches = s.latches := rfl
@[simp] theorem ports_set64 (s : State) (a n : Nat) : (s.set64 a n).ports = s.ports := rfl
@[simp] theorem ctxs_set64 (s : State) (a n : Nat) : (s.set64 a n).ctxs = s.ctxs := rfl
@[simp] theorem slices_set64 (s : State) (a n : Nat) : (s.set64 a n).slices = s.slices := rfl
@[simp] theorem coders_set64 (s : State) (a n : Nat) : (s.set64 a n).coders = s.coders := rfl
@[simp] theorem ring_set64 (s : State) (a n : Nat) : (s.set64 a n).ring = s.ring := rfl
@[simp] theorem jobs_set64 (s : State) (a n : Nat) : (s.set64 a n).jobs = s.jobs := rfl
@[simp] theorem seam_set64 (s : State) (a n : Nat) : (s.set64 a n).seam = s.seam := rfl
@[simp] theorem pen_set64 (s : State) (a n : Nat) : (s.set64 a n).pen = s.pen := rfl
@[simp] theorem jnl_set64 (s : State) (a n : Nat) : (s.set64 a n).jnl = s.jnl := rfl
@[simp] theorem ovw_set64 (s : State) (a n : Nat) : (s.set64 a n).ovw = s.ovw := rfl
@[simp] theorem mem_set64 (s : State) (a n : Nat) : (s.set64 a n).mem = s.mem := rfl
@[simp] theorem pln_set64 (s : State) (a n : Nat) : (s.set64 a n).pln = s.pln := rfl
@[simp] theorem sess_set64 (s : State) (a n : Nat) : (s.set64 a n).sess = s.sess := rfl
@[simp] theorem eths_set64 (s : State) (a n : Nat) : (s.set64 a n).eths = s.eths := rfl
@[simp] theorem tim_set64 (s : State) (a n : Nat) : (s.set64 a n).tim = s.tim := rfl
@[simp] theorem fab_set64 (s : State) (a n : Nat) : (s.set64 a n).fab = s.fab := rfl
@[simp] theorem encs_set64 (s : State) (a n : Nat) : (s.set64 a n).encs = s.encs := rfl
@[simp] theorem dividers_set64 (s : State) (a n : Nat) : (s.set64 a n).dividers = s.dividers := rfl
@[simp] theorem axes_set64 (s : State) (a n : Nat) : (s.set64 a n).axes = s.axes := rfl
@[simp] theorem evt_set64 (s : State) (a n : Nat) : (s.set64 a n).evt = s.evt := rfl
@[simp] theorem crcs_set64 (s : State) (a n : Nat) : (s.set64 a n).crcs = s.crcs := rfl
@[simp] theorem cal_set64 (s : State) (a n : Nat) : (s.set64 a n).cal = s.cal := rfl
@[simp] theorem pwr_set64 (s : State) (a n : Nat) : (s.set64 a n).pwr = s.pwr := rfl
@[simp] theorem statHeld_set64 (s : State) (a n : Nat) : (s.set64 a n).statHeld = s.statHeld := rfl
@[simp] theorem zeroLatched_set64 (s : State) (a n : Nat) : (s.set64 a n).zeroLatched = s.zeroLatched := rfl
@[simp] theorem pending_setInt64 (s : State) (a : Nat) (n : Int) : (s.setInt64 a n).pending = s.pending := rfl
@[simp] theorem clock_setInt64 (s : State) (a : Nat) (n : Int) : (s.setInt64 a n).clock = s.clock := rfl
@[simp] theorem frameTick_setInt64 (s : State) (a : Nat) (n : Int) : (s.setInt64 a n).frameTick = s.frameTick := rfl
@[simp] theorem freeIdx_setInt64 (s : State) (a : Nat) (n : Int) : (s.setInt64 a n).freeIdx = s.freeIdx := rfl
@[simp] theorem out_setInt64 (s : State) (a : Nat) (n : Int) : (s.setInt64 a n).out = s.out := rfl
@[simp] theorem latches_setInt64 (s : State) (a : Nat) (n : Int) : (s.setInt64 a n).latches = s.latches := rfl
@[simp] theorem ports_setInt64 (s : State) (a : Nat) (n : Int) : (s.setInt64 a n).ports = s.ports := rfl
@[simp] theorem ctxs_setInt64 (s : State) (a : Nat) (n : Int) : (s.setInt64 a n).ctxs = s.ctxs := rfl
@[simp] theorem slices_setInt64 (s : State) (a : Nat) (n : Int) : (s.setInt64 a n).slices = s.slices := rfl
@[simp] theorem coders_setInt64 (s : State) (a : Nat) (n : Int) : (s.setInt64 a n).coders = s.coders := rfl
@[simp] theorem ring_setInt64 (s : State) (a : Nat) (n : Int) : (s.setInt64 a n).ring = s.ring := rfl
@[simp] theorem jobs_setInt64 (s : State) (a : Nat) (n : Int) : (s.setInt64 a n).jobs = s.jobs := rfl
@[simp] theorem seam_setInt64 (s : State) (a : Nat) (n : Int) : (s.setInt64 a n).seam = s.seam := rfl
@[simp] theorem pen_setInt64 (s : State) (a : Nat) (n : Int) : (s.setInt64 a n).pen = s.pen := rfl
@[simp] theorem jnl_setInt64 (s : State) (a : Nat) (n : Int) : (s.setInt64 a n).jnl = s.jnl := rfl
@[simp] theorem ovw_setInt64 (s : State) (a : Nat) (n : Int) : (s.setInt64 a n).ovw = s.ovw := rfl
@[simp] theorem mem_setInt64 (s : State) (a : Nat) (n : Int) : (s.setInt64 a n).mem = s.mem := rfl
@[simp] theorem pln_setInt64 (s : State) (a : Nat) (n : Int) : (s.setInt64 a n).pln = s.pln := rfl
@[simp] theorem sess_setInt64 (s : State) (a : Nat) (n : Int) : (s.setInt64 a n).sess = s.sess := rfl
@[simp] theorem eths_setInt64 (s : State) (a : Nat) (n : Int) : (s.setInt64 a n).eths = s.eths := rfl
@[simp] theorem tim_setInt64 (s : State) (a : Nat) (n : Int) : (s.setInt64 a n).tim = s.tim := rfl
@[simp] theorem fab_setInt64 (s : State) (a : Nat) (n : Int) : (s.setInt64 a n).fab = s.fab := rfl
@[simp] theorem encs_setInt64 (s : State) (a : Nat) (n : Int) : (s.setInt64 a n).encs = s.encs := rfl
@[simp] theorem dividers_setInt64 (s : State) (a : Nat) (n : Int) : (s.setInt64 a n).dividers = s.dividers := rfl
@[simp] theorem axes_setInt64 (s : State) (a : Nat) (n : Int) : (s.setInt64 a n).axes = s.axes := rfl
@[simp] theorem evt_setInt64 (s : State) (a : Nat) (n : Int) : (s.setInt64 a n).evt = s.evt := rfl
@[simp] theorem crcs_setInt64 (s : State) (a : Nat) (n : Int) : (s.setInt64 a n).crcs = s.crcs := rfl
@[simp] theorem cal_setInt64 (s : State) (a : Nat) (n : Int) : (s.setInt64 a n).cal = s.cal := rfl
@[simp] theorem pwr_setInt64 (s : State) (a : Nat) (n : Int) : (s.setInt64 a n).pwr = s.pwr := rfl
@[simp] theorem statHeld_setInt64 (s : State) (a : Nat) (n : Int) : (s.setInt64 a n).statHeld = s.statHeld := rfl
@[simp] theorem zeroLatched_setInt64 (s : State) (a : Nat) (n : Int) : (s.setInt64 a n).zeroLatched = s.zeroLatched := rfl
@[simp] theorem pending_setFldInt (s : State) (f : Fld) (n : Int) : (s.setFldInt f n).pending = s.pending := rfl
@[simp] theorem clock_setFldInt (s : State) (f : Fld) (n : Int) : (s.setFldInt f n).clock = s.clock := rfl
@[simp] theorem frameTick_setFldInt (s : State) (f : Fld) (n : Int) : (s.setFldInt f n).frameTick = s.frameTick := rfl
@[simp] theorem freeIdx_setFldInt (s : State) (f : Fld) (n : Int) : (s.setFldInt f n).freeIdx = s.freeIdx := rfl
@[simp] theorem out_setFldInt (s : State) (f : Fld) (n : Int) : (s.setFldInt f n).out = s.out := rfl
@[simp] theorem latches_setFldInt (s : State) (f : Fld) (n : Int) : (s.setFldInt f n).latches = s.latches := rfl
@[simp] theorem ports_setFldInt (s : State) (f : Fld) (n : Int) : (s.setFldInt f n).ports = s.ports := rfl
@[simp] theorem ctxs_setFldInt (s : State) (f : Fld) (n : Int) : (s.setFldInt f n).ctxs = s.ctxs := rfl
@[simp] theorem slices_setFldInt (s : State) (f : Fld) (n : Int) : (s.setFldInt f n).slices = s.slices := rfl
@[simp] theorem coders_setFldInt (s : State) (f : Fld) (n : Int) : (s.setFldInt f n).coders = s.coders := rfl
@[simp] theorem ring_setFldInt (s : State) (f : Fld) (n : Int) : (s.setFldInt f n).ring = s.ring := rfl
@[simp] theorem jobs_setFldInt (s : State) (f : Fld) (n : Int) : (s.setFldInt f n).jobs = s.jobs := rfl
@[simp] theorem seam_setFldInt (s : State) (f : Fld) (n : Int) : (s.setFldInt f n).seam = s.seam := rfl
@[simp] theorem pen_setFldInt (s : State) (f : Fld) (n : Int) : (s.setFldInt f n).pen = s.pen := rfl
@[simp] theorem jnl_setFldInt (s : State) (f : Fld) (n : Int) : (s.setFldInt f n).jnl = s.jnl := rfl
@[simp] theorem ovw_setFldInt (s : State) (f : Fld) (n : Int) : (s.setFldInt f n).ovw = s.ovw := rfl
@[simp] theorem mem_setFldInt (s : State) (f : Fld) (n : Int) : (s.setFldInt f n).mem = s.mem := rfl
@[simp] theorem pln_setFldInt (s : State) (f : Fld) (n : Int) : (s.setFldInt f n).pln = s.pln := rfl
@[simp] theorem sess_setFldInt (s : State) (f : Fld) (n : Int) : (s.setFldInt f n).sess = s.sess := rfl
@[simp] theorem eths_setFldInt (s : State) (f : Fld) (n : Int) : (s.setFldInt f n).eths = s.eths := rfl
@[simp] theorem tim_setFldInt (s : State) (f : Fld) (n : Int) : (s.setFldInt f n).tim = s.tim := rfl
@[simp] theorem fab_setFldInt (s : State) (f : Fld) (n : Int) : (s.setFldInt f n).fab = s.fab := rfl
@[simp] theorem encs_setFldInt (s : State) (f : Fld) (n : Int) : (s.setFldInt f n).encs = s.encs := rfl
@[simp] theorem dividers_setFldInt (s : State) (f : Fld) (n : Int) : (s.setFldInt f n).dividers = s.dividers := rfl
@[simp] theorem axes_setFldInt (s : State) (f : Fld) (n : Int) : (s.setFldInt f n).axes = s.axes := rfl
@[simp] theorem evt_setFldInt (s : State) (f : Fld) (n : Int) : (s.setFldInt f n).evt = s.evt := rfl
@[simp] theorem crcs_setFldInt (s : State) (f : Fld) (n : Int) : (s.setFldInt f n).crcs = s.crcs := rfl
@[simp] theorem cal_setFldInt (s : State) (f : Fld) (n : Int) : (s.setFldInt f n).cal = s.cal := rfl
@[simp] theorem pwr_setFldInt (s : State) (f : Fld) (n : Int) : (s.setFldInt f n).pwr = s.pwr := rfl
@[simp] theorem statHeld_setFldInt (s : State) (f : Fld) (n : Int) : (s.setFldInt f n).statHeld = s.statHeld := rfl
@[simp] theorem zeroLatched_setFldInt (s : State) (f : Fld) (n : Int) : (s.setFldInt f n).zeroLatched = s.zeroLatched := rfl
@[simp] theorem pending_emit (s : State) (o : Out) : (s.emit o).pending = s.pending := rfl
@[simp] theorem clock_emit (s : State) (o : Out) : (s.emit o).clock = s.clock := rfl
@[simp] theorem frameTick_emit (s : State) (o : Out) : (s.emit o).frameTick = s.frameTick := rfl
@[simp] theorem freeIdx_emit (s : State) (o : Out) : (s.emit o).freeIdx = s.freeIdx := rfl
@[simp] theorem regs_emit (s : State) (o : Out) : (s.emit o).regs = s.regs := rfl
@[simp] theorem latches_emit (s : State) (o : Out) : (s.emit o).latches = s.latches := rfl
@[simp] theorem ports_emit (s : State) (o : Out) : (s.emit o).ports = s.ports := rfl
@[simp] theorem ctxs_emit (s : State) (o : Out) : (s.emit o).ctxs = s.ctxs := rfl
@[simp] theorem slices_emit (s : State) (o : Out) : (s.emit o).slices = s.slices := rfl
@[simp] theorem coders_emit (s : State) (o : Out) : (s.emit o).coders = s.coders := rfl
@[simp] theorem ring_emit (s : State) (o : Out) : (s.emit o).ring = s.ring := rfl
@[simp] theorem jobs_emit (s : State) (o : Out) : (s.emit o).jobs = s.jobs := rfl
@[simp] theorem seam_emit (s : State) (o : Out) : (s.emit o).seam = s.seam := rfl
@[simp] theorem pen_emit (s : State) (o : Out) : (s.emit o).pen = s.pen := rfl
@[simp] theorem jnl_emit (s : State) (o : Out) : (s.emit o).jnl = s.jnl := rfl
@[simp] theorem ovw_emit (s : State) (o : Out) : (s.emit o).ovw = s.ovw := rfl
@[simp] theorem mem_emit (s : State) (o : Out) : (s.emit o).mem = s.mem := rfl
@[simp] theorem pln_emit (s : State) (o : Out) : (s.emit o).pln = s.pln := rfl
@[simp] theorem sess_emit (s : State) (o : Out) : (s.emit o).sess = s.sess := rfl
@[simp] theorem eths_emit (s : State) (o : Out) : (s.emit o).eths = s.eths := rfl
@[simp] theorem tim_emit (s : State) (o : Out) : (s.emit o).tim = s.tim := rfl
@[simp] theorem fab_emit (s : State) (o : Out) : (s.emit o).fab = s.fab := rfl
@[simp] theorem encs_emit (s : State) (o : Out) : (s.emit o).encs = s.encs := rfl
@[simp] theorem dividers_emit (s : State) (o : Out) : (s.emit o).dividers = s.dividers := rfl
@[simp] theorem axes_emit (s : State) (o : Out) : (s.emit o).axes = s.axes := rfl
@[simp] theorem evt_emit (s : State) (o : Out) : (s.emit o).evt = s.evt := rfl
@[simp] theorem crcs_emit (s : State) (o : Out) : (s.emit o).crcs = s.crcs := rfl
@[simp] theorem cal_emit (s : State) (o : Out) : (s.emit o).cal = s.cal := rfl
@[simp] theorem pwr_emit (s : State) (o : Out) : (s.emit o).pwr = s.pwr := rfl
@[simp] theorem statHeld_emit (s : State) (o : Out) : (s.emit o).statHeld = s.statHeld := rfl
@[simp] theorem zeroLatched_emit (s : State) (o : Out) : (s.emit o).zeroLatched = s.zeroLatched := rfl
@[simp] theorem pending_emits (s : State) (os : List Out) : (s.emits os).pending = s.pending := rfl
@[simp] theorem clock_emits (s : State) (os : List Out) : (s.emits os).clock = s.clock := rfl
@[simp] theorem frameTick_emits (s : State) (os : List Out) : (s.emits os).frameTick = s.frameTick := rfl
@[simp] theorem freeIdx_emits (s : State) (os : List Out) : (s.emits os).freeIdx = s.freeIdx := rfl
@[simp] theorem regs_emits (s : State) (os : List Out) : (s.emits os).regs = s.regs := rfl
@[simp] theorem latches_emits (s : State) (os : List Out) : (s.emits os).latches = s.latches := rfl
@[simp] theorem ports_emits (s : State) (os : List Out) : (s.emits os).ports = s.ports := rfl
@[simp] theorem ctxs_emits (s : State) (os : List Out) : (s.emits os).ctxs = s.ctxs := rfl
@[simp] theorem slices_emits (s : State) (os : List Out) : (s.emits os).slices = s.slices := rfl
@[simp] theorem coders_emits (s : State) (os : List Out) : (s.emits os).coders = s.coders := rfl
@[simp] theorem ring_emits (s : State) (os : List Out) : (s.emits os).ring = s.ring := rfl
@[simp] theorem jobs_emits (s : State) (os : List Out) : (s.emits os).jobs = s.jobs := rfl
@[simp] theorem seam_emits (s : State) (os : List Out) : (s.emits os).seam = s.seam := rfl
@[simp] theorem pen_emits (s : State) (os : List Out) : (s.emits os).pen = s.pen := rfl
@[simp] theorem jnl_emits (s : State) (os : List Out) : (s.emits os).jnl = s.jnl := rfl
@[simp] theorem ovw_emits (s : State) (os : List Out) : (s.emits os).ovw = s.ovw := rfl
@[simp] theorem mem_emits (s : State) (os : List Out) : (s.emits os).mem = s.mem := rfl
@[simp] theorem pln_emits (s : State) (os : List Out) : (s.emits os).pln = s.pln := rfl
@[simp] theorem sess_emits (s : State) (os : List Out) : (s.emits os).sess = s.sess := rfl
@[simp] theorem eths_emits (s : State) (os : List Out) : (s.emits os).eths = s.eths := rfl
@[simp] theorem tim_emits (s : State) (os : List Out) : (s.emits os).tim = s.tim := rfl
@[simp] theorem fab_emits (s : State) (os : List Out) : (s.emits os).fab = s.fab := rfl
@[simp] theorem encs_emits (s : State) (os : List Out) : (s.emits os).encs = s.encs := rfl
@[simp] theorem dividers_emits (s : State) (os : List Out) : (s.emits os).dividers = s.dividers := rfl
@[simp] theorem axes_emits (s : State) (os : List Out) : (s.emits os).axes = s.axes := rfl
@[simp] theorem evt_emits (s : State) (os : List Out) : (s.emits os).evt = s.evt := rfl
@[simp] theorem crcs_emits (s : State) (os : List Out) : (s.emits os).crcs = s.crcs := rfl
@[simp] theorem cal_emits (s : State) (os : List Out) : (s.emits os).cal = s.cal := rfl
@[simp] theorem pwr_emits (s : State) (os : List Out) : (s.emits os).pwr = s.pwr := rfl
@[simp] theorem statHeld_emits (s : State) (os : List Out) : (s.emits os).statHeld = s.statHeld := rfl
@[simp] theorem zeroLatched_emits (s : State) (os : List Out) : (s.emits os).zeroLatched = s.zeroLatched := rfl
@[simp] theorem reg_emit (s : State) (o : Out) (a : Nat) : (s.emit o).reg a = s.reg a := rfl
@[simp] theorem fld_emit (s : State) (o : Out) (f : Fld) : (s.emit o).fld f = s.fld f := rfl
@[simp] theorem out_emit (s : State) (o : Out) : (s.emit o).out = s.out ++ [o] := rfl
@[simp] theorem out_emits (s : State) (os : List Out) : (s.emits os).out = s.out ++ os := rfl
@[simp] theorem fld_setPort (s : State) (i : Nat) (v : PortSt) (f : Fld) : (s.setPort i v).fld f = s.fld f := rfl
@[simp] theorem port_setFld (s : State) (f : Fld) (n i : Nat) : (s.setFld f n).port i = s.port i := rfl
@[simp] theorem fld_setCtx (s : State) (i : Nat) (v : CtxSt) (f : Fld) : (s.setCtx i v).fld f = s.fld f := rfl
@[simp] theorem ctx_setFld (s : State) (f : Fld) (n i : Nat) : (s.setFld f n).ctx i = s.ctx i := rfl
@[simp] theorem fld_setSlice (s : State) (i : Nat) (v : SliceSt) (f : Fld) : (s.setSlice i v).fld f = s.fld f := rfl
@[simp] theorem slice_setFld (s : State) (f : Fld) (n i : Nat) : (s.setFld f n).slice i = s.slice i := rfl
@[simp] theorem fld_setCoder (s : State) (i : Nat) (v : Coder) (f : Fld) : (s.setCoder i v).fld f = s.fld f := rfl
@[simp] theorem coder_setFld (s : State) (f : Fld) (n i : Nat) : (s.setFld f n).coder i = s.coder i := rfl
@[simp] theorem fld_setMc (s : State) (i : Nat) (v : McSt) (f : Fld) : (s.setMc i v).fld f = s.fld f := rfl
@[simp] theorem mc_setFld (s : State) (f : Fld) (n i : Nat) : (s.setFld f n).mc i = s.mc i := rfl
@[simp] theorem fld_setSession (s : State) (i : Nat) (v : Sess) (f : Fld) : (s.setSession i v).fld f = s.fld f := rfl
@[simp] theorem session_setFld (s : State) (f : Fld) (n i : Nat) : (s.setFld f n).session i = s.session i := rfl
@[simp] theorem fld_setEth (s : State) (i : Nat) (v : EthSt) (f : Fld) : (s.setEth i v).fld f = s.fld f := rfl
@[simp] theorem eth_setFld (s : State) (f : Fld) (n i : Nat) : (s.setFld f n).eth i = s.eth i := rfl
@[simp] theorem fld_setEnc (s : State) (i : Nat) (v : EncSt) (f : Fld) : (s.setEnc i v).fld f = s.fld f := rfl
@[simp] theorem enc_setFld (s : State) (f : Fld) (n i : Nat) : (s.setFld f n).enc i = s.enc i := rfl
@[simp] theorem fld_setDivider (s : State) (i : Nat) (v : Int) (f : Fld) : (s.setDivider i v).fld f = s.fld f := rfl
@[simp] theorem divider_setFld (s : State) (f : Fld) (n i : Nat) : (s.setFld f n).divider i = s.divider i := rfl
@[simp] theorem fld_setAx (s : State) (i : Nat) (v : AxSt) (f : Fld) : (s.setAx i v).fld f = s.fld f := rfl
@[simp] theorem ax_setFld (s : State) (f : Fld) (n i : Nat) : (s.setFld f n).ax i = s.ax i := rfl
@[simp] theorem fld_setCrc (s : State) (i : Nat) (v : CrcSt) (f : Fld) : (s.setCrc i v).fld f = s.fld f := rfl
@[simp] theorem crc_setFld (s : State) (f : Fld) (n i : Nat) : (s.setFld f n).crc i = s.crc i := rfl
@[simp] theorem fld_setTout (s : State) (i : Nat) (v : ToutSt) (f : Fld) : (s.setTout i v).fld f = s.fld f := rfl
@[simp] theorem tout_setFld (s : State) (f : Fld) (n i : Nat) : (s.setFld f n).tout i = s.tout i := rfl
@[simp] theorem fld_setPtp (s : State) (i : Nat) (v : PtpPort) (f : Fld) : (s.setPtp i v).fld f = s.fld f := rfl
@[simp] theorem ptp_setFld (s : State) (f : Fld) (n i : Nat) : (s.setFld f n).ptp i = s.ptp i := rfl
@[simp] theorem fld_setCell (s : State) (i : Nat) (v : CellSt) (f : Fld) : (s.setCell i v).fld f = s.fld f := rfl
@[simp] theorem cell_setFld (s : State) (f : Fld) (n i : Nat) : (s.setFld f n).cell i = s.cell i := rfl

end Sys2Proof.Machine
end

