-- ==== Sys2Proof/Laws/Keeps.lean ====
section
/-! SUPPORT. What an operation may change, as a relation between two states, and how it is put together from the
parts of an operation. -/

namespace Sys2Proof.Machine

open Sys2Proof.Safety

/-- A set of parts of `State` as a bit mask. -/
def partMask (ps : List Safety.Part) : Nat := ps.foldl (fun (a : Nat) (p : Safety.Part) => a ||| 1 <<< p.ctorIdx) 0

/-- Every part of `ps` is one of `qs`. -/
def Within (ps qs : List Safety.Part) : Prop := partMask ps &&& partMask qs = partMask ps

/-- From `s` to `t` at most the parts `ps` change, outputs are only added, free values are only taken, and the
registers stay in canonical form. -/
structure Keeps (ps : List Safety.Part) (s t : State) : Prop where
  same : ∀ p : Safety.Part, (partMask ps).testBit p.ctorIdx = false → p.same s t
  out : s.out <+: t.out
  free : s.freeIdx ≤ t.freeIdx
  regs : RegsCanonical s → RegsCanonical t

/-- A command that answers a next state changes at most the parts `ps`. -/
def Answers (ps : List Safety.Part) (s : State) (o : Host.Outcome State Fault Refusal) : Prop := ∀ t, o = .next t → Keeps ps s t

theorem Keeps.refl (ps : List Safety.Part) (s : State) : Keeps ps s s :=
  ⟨fun p _ => by cases p <;> rfl, List.prefix_rfl, Nat.le_refl _, id⟩

theorem same_trans {p : Safety.Part} {s t u : State} (h : p.same s t) (k : p.same t u) : p.same s u := by
  cases p <;> exact Eq.trans k h

theorem Within.bit {ps qs : List Safety.Part} (h : Within ps qs) {i : Nat} (hi : (partMask qs).testBit i = false) :
    (partMask ps).testBit i = false := by
  have := congrArg (Nat.testBit · i) h
  simpa [Nat.testBit_and, hi] using this.symm

theorem Within.trans {ps qs rs : List Safety.Part} (h : Within ps qs) (k : Within qs rs) : Within ps rs := by
  apply Nat.eq_of_testBit_eq
  intro i
  have a := congrArg (Nat.testBit · i) h
  have b := congrArg (Nat.testBit · i) k
  simp only [Nat.testBit_and] at a b ⊢
  generalize (partMask ps).testBit i = x at *
  generalize (partMask qs).testBit i = y at *
  generalize (partMask rs).testBit i = z at *
  revert a b
  revert x y z
  decide

theorem foldl_bits (ps : List Safety.Part) (a i : Nat) :
    (ps.foldl (fun (a : Nat) (p : Safety.Part) => a ||| 1 <<< p.ctorIdx) a).testBit i = (a.testBit i || ps.any fun p => p.ctorIdx == i) := by
  induction ps generalizing a with
  | nil => simp
  | cons p ps ih =>
    rw [List.foldl_cons, ih, Nat.testBit_or, Nat.one_shiftLeft, Nat.testBit_two_pow, List.any_cons, Bool.or_assoc]
    rfl

theorem part_ctorIdx_inj {p q : Safety.Part} (h : p.ctorIdx = q.ctorIdx) : p = q := by
  cases p <;> cases q <;> first | rfl | exact absurd h (by decide)

/-- A part outside the ones an operation may change is the same afterwards. -/
theorem Keeps.same_of_not_mem {ps : List Safety.Part} {s t : State} (h : Keeps ps s t) {p : Safety.Part} (hp : p ∉ ps) : p.same s t := by
  refine h.same p ?_
  unfold partMask
  rw [foldl_bits, Nat.zero_testBit, Bool.false_or, List.any_eq_false]
  intro q hq e
  exact hp (part_ctorIdx_inj (by simpa using e) ▸ hq)
/-- What an operation changes, after what came before it. -/
theorem Keeps.then {ps qs : List Safety.Part} {s t u : State} (k : Keeps ps t u) (w : Within ps qs) (h : Keeps qs s t) : Keeps qs s u :=
  ⟨fun p hp => same_trans (h.same p hp) (k.same p (w.bit hp)), h.out.trans k.out, Nat.le_trans h.free k.free, fun r => k.regs (h.regs r)⟩

theorem Keeps.mono {ps qs : List Safety.Part} {s t : State} (k : Keeps ps s t) (w : Within ps qs) : Keeps qs s t :=
  k.then w (Keeps.refl qs s)

theorem Keeps.ite {ps : List Safety.Part} {s a b : State} {c : Prop} {_ : Decidable c} (h : Keeps ps s a) (k : Keeps ps s b) :
    Keeps ps s (if c then a else b) := by
  split <;> assumption

theorem Keeps.ite_map {α : Type} (f : α → State) {ps : List Safety.Part} {s : State} {a b : α} {c : Prop} {_ : Decidable c}
    (h : Keeps ps s (f a)) (k : Keeps ps s (f b)) : Keeps ps s (f (if c then a else b)) := by
  split <;> assumption

theorem Keeps.foldl {α : Type} {ps : List Safety.Part} {s t : State} {f : State → α → State} {l : List α} (h : Keeps ps s t)
    (k : ∀ u x, Keeps ps s u → Keeps ps s (f u x)) : Keeps ps s (l.foldl f t) := by
  induction l generalizing t with
  | nil => exact h
  | cons x l ih => exact ih (k t x h)

theorem Keeps.foldl_map {α β : Type} (g : β → State) {ps : List Safety.Part} {s : State} {b : β} {f : β → α → β} {l : List α}
    (h : Keeps ps s (g b)) (k : ∀ u x, Keeps ps s (g u) → Keeps ps s (g (f u x))) : Keeps ps s (g (l.foldl f b)) := by
  induction l generalizing b with
  | nil => exact h
  | cons x l ih => exact ih (k b x h)

theorem Keeps.of_eq {α : Type} (f : α → State) {ps : List Safety.Part} {s : State} {a b : α} (e : a = b) (h : Keeps ps s (f a)) :
    Keeps ps s (f b) := e ▸ h

theorem Keeps.of_fst {α : Type} {ps : List Safety.Part} {s t : State} {x : State × α} {a : α} (e : x = (t, a)) (h : Keeps ps s x.1) :
    Keeps ps s t := by
  subst e; exact h

theorem Keeps.of_snd {α : Type} {ps : List Safety.Part} {s t : State} {x : α × State} {a : α} (e : x = (a, t)) (h : Keeps ps s x.2) :
    Keeps ps s t := by
  subst e; exact h

theorem Keeps.of_third {α β : Type} {ps : List Safety.Part} {s t : State} {x : α × β × State} {a : α} {b : β} (e : x = (a, b, t))
    (h : Keeps ps s x.2.2) : Keeps ps s t := by
  subst e; exact h

theorem Answers.next {ps : List Safety.Part} {s t : State} (h : Keeps ps s t) : Answers ps s (.next t) := by
  intro u e; cases e; exact h

theorem Answers.fault {ps : List Safety.Part} {s : State} {f : Fault} : Answers ps s (.fault f) := by
  intro u e; cases e

theorem Answers.ite {ps : List Safety.Part} {s : State} {a b : Host.Outcome State Fault Refusal} {c : Prop} {_ : Decidable c}
    (h : Answers ps s a) (k : Answers ps s b) : Answers ps s (if c then a else b) := by
  split <;> assumption

theorem Answers.then {ps qs : List Safety.Part} {s t : State} {o : Host.Outcome State Fault Refusal} (k : Answers ps t o)
    (w : Within ps qs) (h : Keeps qs s t) : Answers qs s o := fun u e => (k u e).then w h

/-- Where there is an answer, its state (read by `f`) has changed at most the parts `ps`. -/
def Yields {α : Type} (f : α → State) (ps : List Safety.Part) (s : State) (o : Option α) : Prop := ∀ r, o = some r → Keeps ps s (f r)

/-- Where no case is undefined, the state (read by `f`) has changed at most the parts `ps`. -/
def Gives {ε α : Type} (f : α → State) (ps : List Safety.Part) (s : State) (o : Except ε α) : Prop := ∀ r, o = .ok r → Keeps ps s (f r)

theorem Yields.some {α : Type} {f : α → State} {ps : List Safety.Part} {s : State} {r : α} (h : Keeps ps s (f r)) : Yields f ps s (some r) := by
  intro u e; cases e; exact h

theorem Yields.none {α : Type} {f : α → State} {ps : List Safety.Part} {s : State} : Yields f ps s Option.none := by
  intro u e; cases e

theorem Yields.ite {α : Type} {f : α → State} {ps : List Safety.Part} {s : State} {a b : Option α} {c : Prop} {_ : Decidable c}
    (h : Yields f ps s a) (k : Yields f ps s b) : Yields f ps s (if c then a else b) := by
  split <;> assumption

theorem Yields.then {α : Type} {f : α → State} {ps qs : List Safety.Part} {s t : State} {o : Option α} (k : Yields f ps t o)
    (w : Within ps qs) (h : Keeps qs s t) : Yields f qs s o := fun u e => (k u e).then w h

theorem Gives.ok {ε α : Type} {f : α → State} {ps : List Safety.Part} {s : State} {r : α} (h : Keeps ps s (f r)) :
    Gives f ps s (Except.ok r : Except ε α) := by
  intro u e; cases e; exact h

theorem Gives.error {ε α : Type} {f : α → State} {ps : List Safety.Part} {s : State} {e : ε} :
    Gives f ps s (Except.error e : Except ε α) := by
  intro u h; cases h

theorem Gives.ite {ε α : Type} {f : α → State} {ps : List Safety.Part} {s : State} {a b : Except ε α} {c : Prop} {_ : Decidable c}
    (h : Gives f ps s a) (k : Gives f ps s b) : Gives f ps s (if c then a else b) := by
  split <;> assumption

theorem Gives.then {ε α : Type} {f : α → State} {ps qs : List Safety.Part} {s t : State} {o : Except ε α} (k : Gives f ps t o)
    (w : Within ps qs) (h : Keeps qs s t) : Gives f qs s o := fun u e => (k u e).then w h

/-- A state made anew that takes over the queue, the clock, the outputs, the free values' count and the registers. -/
theorem Keeps.renew {ps : List Safety.Part} {s t u : State} (hp : u.pending = t.pending) (hc : u.clock = t.clock) (ho : u.out = t.out)
    (hf : u.freeIdx = t.freeIdx) (hr : u.regs = t.regs)
    (w : Within [.frameTick, .freeIdx, .out, .regs, .latches, .ports, .ctxs, .slices, .coders, .ring, .jobs, .seam, .pen, .jnl, .ovw,
      .mem, .pln, .sess, .eths, .tim, .fab, .encs, .dividers, .axes, .evt, .crcs, .cal, .pwr, .statHeld, .zeroLatched] ps)
    (h : Keeps ps s t) : Keeps ps s u :=
  Keeps.then ⟨fun p hb => by cases p <;> first | exact hp | exact hc | exact absurd hb (by decide), ho ▸ List.prefix_rfl,
    hf ▸ Nat.le_refl _, fun r => (show tblWf coldWord u.regs = true from hr ▸ r)⟩ w h

/-! ### Fields of the state set directly -/

theorem Keeps.set_axes {ps : List Safety.Part} {s t : State} {v0 : _}
    (w : Within [.axes] ps) (h : Keeps ps s t) : Keeps ps s { t with axes := v0 } :=
  Keeps.then (ps := [.axes]) (t := t)
    ⟨fun p hp => by cases p <;> first | rfl | exact absurd hp (by decide), List.prefix_rfl, Nat.le_refl _, id⟩ w h

theorem Keeps.set_cal {ps : List Safety.Part} {s t : State} {v0 : _}
    (w : Within [.cal] ps) (h : Keeps ps s t) : Keeps ps s { t with cal := v0 } :=
  Keeps.then (ps := [.cal]) (t := t)
    ⟨fun p hp => by cases p <;> first | rfl | exact absurd hp (by decide), List.prefix_rfl, Nat.le_refl _, id⟩ w h

theorem Keeps.set_clock {ps : List Safety.Part} {s t : State} {v0 : _}
    (w : Within [.clock] ps) (h : Keeps ps s t) : Keeps ps s { t with clock := v0 } :=
  Keeps.then (ps := [.clock]) (t := t)
    ⟨fun p hp => by cases p <;> first | rfl | exact absurd hp (by decide), List.prefix_rfl, Nat.le_refl _, id⟩ w h

theorem Keeps.set_coders {ps : List Safety.Part} {s t : State} {v0 : _}
    (w : Within [.coders] ps) (h : Keeps ps s t) : Keeps ps s { t with coders := v0 } :=
  Keeps.then (ps := [.coders]) (t := t)
    ⟨fun p hp => by cases p <;> first | rfl | exact absurd hp (by decide), List.prefix_rfl, Nat.le_refl _, id⟩ w h

theorem Keeps.set_crcs {ps : List Safety.Part} {s t : State} {v0 : _}
    (w : Within [.crcs] ps) (h : Keeps ps s t) : Keeps ps s { t with crcs := v0 } :=
  Keeps.then (ps := [.crcs]) (t := t)
    ⟨fun p hp => by cases p <;> first | rfl | exact absurd hp (by decide), List.prefix_rfl, Nat.le_refl _, id⟩ w h

theorem Keeps.set_ctxs {ps : List Safety.Part} {s t : State} {v0 : _}
    (w : Within [.ctxs] ps) (h : Keeps ps s t) : Keeps ps s { t with ctxs := v0 } :=
  Keeps.then (ps := [.ctxs]) (t := t)
    ⟨fun p hp => by cases p <;> first | rfl | exact absurd hp (by decide), List.prefix_rfl, Nat.le_refl _, id⟩ w h

theorem Keeps.set_dividers {ps : List Safety.Part} {s t : State} {v0 : _}
    (w : Within [.dividers] ps) (h : Keeps ps s t) : Keeps ps s { t with dividers := v0 } :=
  Keeps.then (ps := [.dividers]) (t := t)
    ⟨fun p hp => by cases p <;> first | rfl | exact absurd hp (by decide), List.prefix_rfl, Nat.le_refl _, id⟩ w h

theorem Keeps.set_encs {ps : List Safety.Part} {s t : State} {v0 : _}
    (w : Within [.encs] ps) (h : Keeps ps s t) : Keeps ps s { t with encs := v0 } :=
  Keeps.then (ps := [.encs]) (t := t)
    ⟨fun p hp => by cases p <;> first | rfl | exact absurd hp (by decide), List.prefix_rfl, Nat.le_refl _, id⟩ w h

theorem Keeps.set_eths {ps : List Safety.Part} {s t : State} {v0 : _}
    (w : Within [.eths] ps) (h : Keeps ps s t) : Keeps ps s { t with eths := v0 } :=
  Keeps.then (ps := [.eths]) (t := t)
    ⟨fun p hp => by cases p <;> first | rfl | exact absurd hp (by decide), List.prefix_rfl, Nat.le_refl _, id⟩ w h

theorem Keeps.set_evt {ps : List Safety.Part} {s t : State} {v0 : _}
    (w : Within [.evt] ps) (h : Keeps ps s t) : Keeps ps s { t with evt := v0 } :=
  Keeps.then (ps := [.evt]) (t := t)
    ⟨fun p hp => by cases p <;> first | rfl | exact absurd hp (by decide), List.prefix_rfl, Nat.le_refl _, id⟩ w h

theorem Keeps.set_fab {ps : List Safety.Part} {s t : State} {v0 : _}
    (w : Within [.fab] ps) (h : Keeps ps s t) : Keeps ps s { t with fab := v0 } :=
  Keeps.then (ps := [.fab]) (t := t)
    ⟨fun p hp => by cases p <;> first | rfl | exact absurd hp (by decide), List.prefix_rfl, Nat.le_refl _, id⟩ w h

theorem Keeps.set_frameTick {ps : List Safety.Part} {s t : State} {v0 : _}
    (w : Within [.frameTick] ps) (h : Keeps ps s t) : Keeps ps s { t with frameTick := v0 } :=
  Keeps.then (ps := [.frameTick]) (t := t)
    ⟨fun p hp => by cases p <;> first | rfl | exact absurd hp (by decide), List.prefix_rfl, Nat.le_refl _, id⟩ w h

theorem Keeps.set_jnl {ps : List Safety.Part} {s t : State} {v0 : _}
    (w : Within [.jnl] ps) (h : Keeps ps s t) : Keeps ps s { t with jnl := v0 } :=
  Keeps.then (ps := [.jnl]) (t := t)
    ⟨fun p hp => by cases p <;> first | rfl | exact absurd hp (by decide), List.prefix_rfl, Nat.le_refl _, id⟩ w h

theorem Keeps.set_jobs {ps : List Safety.Part} {s t : State} {v0 : _}
    (w : Within [.jobs] ps) (h : Keeps ps s t) : Keeps ps s { t with jobs := v0 } :=
  Keeps.then (ps := [.jobs]) (t := t)
    ⟨fun p hp => by cases p <;> first | rfl | exact absurd hp (by decide), List.prefix_rfl, Nat.le_refl _, id⟩ w h

theorem Keeps.set_latches {ps : List Safety.Part} {s t : State} {v0 : _}
    (w : Within [.latches] ps) (h : Keeps ps s t) : Keeps ps s { t with latches := v0 } :=
  Keeps.then (ps := [.latches]) (t := t)
    ⟨fun p hp => by cases p <;> first | rfl | exact absurd hp (by decide), List.prefix_rfl, Nat.le_refl _, id⟩ w h

theorem Keeps.set_mem {ps : List Safety.Part} {s t : State} {v0 : _}
    (w : Within [.mem] ps) (h : Keeps ps s t) : Keeps ps s { t with mem := v0 } :=
  Keeps.then (ps := [.mem]) (t := t)
    ⟨fun p hp => by cases p <;> first | rfl | exact absurd hp (by decide), List.prefix_rfl, Nat.le_refl _, id⟩ w h

theorem Keeps.set_ovw {ps : List Safety.Part} {s t : State} {v0 : _}
    (w : Within [.ovw] ps) (h : Keeps ps s t) : Keeps ps s { t with ovw := v0 } :=
  Keeps.then (ps := [.ovw]) (t := t)
    ⟨fun p hp => by cases p <;> first | rfl | exact absurd hp (by decide), List.prefix_rfl, Nat.le_refl _, id⟩ w h

theorem Keeps.set_pen {ps : List Safety.Part} {s t : State} {v0 : _}
    (w : Within [.pen] ps) (h : Keeps ps s t) : Keeps ps s { t with pen := v0 } :=
  Keeps.then (ps := [.pen]) (t := t)
    ⟨fun p hp => by cases p <;> first | rfl | exact absurd hp (by decide), List.prefix_rfl, Nat.le_refl _, id⟩ w h

theorem Keeps.set_pending {ps : List Safety.Part} {s t : State} {v0 : _}
    (w : Within [.pending] ps) (h : Keeps ps s t) : Keeps ps s { t with pending := v0 } :=
  Keeps.then (ps := [.pending]) (t := t)
    ⟨fun p hp => by cases p <;> first | rfl | exact absurd hp (by decide), List.prefix_rfl, Nat.le_refl _, id⟩ w h

theorem Keeps.set_pln {ps : List Safety.Part} {s t : State} {v0 : _}
    (w : Within [.pln] ps) (h : Keeps ps s t) : Keeps ps s { t with pln := v0 } :=
  Keeps.then (ps := [.pln]) (t := t)
    ⟨fun p hp => by cases p <;> first | rfl | exact absurd hp (by decide), List.prefix_rfl, Nat.le_refl _, id⟩ w h

theorem Keeps.set_ports {ps : List Safety.Part} {s t : State} {v0 : _}
    (w : Within [.ports] ps) (h : Keeps ps s t) : Keeps ps s { t with ports := v0 } :=
  Keeps.then (ps := [.ports]) (t := t)
    ⟨fun p hp => by cases p <;> first | rfl | exact absurd hp (by decide), List.prefix_rfl, Nat.le_refl _, id⟩ w h

theorem Keeps.set_pwr {ps : List Safety.Part} {s t : State} {v0 : _}
    (w : Within [.pwr] ps) (h : Keeps ps s t) : Keeps ps s { t with pwr := v0 } :=
  Keeps.then (ps := [.pwr]) (t := t)
    ⟨fun p hp => by cases p <;> first | rfl | exact absurd hp (by decide), List.prefix_rfl, Nat.le_refl _, id⟩ w h

theorem Keeps.set_ring {ps : List Safety.Part} {s t : State} {v0 : _}
    (w : Within [.ring] ps) (h : Keeps ps s t) : Keeps ps s { t with ring := v0 } :=
  Keeps.then (ps := [.ring]) (t := t)
    ⟨fun p hp => by cases p <;> first | rfl | exact absurd hp (by decide), List.prefix_rfl, Nat.le_refl _, id⟩ w h

theorem Keeps.set_seam {ps : List Safety.Part} {s t : State} {v0 : _}
    (w : Within [.seam] ps) (h : Keeps ps s t) : Keeps ps s { t with seam := v0 } :=
  Keeps.then (ps := [.seam]) (t := t)
    ⟨fun p hp => by cases p <;> first | rfl | exact absurd hp (by decide), List.prefix_rfl, Nat.le_refl _, id⟩ w h

theorem Keeps.set_sess {ps : List Safety.Part} {s t : State} {v0 : _}
    (w : Within [.sess] ps) (h : Keeps ps s t) : Keeps ps s { t with sess := v0 } :=
  Keeps.then (ps := [.sess]) (t := t)
    ⟨fun p hp => by cases p <;> first | rfl | exact absurd hp (by decide), List.prefix_rfl, Nat.le_refl _, id⟩ w h

theorem Keeps.set_slices {ps : List Safety.Part} {s t : State} {v0 : _}
    (w : Within [.slices] ps) (h : Keeps ps s t) : Keeps ps s { t with slices := v0 } :=
  Keeps.then (ps := [.slices]) (t := t)
    ⟨fun p hp => by cases p <;> first | rfl | exact absurd hp (by decide), List.prefix_rfl, Nat.le_refl _, id⟩ w h

theorem Keeps.set_statHeld {ps : List Safety.Part} {s t : State} {v0 : _}
    (w : Within [.statHeld] ps) (h : Keeps ps s t) : Keeps ps s { t with statHeld := v0 } :=
  Keeps.then (ps := [.statHeld]) (t := t)
    ⟨fun p hp => by cases p <;> first | rfl | exact absurd hp (by decide), List.prefix_rfl, Nat.le_refl _, id⟩ w h

theorem Keeps.set_tim {ps : List Safety.Part} {s t : State} {v0 : _}
    (w : Within [.tim] ps) (h : Keeps ps s t) : Keeps ps s { t with tim := v0 } :=
  Keeps.then (ps := [.tim]) (t := t)
    ⟨fun p hp => by cases p <;> first | rfl | exact absurd hp (by decide), List.prefix_rfl, Nat.le_refl _, id⟩ w h

theorem Keeps.set_zeroLatched {ps : List Safety.Part} {s t : State} {v0 : _}
    (w : Within [.zeroLatched] ps) (h : Keeps ps s t) : Keeps ps s { t with zeroLatched := v0 } :=
  Keeps.then (ps := [.zeroLatched]) (t := t)
    ⟨fun p hp => by cases p <;> first | rfl | exact absurd hp (by decide), List.prefix_rfl, Nat.le_refl _, id⟩ w h

theorem Keeps.set_frameTick_pwr {ps : List Safety.Part} {s t : State} {v0 : _} {v1 : _}
    (w : Within [.frameTick, .pwr] ps) (h : Keeps ps s t) : Keeps ps s { t with frameTick := v0, pwr := v1 } :=
  Keeps.then (ps := [.frameTick, .pwr]) (t := t)
    ⟨fun p hp => by cases p <;> first | rfl | exact absurd hp (by decide), List.prefix_rfl, Nat.le_refl _, id⟩ w h

theorem Keeps.set_pen_pwr {ps : List Safety.Part} {s t : State} {v0 : _} {v1 : _}
    (w : Within [.pen, .pwr] ps) (h : Keeps ps s t) : Keeps ps s { t with pen := v0, pwr := v1 } :=
  Keeps.then (ps := [.pen, .pwr]) (t := t)
    ⟨fun p hp => by cases p <;> first | rfl | exact absurd hp (by decide), List.prefix_rfl, Nat.le_refl _, id⟩ w h

theorem Keeps.set_pln_fab {ps : List Safety.Part} {s t : State} {v0 : _} {v1 : _}
    (w : Within [.pln, .fab] ps) (h : Keeps ps s t) : Keeps ps s { t with pln := v0, fab := v1 } :=
  Keeps.then (ps := [.pln, .fab]) (t := t)
    ⟨fun p hp => by cases p <;> first | rfl | exact absurd hp (by decide), List.prefix_rfl, Nat.le_refl _, id⟩ w h

theorem Keeps.set_tim_pwr {ps : List Safety.Part} {s t : State} {v0 : _} {v1 : _}
    (w : Within [.tim, .pwr] ps) (h : Keeps ps s t) : Keeps ps s { t with tim := v0, pwr := v1 } :=
  Keeps.then (ps := [.tim, .pwr]) (t := t)
    ⟨fun p hp => by cases p <;> first | rfl | exact absurd hp (by decide), List.prefix_rfl, Nat.le_refl _, id⟩ w h

theorem Keeps.set_jobs_pen_jnl {ps : List Safety.Part} {s t : State} {v0 : _} {v1 : _} {v2 : _}
    (w : Within [.jobs, .pen, .jnl] ps) (h : Keeps ps s t) : Keeps ps s { t with jobs := v0, pen := v1, jnl := v2 } :=
  Keeps.then (ps := [.jobs, .pen, .jnl]) (t := t)
    ⟨fun p hp => by cases p <;> first | rfl | exact absurd hp (by decide), List.prefix_rfl, Nat.le_refl _, id⟩ w h

theorem Keeps.set_latches_tim_fab_evt {ps : List Safety.Part} {s t : State} {v0 : _} {v1 : _} {v2 : _} {v3 : _}
    (w : Within [.latches, .tim, .fab, .evt] ps) (h : Keeps ps s t) : Keeps ps s { t with latches := v0, tim := v1, fab := v2, evt := v3 } :=
  Keeps.then (ps := [.latches, .tim, .fab, .evt]) (t := t)
    ⟨fun p hp => by cases p <;> first | rfl | exact absurd hp (by decide), List.prefix_rfl, Nat.le_refl _, id⟩ w h

theorem Keeps.set_pln_fab_cal_pwr {ps : List Safety.Part} {s t : State} {v0 : _} {v1 : _} {v2 : _} {v3 : _}
    (w : Within [.pln, .fab, .cal, .pwr] ps) (h : Keeps ps s t) : Keeps ps s { t with pln := v0, fab := v1, cal := v2, pwr := v3 } :=
  Keeps.then (ps := [.pln, .fab, .cal, .pwr]) (t := t)
    ⟨fun p hp => by cases p <;> first | rfl | exact absurd hp (by decide), List.prefix_rfl, Nat.le_refl _, id⟩ w h

theorem Keeps.set_ring_seam_ovw_statHeld {ps : List Safety.Part} {s t : State} {v0 : _} {v1 : _} {v2 : _} {v3 : _}
    (w : Within [.ring, .seam, .ovw, .statHeld] ps) (h : Keeps ps s t) : Keeps ps s { t with ring := v0, seam := v1, ovw := v2, statHeld := v3 } :=
  Keeps.then (ps := [.ring, .seam, .ovw, .statHeld]) (t := t)
    ⟨fun p hp => by cases p <;> first | rfl | exact absurd hp (by decide), List.prefix_rfl, Nat.le_refl _, id⟩ w h

theorem Keeps.set_pen_jnl_mem_pln_crcs_cal {ps : List Safety.Part} {s t : State} {v0 : _} {v1 : _} {v2 : _} {v3 : _} {v4 : _} {v5 : _}
    (w : Within [.pen, .jnl, .mem, .pln, .crcs, .cal] ps) (h : Keeps ps s t) : Keeps ps s { t with pen := v0, jnl := v1, mem := v2, pln := v3, crcs := v4, cal := v5 } :=
  Keeps.then (ps := [.pen, .jnl, .mem, .pln, .crcs, .cal]) (t := t)
    ⟨fun p hp => by cases p <;> first | rfl | exact absurd hp (by decide), List.prefix_rfl, Nat.le_refl _, id⟩ w h

/-! ### The three operations that every other goes through -/

theorem State.setReg_keeps (s : State) (a : Nat) (v : Word) : Keeps [.regs] s (s.setReg a v) :=
  ⟨fun p hp => by cases p <;> first | rfl | exact absurd hp (by decide), List.prefix_rfl, Nat.le_refl _, fun h => tblWf_tblSet _ _ _ _ h⟩

theorem State.emits_keeps (s : State) (os : List Out) : Keeps [.out] s (s.emits os) :=
  ⟨fun p hp => by cases p <;> first | rfl | exact absurd hp (by decide), List.prefix_append _ _, Nat.le_refl _, id⟩

theorem State.emit_keeps (s : State) (o : Out) : Keeps [.out] s (s.emit o) :=
  ⟨fun p hp => by cases p <;> first | rfl | exact absurd hp (by decide), List.prefix_append _ _, Nat.le_refl _, id⟩

theorem State.takeFree_keeps (s : State) (b : Nat) : Keeps [.freeIdx] s (s.takeFree b).2 :=
  ⟨fun p hp => by cases p <;> first | rfl | exact absurd hp (by decide), List.prefix_rfl, Nat.le_succ _, id⟩

end Sys2Proof.Machine
end

