-- ==== Sys2Proof/Laws/KeepsOps1.lean ====
section
/-! SUPPORT. What each operation and each command's meaning may change, one lemma each, part 1 of 4: an operation
stands after the operations it uses. -/

namespace Sys2Proof.Machine

open Sys2Proof.Safety

set_option maxRecDepth 10000

theorem State.setFld_keeps (s f v) : Keeps [.regs] s (State.setFld s f v) := by
  unfold State.setFld
  refine Keeps.then (State.setReg_keeps ..) rfl ?_
  exact Keeps.refl _ _

theorem State.fireAt_keeps (s n hop time) : Keeps [.regs, .evt] s (State.fireAt s n hop time) := by
  unfold State.fireAt
  extract_lets x1 x2 x3
  have k4 : Keeps [.regs, .evt] s x1 := by
    unfold x1
    split
    · rename_i y5 y6 y7
      refine Keeps.then (State.setFld_keeps ..) rfl ?_
      exact Keeps.refl _ _
    · rename_i y8 y9
      exact Keeps.refl _ _
  clear_value x1
  refine Keeps.set_evt rfl ?_
  exact k4

theorem State.fire_keeps (s n) : Keeps [.regs, .evt] s (State.fire s n) := by
  unfold State.fire
  refine Keeps.then (State.fireAt_keeps ..) rfl ?_
  exact Keeps.refl _ _

theorem State.jnlSpace_keeps (s freeBytes) : Keeps [.regs, .jnl, .evt] s (State.jnlSpace s freeBytes) := by
  unfold State.jnlSpace
  extract_lets x1 x2 x3 x4 x5
  have k6 : Keeps [.regs, .jnl, .evt] s x3 := by
    unfold x3
    refine Keeps.then (State.setFld_keeps ..) rfl ?_
    refine Keeps.set_jnl rfl ?_
    exact Keeps.refl _ _
  have k7 : Keeps [.regs, .jnl, .evt] s x4 := by
    unfold x4
    refine Keeps.then (State.fire_keeps ..) rfl ?_
    refine Keeps.then (State.setFld_keeps ..) rfl ?_
    exact k6
  clear_value x4
  have k8 : Keeps [.regs, .jnl, .evt] s x5 := by
    unfold x5
    refine Keeps.then (State.setFld_keeps ..) rfl ?_
    exact k6
  clear_value x5
  refine Keeps.ite ?_ ?_
  · refine Keeps.foldl ?_ ?_
    · exact k7
    · intro u9 e10 k11
      refine Keeps.ite ?_ ?_
      · refine Keeps.then (State.fire_keeps ..) rfl ?_
        refine Keeps.then (State.setFld_keeps ..) rfl ?_
        exact k11
      · exact k11
  · refine Keeps.ite ?_ ?_
    · refine Keeps.foldl ?_ ?_
      · exact k8
      · intro u12 e13 k14
        refine Keeps.ite ?_ ?_
        · refine Keeps.then (State.setFld_keeps ..) rfl ?_
          exact k14
        · exact k14
    · exact k6

theorem State.journal_keeps (s ty sess ctx fields payload) : Keeps [.regs, .jnl,
    .evt] s (State.journal s ty sess ctx fields payload) := by
  unfold State.journal
  extract_lets x1 x2 x3
  have k4 : Keeps [.regs, .jnl, .evt] s x3 := by
    unfold x3
    refine Keeps.set_jnl rfl ?_
    exact Keeps.refl _ _
  clear_value x3
  refine Keeps.then (State.jnlSpace_keeps ..) rfl ?_
  exact k4

theorem State.bump_keeps (s f n) : Keeps [.regs] s (State.bump s f n) := by
  unfold State.bump
  refine Keeps.then (State.setFld_keeps ..) rfl ?_
  exact Keeps.refl _ _

theorem State.setSession_keeps (s n v) : Keeps [.sess] s (State.setSession s n v) := by
  unfold State.setSession
  refine Keeps.set_sess rfl ?_
  exact Keeps.refl _ _

theorem State.sendCpl_keeps (s n d status result) : Keeps [.regs, .jnl, .sess, .evt] s (State.sendCpl s n d status result) := by
  unfold State.sendCpl
  extract_lets x1 x2 x3 x4 x5 x6 x7
  have k8 : Keeps [.regs, .jnl, .sess, .evt] s x6 := by
    unfold x6
    refine Keeps.then (State.journal_keeps ..) rfl ?_
    exact Keeps.refl _ _
  clear_value x6
  refine Keeps.ite ?_ ?_
  · refine Keeps.then (State.fire_keeps ..) rfl ?_
    refine Keeps.then (State.bump_keeps ..) rfl ?_
    exact Keeps.refl _ _
  · refine Keeps.then (State.setSession_keeps ..) rfl ?_
    exact k8

theorem State.fireIf_keeps (s b n) : Keeps [.regs, .evt] s (State.fireIf s b n) := by
  unfold State.fireIf
  refine Keeps.ite ?_ ?_
  · refine Keeps.then (State.fire_keeps ..) rfl ?_
    exact Keeps.refl _ _
  · exact Keeps.refl _ _

theorem State.stopRings_keeps (s n) : Keeps [.regs, .evt] s (State.stopRings s n) := by
  unfold State.stopRings
  refine Keeps.then (State.fireIf_keeps ..) rfl ?_
  refine Keeps.then (State.setFld_keeps ..) rfl ?_
  exact Keeps.refl _ _

theorem State.postOp_keeps (s n len data read w o who job) : Keeps [.sess] s (State.postOp s n len data read w o who job) := by
  unfold State.postOp
  extract_lets x1 x2 x3 x4
  refine Keeps.then (State.setSession_keeps ..) rfl ?_
  exact Keeps.refl _ _

theorem State.xfault_keeps (s n w o cause who) : Keeps [.regs, .evt] s (State.xfault s n w o cause who) := by
  unfold State.xfault
  extract_lets x1
  have k2 : Keeps [.regs, .evt] s x1 := by
    unfold x1
    refine Keeps.then (State.setFld_keeps ..) rfl ?_
    refine Keeps.then (State.setFld_keeps ..) rfl ?_
    refine Keeps.then (State.setFld_keeps ..) rfl ?_
    refine Keeps.then (State.setFld_keeps ..) rfl ?_
    refine Keeps.then (State.setFld_keeps ..) rfl ?_
    exact Keeps.refl _ _
  clear_value x1
  refine Keeps.then (State.fire_keeps ..) rfl ?_
  refine Keeps.then (State.bump_keeps ..) rfl ?_
  refine Keeps.then (State.setFld_keeps ..) rfl ?_
  refine Keeps.then (State.setReg_keeps ..) rfl ?_
  exact k2

theorem State.hostRead_keeps (s dev len why who job) : Keeps [.out, .regs, .sess, .evt] s (State.hostRead s dev len why who job).1 := by
  unfold State.hostRead
  extract_lets x1 x2 x3 x4
  have k5 : Keeps [.out, .regs, .sess, .evt] s x4 := by
    unfold x4
    refine Keeps.ite ?_ ?_
    · exact Keeps.refl _ _
    · refine Keeps.foldl ?_ ?_
      · exact Keeps.refl _ _
      · intro u6 e7 k8
        refine Keeps.then (State.emit_keeps ..) rfl ?_
        exact k8
  clear_value x4
  clear_value x3
  split
  · rename_i y9 y10 y11 y12
    dsimp -zeta only
    refine Keeps.then (State.xfault_keeps ..) rfl ?_
    exact Keeps.refl _ _
  · rename_i y13 y14
    dsimp -zeta only
    refine Keeps.then (State.postOp_keeps ..) rfl ?_
    exact k5

theorem State.kickFetch_keeps (s n) : Keeps [.out, .regs, .sess, .evt] s (State.kickFetch s n) := by
  unfold State.kickFetch
  extract_lets x1 x2 x3 x4 x5
  have k6 : Keeps [.out, .regs, .sess, .evt] s x4.1 := by
    unfold x4
    refine Keeps.then (State.hostRead_keeps ..) rfl ?_
    exact Keeps.refl _ _
  clear_value x4
  refine Keeps.ite ?_ ?_
  · exact Keeps.refl _ _
  · split
    · rename_i y7 y8 y9
      refine Keeps.then (State.stopRings_keeps ..) rfl ?_
      exact k6
    · rename_i y10 y11
      refine Keeps.then (State.setSession_keeps ..) rfl ?_
      exact k6

theorem State.finishDesc_keeps (s n idx status result) : Keeps [.out, .regs, .jnl, .sess,
    .evt] s (State.finishDesc s n idx status result) := by
  unfold State.finishDesc
  split
  · rename_i y1 y2
    exact Keeps.refl _ _
  · rename_i y3 y4 y5
    extract_lets x6 x7 x8 x9
    have k10 : Keeps [.out, .regs, .jnl, .sess, .evt] s x8 := by
      unfold x8
      refine Keeps.then (State.setFld_keeps ..) rfl ?_
      refine Keeps.then (State.setSession_keeps ..) rfl ?_
      exact Keeps.refl _ _
    clear_value x8
    have k11 : Keeps [.out, .regs, .jnl, .sess, .evt] s x9 := by
      unfold x9
      refine Keeps.then (State.fireIf_keeps ..) rfl ?_
      exact k10
    clear_value x9
    refine Keeps.then (State.kickFetch_keeps ..) rfl ?_
    refine Keeps.then (State.sendCpl_keeps ..) rfl ?_
    exact k11

theorem State.supersede_keeps (s n tg) : Keeps [.jobs, .sess] s (State.supersede s n tg) := by
  unfold State.supersede
  extract_lets x1 x2 x3 x4 x5
  have k6 : Keeps [.jobs, .sess] s x5 := by
    unfold x5
    refine Keeps.then (State.setSession_keeps ..) rfl ?_
    exact Keeps.refl _ _
  clear_value x5
  refine Keeps.set_jobs rfl ?_
  exact k6

theorem State.setHring_keeps (s n r v) : Keeps [.sess] s (State.setHring s n r v) := by
  unfold State.setHring
  extract_lets x1
  refine Keeps.then (State.setSession_keeps ..) rfl ?_
  exact Keeps.refl _ _

theorem State.acceptDesc_keeps (s n b bad) : Keeps [.out, .regs, .jobs, .jnl, .sess, .evt] s (State.acceptDesc s n b bad) := by
  unfold State.acceptDesc
  extract_lets x1 x2 x3 x4 x5 x6 x7
  have k8 : Keeps [.out, .regs, .jobs, .jnl, .sess, .evt] s x3 := by
    unfold x3
    refine Keeps.then (State.setHring_keeps ..) rfl ?_
    exact Keeps.refl _ _
  clear_value x3
  have k9 : Keeps [.out, .regs, .jobs, .jnl, .sess, .evt] s x5 := by
    unfold x5
    refine Keeps.ite ?_ ?_
    · refine Keeps.then (State.supersede_keeps ..) rfl ?_
      exact k8
    · exact k8
  clear_value x5
  have k10 : Keeps [.out, .regs, .jobs, .jnl, .sess, .evt] s x7 := by
    unfold x7
    refine Keeps.then (State.setFld_keeps ..) rfl ?_
    refine Keeps.then (State.setSession_keeps ..) rfl ?_
    exact k9
  clear_value x7
  refine Keeps.ite ?_ ?_
  · refine Keeps.then (State.finishDesc_keeps ..) rfl ?_
    refine Keeps.then (State.bump_keeps ..) rfl ?_
    exact k10
  · refine Keeps.then (State.journal_keeps ..) rfl ?_
    exact k10

theorem State.acceptAll_keeps (s n a2) : Gives (fun r => r) [.out, .regs, .jobs, .jnl, .sess, .evt] s (State.acceptAll s n a2) := by
  induction a2 generalizing s n
  · unfold State.acceptAll
    refine Gives.ok ?_
    exact Keeps.refl _ _
  · rename_i y1 y2 y3
    unfold State.acceptAll
    extract_lets x4 x5
    refine Gives.ite ?_ ?_
    · refine Gives.ok ?_
      refine Keeps.then (State.setSession_keeps ..) rfl ?_
      exact Keeps.refl _ _
    · refine Gives.ite ?_ ?_
      · exact Gives.error
      · refine Gives.then (y3 _ _) rfl ?_
        refine Keeps.then (State.acceptDesc_keeps ..) rfl ?_
        exact Keeps.refl _ _

theorem State.setSlice_keeps (s k v) : Keeps [.slices] s (State.setSlice s k v) := by
  unfold State.setSlice
  refine Keeps.set_slices rfl ?_
  exact Keeps.refl _ _

theorem State.wakeSlice_keeps (s k) : Keeps [.slices] s (State.wakeSlice s k) := by
  unfold State.wakeSlice
  extract_lets x1
  refine Keeps.ite ?_ ?_
  · exact Keeps.refl _ _
  · refine Keeps.then (State.setSlice_keeps ..) rfl ?_
    exact Keeps.refl _ _

theorem State.setCtx_keeps (s c v) : Keeps [.ctxs] s (State.setCtx s c v) := by
  unfold State.setCtx
  refine Keeps.set_ctxs rfl ?_
  exact Keeps.refl _ _

theorem State.stripDone_keeps (s c) : Keeps [.regs, .ctxs, .evt] s (State.stripDone s c) := by
  unfold State.stripDone
  extract_lets x1 x2 x3 x4
  refine Keeps.then (State.fire_keeps ..) rfl ?_
  refine Keeps.then (State.setCtx_keeps ..) rfl ?_
  exact Keeps.refl _ _

theorem State.cmpFire_keeps (s g i) : Keeps [.regs, .evt] s (State.cmpFire s g i) := by
  unfold State.cmpFire
  refine Keeps.then (State.fire_keeps ..) rfl ?_
  exact Keeps.refl _ _

theorem State.ringSkip_keeps (s c g ln) : Keeps [.regs, .ring, .evt] s (State.ringSkip s c g ln) := by
  unfold State.ringSkip
  extract_lets x1 x2
  refine Keeps.then (State.cmpFire_keeps ..) rfl ?_
  refine Keeps.then (State.setFld_keeps ..) rfl ?_
  refine Keeps.then (State.bump_keeps ..) rfl ?_
  refine Keeps.set_ring rfl ?_
  exact Keeps.refl _ _

theorem State.fifoLevel_keeps (s c) : Keeps [.regs, .evt] s (State.fifoLevel s c) := by
  unfold State.fifoLevel
  extract_lets x1 x2 x3 x4 x5 x6
  have k7 : Keeps [.regs, .evt] s x5 := by
    unfold x5
    refine Keeps.then (State.setFld_keeps ..) rfl ?_
    refine Keeps.then (State.setFld_keeps ..) rfl ?_
    exact Keeps.refl _ _
  clear_value x5
  refine Keeps.then (State.fireIf_keeps ..) rfl ?_
  refine Keeps.then (State.fireIf_keeps ..) rfl ?_
  exact k7

theorem State.fifoDrain_keeps (s c) : Keeps [.regs, .ctxs, .evt] s (State.fifoDrain s c) := by
  unfold State.fifoDrain
  extract_lets x1
  refine Keeps.then (State.fifoLevel_keeps ..) rfl ?_
  refine Keeps.then (State.setCtx_keeps ..) rfl ?_
  exact Keeps.refl _ _

theorem State.setPort_keeps (s p v) : Keeps [.ports] s (State.setPort s p v) := by
  unfold State.setPort
  refine Keeps.set_ports rfl ?_
  exact Keeps.refl _ _

theorem State.passIdx_keeps (s p idx abs time pos) : Keeps [.ports] s (State.passIdx s p idx abs time pos) := by
  unfold State.passIdx
  extract_lets x1
  refine Keeps.then (State.setPort_keeps ..) rfl ?_
  exact Keeps.refl _ _

theorem State.setNum_keeps (s c f) : Keeps [.ctxs] s (State.setNum s c f) := by
  unfold State.setNum
  extract_lets x1
  refine Keeps.then (State.setCtx_keeps ..) rfl ?_
  exact Keeps.refl _ _

theorem State.lineQuality_keeps (s c) : Keeps [.ctxs] s (State.lineQuality s c).1 := by
  unfold State.lineQuality
  extract_lets x1 x2 x3
  dsimp -zeta only
  refine Keeps.then (State.setNum_keeps ..) rfl ?_
  exact Keeps.refl _ _

theorem State.alert_keeps (s c cause) : Keeps [.regs, .evt] s (State.alert s c cause) := by
  unfold State.alert
  refine Keeps.then (State.fire_keeps ..) rfl ?_
  refine Keeps.then (State.setFld_keeps ..) rfl ?_
  exact Keeps.refl _ _

theorem State.applyCount_keeps (s c) : Keeps [.regs] s (State.applyCount s c) := by
  unfold State.applyCount
  refine Keeps.then (State.setFld_keeps ..) rfl ?_
  exact Keeps.refl _ _

theorem State.takeTag_keeps (s c idx tag) : Keeps [.regs, .ports, .ctxs, .evt] s (State.takeTag s c idx tag).1 := by
  unfold State.takeTag
  extract_lets x1 x2 x3 x4
  have k5 : Keeps [.regs, .ports, .ctxs, .evt] s x3 := by
    unfold x3
    refine Keeps.then (State.applyCount_keeps ..) rfl ?_
    refine Keeps.then (State.setNum_keeps ..) rfl ?_
    refine Keeps.then (State.setPort_keeps ..) rfl ?_
    exact Keeps.refl _ _
  clear_value x3
  have k6 : Keeps [.regs, .ports, .ctxs, .evt] s x4 := by
    unfold x4
    refine Keeps.then (State.fireIf_keeps ..) rfl ?_
    refine Keeps.then (State.setFld_keeps ..) rfl ?_
    exact k5
  clear_value x4
  refine Keeps.ite_map Prod.fst ?_ ?_
  · dsimp -zeta only
    exact k6
  · dsimp -zeta only
    refine Keeps.then (State.alert_keeps ..) rfl ?_
    refine Keeps.then (State.bump_keeps ..) rfl ?_
    exact k6

theorem State.setFlag_keeps (s f b) : Keeps [.regs] s (State.setFlag s f b) := by
  unfold State.setFlag
  refine Keeps.then (State.setFld_keeps ..) rfl ?_
  exact Keeps.refl _ _

theorem State.bankStatus_keeps (s c) : Keeps [.regs] s (State.bankStatus s c) := by
  unfold State.bankStatus
  extract_lets x1 x2 x3 x4 x5 x6 x7 x8
  have k9 : Keeps [.regs] s x4 := by
    unfold x4
    refine Keeps.then (State.setFlag_keeps ..) rfl ?_
    refine Keeps.then (State.setFlag_keeps ..) rfl ?_
    refine Keeps.then (State.setFlag_keeps ..) rfl ?_
    refine Keeps.then (State.setFlag_keeps ..) rfl ?_
    exact Keeps.refl _ _
  clear_value x4
  have k10 : Keeps [.regs] s x5 := by
    unfold x5
    refine Keeps.then (State.setFlag_keeps ..) rfl ?_
    refine Keeps.then (State.setFlag_keeps ..) rfl ?_
    refine Keeps.then (State.setFlag_keeps ..) rfl ?_
    refine Keeps.then (State.setFlag_keeps ..) rfl ?_
    exact k9
  clear_value x5
  have k11 : Keeps [.regs] s x7 := by
    unfold x7
    refine Keeps.then (State.setFld_keeps ..) rfl ?_
    refine Keeps.then (State.setFld_keeps ..) rfl ?_
    exact k10
  clear_value x7
  have k12 : Keeps [.regs] s x8 := by
    unfold x8
    refine Keeps.then (State.setFld_keeps ..) rfl ?_
    refine Keeps.then (State.setFld_keeps ..) rfl ?_
    exact k11
  clear_value x8
  refine Keeps.then (State.setFld_keeps ..) rfl ?_
  refine Keeps.then (State.setFld_keeps ..) rfl ?_
  exact k12

theorem State.activate_keeps (s c n) : Keeps [.regs, .ctxs, .evt] s (State.activate s c n) := by
  unfold State.activate
  split
  · rename_i y1 y2
    exact Keeps.refl _ _
  · rename_i y3 y4 y5
    extract_lets x6 x7 x8 x9 x10 x11
    have k12 : Keeps [.regs, .ctxs, .evt] s x7 := by
      unfold x7
      refine Keeps.then (State.setFld_keeps ..) rfl ?_
      refine Keeps.then (State.setFld_keeps ..) rfl ?_
      exact Keeps.refl _ _
    clear_value x7
    have k13 : Keeps [.regs, .ctxs, .evt] s x9 := by
      unfold x9
      refine Keeps.then (State.setNum_keeps ..) rfl ?_
      exact k12
    clear_value x9
    refine Keeps.ite ?_ ?_
    · exact Keeps.refl _ _
    · refine Keeps.then (State.fire_keeps ..) rfl ?_
      refine Keeps.then (State.bankStatus_keeps ..) rfl ?_
      refine Keeps.then (State.setCtx_keeps ..) rfl ?_
      exact k13

theorem State.seamShift_keeps (s c n) : Keeps [.regs, .ctxs, .evt, .cal] s (State.seamShift s c n) := by
  unfold State.seamShift
  extract_lets x1 x2 x3 x4 x5 x6 x7 x8 x9
  have k10 : Keeps [.regs, .ctxs, .evt, .cal] s x4 := by
    unfold x4
    refine Keeps.set_cal rfl ?_
    exact Keeps.refl _ _
  clear_value x4
  have k11 : Keeps [.regs, .ctxs, .evt, .cal] s x8 := by
    unfold x8
    refine Keeps.set_cal rfl ?_
    exact k10
  clear_value x8
  have k12 : Keeps [.regs, .ctxs, .evt, .cal] s x9 := by
    unfold x9
    refine Keeps.ite ?_ ?_
    · refine Keeps.then (State.setFld_keeps ..) rfl ?_
      exact k11
    · exact k11
  clear_value x9
  refine Keeps.ite ?_ ?_
  · exact Keeps.refl _ _
  · split
    · rename_i y13 y14
      exact Keeps.refl _ _
    · rename_i y15 y16 y17
      extract_lets x18 x19
      refine Keeps.ite ?_ ?_
      · refine Keeps.then (State.setFld_keeps ..) rfl ?_
        exact k10
      · refine Keeps.then (State.activate_keeps ..) rfl ?_
        refine Keeps.then (State.setFld_keeps ..) rfl ?_
        refine Keeps.then (State.setNum_keeps ..) rfl ?_
        exact k12

theorem State.set64_keeps (s lo v) : Keeps [.regs] s (State.set64 s lo v) := by
  unfold State.set64
  refine Keeps.then (State.setReg_keeps ..) rfl ?_
  refine Keeps.then (State.setReg_keeps ..) rfl ?_
  exact Keeps.refl _ _

theorem State.beginStrip_keeps (s c n base) : Keeps [.regs, .ctxs, .evt, .cal] s (State.beginStrip s c n base) := by
  unfold State.beginStrip
  extract_lets x1 x2
  have k3 : Keeps [.regs, .ctxs, .evt, .cal] s x1 := by
    unfold x1
    refine Keeps.then (State.setFld_keeps ..) rfl ?_
    refine Keeps.then (State.set64_keeps ..) rfl ?_
    exact Keeps.refl _ _
  clear_value x1
  refine Keeps.then (State.seamShift_keeps ..) rfl ?_
  refine Keeps.then (State.activate_keeps ..) rfl ?_
  refine Keeps.then (State.setNum_keeps ..) rfl ?_
  exact k3

theorem State.mapLine_keeps (s c cp idx) : Keeps [.regs, .ctxs, .evt, .cal] s (State.mapLine s c cp idx).1 := by
  unfold State.mapLine
  extract_lets x1 x2 x3 x4 x5 x6
  have k7 : Keeps [.regs, .ctxs, .evt, .cal] s x6 := by
    unfold x6
    refine Keeps.ite ?_ ?_
    · exact Keeps.refl _ _
    · refine Keeps.then (State.stripDone_keeps ..) rfl ?_
      refine Keeps.then (State.setCtx_keeps ..) rfl ?_
      exact Keeps.refl _ _
  clear_value x6
  refine Keeps.ite_map Prod.fst ?_ ?_
  · dsimp -zeta only
    refine Keeps.then (State.beginStrip_keeps ..) rfl ?_
    exact Keeps.refl _ _
  · refine Keeps.ite_map Prod.fst ?_ ?_
    · dsimp -zeta only
      exact Keeps.refl _ _
    · dsimp -zeta only
      refine Keeps.then (State.beginStrip_keeps ..) rfl ?_
      exact k7

theorem State.rebase_keeps (s c) : Keeps [.regs, .ctxs, .evt] s (State.rebase s c) := by
  unfold State.rebase
  extract_lets x1 x2 x3 x4
  have k5 : Keeps [.regs, .ctxs, .evt] s x3 := by
    unfold x3
    refine Keeps.then (State.setCtx_keeps ..) rfl ?_
    exact Keeps.refl _ _
  clear_value x3
  have k6 : Keeps [.regs, .ctxs, .evt] s x4 := by
    unfold x4
    refine Keeps.then (State.setNum_keeps ..) rfl ?_
    refine Keeps.then (State.stripDone_keeps ..) rfl ?_
    exact k5
  clear_value x4
  refine Keeps.ite ?_ ?_
  · refine Keeps.then (State.setNum_keeps ..) rfl ?_
    exact Keeps.refl _ _
  · refine Keeps.then (State.alert_keeps ..) rfl ?_
    refine Keeps.then (State.bump_keeps ..) rfl ?_
    exact k6

theorem State.formTwo_keeps (s c cp pos) : Keeps [.regs, .ctxs, .evt] s (State.formTwo s c cp pos) := by
  unfold State.formTwo
  split
  · rename_i y1 y2
    exact Keeps.refl _ _
  · rename_i y3 y4 y5 y6
    extract_lets x7 x8
    have k9 : Keeps [.regs, .ctxs, .evt] s x8 := by
      unfold x8
      refine Keeps.then (State.setFld_keeps ..) rfl ?_
      exact Keeps.refl _ _
    clear_value x8
    refine Keeps.ite ?_ ?_
    · exact Keeps.refl _ _
    · refine Keeps.then (State.rebase_keeps ..) rfl ?_
      refine Keeps.then (State.setNum_keeps ..) rfl ?_
      exact k9

theorem State.overflow_keeps (s c ln) : Keeps [.regs, .ports, .evt] s (State.overflow s c ln) := by
  unfold State.overflow
  extract_lets x1 x2
  have k3 : Keeps [.regs, .ports, .evt] s x1 := by
    unfold x1
    refine Keeps.then (State.passIdx_keeps ..) rfl ?_
    refine Keeps.then (State.alert_keeps ..) rfl ?_
    refine Keeps.then (State.bump_keeps ..) rfl ?_
    exact Keeps.refl _ _
  clear_value x1
  refine Keeps.then (State.setPort_keeps ..) rfl ?_
  exact k3

theorem State.acceptLine_keeps (s c cp ln) : Keeps [.regs, .ports, .ctxs, .slices, .ring, .evt, .cal] s (State.acceptLine s c cp ln) := by
  unfold State.acceptLine
  extract_lets x1 x2 x3 x4 x5 x6 x7 x8 x9 x10 x11 x12 x13 x14 x15 x16 x17 x18 x19 x20 x21 x22
  have k23 : Keeps [.regs, .ports, .ctxs, .slices, .ring, .evt, .cal] s x2 := by
    unfold x2
    refine Keeps.then (State.formTwo_keeps ..) rfl ?_
    exact Keeps.refl _ _
  clear_value x2
  have k24 : Keeps [.regs, .ports, .ctxs, .slices, .ring, .evt, .cal] s x3.1 := by
    unfold x3
    refine Keeps.then (State.mapLine_keeps ..) rfl ?_
    exact k23
  clear_value x3
  have k25 : Keeps [.regs, .ports, .ctxs, .slices, .ring, .evt, .cal] s x4.1 := by
    unfold x4
    refine Keeps.then (State.takeTag_keeps ..) rfl ?_
    exact k24
  clear_value x4
  have k26 : Keeps [.regs, .ports, .ctxs, .slices, .ring, .evt, .cal] s x5.1 := by
    unfold x5
    refine Keeps.then (State.lineQuality_keeps ..) rfl ?_
    exact k25
  clear_value x5
  have k27 : Keeps [.regs, .ports, .ctxs, .slices, .ring, .evt, .cal] s x6 := by
    unfold x6
    exact k26
  clear_value x6
  have k28 : Keeps [.regs, .ports, .ctxs, .slices, .ring, .evt, .cal] s x10 := by
    unfold x10
    refine Keeps.then (State.passIdx_keeps ..) rfl ?_
    exact k27
  clear_value x10
  have k29 : Keeps [.regs, .ports, .ctxs, .slices, .ring, .evt, .cal] s x12 := by
    unfold x12
    refine Keeps.then (State.setPort_keeps ..) rfl ?_
    exact k28
  clear_value x12
  have k30 : Keeps [.regs, .ports, .ctxs, .slices, .ring, .evt, .cal] s x19 := by
    unfold x19
    refine Keeps.then (State.setCtx_keeps ..) rfl ?_
    exact k29
  clear_value x19
  have k31 : Keeps [.regs, .ports, .ctxs, .slices, .ring, .evt, .cal] s x20 := by
    unfold x20
    refine Keeps.then (State.fifoDrain_keeps ..) rfl ?_
    refine Keeps.then (State.fifoLevel_keeps ..) rfl ?_
    exact k30
  clear_value x20
  have k32 : Keeps [.regs, .ports, .ctxs, .slices, .ring, .evt, .cal] s x21 := by
    unfold x21
    refine Keeps.ite ?_ ?_
    · refine Keeps.then (State.ringSkip_keeps ..) rfl ?_
      exact k31
    · exact k31
  clear_value x21
  have k33 : Keeps [.regs, .ports, .ctxs, .slices, .ring, .evt, .cal] s x22 := by
    unfold x22
    refine Keeps.ite ?_ ?_
    · refine Keeps.then (State.stripDone_keeps ..) rfl ?_
      exact k32
    · exact k32
  clear_value x22
  refine Keeps.ite ?_ ?_
  · refine Keeps.then (State.overflow_keeps ..) rfl ?_
    exact Keeps.refl _ _
  · refine Keeps.ite ?_ ?_
    · refine Keeps.then (State.wakeSlice_keeps ..) rfl ?_
      exact k33
    · exact k33

theorem State.ackAt_keeps (s n r i) : Keeps [.regs, .jnl, .evt] s (State.ackAt s n r i) := by
  unfold State.ackAt
  extract_lets x1 x2 x3 x4 x5
  split
  · rename_i y6 y7
    exact Keeps.refl _ _
  · rename_i y8 y9 y10
    refine Keeps.then (State.journal_keeps ..) rfl ?_
    exact Keeps.refl _ _

theorem State.modPort_keeps (s p f) : Keeps [.ports] s (State.modPort s p f) := by
  unfold State.modPort
  refine Keeps.then (State.setPort_keeps ..) rfl ?_
  exact Keeps.refl _ _

theorem State.setLane_keeps (s p l v) : Keeps [.ports] s (State.setLane s p l v) := by
  unfold State.setLane
  refine Keeps.then (State.modPort_keeps ..) rfl ?_
  exact Keeps.refl _ _

theorem State.sendStep_keeps (s p l) : Keeps [.out, .ports] s (State.sendStep s p l) := by
  unfold State.sendStep
  extract_lets x1
  refine Keeps.then (State.emit_keeps ..) rfl ?_
  refine Keeps.then (State.setLane_keeps ..) rfl ?_
  exact Keeps.refl _ _

theorem State.adaptLane_keeps (s p l) : Keeps [.out, .ports] s (State.adaptLane s p l) := by
  unfold State.adaptLane
  extract_lets x1
  refine Keeps.then (State.sendStep_keeps ..) rfl ?_
  refine Keeps.then (State.setLane_keeps ..) rfl ?_
  exact Keeps.refl _ _

theorem State.addCal_keeps (s r) : Keeps [.cal] s (State.addCal s r) := by
  unfold State.addCal
  extract_lets x1
  refine Keeps.set_cal rfl ?_
  exact Keeps.refl _ _

theorem State.jobCounts_keeps (s) : Keeps [.regs] s (State.jobCounts s) := by
  unfold State.jobCounts
  refine Keeps.then (State.setFld_keeps ..) rfl ?_
  refine Keeps.then (State.setFld_keeps ..) rfl ?_
  exact Keeps.refl _ _

theorem State.addJob_keeps (s j) : Keeps [.regs, .jobs] s (State.addJob s j) := by
  unfold State.addJob
  refine Keeps.then (State.jobCounts_keeps ..) rfl ?_
  refine Keeps.set_jobs rfl ?_
  exact Keeps.refl _ _

theorem State.setDivider_keeps (s p v) : Keeps [.dividers] s (State.setDivider s p v) := by
  unfold State.setDivider
  refine Keeps.set_dividers rfl ?_
  exact Keeps.refl _ _

theorem State.alignDividers_keeps (s) : Keeps [.dividers] s (State.alignDividers s) := by
  unfold State.alignDividers
  extract_lets x1
  refine Keeps.foldl ?_ ?_
  · exact Keeps.refl _ _
  · intro u2 e3 k4
    refine Keeps.then (State.setDivider_keeps ..) rfl ?_
    exact k4

theorem State.setEnc_keeps (s k v) : Keeps [.encs] s (State.setEnc s k v) := by
  unfold State.setEnc
  refine Keeps.set_encs rfl ?_
  exact Keeps.refl _ _

theorem State.alwaysOnLost_keeps (s) : Keeps [.regs, .tim, .encs, .pwr] s (State.alwaysOnLost s) := by
  unfold State.alwaysOnLost
  extract_lets x1 x2 x3 x4 x5 x6
  have k7 : Keeps [.regs, .tim, .encs, .pwr] s x2 := by
    unfold x2
    refine Keeps.set_tim rfl ?_
    exact Keeps.refl _ _
  clear_value x2
  have k8 : Keeps [.regs, .tim, .encs, .pwr] s x3 := by
    unfold x3
    refine Keeps.foldl ?_ ?_
    · exact k7
    · intro u9 e10 k11
      extract_lets x12
      refine Keeps.then (State.setEnc_keeps ..) rfl ?_
      exact k11
  clear_value x3
  have k13 : Keeps [.regs, .tim, .encs, .pwr] s x4 := by
    unfold x4
    refine Keeps.foldl ?_ ?_
    · exact k8
    · intro u14 e15 k16
      refine Keeps.then (State.set64_keeps ..) rfl ?_
      exact k16
  clear_value x4
  have k17 : Keeps [.regs, .tim, .encs, .pwr] s x5 := by
    unfold x5
    refine Keeps.then (State.setFld_keeps ..) rfl ?_
    refine Keeps.then (State.setFld_keeps ..) rfl ?_
    exact k13
  clear_value x5
  refine Keeps.set_pwr rfl ?_
  exact k17

theorem State.writePiece_keeps (s n w o who job addr bs) : Keeps [.out, .sess] s (State.writePiece s n w o who job addr bs) := by
  unfold State.writePiece
  refine Keeps.foldl ?_ ?_
  · exact Keeps.refl _ _
  · intro u1 e2 k3
    refine Keeps.then (State.postOp_keeps ..) rfl ?_
    refine Keeps.then (State.emit_keeps ..) rfl ?_
    exact k3

theorem State.writePieces_keeps (s n w who job a5 a6 a7) : Keeps [.out, .sess] s (State.writePieces s n w who job a5 a6 a7) := by
  induction a6 generalizing s n w who job a5 a7
  · unfold State.writePieces
    exact Keeps.refl _ _
  · rename_i y1 y2 y3
    unfold State.writePieces
    refine Keeps.then (y3 _ _ _ _ _ _ _) rfl ?_
    refine Keeps.then (State.writePiece_keeps ..) rfl ?_
    exact Keeps.refl _ _

theorem State.holdWrite_keeps (s n w o who job bs) : Keeps [.sess] s (State.holdWrite s n w o who job bs) := by
  unfold State.holdWrite
  extract_lets x1
  refine Keeps.ite ?_ ?_
  · exact Keeps.refl _ _
  · refine Keeps.then (State.setSession_keeps ..) rfl ?_
    exact Keeps.refl _ _

theorem State.hostWrite_keeps (s dev bs who job) : Keeps [.out, .regs, .sess, .evt] s (State.hostWrite s dev bs who job).1 := by
  unfold State.hostWrite
  extract_lets x1 x2 x3 x4
  have k5 : Keeps [.out, .regs, .sess, .evt] s x4 := by
    unfold x4
    refine Keeps.ite ?_ ?_
    · refine Keeps.then (State.holdWrite_keeps ..) rfl ?_
      exact Keeps.refl _ _
    · refine Keeps.then (State.writePieces_keeps ..) rfl ?_
      exact Keeps.refl _ _
  clear_value x4
  clear_value x3
  split
  · rename_i y6 y7
    dsimp -zeta only
    exact k5
  · rename_i y8 y9 y10 y11
    dsimp -zeta only
    refine Keeps.then (State.xfault_keeps ..) rfl ?_
    exact k5

theorem State.mirror_keeps (s n r) : Keeps [.out, .regs, .sess, .evt] s (State.mirror s n r) := by
  obtain ⟨f1, h2⟩ : ∃ f, f = @State.mirror := ⟨_, rfl⟩
  rw [← h2]
  delta State.mirror at h2
  subst h2
  beta_reduce
  extract_lets x3 x4 x5
  have k6 : Keeps [.out, .regs, .sess, .evt] s x5 := by
    unfold x5
    refine Keeps.ite ?_ ?_
    · refine Keeps.then (State.setFld_keeps ..) rfl ?_
      exact Keeps.refl _ _
    · refine Keeps.ite ?_ ?_
      · refine Keeps.then (State.setFld_keeps ..) rfl ?_
        exact Keeps.refl _ _
      · exact Keeps.refl _ _
  clear_value x5
  refine Keeps.then (State.hostWrite_keeps ..) rfl ?_
  exact k6

theorem State.ringPut_keeps (s n r bs who job) : Keeps [.out, .regs, .sess, .evt] s (State.ringPut s n r bs who job).1 := by
  unfold State.ringPut
  extract_lets x1 x2 x3
  have k4 : Keeps [.out, .regs, .sess, .evt] s x2.1 := by
    unfold x2
    refine Keeps.then (State.hostWrite_keeps ..) rfl ?_
    exact Keeps.refl _ _
  clear_value x2
  split
  · rename_i y5 y6 y7
    dsimp -zeta only
    exact k4
  · rename_i y8 y9
    dsimp -zeta only
    refine Keeps.then (State.mirror_keeps ..) rfl ?_
    refine Keeps.then (State.setHring_keeps ..) rfl ?_
    exact k4

theorem State.flushEvt_keeps (s n a2) : Keeps [.out, .regs, .sess, .evt] s (State.flushEvt s n a2) := by
  induction a2 generalizing s n
  · unfold State.flushEvt
    exact Keeps.refl _ _
  · rename_i y1 y2
    unfold State.flushEvt
    extract_lets x3 x4
    split
    · rename_i y5 y6
      exact Keeps.refl _ _
    · rename_i y7 y8 y9 y10
      extract_lets x11 x12
      have k13 : Keeps [.out, .regs, .sess, .evt] s x11.1 := by
        unfold x11
        refine Keeps.then (State.ringPut_keeps ..) rfl ?_
        exact Keeps.refl _ _
      clear_value x11
      refine Keeps.ite ?_ ?_
      · exact Keeps.refl _ _
      · refine Keeps.ite ?_ ?_
        · exact Keeps.refl _ _
        · split
          · rename_i y14 y15 y16
            refine Keeps.then (State.stopRings_keeps ..) rfl ?_
            exact k13
          · rename_i y17 y18
            refine Keeps.then (y2 _ _) rfl ?_
            refine Keeps.then (State.setSession_keeps ..) rfl ?_
            exact k13

theorem State.eventTo_keeps (s n raw) : Keeps [.out, .regs, .sess, .evt] s (State.eventTo s n raw) := by
  unfold State.eventTo
  extract_lets x1 x2
  refine Keeps.ite ?_ ?_
  · refine Keeps.then (State.bump_keeps ..) rfl ?_
    refine Keeps.then (State.setSession_keeps ..) rfl ?_
    exact Keeps.refl _ _
  · refine Keeps.then (State.flushEvt_keeps ..) rfl ?_
    refine Keeps.then (State.fireIf_keeps ..) rfl ?_
    refine Keeps.then (State.setSession_keeps ..) rfl ?_
    exact Keeps.refl _ _

theorem State.noticeAll_keeps (s code chan arg) : Keeps [.out, .regs, .sess, .evt] s (State.noticeAll s code chan arg) := by
  unfold State.noticeAll
  refine Keeps.foldl ?_ ?_
  · exact Keeps.refl _ _
  · intro u1 e2 k3
    refine Keeps.ite ?_ ?_
    · refine Keeps.then (State.eventTo_keeps ..) rfl ?_
      exact k3
    · exact k3

theorem State.enterMode_keeps (s m) : Keeps [.out, .regs, .sess, .evt] s (State.enterMode s m) := by
  unfold State.enterMode
  refine Keeps.ite ?_ ?_
  · exact Keeps.refl _ _
  · refine Keeps.then (State.noticeAll_keeps ..) rfl ?_
    refine Keeps.then (State.fire_keeps ..) rfl ?_
    refine Keeps.then (State.setFld_keeps ..) rfl ?_
    refine Keeps.then (State.setFld_keeps ..) rfl ?_
    exact Keeps.refl _ _

theorem State.setFlds_keeps (s l) : Keeps [.regs] s (State.setFlds s l) := by
  unfold State.setFlds
  refine Keeps.foldl ?_ ?_
  · exact Keeps.refl _ _
  · intro u1 e2 k3
    refine Keeps.then (State.setFld_keeps ..) rfl ?_
    exact k3

theorem State.regsCold_keeps (s) : Keeps [.regs] s (State.regsCold s) := by
  unfold State.regsCold
  extract_lets x1 x2
  have k3 : Keeps [.regs] s x2 := by
    unfold x2
    refine Keeps.foldl ?_ ?_
    · exact Keeps.refl _ _
    · intro u4 e5 k6
      refine Keeps.ite ?_ ?_
      · exact k6
      · refine Keeps.then (State.setReg_keeps ..) rfl ?_
        exact k6
  clear_value x2
  refine Keeps.then (State.setFlds_keeps ..) rfl ?_
  exact k3

theorem State.setFldInt_keeps (s f v) : Keeps [.regs] s (State.setFldInt s f v) := by
  unfold State.setFldInt
  refine Keeps.then (State.setFld_keeps ..) rfl ?_
  exact Keeps.refl _ _

theorem State.flashRegs_keeps (s) : Keeps [.regs] s (State.flashRegs s) := by
  unfold State.flashRegs
  extract_lets x1 x2
  have k3 : Keeps [.regs] s x2 := by
    unfold x2
    refine Keeps.then (State.setFldInt_keeps ..) rfl ?_
    refine Keeps.then (State.setFldInt_keeps ..) rfl ?_
    exact Keeps.refl _ _
  clear_value x2
  refine Keeps.then (State.setFldInt_keeps ..) rfl ?_
  exact k3

theorem State.startDawn_keeps (s) : Keeps allParts s (State.startDawn s) := by
  unfold State.startDawn
  extract_lets x1 x2 x3 x4 x5 x6 x7 x8 x9 x10 x11 x12
  have k14 : Keeps allParts s x10 := by
    unfold x10
    exact Keeps.renew (t := s) rfl rfl rfl rfl rfl rfl (Keeps.refl _ _)
  clear_value x10
  have k15 : Keeps allParts s x11 := by
    unfold x11
    refine Keeps.then (State.setFld_keeps ..) rfl ?_
    refine Keeps.then (State.setFld_keeps ..) rfl ?_
    refine Keeps.then (State.flashRegs_keeps ..) rfl ?_
    refine Keeps.then (State.regsCold_keeps ..) rfl ?_
    exact k14
  clear_value x11
  have k16 : Keeps allParts s x12 := by
    unfold x12
    refine Keeps.then (State.setReg_keeps ..) rfl ?_
    refine Keeps.then (State.setReg_keeps ..) rfl ?_
    exact k15
  clear_value x12
  refine Keeps.then (State.enterMode_keeps ..) rfl ?_
  exact k16

theorem State.startClear_keeps (s) : Keeps [.pwr] s (State.startClear s) := by
  unfold State.startClear
  extract_lets x1
  refine Keeps.set_pwr rfl ?_
  exact Keeps.refl _ _

theorem State.startSunrise_keeps (s before) : Keeps [.out, .regs, .sess, .evt, .pwr] s (State.startSunrise s before) := by
  unfold State.startSunrise
  extract_lets x1 x2
  have k3 : Keeps [.out, .regs, .sess, .evt, .pwr] s x1 := by
    unfold x1
    refine Keeps.then (State.setFld_keeps ..) rfl ?_
    refine Keeps.then (State.setFld_keeps ..) rfl ?_
    refine Keeps.then (State.startClear_keeps ..) rfl ?_
    exact Keeps.refl _ _
  clear_value x1
  refine Keeps.then (State.enterMode_keeps ..) rfl ?_
  refine Keeps.set_pwr rfl ?_
  exact k3

theorem State.leaveNight_keeps (s) : Keeps allParts s (State.leaveNight s) := by
  unfold State.leaveNight
  extract_lets x1
  have k2 : Keeps allParts s x1 := by
    unfold x1
    refine Keeps.then (State.fire_keeps ..) rfl ?_
    exact Keeps.refl _ _
  clear_value x1
  refine Keeps.ite ?_ ?_
  · refine Keeps.then (State.startSunrise_keeps ..) rfl ?_
    exact k2
  · refine Keeps.then (State.startDawn_keeps ..) rfl ?_
    exact k2

theorem State.wakeSource_keeps (s b) : Keeps allParts s (State.wakeSource s b) := by
  unfold State.wakeSource
  extract_lets x1
  refine Keeps.ite ?_ ?_
  · refine Keeps.ite ?_ ?_
    · exact Keeps.refl _ _
    · refine Keeps.set_pwr rfl ?_
      exact Keeps.refl _ _
  · refine Keeps.ite ?_ ?_
    · refine Keeps.then (State.leaveNight_keeps ..) rfl ?_
      exact Keeps.refl _ _
    · exact Keeps.refl _ _

theorem State.wakeMotion_keeps (s) : Keeps allParts s (State.wakeMotion s) := by
  unfold State.wakeMotion
  refine Keeps.then (State.wakeSource_keeps ..) rfl ?_
  exact Keeps.refl _ _

theorem State.encSuspect_keeps (s k) : Keeps [.regs, .evt] s (State.encSuspect s k) := by
  unfold State.encSuspect
  refine Keeps.then (State.fireIf_keeps ..) rfl ?_
  refine Keeps.then (State.setFld_keeps ..) rfl ?_
  exact Keeps.refl _ _

theorem State.aoCount_keeps (s k d) : Keeps allParts s (State.aoCount s k d) := by
  unfold State.aoCount
  extract_lets x1 x2 x3 x4 x5
  have k6 : Keeps allParts s x3 := by
    unfold x3
    refine Keeps.then (State.setEnc_keeps ..) rfl ?_
    exact Keeps.refl _ _
  clear_value x3
  have k7 : Keeps allParts s x4 := by
    unfold x4
    refine Keeps.ite ?_ ?_
    · refine Keeps.then (State.encSuspect_keeps ..) rfl ?_
      refine Keeps.then (State.setFld_keeps ..) rfl ?_
      exact k6
    · exact k6
  clear_value x4
  refine Keeps.ite ?_ ?_
  · refine Keeps.then (State.wakeMotion_keeps ..) rfl ?_
    exact k7
  · exact k7

theorem State.setInt64_keeps (s lo v) : Keeps [.regs] s (State.setInt64 s lo v) := by
  unfold State.setInt64
  refine Keeps.then (State.set64_keeps ..) rfl ?_
  exact Keeps.refl _ _

theorem State.aoHandover_keeps (s) : Keeps [.regs, .encs] s (State.aoHandover s) := by
  unfold State.aoHandover
  refine Keeps.foldl ?_ ?_
  · exact Keeps.refl _ _
  · intro u1 e2 k3
    extract_lets x4 x5
    refine Keeps.ite ?_ ?_
    · exact k3
    · refine Keeps.then (State.setInt64_keeps ..) rfl ?_
      refine Keeps.then (State.setEnc_keeps ..) rfl ?_
      refine Keeps.then (State.setFld_keeps ..) rfl ?_
      exact k3

theorem State.aoTake_keeps (s) : Keeps [.encs] s (State.aoTake s) := by
  unfold State.aoTake
  refine Keeps.ite ?_ ?_
  · exact Keeps.refl _ _
  · refine Keeps.foldl ?_ ?_
    · exact Keeps.refl _ _
    · intro u1 e2 k3
      extract_lets x4
      refine Keeps.then (State.setEnc_keeps ..) rfl ?_
      exact k3

theorem State.aoTick_keeps (s k) : Keeps [.regs, .tim] s (State.aoTick s k) := by
  unfold State.aoTick
  extract_lets x1 x2 x3 x4
  have k5 : Keeps [.regs, .tim] s x3 := by
    unfold x3
    refine Keeps.set_tim rfl ?_
    exact Keeps.refl _ _
  clear_value x3
  refine Keeps.ite ?_ ?_
  · refine Keeps.then (State.setFld_keeps ..) rfl ?_
    exact k5
  · exact k5

theorem State.applyFail_keeps (s p a) : Keeps [.out, .regs, .ports, .jnl, .sess, .evt] s (State.applyFail s p a) := by
  unfold State.applyFail
  extract_lets x1
  have k2 : Keeps [.out, .regs, .ports, .jnl, .sess, .evt] s x1 := by
    unfold x1
    refine Keeps.then (State.applyCount_keeps ..) rfl ?_
    refine Keeps.then (State.modPort_keeps ..) rfl ?_
    exact Keeps.refl _ _
  clear_value x1
  refine Keeps.then (State.finishDesc_keeps ..) rfl ?_
  exact k2

theorem State.applyOk_keeps (s p a) : Keeps [.out, .regs, .ports, .jnl, .sess, .evt] s (State.applyOk s p a) := by
  unfold State.applyOk
  extract_lets x1
  refine Keeps.then (State.finishDesc_keeps ..) rfl ?_
  refine Keeps.then (State.modPort_keeps ..) rfl ?_
  exact Keeps.refl _ _

theorem State.penUncertain_keeps (s p) : Keeps [.regs, .evt] s (State.penUncertain s p) := by
  unfold State.penUncertain
  extract_lets x1
  refine Keeps.then (State.fireIf_keeps ..) rfl ?_
  refine Keeps.then (State.setFlag_keeps ..) rfl ?_
  exact Keeps.refl _ _

theorem State.penLevels_keeps (s) : Keeps [.regs, .evt] s (State.penLevels s) := by
  unfold State.penLevels
  extract_lets x1 x2 x3 x4 x5
  have k6 : Keeps [.regs, .evt] s x5 := by
    unfold x5
    refine Keeps.then (State.setFld_keeps ..) rfl ?_
    refine Keeps.then (State.setFld_keeps ..) rfl ?_
    refine Keeps.then (State.setFld_keeps ..) rfl ?_
    exact Keeps.refl _ _
  clear_value x5
  refine Keeps.then (State.fireIf_keeps ..) rfl ?_
  refine Keeps.then (State.fireIf_keeps ..) rfl ?_
  refine Keeps.then (State.setFlag_keeps ..) rfl ?_
  exact k6

theorem State.penPut_keeps (s p) : Keeps [.regs, .pen, .evt] s (State.penPut s p) := by
  unfold State.penPut
  extract_lets x1 x2 x3 x4 x5
  have k6 : Keeps [.regs, .pen, .evt] s x5 := by
    unfold x5
    refine Keeps.ite ?_ ?_
    · refine Keeps.set_pen rfl ?_
      exact Keeps.refl _ _
    · refine Keeps.set_pen rfl ?_
      exact Keeps.refl _ _
  clear_value x5
  refine Keeps.then (State.penLevels_keeps ..) rfl ?_
  refine Keeps.then (State.penUncertain_keeps ..) rfl ?_
  exact k6

theorem State.penBlock_keeps (s k) : Keeps [.regs, .pen, .jnl, .evt, .pwr] s (State.penBlock s k) := by
  unfold State.penBlock
  extract_lets x1 x2 x3 x4
  have k5 : Keeps [.regs, .pen, .jnl, .evt, .pwr] s x4 := by
    unfold x4
    refine Keeps.set_pen_pwr rfl ?_
    exact Keeps.refl _ _
  clear_value x4
  refine Keeps.then (State.journal_keeps ..) rfl ?_
  exact k5

theorem State.penLiveSeq_keeps (s) : Keeps [.regs, .pen, .jnl, .evt, .pwr] s (State.penLiveSeq s).2 := by
  unfold State.penLiveSeq
  extract_lets x1 x2
  have k3 : Keeps [.regs, .pen, .jnl, .evt, .pwr] s x1 := by
    unfold x1
    refine Keeps.ite ?_ ?_
    · exact Keeps.refl _ _
    · refine Keeps.then (State.penBlock_keeps ..) rfl ?_
      exact Keeps.refl _ _
  clear_value x1
  dsimp -zeta only
  refine Keeps.set_pen rfl ?_
  exact k3

theorem State.penDiscard_keeps (s p a b) : Keeps [.regs, .pen, .evt] s (State.penDiscard s p a b) := by
  unfold State.penDiscard
  extract_lets x1 x2 x3
  refine Keeps.then (State.fire_keeps ..) rfl ?_
  refine Keeps.then (State.setFld_keeps ..) rfl ?_
  refine Keeps.then (State.bump_keeps ..) rfl ?_
  refine Keeps.set_pen rfl ?_
  exact Keeps.refl _ _

theorem State.penEnter_keeps (s p a b) : Keeps [.regs, .pen, .jnl, .evt, .pwr] s (State.penEnter s p a b) := by
  unfold State.penEnter
  extract_lets x1 x2
  have k3 : Keeps [.regs, .pen, .jnl, .evt, .pwr] s x2.2 := by
    unfold x2
    refine Keeps.then (State.penLiveSeq_keeps ..) rfl ?_
    exact Keeps.refl _ _
  clear_value x2
  refine Keeps.ite ?_ ?_
  · refine Keeps.then (State.penDiscard_keeps ..) rfl ?_
    exact Keeps.refl _ _
  · refine Keeps.then (State.penPut_keeps ..) rfl ?_
    exact k3

theorem State.setClaim_keeps (s kind index o) : Keeps [.evt] s (State.setClaim s kind index o) := by
  unfold State.setClaim
  extract_lets x1 x2
  refine Keeps.set_evt rfl ?_
  exact Keeps.refl _ _

theorem State.setAx_keeps (s x v) : Keeps [.axes] s (State.setAx s x v) := by
  unfold State.setAx
  refine Keeps.set_axes rfl ?_
  exact Keeps.refl _ _

theorem State.axRegs_keeps (s x) : Keeps [.regs] s (State.axRegs s x) := by
  unfold State.axRegs
  extract_lets x1 x2
  refine Keeps.then (State.setFld_keeps ..) rfl ?_
  refine Keeps.then (State.setFld_keeps ..) rfl ?_
  refine Keeps.then (State.setFld_keeps ..) rfl ?_
  refine Keeps.then (State.setFldInt_keeps ..) rfl ?_
  refine Keeps.then (State.setInt64_keeps ..) rfl ?_
  exact Keeps.refl _ _

theorem State.dropCompare_keeps (s x c) : Keeps [.regs, .axes, .evt] s (State.dropCompare s x c) := by
  unfold State.dropCompare
  extract_lets x1 x2 x3
  have k4 : Keeps [.regs, .axes, .evt] s x3 := by
    unfold x3
    refine Keeps.then (State.axRegs_keeps ..) rfl ?_
    refine Keeps.then (State.setAx_keeps ..) rfl ?_
    exact Keeps.refl _ _
  clear_value x3
  refine Keeps.ite ?_ ?_
  · exact k4
  · refine Keeps.then (State.setClaim_keeps ..) rfl ?_
    exact k4

theorem State.setTout_keeps (s t v) : Keeps [.tim] s (State.setTout s t v) := by
  unfold State.setTout
  extract_lets x1
  refine Keeps.set_tim rfl ?_
  exact Keeps.refl _ _

theorem State.toutRiseW_keeps (s t w time) : Keeps [.out, .regs, .tim, .evt] s (State.toutRiseW s t w time) := by
  unfold State.toutRiseW
  extract_lets x1 x2
  have k3 : Keeps [.out, .regs, .tim, .evt] s x2 := by
    unfold x2
    refine Keeps.then (State.emit_keeps ..) rfl ?_
    refine Keeps.then (State.setTout_keeps ..) rfl ?_
    exact Keeps.refl _ _
  clear_value x2
  split
  · rename_i y4 y5 y6
    refine Keeps.then (State.setFld_keeps ..) rfl ?_
    exact Keeps.refl _ _
  · rename_i y7 y8
    refine Keeps.then (State.fireAt_keeps ..) rfl ?_
    refine Keeps.then (State.emits_keeps ..) rfl ?_
    exact k3

theorem State.markerPulse_keeps (s x) : Keeps [.out, .regs, .tim, .evt] s (State.markerPulse s x) := by
  unfold State.markerPulse
  split
  · rename_i y1 y2
    exact Keeps.refl _ _
  · rename_i y3 y4 y5
    refine Keeps.ite ?_ ?_
    · refine Keeps.then (State.toutRiseW_keeps ..) rfl ?_
      exact Keeps.refl _ _
    · exact Keeps.refl _ _

theorem State.fireCompare_keeps (s x c late) : Keeps [.out, .regs, .pen, .jnl, .sess, .tim, .axes, .evt,
    .pwr] s (State.fireCompare s x c late) := by
  unfold State.fireCompare
  extract_lets x1 x2 x3 x4 x5 x6 x7 x8 x9 x10 x11 x12 x13 x14 x15 x16
  have k17 : Keeps [.out, .regs, .pen, .jnl, .sess, .tim, .axes, .evt, .pwr] s x12 := by
    unfold x12
    refine Keeps.then (State.markerPulse_keeps ..) rfl ?_
    refine Keeps.then (State.dropCompare_keeps ..) rfl ?_
    exact Keeps.refl _ _
  clear_value x12
  have k18 : Keeps [.out, .regs, .pen, .jnl, .sess, .tim, .axes, .evt, .pwr] s x13 := by
    unfold x13
    refine Keeps.then (State.fire_keeps ..) rfl ?_
    refine Keeps.then (State.bump_keeps ..) rfl ?_
    exact k17
  clear_value x13
  have k19 : Keeps [.out, .regs, .pen, .jnl, .sess, .tim, .axes, .evt, .pwr] s x14 := by
    unfold x14
    refine Keeps.ite ?_ ?_
    · refine Keeps.then (State.fire_keeps ..) rfl ?_
      refine Keeps.then (State.bump_keeps ..) rfl ?_
      exact k18
    · exact k18
  clear_value x14
  have k20 : Keeps [.out, .regs, .pen, .jnl, .sess, .tim, .axes, .evt, .pwr] s x16 := by
    unfold x16
    refine Keeps.then (State.penEnter_keeps ..) rfl ?_
    exact k19
  clear_value x16
  refine Keeps.ite ?_ ?_
  · refine Keeps.then (State.finishDesc_keeps ..) rfl ?_
    exact k20
  · exact k20

theorem State.missCompare_keeps (s x c) : Keeps [.out, .regs, .jnl, .sess, .axes, .evt] s (State.missCompare s x c) := by
  unfold State.missCompare
  extract_lets x1 x2
  have k3 : Keeps [.out, .regs, .jnl, .sess, .axes, .evt] s x2 := by
    unfold x2
    refine Keeps.then (State.fire_keeps ..) rfl ?_
    refine Keeps.then (State.bump_keeps ..) rfl ?_
    refine Keeps.then (State.dropCompare_keeps ..) rfl ?_
    exact Keeps.refl _ _
  clear_value x2
  refine Keeps.ite ?_ ?_
  · refine Keeps.then (State.finishDesc_keeps ..) rfl ?_
    exact k3
  · exact k3

theorem State.armCompare_keeps (s x c) : Keeps [.out, .regs, .pen, .jnl, .sess, .tim, .axes, .evt, .pwr] s (State.armCompare s x c) := by
  unfold State.armCompare
  extract_lets x1 x2
  have k3 : Keeps [.out, .regs, .pen, .jnl, .sess, .tim, .axes, .evt, .pwr] s x2 := by
    unfold x2
    refine Keeps.then (State.axRegs_keeps ..) rfl ?_
    refine Keeps.then (State.setAx_keeps ..) rfl ?_
    exact Keeps.refl _ _
  clear_value x2
  refine Keeps.ite ?_ ?_
  · refine Keeps.ite ?_ ?_
    · refine Keeps.then (State.missCompare_keeps ..) rfl ?_
      exact k3
    · refine Keeps.then (State.fireCompare_keeps ..) rfl ?_
      exact k3
  · exact k3

theorem State.setMismatch_keeps (s) : Keeps [.regs, .evt] s (State.setMismatch s) := by
  unfold State.setMismatch
  refine Keeps.then (State.fireIf_keeps ..) rfl ?_
  refine Keeps.then (State.setFld_keeps ..) rfl ?_
  exact Keeps.refl _ _

theorem State.mismatchCheck_keeps (s) : Keeps [.regs, .evt] s (State.mismatchCheck s) := by
  unfold State.mismatchCheck
  refine Keeps.ite ?_ ?_
  · refine Keeps.then (State.setMismatch_keeps ..) rfl ?_
    exact Keeps.refl _ _
  · exact Keeps.refl _ _

theorem State.assignedCheck_keeps (s) : Keeps [.regs] s (State.assignedCheck s) := by
  unfold State.assignedCheck
  refine Keeps.ite ?_ ?_
  · refine Keeps.then (State.setFld_keeps ..) rfl ?_
    exact Keeps.refl _ _
  · exact Keeps.refl _ _

theorem State.setQueue_keeps (s e q v) : Keeps [.tim] s (State.setQueue s e q v) := by
  unfold State.setQueue
  extract_lets x1
  refine Keeps.set_tim rfl ?_
  exact Keeps.refl _ _

theorem State.fabOut_keeps (s port type b) : Keeps [.out, .tim] s (State.fabOut s port type b) := by
  unfold State.fabOut
  extract_lets x1
  refine Keeps.ite ?_ ?_
  · refine Keeps.then (State.setQueue_keeps ..) rfl ?_
    exact Keeps.refl _ _
  · refine Keeps.then (State.emit_keeps ..) rfl ?_
    exact Keeps.refl _ _

theorem State.fabEmit_keeps (s dest type flags seq ref body) : Keeps [.out, .tim] s (State.fabEmit s dest type flags seq ref body) := by
  unfold State.fabEmit
  extract_lets x1 x2
  have k3 : Keeps [.out, .tim] s x2 := by
    unfold x2
    refine Keeps.then (State.fabOut_keeps ..) rfl ?_
    exact Keeps.refl _ _
  clear_value x2
  refine Keeps.ite ?_ ?_
  · refine Keeps.ite ?_ ?_
    · refine Keeps.then (State.fabOut_keeps ..) rfl ?_
      exact k3
    · exact k3
  · refine Keeps.then (State.fabOut_keeps ..) rfl ?_
    exact Keeps.refl _ _

theorem State.fabSend_keeps (s dest type ref body) : Keeps [.out, .tim, .fab] s (State.fabSend s dest type ref body) := by
  unfold State.fabSend
  extract_lets x1 x2 x3 x4 x5 x6
  have k7 : Keeps [.out, .tim, .fab] s x4 := by
    unfold x4
    refine Keeps.set_fab rfl ?_
    exact Keeps.refl _ _
  clear_value x4
  have k8 : Keeps [.out, .tim, .fab] s x6 := by
    unfold x6
    refine Keeps.ite ?_ ?_
    · refine Keeps.set_fab rfl ?_
      exact k7
    · exact k7
  clear_value x6
  refine Keeps.then (State.fabEmit_keeps ..) rfl ?_
  exact k8

theorem State.takeAddress_keeps (s b) : Keeps [.regs, .fab, .evt] s (State.takeAddress s b) := by
  unfold State.takeAddress
  extract_lets x1 x2
  have k3 : Keeps [.regs, .fab, .evt] s x2 := by
    unfold x2
    refine Keeps.set_fab rfl ?_
    exact Keeps.refl _ _
  clear_value x2
  refine Keeps.then (State.fire_keeps ..) rfl ?_
  refine Keeps.then (State.setFld_keeps ..) rfl ?_
  refine Keeps.then (State.setFld_keeps ..) rfl ?_
  exact k3

theorem State.fabDiscover_keeps (s) : Keeps [.regs, .fab] s (State.fabDiscover s) := by
  unfold State.fabDiscover
  extract_lets x1 x2
  have k3 : Keeps [.regs, .fab] s x2 := by
    unfold x2
    refine Keeps.set_fab rfl ?_
    exact Keeps.refl _ _
  clear_value x2
  refine Keeps.then (State.setFld_keeps ..) rfl ?_
  refine Keeps.then (State.setFld_keeps ..) rfl ?_
  refine Keeps.then (State.setFld_keeps ..) rfl ?_
  refine Keeps.then (State.setFld_keeps ..) rfl ?_
  refine Keeps.then (State.setFld_keeps ..) rfl ?_
  exact k3

theorem State.assignAll_keeps (s rs spans w) : Keeps [.out, .regs, .tim, .fab, .evt] s (State.assignAll s rs spans w) := by
  unfold State.assignAll
  extract_lets x1 x2 x3 x4 x5 x6 x7 x8 x9
  have k10 : Keeps [.out, .regs, .tim, .fab, .evt] s x5 := by
    unfold x5
    refine Keeps.then (State.fabDiscover_keeps ..) rfl ?_
    exact Keeps.refl _ _
  clear_value x5
  have k11 : Keeps [.out, .regs, .tim, .fab, .evt] s x7 := by
    unfold x7
    refine Keeps.set_fab rfl ?_
    exact k10
  clear_value x7
  have k12 : Keeps [.out, .regs, .tim, .fab, .evt] s x9 := by
    unfold x9
    refine Keeps.foldl ?_ ?_
    · exact k11
    · intro u13 e14 k15
      refine Keeps.ite ?_ ?_
      · refine Keeps.then (State.takeAddress_keeps ..) rfl ?_
        exact k15
      · refine Keeps.then (State.fabSend_keeps ..) rfl ?_
        exact k15
  clear_value x9
  refine Keeps.then (State.assignedCheck_keeps ..) rfl ?_
  refine Keeps.then (State.mismatchCheck_keeps ..) rfl ?_
  exact k12

theorem State.calGone_keeps (s kind target pass) : Keeps [.regs, .cal] s (State.calGone s kind target pass) := by
  unfold State.calGone
  extract_lets x1 x2
  have k3 : Keeps [.regs, .cal] s x2 := by
    unfold x2
    refine Keeps.set_cal rfl ?_
    exact Keeps.refl _ _
  clear_value x2
  refine Keeps.then (State.setFlag_keeps ..) rfl ?_
  refine Keeps.then (State.setFld_keeps ..) rfl ?_
  exact k3

theorem State.calDone_keeps (s r pass q us) : Keeps [.out, .regs, .jnl, .sess, .evt, .cal] s (State.calDone s r pass q us) := by
  unfold State.calDone
  refine Keeps.then (State.finishDesc_keeps ..) rfl ?_
  refine Keeps.then (State.calGone_keeps ..) rfl ?_
  exact Keeps.refl _ _

theorem State.asymNew_keeps (s e v f) : Keeps [.regs, .pwr] s (State.asymNew s e v f) := by
  unfold State.asymNew
  extract_lets x1 x2
  have k3 : Keeps [.regs, .pwr] s x1 := by
    unfold x1
    refine Keeps.then (State.setFldInt_keeps ..) rfl ?_
    exact Keeps.refl _ _
  clear_value x1
  refine Keeps.set_pwr rfl ?_
  exact k3

theorem State.rootFree_keeps (s v n) : Keeps [.freeIdx] s (State.rootFree s v n).2 := by
  unfold State.rootFree
  extract_lets x1 x2
  have k3 : Keeps [.freeIdx] s x2.2 := by
    unfold x2
    refine Keeps.then (State.takeFree_keeps ..) rfl ?_
    exact Keeps.refl _ _
  clear_value x2
  refine Keeps.ite_map Prod.snd ?_ ?_
  · dsimp -zeta only
    exact Keeps.refl _ _
  · dsimp -zeta only
    exact k3

theorem State.asymResult_keeps (s r) : Keeps [.freeIdx, .out, .regs, .jnl, .sess, .evt, .cal, .pwr] s (State.asymResult s r) := by
  unfold State.asymResult
  dsimp only
  refine Keeps.then (State.calDone_keeps ..) rfl ?_
  refine Keeps.ite ?_ ?_
  · refine Keeps.then (State.asymNew_keeps ..) rfl ?_
    refine Keeps.then (State.rootFree_keeps ..) rfl ?_
    exact Keeps.refl _ _
  · refine Keeps.then (State.rootFree_keeps ..) rfl ?_
    exact Keeps.refl _ _

theorem State.setCalRun_keeps (s kind target f) : Keeps [.cal] s (State.setCalRun s kind target f) := by
  unfold State.setCalRun
  extract_lets x1
  refine Keeps.set_cal rfl ?_
  exact Keeps.refl _ _

theorem State.asymEdge_keeps (s e) : Keeps [.freeIdx, .out, .regs, .jnl, .sess, .evt, .cal, .pwr] s (State.asymEdge s e) := by
  unfold State.asymEdge
  split
  · rename_i y1 y2
    exact Keeps.refl _ _
  · rename_i y3 y4 y5
    extract_lets x6 x7 x8 x9 x10 x11
    have k12 : Keeps [.freeIdx, .out, .regs, .jnl, .sess, .evt, .cal, .pwr] s x6.2 := by
      unfold x6
      refine Keeps.then (State.takeFree_keeps ..) rfl ?_
      exact Keeps.refl _ _
    clear_value x6
    have k13 : Keeps [.freeIdx, .out, .regs, .jnl, .sess, .evt, .cal, .pwr] s x11 := by
      unfold x11
      refine Keeps.then (State.setCalRun_keeps ..) rfl ?_
      exact k12
    clear_value x11
    refine Keeps.ite ?_ ?_
    · exact Keeps.refl _ _
    · refine Keeps.ite ?_ ?_
      · exact k13
      · refine Keeps.then (State.asymResult_keeps ..) rfl ?_
        exact k13

theorem State.asymLost_keeps (s) : Keeps [.freeIdx, .out, .regs, .jnl, .sess, .evt, .cal] s (State.asymLost s) := by
  unfold State.asymLost
  refine Keeps.foldl ?_ ?_
  · exact Keeps.refl _ _
  · intro u1 e2 k3
    split
    · rename_i y4 y5
      exact k3
    · rename_i y6 y7 y8
      extract_lets x9
      have k10 : Keeps [.freeIdx, .out, .regs, .jnl, .sess, .evt, .cal] s x9.2 := by
        unfold x9
        refine Keeps.then (State.takeFree_keeps ..) rfl ?_
        exact k3
      clear_value x9
      refine Keeps.ite ?_ ?_
      · exact k3
      · refine Keeps.then (State.calDone_keeps ..) rfl ?_
        exact k10

theorem State.authFail_keeps (s n) : Keeps [.regs, .sess, .evt] s (State.authFail s n) := by
  unfold State.authFail
  extract_lets x1 x2 x3
  have k4 : Keeps [.regs, .sess, .evt] s x1 := by
    unfold x1
    refine Keeps.then (State.fire_keeps ..) rfl ?_
    refine Keeps.then (State.bump_keeps ..) rfl ?_
    exact Keeps.refl _ _
  clear_value x1
  refine Keeps.ite ?_ ?_
  · refine Keeps.then (State.setSession_keeps ..) rfl ?_
    exact k4
  · refine Keeps.then (State.setFld_keeps ..) rfl ?_
    refine Keeps.then (State.setSession_keeps ..) rfl ?_
    exact k4

theorem State.checkpoint_keeps (s j) : Keeps [.freeIdx, .regs, .jnl, .evt] s (State.checkpoint s j) := by
  unfold State.checkpoint
  extract_lets x1
  have k2 : Keeps [.freeIdx, .regs, .jnl, .evt] s x1.2 := by
    unfold x1
    refine Keeps.then (State.takeFree_keeps ..) rfl ?_
    exact Keeps.refl _ _
  clear_value x1
  refine Keeps.then (State.journal_keeps ..) rfl ?_
  exact k2

theorem State.dropJob_keeps (s j) : Keeps [.regs, .jobs] s (State.dropJob s j) := by
  unfold State.dropJob
  refine Keeps.then (State.jobCounts_keeps ..) rfl ?_
  refine Keeps.set_jobs rfl ?_
  exact Keeps.refl _ _

theorem State.autoEnd_keeps (s j) : Keeps [.freeIdx, .out, .regs, .jobs, .jnl, .sess, .evt] s (State.autoEnd s j) := by
  unfold State.autoEnd
  extract_lets x1 x2
  have k3 : Keeps [.freeIdx, .out, .regs, .jobs, .jnl, .sess, .evt] s x2 := by
    unfold x2
    refine Keeps.then (State.mirror_keeps ..) rfl ?_
    refine Keeps.then (State.setHring_keeps ..) rfl ?_
    exact Keeps.refl _ _
  clear_value x2
  refine Keeps.then (State.dropJob_keeps ..) rfl ?_
  refine Keeps.then (State.fire_keeps ..) rfl ?_
  refine Keeps.then (State.checkpoint_keeps ..) rfl ?_
  exact k3

theorem State.autoExport_keeps (s prof seq a) : Keeps [.regs, .jobs, .evt] s (State.autoExport s prof seq a) := by
  unfold State.autoExport
  split
  · rename_i y1 y2
    exact Keeps.refl _ _
  · rename_i y3 y4 y5
    split
    · rename_i y6 y7
      exact Keeps.refl _ _
    · rename_i y8 y9 y10
      extract_lets x11 x12 x13 x14
      refine Keeps.ite ?_ ?_
      · refine Keeps.then (State.fire_keeps ..) rfl ?_
        refine Keeps.then (State.bump_keeps ..) rfl ?_
        exact Keeps.refl _ _
      · refine Keeps.then (State.addJob_keeps ..) rfl ?_
        exact Keeps.refl _ _

theorem State.setJob_keeps (s j) : Keeps [.jobs] s (State.setJob s j) := by
  unfold State.setJob
  refine Keeps.set_jobs rfl ?_
  exact Keeps.refl _ _

theorem State.autoOverflow_keeps (s j) : Keeps [.freeIdx, .out, .regs, .jobs, .jnl, .sess, .evt] s (State.autoOverflow s j) := by
  unfold State.autoOverflow
  extract_lets x1 x2
  have k3 : Keeps [.freeIdx, .out, .regs, .jobs, .jnl, .sess, .evt] s x2.1 := by
    unfold x2
    refine Keeps.then (State.hostWrite_keeps ..) rfl ?_
    exact Keeps.refl _ _
  clear_value x2
  split
  · rename_i y4 y5 y6
    refine Keeps.then (State.setJob_keeps ..) rfl ?_
    exact k3
  · rename_i y7 y8
    refine Keeps.then (State.autoEnd_keeps ..) rfl ?_
    exact k3

theorem State.axCoils_keeps (s x) : Keeps [.out] s (State.axCoils s x) := by
  unfold State.axCoils
  refine Keeps.ite ?_ ?_
  · refine Keeps.then (State.emit_keeps ..) rfl ?_
    exact Keeps.refl _ _
  · refine Keeps.then (State.emit_keeps ..) rfl ?_
    exact Keeps.refl _ _

theorem State.skipMark_keeps (s x) : Keeps [.regs, .evt] s (State.skipMark s x) := by
  unfold State.skipMark
  refine Keeps.then (State.fire_keeps ..) rfl ?_
  refine Keeps.then (State.bump_keeps ..) rfl ?_
  exact Keeps.refl _ _

theorem State.skipMarks_keeps (s x) : Keeps [.regs, .axes, .evt] s (State.skipMarks s x) := by
  unfold State.skipMarks
  extract_lets x1 x2
  refine Keeps.then (State.axRegs_keeps ..) rfl ?_
  refine Keeps.foldl ?_ ?_
  · refine Keeps.then (State.setAx_keeps ..) rfl ?_
    exact Keeps.refl _ _
  · intro u3 e4 k5
    refine Keeps.then (State.skipMark_keeps ..) rfl ?_
    exact k5

theorem State.axFinish_keeps (s x n idx status overshoot) : Keeps [.out, .regs, .jnl, .sess,
    .evt] s (State.axFinish s x n idx status overshoot) := by
  unfold State.axFinish
  refine Keeps.ite ?_ ?_
  · refine Keeps.then (State.finishDesc_keeps ..) rfl ?_
    exact Keeps.refl _ _
  · exact Keeps.refl _ _

theorem State.axUncertain_keeps (s x) : Keeps [.regs, .evt] s (State.axUncertain s x) := by
  unfold State.axUncertain
  refine Keeps.then (State.fireIf_keeps ..) rfl ?_
  refine Keeps.then (State.setFld_keeps ..) rfl ?_
  exact Keeps.refl _ _

theorem State.axFault_keeps (s x cause) : Keeps [.out, .regs, .jnl, .sess, .axes, .evt] s (State.axFault s x cause) := by
  unfold State.axFault
  extract_lets x1 x2 x3 x4 x5 x6 x7 x8
  have k9 : Keeps [.out, .regs, .jnl, .sess, .axes, .evt] s x3 := by
    unfold x3
    refine Keeps.ite ?_ ?_
    · refine Keeps.then (State.axUncertain_keeps ..) rfl ?_
      exact Keeps.refl _ _
    · exact Keeps.refl _ _
  clear_value x3
  have k10 : Keeps [.out, .regs, .jnl, .sess, .axes, .evt] s x5 := by
    unfold x5
    refine Keeps.then (State.setAx_keeps ..) rfl ?_
    exact k9
  clear_value x5
  have k11 : Keeps [.out, .regs, .jnl, .sess, .axes, .evt] s x6 := by
    unfold x6
    refine Keeps.then (State.setFld_keeps ..) rfl ?_
    refine Keeps.then (State.setFld_keeps ..) rfl ?_
    refine Keeps.then (State.setFld_keeps ..) rfl ?_
    exact k10
  clear_value x6
  have k12 : Keeps [.out, .regs, .jnl, .sess, .axes, .evt] s x7 := by
    unfold x7
    refine Keeps.then (State.axRegs_keeps ..) rfl ?_
    refine Keeps.then (State.fire_keeps ..) rfl ?_
    refine Keeps.then (State.bump_keeps ..) rfl ?_
    exact k11
  clear_value x7
  have k13 : Keeps [.out, .regs, .jnl, .sess, .axes, .evt] s x8 := by
    unfold x8
    refine Keeps.foldl ?_ ?_
    · exact k12
    · intro u14 e15 k16
      refine Keeps.then (State.missCompare_keeps ..) rfl ?_
      exact k16
  clear_value x8
  refine Keeps.foldl ?_ ?_
  · refine Keeps.then (State.axCoils_keeps ..) rfl ?_
    refine Keeps.then (State.skipMarks_keeps ..) rfl ?_
    exact k13
  · intro u17 e18 k19
    refine Keeps.then (State.axFinish_keeps ..) rfl ?_
    exact k19

theorem State.hardStop_keeps (s x extra) : Keeps [.out, .regs, .jnl, .sess, .axes, .evt] s (State.hardStop s x extra) := by
  unfold State.hardStop
  extract_lets x1 x2 x3 x4 x5 x6
  have k7 : Keeps [.out, .regs, .jnl, .sess, .axes, .evt] s x2 := by
    unfold x2
    refine Keeps.ite ?_ ?_
    · refine Keeps.then (State.axUncertain_keeps ..) rfl ?_
      exact Keeps.refl _ _
    · exact Keeps.refl _ _
  clear_value x2
  have k8 : Keeps [.out, .regs, .jnl, .sess, .axes, .evt] s x5 := by
    unfold x5
    refine Keeps.then (State.setAx_keeps ..) rfl ?_
    exact k7
  clear_value x5
  have k9 : Keeps [.out, .regs, .jnl, .sess, .axes, .evt] s x6 := by
    unfold x6
    refine Keeps.then (State.axRegs_keeps ..) rfl ?_
    refine Keeps.ite ?_ ?_
    · refine Keeps.then (State.fire_keeps ..) rfl ?_
      refine Keeps.then (State.setFld_keeps ..) rfl ?_
      exact k8
    · exact k8
  clear_value x6
  refine Keeps.foldl ?_ ?_
  · refine Keeps.then (State.axCoils_keeps ..) rfl ?_
    refine Keeps.then (State.skipMarks_keeps ..) rfl ?_
    exact k9
  · intro u10 e11 k12
    refine Keeps.then (State.axFinish_keeps ..) rfl ?_
    exact k12

theorem State.beginSegs_keeps (s x st segs) : Keeps [.regs, .axes] s (State.beginSegs s x st segs) := by
  unfold State.beginSegs
  extract_lets x1 x2
  have k3 : Keeps [.regs, .axes] s x2 := by
    unfold x2
    refine Keeps.then (State.setAx_keeps ..) rfl ?_
    exact Keeps.refl _ _
  clear_value x2
  refine Keeps.then (State.axRegs_keeps ..) rfl ?_
  refine Keeps.then (State.setFld_keeps ..) rfl ?_
  refine Keeps.then (State.setFld_keeps ..) rfl ?_
  exact k3

theorem State.rampedStop_keeps (s x extra) : Keeps [.out, .regs, .jnl, .sess, .axes, .evt] s (State.rampedStop s x extra) := by
  unfold State.rampedStop
  extract_lets x1 x2 x3 x4 x5
  have k6 : Keeps [.out, .regs, .jnl, .sess, .axes, .evt] s x5 := by
    unfold x5
    refine Keeps.then (State.setAx_keeps ..) rfl ?_
    exact Keeps.refl _ _
  clear_value x5
  refine Keeps.ite ?_ ?_
  · refine Keeps.then (State.hardStop_keeps ..) rfl ?_
    exact Keeps.refl _ _
  · refine Keeps.then (State.skipMarks_keeps ..) rfl ?_
    refine Keeps.then (State.beginSegs_keeps ..) rfl ?_
    exact k6

theorem State.axStop_keeps (s x ramped extra) : Keeps [.out, .regs, .jnl, .sess, .axes, .evt] s (State.axStop s x ramped extra) := by
  unfold State.axStop
  refine Keeps.ite ?_ ?_
  · refine Keeps.then (State.rampedStop_keeps ..) rfl ?_
    exact Keeps.refl _ _
  · refine Keeps.then (State.hardStop_keeps ..) rfl ?_
    exact Keeps.refl _ _

theorem State.axesHalt_keeps (s) : Keeps [.out, .regs, .jnl, .sess, .axes, .evt] s (State.axesHalt s) := by
  unfold State.axesHalt
  refine Keeps.foldl ?_ ?_
  · exact Keeps.refl _ _
  · intro u1 e2 k3
    extract_lets x4
    have k5 : Keeps [.out, .regs, .jnl, .sess, .axes, .evt] s x4 := by
      unfold x4
      refine Keeps.then (State.hardStop_keeps ..) rfl ?_
      exact k3
    clear_value x4
    refine Keeps.ite ?_ ?_
    · exact k3
    · refine Keeps.foldl ?_ ?_
      · exact k5
      · intro u6 e7 k8
        refine Keeps.then (State.missCompare_keeps ..) rfl ?_
        exact k8

theorem State.axesUp_keeps (s) : Keeps [.out, .axes] s (State.axesUp s) := by
  unfold State.axesUp
  refine Keeps.foldl ?_ ?_
  · exact Keeps.refl _ _
  · intro u1 e2 k3
    extract_lets x4
    refine Keeps.ite ?_ ?_
    · exact k3
    · refine Keeps.then (State.axCoils_keeps ..) rfl ?_
      refine Keeps.then (State.setAx_keeps ..) rfl ?_
      exact k3

theorem State.axisCompares_keeps (s x p q) : Keeps [.out, .regs, .pen, .jnl, .sess, .tim, .axes, .evt,
    .pwr] s (State.axisCompares s x p q) := by
  unfold State.axisCompares
  refine Keeps.foldl ?_ ?_
  · exact Keeps.refl _ _
  · intro u1 e2 k3
    extract_lets x4
    refine Keeps.ite ?_ ?_
    · refine Keeps.then (State.fireCompare_keeps ..) rfl ?_
      exact k3
    · exact k3

theorem State.axisOff_keeps (s x) : Keeps [.out, .regs, .jnl, .sess, .axes, .evt] s (State.axisOff s x) := by
  unfold State.axisOff
  extract_lets x1 x2 x3
  have k4 : Keeps [.out, .regs, .jnl, .sess, .axes, .evt] s x1 := by
    unfold x1
    refine Keeps.then (State.hardStop_keeps ..) rfl ?_
    exact Keeps.refl _ _
  clear_value x1
  have k5 : Keeps [.out, .regs, .jnl, .sess, .axes, .evt] s x2 := by
    unfold x2
    refine Keeps.foldl ?_ ?_
    · exact k4
    · intro u6 e7 k8
      refine Keeps.then (State.missCompare_keeps ..) rfl ?_
      exact k8
  clear_value x2
  refine Keeps.ite ?_ ?_
  · exact Keeps.refl _ _
  · refine Keeps.then (State.axCoils_keeps ..) rfl ?_
    refine Keeps.then (State.axUncertain_keeps ..) rfl ?_
    refine Keeps.then (State.setAx_keeps ..) rfl ?_
    exact k5

theorem State.badBell_keeps (s n) : Keeps [.regs, .evt] s (State.badBell s n) := by
  unfold State.badBell
  refine Keeps.then (State.fire_keeps ..) rfl ?_
  refine Keeps.then (State.bump_keeps ..) rfl ?_
  exact Keeps.refl _ _

theorem State.countLost_keeps (s p n) : Keeps [.regs, .evt] s (State.countLost s p n) := by
  unfold State.countLost
  refine Keeps.then (State.fire_keeps ..) rfl ?_
  refine Keeps.then (State.bump_keeps ..) rfl ?_
  exact Keeps.refl _ _

theorem State.countReplaced_keeps (s p) : Keeps [.regs, .evt] s (State.countReplaced s p) := by
  unfold State.countReplaced
  refine Keeps.then (State.fire_keeps ..) rfl ?_
  refine Keeps.then (State.bump_keeps ..) rfl ?_
  exact Keeps.refl _ _

theorem State.fillGap_keeps (s p c cp g d last time pos) : Keeps [.regs, .ports, .ctxs, .slices, .ring, .evt,
    .cal] s (State.fillGap s p c cp g d last time pos) := by
  unfold State.fillGap
  extract_lets x1
  refine Keeps.foldl ?_ ?_
  · exact Keeps.refl _ _
  · intro u2 e3 k4
    extract_lets x5 x6 x7
    refine Keeps.then (State.acceptLine_keeps ..) rfl ?_
    refine Keeps.then (State.countReplaced_keeps ..) rfl ?_
    exact k4

theorem State.indexRule_keeps (s p c cp ln) : Keeps [.regs, .ports, .ctxs, .slices, .ring, .evt,
    .cal] s (State.indexRule s p c cp ln) := by
  unfold State.indexRule
  extract_lets x1 x2
  split
  · rename_i y3 y4 y5 y6 y7
    extract_lets x8 x9 x10
    have k11 : Keeps [.regs, .ports, .ctxs, .slices, .ring, .evt, .cal] s x9 := by
      unfold x9
      split
      · rename_i y12 y13 y14
        refine Keeps.then (State.fillGap_keeps ..) rfl ?_
        exact Keeps.refl _ _
      · rename_i y15 y16
        exact Keeps.refl _ _
    clear_value x9
    have k17 : Keeps [.regs, .ports, .ctxs, .slices, .ring, .evt, .cal] s x10 := by
      unfold x10
      refine Keeps.then (State.countLost_keeps ..) rfl ?_
      exact Keeps.refl _ _
    clear_value x10
    refine Keeps.ite ?_ ?_
    · refine Keeps.then (State.bump_keeps ..) rfl ?_
      exact Keeps.refl _ _
    · refine Keeps.ite ?_ ?_
      · refine Keeps.then (State.acceptLine_keeps ..) rfl ?_
        unfold x2
        refine Keeps.ite ?_ ?_
        · refine Keeps.then (State.countReplaced_keeps ..) rfl ?_
          exact k11
        · exact k11
      · refine Keeps.then (State.acceptLine_keeps ..) rfl ?_
        unfold x2
        refine Keeps.ite ?_ ?_
        · refine Keeps.then (State.countReplaced_keeps ..) rfl ?_
          exact k17
        · exact k17
  · rename_i y18 y19 y20
    refine Keeps.then (State.acceptLine_keeps ..) rfl ?_
    unfold x2
    refine Keeps.ite ?_ ?_
    · refine Keeps.then (State.countReplaced_keeps ..) rfl ?_
      exact Keeps.refl _ _
    · exact Keeps.refl _ _

theorem State.linePos_keeps (s p h) : Keeps [.regs] s (State.linePos s p h).1 := by
  unfold State.linePos
  refine Keeps.ite_map Prod.fst ?_ ?_
  · split
    · rename_i y1 y2 y3
      dsimp -zeta only
      exact Keeps.refl _ _
    · rename_i y4 y5
      dsimp -zeta only
      refine Keeps.then (State.bump_keeps ..) rfl ?_
      exact Keeps.refl _ _
  · dsimp -zeta only
    exact Keeps.refl _ _

theorem State.badLine_keeps (s p c cp k header) : Keeps [.regs, .ports, .ctxs, .slices, .ring, .evt,
    .cal] s (State.badLine s p c cp k header) := by
  unfold State.badLine
  extract_lets x1 x2 x3
  have k4 : Keeps [.regs, .ports, .ctxs, .slices, .ring, .evt, .cal] s x3.1 := by
    unfold x3
    refine Keeps.ite_map Prod.fst ?_ ?_
    · refine Keeps.then (State.linePos_keeps ..) rfl ?_
      exact Keeps.refl _ _
    · dsimp -zeta only
      exact Keeps.refl _ _
  clear_value x3
  split
  · rename_i y5 y6 y7 y8 y9 y10 y11 y12
    refine Keeps.then (State.indexRule_keeps ..) rfl ?_
    exact k4
  · rename_i y13 y14 y15 y16
    refine Keeps.then (State.countLost_keeps ..) rfl ?_
    exact Keeps.refl _ _

theorem State.badParam_keeps (s n d off) : Keeps [.out, .regs, .jnl, .sess, .evt] s (State.badParam s n d off) := by
  unfold State.badParam
  refine Keeps.then (State.finishDesc_keeps ..) rfl ?_
  exact Keeps.refl _ _

theorem State.bankLive_keeps (s c b) : Keeps [.regs, .ctxs] s (State.bankLive s c b) := by
  unfold State.bankLive
  extract_lets x1 x2 x3 x4 x5 x6 x7 x8 x9
  have k10 : Keeps [.regs, .ctxs] s x8 := by
    unfold x8
    refine Keeps.then (State.setCtx_keeps ..) rfl ?_
    exact Keeps.refl _ _
  clear_value x8
  have k11 : Keeps [.regs, .ctxs] s x9 := by
    unfold x9
    refine Keeps.then (State.setFlds_keeps ..) rfl ?_
    exact k10
  clear_value x9
  refine Keeps.then (State.bankStatus_keeps ..) rfl ?_
  exact k11

theorem State.commitBank_keeps (s m e) : Keeps [.regs, .ctxs] s (State.commitBank s m e) := by
  unfold State.commitBank
  extract_lets x1 x2 x3 x4
  refine Keeps.then (State.setFlds_keeps ..) rfl ?_
  refine Keeps.then (State.setNum_keeps ..) rfl ?_
  exact Keeps.refl _ _

theorem State.planStatus_keeps (s st) : Keeps [.regs] s (State.planStatus s st) := by
  unfold State.planStatus
  refine Keeps.then (State.bump_keeps ..) rfl ?_
  refine Keeps.then (State.setFld_keeps ..) rfl ?_
  exact Keeps.refl _ _

theorem State.planRefuse_keeps (s n idx st) : Keeps [.out, .regs, .jnl, .sess, .evt] s (State.planRefuse s n idx st) := by
  unfold State.planRefuse
  refine Keeps.then (State.finishDesc_keeps ..) rfl ?_
  refine Keeps.then (State.planStatus_keeps ..) rfl ?_
  exact Keeps.refl _ _

theorem State.bankUpdate_keeps (s n d b set) : Keeps [.out, .regs, .ctxs, .jnl, .sess, .evt] s (State.bankUpdate s n d b set) := by
  unfold State.bankUpdate
  extract_lets x1 x2 x3 x4
  split
  · rename_i y5 y6 y7
    refine Keeps.then (State.planRefuse_keeps ..) rfl ?_
    exact Keeps.refl _ _
  · rename_i y8 y9
    refine Keeps.ite ?_ ?_
    · refine Keeps.then (State.finishDesc_keeps ..) rfl ?_
      exact Keeps.refl _ _
    · refine Keeps.ite ?_ ?_
      · refine Keeps.then (State.badParam_keeps ..) rfl ?_
        exact Keeps.refl _ _
      · refine Keeps.then (State.finishDesc_keeps ..) rfl ?_
        refine Keeps.then (State.planStatus_keeps ..) rfl ?_
        refine Keeps.foldl ?_ ?_
        · exact Keeps.refl _ _
        · intro u10 e11 k12
          refine Keeps.then (State.commitBank_keeps ..) rfl ?_
          exact k12

theorem State.statPut_keeps (s c n raw) : Keeps [.out, .regs, .sess, .evt] s (State.statPut s c n raw).1 := by
  unfold State.statPut
  extract_lets x1 x2 x3 x4 x5 x6 x7 x8 x9
  have k10 : Keeps [.out, .regs, .sess, .evt] s x6.1 := by
    unfold x6
    refine Keeps.ite_map Prod.fst ?_ ?_
    · dsimp -zeta only
      exact Keeps.refl _ _
    · refine Keeps.then (State.hostWrite_keeps ..) rfl ?_
      exact Keeps.refl _ _
  clear_value x6
  have k11 : Keeps [.out, .regs, .sess, .evt] s x8.1 := by
    unfold x8
    refine Keeps.then (State.hostWrite_keeps ..) rfl ?_
    exact k10
  clear_value x8
  refine Keeps.ite_map Prod.fst ?_ ?_
  · dsimp -zeta only
    exact Keeps.refl _ _
  · split
    · rename_i y12 y13 y14
      dsimp -zeta only
      exact k10
    · rename_i y15 y16
      split
      · rename_i y17 y18 y19
        dsimp -zeta only
        exact k11
      · rename_i y20 y21
        dsimp -zeta only
        refine Keeps.then (State.mirror_keeps ..) rfl ?_
        refine Keeps.then (State.setHring_keeps ..) rfl ?_
        exact k11

theorem State.statFlush_keeps (s c n a3) : Keeps [.out, .regs, .sess, .evt, .statHeld] s (State.statFlush s c n a3) := by
  induction a3 generalizing s c n
  · unfold State.statFlush
    exact Keeps.refl _ _
  · rename_i y1 y2
    unfold State.statFlush
    split
    · rename_i y3 y4
      exact Keeps.refl _ _
    · rename_i y5 y6 y7 y8
      extract_lets x9 x10
      have k11 : Keeps [.out, .regs, .sess, .evt, .statHeld] s x9.1 := by
        unfold x9
        refine Keeps.then (State.statPut_keeps ..) rfl ?_
        exact Keeps.refl _ _
      clear_value x9
      have k12 : Keeps [.out, .regs, .sess, .evt, .statHeld] s x10 := by
        unfold x10
        exact k11
      clear_value x10
      refine Keeps.ite ?_ ?_
      · refine Keeps.then (y2 _ _ _) rfl ?_
        refine Keeps.set_statHeld rfl ?_
        exact k12
      · exact k11

theorem State.flushCpl_keeps (s n a2) : Keeps [.out, .regs, .sess, .evt] s (State.flushCpl s n a2) := by
  induction a2 generalizing s n
  · unfold State.flushCpl
    exact Keeps.refl _ _
  · rename_i y1 y2
    unfold State.flushCpl
    extract_lets x3
    split
    · rename_i y4 y5
      refine Keeps.ite ?_ ?_
      · refine Keeps.then (State.setFld_keeps ..) rfl ?_
        exact Keeps.refl _ _
      · exact Keeps.refl _ _
    · rename_i y6 y7 y8 y9
      extract_lets x10 x11
      have k12 : Keeps [.out, .regs, .sess, .evt] s x10.1 := by
        unfold x10
        refine Keeps.then (State.ringPut_keeps ..) rfl ?_
        exact Keeps.refl _ _
      clear_value x10
      refine Keeps.ite ?_ ?_
      · exact Keeps.refl _ _
      · refine Keeps.ite ?_ ?_
        · refine Keeps.ite ?_ ?_
          · refine Keeps.then (State.fire_keeps ..) rfl ?_
            refine Keeps.then (State.fire_keeps ..) rfl ?_
            refine Keeps.then (State.setFld_keeps ..) rfl ?_
            exact Keeps.refl _ _
          · exact Keeps.refl _ _
        · split
          · rename_i y13 y14 y15
            refine Keeps.then (State.stopRings_keeps ..) rfl ?_
            exact k12
          · rename_i y16 y17
            refine Keeps.then (y2 _ _) rfl ?_
            refine Keeps.then (State.setSession_keeps ..) rfl ?_
            exact k12

theorem State.retireAt_keeps (s n i) : Keeps [.regs, .jnl, .evt] s (State.retireAt s n i) := by
  unfold State.retireAt
  extract_lets x1
  split
  · rename_i y2 y3
    exact Keeps.refl _ _
  · rename_i y4 y5 y6
    refine Keeps.then (State.journal_keeps ..) rfl ?_
    exact Keeps.refl _ _

theorem State.bellMove_keeps (s n r d) : Keeps [.out, .regs, .jnl, .sess, .evt, .statHeld] s (State.bellMove s n r d) := by
  unfold State.bellMove
  extract_lets x1 x2 x3
  have k4 : Keeps [.out, .regs, .jnl, .sess, .evt, .statHeld] s x2 := by
    unfold x2
    refine Keeps.then (State.setHring_keeps ..) rfl ?_
    exact Keeps.refl _ _
  clear_value x2
  have k5 : Keeps [.out, .regs, .jnl, .sess, .evt, .statHeld] s x3 := by
    unfold x3
    refine Keeps.foldl ?_ ?_
    · exact k4
    · intro u6 e7 k8
      refine Keeps.then (State.retireAt_keeps ..) rfl ?_
      exact k8
  clear_value x3
  refine Keeps.ite ?_ ?_
  · refine Keeps.then (State.kickFetch_keeps ..) rfl ?_
    refine Keeps.then (State.setHring_keeps ..) rfl ?_
    exact Keeps.refl _ _
  · refine Keeps.ite ?_ ?_
    · refine Keeps.then (State.kickFetch_keeps ..) rfl ?_
      refine Keeps.then (State.flushCpl_keeps ..) rfl ?_
      exact k5
    · refine Keeps.ite ?_ ?_
      · refine Keeps.then (State.flushEvt_keeps ..) rfl ?_
        exact k4
      · refine Keeps.ite ?_ ?_
        · refine Keeps.then (State.ackAt_keeps ..) rfl ?_
          exact k4
        · refine Keeps.ite ?_ ?_
          · refine Keeps.then (State.statFlush_keeps ..) rfl ?_
            exact k4
          · exact k4

theorem State.blendOne_keeps (c cp gb g a b) : Keeps [.regs] a.1 (State.blendOne c cp gb g a b).1 := by
  unfold State.blendOne
  extract_lets x1 x2 x3 x4 x5
  have k6 : Keeps [.regs] a.1 x3 := by
    unfold x3
    exact Keeps.refl _ _
  clear_value x3
  have k7 : Keeps [.regs] a.1 x4 := by
    unfold x4
    refine Keeps.ite ?_ ?_
    · refine Keeps.then (State.setFld_keeps ..) rfl ?_
      refine Keeps.then (State.bump_keeps ..) rfl ?_
      exact k6
    · exact k6
  clear_value x4
  have k8 : Keeps [.regs] a.1 x5 := by
    unfold x5
    refine Keeps.ite ?_ ?_
    · refine Keeps.then (State.setFld_keeps ..) rfl ?_
      refine Keeps.then (State.bump_keeps ..) rfl ?_
      exact k7
    · exact k7
  clear_value x5
  dsimp -zeta only
  exact k8

theorem State.bridgesOff_keeps (s) : Keeps [.out, .regs, .jnl, .sess, .axes, .evt] s (State.bridgesOff s) := by
  unfold State.bridgesOff
  refine Keeps.then (State.emit_keeps ..) rfl ?_
  refine Keeps.then (State.axisOff_keeps ..) rfl ?_
  refine Keeps.then (State.axisOff_keeps ..) rfl ?_
  exact Keeps.refl _ _

theorem State.semLevel_keeps (s) : Keeps [.regs] s (State.semLevel s) := by
  unfold State.semLevel
  extract_lets x1
  refine Keeps.then (State.setFld_keeps ..) rfl ?_
  refine Keeps.then (State.setFld_keeps ..) rfl ?_
  exact Keeps.refl _ _

theorem State.markRequest_keeps (s x m) : Keeps [.regs, .axes, .evt] s (State.markRequest s x m) := by
  unfold State.markRequest
  extract_lets x1
  refine Keeps.ite ?_ ?_
  · refine Keeps.then (State.skipMark_keeps ..) rfl ?_
    exact Keeps.refl _ _
  · refine Keeps.then (State.axRegs_keeps ..) rfl ?_
    refine Keeps.then (State.setAx_keeps ..) rfl ?_
    exact Keeps.refl _ _

theorem State.markActions_keeps (s act p low) : Keeps [.regs, .axes, .evt] s (State.markActions s act p low) := by
  unfold State.markActions
  extract_lets x1 x2
  have k3 : Keeps [.regs, .axes, .evt] s x2 := by
    unfold x2
    refine Keeps.ite ?_ ?_
    · refine Keeps.then (State.markRequest_keeps ..) rfl ?_
      exact Keeps.refl _ _
    · exact Keeps.refl _ _
  clear_value x2
  refine Keeps.ite ?_ ?_
  · refine Keeps.then (State.markRequest_keeps ..) rfl ?_
    exact k3
  · exact k3

theorem State.exportAction_keeps (s act seq a) : Keeps [.regs, .jobs, .evt] s (State.exportAction s act seq a) := by
  unfold State.exportAction
  refine Keeps.ite ?_ ?_
  · refine Keeps.then (State.autoExport_keeps ..) rfl ?_
    exact Keeps.refl _ _
  · exact Keeps.refl _ _

theorem State.report_keeps (s f) : Keeps [.regs, .jobs, .pen, .jnl, .axes, .evt, .pwr] s (State.report s f) := by
  unfold State.report
  extract_lets x1 x2 x3 x4 x5 x6 x7 x8 x9 x10
  have k11 : Keeps [.regs, .jobs, .pen, .jnl, .axes, .evt, .pwr] s x6 := by
    unfold x6
    refine Keeps.then (State.fireIf_keeps ..) rfl ?_
    exact Keeps.refl _ _
  clear_value x6
  have k12 : Keeps [.regs, .jobs, .pen, .jnl, .axes, .evt, .pwr] s x7 := by
    unfold x7
    refine Keeps.then (State.bump_keeps ..) rfl ?_
    exact k11
  clear_value x7
  have k13 : Keeps [.regs, .jobs, .pen, .jnl, .axes, .evt, .pwr] s x9 := by
    unfold x9
    refine Keeps.then (State.penEnter_keeps ..) rfl ?_
    exact k12
  clear_value x9
  have k14 : Keeps [.regs, .jobs, .pen, .jnl, .axes, .evt, .pwr] s x10 := by
    unfold x10
    refine Keeps.then (State.bump_keeps ..) rfl ?_
    exact k11
  clear_value x10
  refine Keeps.ite ?_ ?_
  · refine Keeps.ite ?_ ?_
    · refine Keeps.then (State.penDiscard_keeps ..) rfl ?_
      exact k12
    · refine Keeps.then (State.exportAction_keeps ..) rfl ?_
      refine Keeps.then (State.markActions_keeps ..) rfl ?_
      exact k13
  · refine Keeps.then (State.exportAction_keeps ..) rfl ?_
    refine Keeps.then (State.markActions_keeps ..) rfl ?_
    exact k14

theorem State.splitOut_keeps (s k) : Keeps [.regs, .jobs, .pen, .jnl, .axes, .evt, .pwr] s (State.splitOut s k) := by
  unfold State.splitOut
  extract_lets x1
  refine Keeps.ite ?_ ?_
  · refine Keeps.then (State.bump_keeps ..) rfl ?_
    exact Keeps.refl _ _
  · refine Keeps.then (State.report_keeps ..) rfl ?_
    refine Keeps.then (State.fire_keeps ..) rfl ?_
    refine Keeps.then (State.bump_keeps ..) rfl ?_
    exact Keeps.refl _ _

theorem State.wholeOut_keeps (s k) : Keeps [.regs, .jobs, .pen, .jnl, .axes, .evt, .pwr] s (State.wholeOut s k) := by
  unfold State.wholeOut
  extract_lets x1 x2
  refine Keeps.ite ?_ ?_
  · refine Keeps.then (State.bump_keeps ..) rfl ?_
    exact Keeps.refl _ _
  · refine Keeps.then (State.report_keeps ..) rfl ?_
    exact Keeps.refl _ _

theorem State.fabBunting_keeps (s bs) : Keeps [.out, .tim, .fab] s (State.fabBunting s bs) := by
  unfold State.fabBunting
  refine Keeps.foldl ?_ ?_
  · exact Keeps.refl _ _
  · intro u1 e2 k3
    refine Keeps.then (State.fabSend_keeps ..) rfl ?_
    exact k3

theorem State.forwardOut_keeps (s bs) : Keeps [.out, .regs, .jobs, .pen, .jnl, .tim, .fab, .axes, .evt,
    .pwr] s (State.forwardOut s bs) := by
  unfold State.forwardOut
  extract_lets x1
  refine Keeps.ite ?_ ?_
  · refine Keeps.foldl ?_ ?_
    · exact Keeps.refl _ _
    · intro u2 e3 k4
      refine Keeps.then (State.splitOut_keeps ..) rfl ?_
      exact k4
  · refine Keeps.ite ?_ ?_
    · refine Keeps.foldl ?_ ?_
      · exact Keeps.refl _ _
      · intro u5 e6 k7
        refine Keeps.then (State.wholeOut_keeps ..) rfl ?_
        exact k7
    · refine Keeps.then (State.fabBunting_keeps ..) rfl ?_
      exact Keeps.refl _ _

theorem State.seamOut_keeps (s o) : Keeps [.out, .regs, .jobs, .pen, .jnl, .tim, .fab, .axes, .evt, .pwr] s (State.seamOut s o) := by
  unfold State.seamOut
  split
  · rename_i y1 y2
    refine Keeps.then (State.forwardOut_keeps ..) rfl ?_
    exact Keeps.refl _ _
  · rename_i y3
    refine Keeps.then (State.bump_keeps ..) rfl ?_
    exact Keeps.refl _ _
  · rename_i y4 y5
    refine Keeps.then (State.fire_keeps ..) rfl ?_
    refine Keeps.then (State.setFld_keeps ..) rfl ?_
    exact Keeps.refl _ _
  · rename_i y6 y7
    refine Keeps.then (State.wholeOut_keeps ..) rfl ?_
    exact Keeps.refl _ _
  · rename_i y8 y9
    refine Keeps.then (State.splitOut_keeps ..) rfl ?_
    exact Keeps.refl _ _

theorem State.seamApply_keeps (s r) : Keeps [.out, .regs, .jobs, .seam, .pen, .jnl, .tim, .fab, .axes, .evt,
    .pwr] s (State.seamApply s r) := by
  unfold State.seamApply
  refine Keeps.foldl ?_ ?_
  · refine Keeps.then (State.semLevel_keeps ..) rfl ?_
    refine Keeps.set_seam rfl ?_
    exact Keeps.refl _ _
  · intro u1 e2 k3
    refine Keeps.then (State.seamOut_keeps ..) rfl ?_
    exact k3

theorem State.buntTake_keeps (s b) : Keeps [.out, .regs, .jobs, .seam, .pen, .jnl, .tim, .fab, .axes, .evt,
    .pwr] s (State.buntTake s b) := by
  unfold State.buntTake
  extract_lets x1 x2 x3
  have k4 : Keeps [.out, .regs, .jobs, .seam, .pen, .jnl, .tim, .fab, .axes, .evt, .pwr] s x2 := by
    unfold x2
    refine Keeps.then (State.seamApply_keeps ..) rfl ?_
    exact Keeps.refl _ _
  clear_value x2
  refine Keeps.ite ?_ ?_
  · refine Keeps.then (State.seamApply_keeps ..) rfl ?_
    exact k4
  · exact k4

theorem State.calAsym_keeps (s n d t) : Keeps [.cal] s (State.calAsym s n d t) := by
  unfold State.calAsym
  extract_lets x1
  refine Keeps.then (State.addCal_keeps ..) rfl ?_
  exact Keeps.refl _ _

theorem State.calChop_keeps (s n d t) : Keeps [.out, .regs, .jnl, .sess, .evt, .cal] s (State.calChop s n d t) := by
  unfold State.calChop
  extract_lets x1
  refine Keeps.then (State.calDone_keeps ..) rfl ?_
  exact Keeps.refl _ _

theorem State.calCut_keeps (s r) : Keeps [.out, .regs, .jnl, .sess, .evt, .cal] s (State.calCut s r) := by
  unfold State.calCut
  refine Keeps.then (State.finishDesc_keeps ..) rfl ?_
  refine Keeps.then (State.calGone_keeps ..) rfl ?_
  exact Keeps.refl _ _

theorem State.calCutAll_keeps (s) : Keeps [.out, .regs, .jnl, .sess, .evt, .cal] s (State.calCutAll s) := by
  unfold State.calCutAll
  refine Keeps.foldl ?_ ?_
  · exact Keeps.refl _ _
  · intro u1 e2 k3
    refine Keeps.then (State.calCut_keeps ..) rfl ?_
    exact k3

theorem State.calCutOn_keeps (s kind target) : Keeps [.out, .regs, .jnl, .sess, .evt, .cal] s (State.calCutOn s kind target) := by
  unfold State.calCutOn
  split
  · rename_i y1 y2
    exact Keeps.refl _ _
  · rename_i y3 y4 y5
    refine Keeps.then (State.calCut_keeps ..) rfl ?_
    exact Keeps.refl _ _

theorem State.wrongState_keeps (s n d) : Keeps [.out, .regs, .jnl, .sess, .evt] s (State.wrongState s n d) := by
  unfold State.wrongState
  refine Keeps.then (State.finishDesc_keeps ..) rfl ?_
  exact Keeps.refl _ _

theorem State.calFlat_keeps (s n d t) : Keeps [.out, .regs, .jnl, .sess, .evt, .cal] s (State.calFlat s n d t) := by
  unfold State.calFlat
  extract_lets x1
  refine Keeps.ite ?_ ?_
  · refine Keeps.then (State.badParam_keeps ..) rfl ?_
    exact Keeps.refl _ _
  · refine Keeps.ite ?_ ?_
    · refine Keeps.then (State.wrongState_keeps ..) rfl ?_
      exact Keeps.refl _ _
    · refine Keeps.then (State.addCal_keeps ..) rfl ?_
      exact Keeps.refl _ _

theorem State.trySwitch_keeps (s p) : Keeps [.out, .regs, .ports] s (State.trySwitch s p) := by
  unfold State.trySwitch
  extract_lets x1 x2
  refine Keeps.ite ?_ ?_
  · exact Keeps.refl _ _
  · split
    · rename_i y3 y4
      exact Keeps.refl _ _
    · rename_i y5 y6 y7 y8
      extract_lets x9 x10
      have k11 : Keeps [.out, .regs, .ports] s x9 := by
        unfold x9
        refine Keeps.foldl ?_ ?_
        · exact Keeps.refl _ _
        · intro u12 e13 k14
          extract_lets x15
          refine Keeps.then (State.setLane_keeps ..) rfl ?_
          exact k14
      clear_value x9
      have k16 : Keeps [.out, .regs, .ports] s x10 := by
        unfold x10
        refine Keeps.then (State.modPort_keeps ..) rfl ?_
        refine Keeps.then (State.setFld_keeps ..) rfl ?_
        refine Keeps.then (State.setFld_keeps ..) rfl ?_
        refine Keeps.then (State.setFld_keeps ..) rfl ?_
        exact k11
      clear_value x10
      refine Keeps.then (State.emit_keeps ..) rfl ?_
      exact k16

theorem State.fomLowest_keeps (s v) : Keeps [.freeIdx] s (State.fomLowest s v).2 := by
  unfold State.fomLowest
  refine Keeps.ite_map Prod.snd ?_ ?_
  · refine Keeps.then (State.takeFree_keeps ..) rfl ?_
    exact Keeps.refl _ _
  · dsimp -zeta only
    exact Keeps.refl _ _

theorem State.calLane_keeps (s p r own peer kept) : Keeps [.freeIdx, .out, .regs, .ports, .jnl, .sess, .evt,
    .cal] s (State.calLane s p r own peer kept) := by
  unfold State.calLane
  extract_lets x1 x2 x3 x4 x5 x6
  have k7 : Keeps [.freeIdx, .out, .regs, .ports, .jnl, .sess, .evt, .cal] s x5.2 := by
    unfold x5
    refine Keeps.then (State.fomLowest_keeps ..) rfl ?_
    exact Keeps.refl _ _
  clear_value x5
  have k8 : Keeps [.freeIdx, .out, .regs, .ports, .jnl, .sess, .evt, .cal] s x6.2 := by
    unfold x6
    refine Keeps.then (State.fomLowest_keeps ..) rfl ?_
    exact k7
  clear_value x6
  refine Keeps.ite ?_ ?_
  · refine Keeps.then (State.adaptLane_keeps ..) rfl ?_
    refine Keeps.then (State.setCalRun_keeps ..) rfl ?_
    exact Keeps.refl _ _
  · refine Keeps.then (State.trySwitch_keeps ..) rfl ?_
    refine Keeps.then (State.calDone_keeps ..) rfl ?_
    exact k8

theorem State.calLanes_keeps (s n d t) : Keeps [.out, .regs, .ports, .jnl, .sess, .evt, .cal] s (State.calLanes s n d t) := by
  unfold State.calLanes
  extract_lets x1 x2
  have k3 : Keeps [.out, .regs, .ports, .jnl, .sess, .evt, .cal] s x2 := by
    unfold x2
    refine Keeps.then (State.setFld_keeps ..) rfl ?_
    refine Keeps.then (State.addCal_keeps ..) rfl ?_
    exact Keeps.refl _ _
  clear_value x2
  refine Keeps.ite ?_ ?_
  · refine Keeps.then (State.wrongState_keeps ..) rfl ?_
    exact Keeps.refl _ _
  · refine Keeps.then (State.adaptLane_keeps ..) rfl ?_
    refine Keeps.then (State.modPort_keeps ..) rfl ?_
    exact k3

theorem State.calSeamReport_keeps (s n d t) : Keeps [.freeIdx, .out, .regs, .jnl, .sess, .evt, .cal] s (State.calSeamReport s n d t) := by
  unfold State.calSeamReport
  extract_lets x1 x2 x3 x4
  have k5 : Keeps [.freeIdx, .out, .regs, .jnl, .sess, .evt, .cal] s x4.2 := by
    unfold x4
    refine Keeps.ite_map Prod.snd ?_ ?_
    · refine Keeps.then (State.takeFree_keeps ..) rfl ?_
      exact Keeps.refl _ _
    · dsimp -zeta only
      exact Keeps.refl _ _
  clear_value x4
  refine Keeps.then (State.calDone_keeps ..) rfl ?_
  exact k5

theorem State.calTrain_keeps (s n d t) : Keeps [.regs, .cal] s (State.calTrain s n d t) := by
  unfold State.calTrain
  refine Keeps.then (State.setFld_keeps ..) rfl ?_
  refine Keeps.then (State.addCal_keeps ..) rfl ?_
  exact Keeps.refl _ _

theorem State.calTrained_keeps (s m width height vref) : Keeps [.out, .regs, .jnl, .sess, .evt,
    .cal] s (State.calTrained s m width height vref) := by
  unfold State.calTrained
  split
  · rename_i y1 y2
    exact Keeps.refl _ _
  · rename_i y3 y4 y5
    refine Keeps.then (State.calDone_keeps ..) rfl ?_
    exact Keeps.refl _ _

theorem State.notice_keeps (s p cause) : Keeps [.regs] s (State.notice s p cause) := by
  unfold State.notice
  refine Keeps.then (State.setFld_keeps ..) rfl ?_
  exact Keeps.refl _ _

theorem State.camNotice_keeps (s p cause) : Keeps [.regs, .evt] s (State.camNotice s p cause) := by
  unfold State.camNotice
  refine Keeps.then (State.fire_keeps ..) rfl ?_
  refine Keeps.then (State.notice_keeps ..) rfl ?_
  exact Keeps.refl _ _

theorem State.dropCommit_keeps (s) : Keeps [.out, .regs, .jnl, .pln, .sess, .evt] s (State.dropCommit s) := by
  unfold State.dropCommit
  split
  · rename_i y1 y2
    exact Keeps.refl _ _
  · rename_i y3 y4 y5
    extract_lets x6 x7
    have k8 : Keeps [.out, .regs, .jnl, .pln, .sess, .evt] s x7 := by
      unfold x7
      refine Keeps.set_pln rfl ?_
      exact Keeps.refl _ _
    clear_value x7
    refine Keeps.ite ?_ ?_
    · refine Keeps.then (State.planRefuse_keeps ..) rfl ?_
      exact k8
    · refine Keeps.then (State.planStatus_keeps ..) rfl ?_
      exact k8

theorem State.planFault_keeps (s n) : Keeps [.out, .regs, .jnl, .pln, .sess, .evt] s (State.planFault s n) := by
  unfold State.planFault
  extract_lets x1 x2
  have k3 : Keeps [.out, .regs, .jnl, .pln, .sess, .evt] s x1 := by
    unfold x1
    refine Keeps.then (State.dropCommit_keeps ..) rfl ?_
    exact Keeps.refl _ _
  clear_value x1
  refine Keeps.ite ?_ ?_
  · split
    · rename_i y4 y5
      refine Keeps.set_pln rfl ?_
      exact k3
    · rename_i y6 y7 y8
      refine Keeps.ite ?_ ?_
      · exact k3
      · refine Keeps.set_pln rfl ?_
        exact k3
  · exact Keeps.refl _ _

theorem State.faultEntry_keeps (s kind resource) : Keeps [.regs, .jnl, .evt] s (State.faultEntry s kind resource) := by
  unfold State.faultEntry
  refine Keeps.then (State.journal_keeps ..) rfl ?_
  exact Keeps.refl _ _

theorem State.catalogue_keeps (s kind resource fallback) : Keeps [.out, .regs, .jnl, .pln, .sess,
    .evt] s (State.catalogue s kind resource fallback) := by
  unfold State.catalogue
  extract_lets x1
  have k2 : Keeps [.out, .regs, .jnl, .pln, .sess, .evt] s x1 := by
    unfold x1
    refine Keeps.then (State.faultEntry_keeps ..) rfl ?_
    exact Keeps.refl _ _
  clear_value x1
  split
  · rename_i y3
    exact k2
  · rename_i y4 y5
    refine Keeps.then (State.planFault_keeps ..) rfl ?_
    exact k2

theorem State.catchGate_keeps (s c parts) : Keeps [.regs, .jnl] s (State.catchGate s c parts).1 := by
  unfold State.catchGate
  extract_lets x1 x2
  refine Keeps.ite_map Prod.fst ?_ ?_
  · dsimp -zeta only
    exact Keeps.refl _ _
  · split
    · rename_i y3 y4 y5 y6
      extract_lets x7
      dsimp -zeta only
      refine Keeps.ite ?_ ?_
      · refine Keeps.set_jnl rfl ?_
        exact Keeps.refl _ _
      · refine Keeps.set_jnl rfl ?_
        exact Keeps.refl _ _
    · rename_i y8 y9
      dsimp -zeta only
      refine Keeps.ite ?_ ?_
      · exact Keeps.refl _ _
      · refine Keeps.then (State.bump_keeps ..) rfl ?_
        exact Keeps.refl _ _

theorem State.setCatch_keeps (s c n) : Keeps [.jnl] s (State.setCatch s c n) := by
  unfold State.setCatch
  extract_lets x1
  refine Keeps.set_jnl rfl ?_
  exact Keeps.refl _ _

theorem State.catchLine_keeps (s c cp pos) : Yields (fun r => r.2) [.jnl] s (State.catchLine s c cp pos) := by
  unfold State.catchLine
  extract_lets x1
  clear_value x1
  split
  · rename_i y2
    exact Yields.none
  · rename_i y3 y4 y5
    extract_lets x6 x7 x8
    refine Yields.some ?_
    dsimp -zeta only
    refine Keeps.then (State.setCatch_keeps ..) rfl ?_
    exact Keeps.refl _ _

theorem State.catchStart_keeps (s c) : Keeps [.regs, .ctxs, .jnl, .evt] s (State.catchStart s c) := by
  unfold State.catchStart
  split
  · rename_i y1 y2
    extract_lets x3 x4
    refine Keeps.then (State.setCtx_keeps ..) rfl ?_
    exact Keeps.refl _ _
  · rename_i y5 y6 y7 y8 y9 y10 y11
    extract_lets x12 x13 x14 x15 x16 x17 x18 x19
    have k20 : Keeps [.regs, .ctxs, .jnl, .evt] s x13 := by
      unfold x13
      refine Keeps.then (State.setCtx_keeps ..) rfl ?_
      exact Keeps.refl _ _
    clear_value x13
    clear_value x14
    split
    · rename_i y21
      exact k20
    · rename_i y22 y23 y24
      extract_lets x25 x26
      have k27 : Keeps [.regs, .ctxs, .jnl, .evt] s x26 := by
        unfold x26
        refine Keeps.set_jnl rfl ?_
        exact k20
      clear_value x26
      refine Keeps.then (State.fifoDrain_keeps ..) rfl ?_
      refine Keeps.then (State.setFld_keeps ..) rfl ?_
      exact k27

theorem State.catchUp_keeps (s cs) : Keeps [.regs, .ctxs, .jnl, .evt] s (State.catchUp s cs) := by
  unfold State.catchUp
  extract_lets x1
  have k2 : Keeps [.regs, .ctxs, .jnl, .evt] s x1 := by
    unfold x1
    refine Keeps.foldl ?_ ?_
    · exact Keeps.refl _ _
    · intro u3 e4 k5
      refine Keeps.then (State.catchStart_keeps ..) rfl ?_
      exact k5
  clear_value x1
  refine Keeps.ite ?_ ?_
  · exact k2
  · refine Keeps.then (State.fire_keeps ..) rfl ?_
    refine Keeps.then (State.setFld_keeps ..) rfl ?_
    refine Keeps.then (State.setFld_keeps ..) rfl ?_
    exact k2

theorem State.setCell_keeps (s l v) : Keeps [.evt] s (State.setCell s l v) := by
  unfold State.setCell
  extract_lets x1
  refine Keeps.set_evt rfl ?_
  exact Keeps.refl _ _

theorem State.cellInput_keeps (s l k e) : Keeps [.regs, .evt] s (State.cellInput s l k e) := by
  unfold State.cellInput
  extract_lets x1 x2 x3 x4
  have k5 : Keeps [.regs, .evt] s x4 := by
    unfold x4
    refine Keeps.then (State.setCell_keeps ..) rfl ?_
    exact Keeps.refl _ _
  clear_value x4
  refine Keeps.ite ?_ ?_
  · exact Keeps.refl _ _
  · refine Keeps.ite ?_ ?_
    · refine Keeps.then (State.setFld_keeps ..) rfl ?_
      exact k5
    · exact k5

theorem State.cellLoad_keeps (s l inputs cfg) : Keeps [.regs, .evt] s (State.cellLoad s l inputs cfg) := by
  unfold State.cellLoad
  extract_lets x1
  have k2 : Keeps [.regs, .evt] s x1 := by
    unfold x1
    refine Keeps.then (State.setReg_keeps ..) rfl ?_
    refine Keeps.then (State.setReg_keeps ..) rfl ?_
    exact Keeps.refl _ _
  clear_value x1
  refine Keeps.ite ?_ ?_
  · exact k2
  · refine Keeps.then (State.setFld_keeps ..) rfl ?_
    refine Keeps.then (State.setCell_keeps ..) rfl ?_
    exact k2

theorem State.cellStep_keeps (s l) : Keeps [.regs, .evt] s (State.cellStep s l) := by
  unfold State.cellStep
  extract_lets x1 x2 x3 x4 x5 x6
  have k7 : Keeps [.regs, .evt] s x6 := by
    unfold x6
    refine Keeps.then (State.setCell_keeps ..) rfl ?_
    exact Keeps.refl _ _
  clear_value x6
  refine Keeps.ite ?_ ?_
  · exact Keeps.refl _ _
  · refine Keeps.ite ?_ ?_
    · refine Keeps.then (State.setFld_keeps ..) rfl ?_
      exact k7
    · exact k7

theorem State.cellWrite_keeps (s n l a old x) : Keeps [.regs, .evt] s (State.cellWrite s n l a old x) := by
  unfold State.cellWrite
  extract_lets x1 x2
  have k3 : Keeps [.regs, .evt] s x2 := by
    unfold x2
    refine Keeps.ite ?_ ?_
    · refine Keeps.then (State.cellLoad_keeps ..) rfl ?_
      exact Keeps.refl _ _
    · refine Keeps.then (State.cellLoad_keeps ..) rfl ?_
      exact Keeps.refl _ _
  clear_value x2
  refine Keeps.then (State.setClaim_keeps ..) rfl ?_
  exact k3

theorem State.cellsTick_keeps (s) : Keeps [.regs, .evt] s (State.cellsTick s) := by
  unfold State.cellsTick
  extract_lets x1 x2
  have k3 : Keeps [.regs, .evt] s x1 := by
    unfold x1
    refine Keeps.foldl ?_ ?_
    · exact Keeps.refl _ _
    · intro u4 e5 k6
      refine Keeps.then (State.cellStep_keeps ..) rfl ?_
      exact k6
  clear_value x1
  refine Keeps.set_evt rfl ?_
  exact k3

theorem State.checkCamera_keeps (s p) : Keeps [.regs, .evt] s (State.checkCamera s p) := by
  unfold State.checkCamera
  extract_lets x1
  refine Keeps.then (State.fireIf_keeps ..) rfl ?_
  refine Keeps.then (State.setFlag_keeps ..) rfl ?_
  exact Keeps.refl _ _

theorem State.setCrc_keeps (s u v) : Keeps [.crcs] s (State.setCrc s u v) := by
  unfold State.setCrc
  refine Keeps.set_crcs rfl ?_
  exact Keeps.refl _ _

theorem State.crcEnd_keeps (s u job) : Keeps [.regs, .jobs, .crcs] s (State.crcEnd s u job) := by
  unfold State.crcEnd
  extract_lets x1
  refine Keeps.then (State.dropJob_keeps ..) rfl ?_
  refine Keeps.then (State.setFld_keeps ..) rfl ?_
  refine Keeps.then (State.setCrc_keeps ..) rfl ?_
  exact Keeps.refl _ _

theorem State.crcFire_keeps (s u cause) : Keeps [.regs, .evt] s (State.crcFire s u cause) := by
  unfold State.crcFire
  refine Keeps.then (State.fire_keeps ..) rfl ?_
  refine Keeps.then (State.setFld_keeps ..) rfl ?_
  exact Keeps.refl _ _

theorem State.crcShow_keeps (s u v) : Keeps [.regs, .crcs] s (State.crcShow s u v) := by
  unfold State.crcShow
  extract_lets x1
  refine Keeps.then (State.set64_keeps ..) rfl ?_
  refine Keeps.then (State.setCrc_keeps ..) rfl ?_
  exact Keeps.refl _ _

theorem State.checkData_keeps (s j bs) : Keeps [.out, .regs, .jobs, .jnl, .sess, .evt, .crcs] s (State.checkData s j bs) := by
  unfold State.checkData
  extract_lets x1 x2 x3 x4 x5 x6 x7
  have k8 : Keeps [.out, .regs, .jobs, .jnl, .sess, .evt, .crcs] s x4 := by
    unfold x4
    refine Keeps.then (State.crcShow_keeps ..) rfl ?_
    exact Keeps.refl _ _
  clear_value x4
  have k9 : Keeps [.out, .regs, .jobs, .jnl, .sess, .evt, .crcs] s x7 := by
    unfold x7
    refine Keeps.then (State.set64_keeps ..) rfl ?_
    exact k8
  clear_value x7
  refine Keeps.ite ?_ ?_
  · refine Keeps.then (State.setJob_keeps ..) rfl ?_
    exact k8
  · refine Keeps.then (State.crcFire_keeps ..) rfl ?_
    refine Keeps.then (State.crcEnd_keeps ..) rfl ?_
    refine Keeps.then (State.finishDesc_keeps ..) rfl ?_
    exact k9

theorem State.checkUnit_keeps (s j) : Keeps [.out, .regs, .jobs, .jnl, .sess, .evt, .crcs] s (State.checkUnit s j) := by
  unfold State.checkUnit
  extract_lets x1 x2
  have k3 : Keeps [.out, .regs, .jobs, .jnl, .sess, .evt, .crcs] s x2.1 := by
    unfold x2
    refine Keeps.then (State.hostRead_keeps ..) rfl ?_
    exact Keeps.refl _ _
  clear_value x2
  refine Keeps.ite ?_ ?_
  · refine Keeps.then (State.setJob_keeps ..) rfl ?_
    exact Keeps.refl _ _
  · split
    · rename_i y4 y5 y6
      refine Keeps.then (State.crcEnd_keeps ..) rfl ?_
      refine Keeps.then (State.finishDesc_keeps ..) rfl ?_
      exact k3
    · rename_i y7 y8
      refine Keeps.then (State.setJob_keeps ..) rfl ?_
      exact k3

theorem State.conflict_keeps (s kind index owner claimant) : Keeps [.regs] s (State.conflict s kind index owner claimant) := by
  unfold State.conflict
  refine Keeps.then (State.setFld_keeps ..) rfl ?_
  refine Keeps.then (State.setFld_keeps ..) rfl ?_
  refine Keeps.then (State.setFld_keeps ..) rfl ?_
  refine Keeps.then (State.setFld_keeps ..) rfl ?_
  refine Keeps.then (State.setFld_keeps ..) rfl ?_
  exact Keeps.refl _ _

theorem State.owned_keeps (s n d owner) : Keeps [.out, .regs, .jnl, .sess, .evt] s (State.owned s n d owner) := by
  unfold State.owned
  refine Keeps.then (State.finishDesc_keeps ..) rfl ?_
  exact Keeps.refl _ _

theorem State.claimFail_keeps (s kind index n d) : Keeps [.out, .regs, .jnl, .sess, .evt] s (State.claimFail s kind index n d) := by
  unfold State.claimFail
  extract_lets x1
  refine Keeps.then (State.owned_keeps ..) rfl ?_
  refine Keeps.then (State.conflict_keeps ..) rfl ?_
  exact Keeps.refl _ _

theorem State.claimQueues_keeps (s q owner on) : Keeps [.regs, .evt] s (State.claimQueues s q owner on) := by
  unfold State.claimQueues
  refine Keeps.foldl ?_ ?_
  · exact Keeps.refl _ _
  · intro u1 e2 k3
    split
    · rename_i y4 y5 y6
      refine Keeps.then (State.setClaim_keeps ..) rfl ?_
      exact k3
    · rename_i y7 y8 y9 y10
      refine Keeps.ite ?_ ?_
      · exact k3
      · refine Keeps.then (State.conflict_keeps ..) rfl ?_
        exact k3
    · rename_i y11 y12 y13 y14
      refine Keeps.ite ?_ ?_
      · refine Keeps.then (State.setClaim_keeps ..) rfl ?_
        exact k3
      · exact k3
    · rename_i y15 y16 y17
      exact k3

theorem State.clearKey_keeps (s n) : Keeps [.regs, .sess] s (State.clearKey s n) := by
  unfold State.clearKey
  extract_lets x1
  refine Keeps.then (State.setFld_keeps ..) rfl ?_
  refine Keeps.then (State.setFld_keeps ..) rfl ?_
  refine Keeps.then (State.setSession_keeps ..) rfl ?_
  exact Keeps.refl _ _

theorem State.toutRise_keeps (s t time) : Keeps [.out, .regs, .tim, .evt] s (State.toutRise s t time) := by
  unfold State.toutRise
  refine Keeps.then (State.toutRiseW_keeps ..) rfl ?_
  exact Keeps.refl _ _

theorem State.toutStepped_keeps (s t old new) : Keeps [.out, .regs, .tim, .evt] s (State.toutStepped s t old new) := by
  unfold State.toutStepped
  extract_lets x1 x2 x3 x4
  have k5 : Keeps [.out, .regs, .tim, .evt] s x4 := by
    unfold x4
    refine Keeps.then (State.setTout_keeps ..) rfl ?_
    exact Keeps.refl _ _
  clear_value x4
  refine Keeps.ite ?_ ?_
  · exact Keeps.refl _ _
  · refine Keeps.ite ?_ ?_
    · refine Keeps.then (State.toutRise_keeps ..) rfl ?_
      exact k5
    · exact k5

theorem State.clockTick_keeps (s) : Keeps [.out, .regs, .tim, .evt] s (State.clockTick s) := by
  unfold State.clockTick
  extract_lets x1 x2 x3
  split
  · rename_i y4 y5
    refine Keeps.set_tim rfl ?_
    exact Keeps.refl _ _
  · rename_i y6 y7 y8
    extract_lets x9 x10
    have k11 : Keeps [.out, .regs, .tim, .evt] s x10 := by
      unfold x10
      refine Keeps.set_tim rfl ?_
      exact Keeps.refl _ _
    clear_value x10
    refine Keeps.foldl ?_ ?_
    · exact k11
    · intro u12 e13 k14
      refine Keeps.then (State.toutStepped_keeps ..) rfl ?_
      exact k14

theorem State.setDomain_keeps (s d on) : Keeps [.regs] s (State.setDomain s d on) := by
  unfold State.setDomain
  refine Keeps.ite ?_ ?_
  · refine Keeps.then (State.setFlag_keeps ..) rfl ?_
    exact Keeps.refl _ _
  · refine Keeps.then (State.setFlag_keeps ..) rfl ?_
    exact Keeps.refl _ _

theorem State.clocksRun_keeps (s) : Keeps [.out, .regs, .encs, .evt] s (State.clocksRun s) := by
  unfold State.clocksRun
  extract_lets x1 x2 x3
  have k4 : Keeps [.out, .regs, .encs, .evt] s x1 := by
    unfold x1
    refine Keeps.then (State.setDomain_keeps ..) rfl ?_
    refine Keeps.then (State.setDomain_keeps ..) rfl ?_
    refine Keeps.then (State.emit_keeps ..) rfl ?_
    exact Keeps.refl _ _
  clear_value x1
  have k5 : Keeps [.out, .regs, .encs, .evt] s x3 := by
    unfold x3
    refine Keeps.set_evt rfl ?_
    exact k4
  clear_value x3
  refine Keeps.then (State.setFld_keeps ..) rfl ?_
  refine Keeps.then (State.aoHandover_keeps ..) rfl ?_
  exact k5

theorem State.stripEntry_keeps (s c strip m) : Keeps [.freeIdx, .regs, .jnl, .evt] s (State.stripEntry s c strip m) := by
  unfold State.stripEntry
  extract_lets x1 x2 x3 x4 x5 x6 x7 x8 x9 x10 x11 x12 x13
  have k14 : Keeps [.freeIdx, .regs, .jnl, .evt] s x7 := by
    unfold x7
    refine Keeps.set_jnl rfl ?_
    exact Keeps.refl _ _
  clear_value x7
  have k15 : Keeps [.freeIdx, .regs, .jnl, .evt] s x8.2 := by
    unfold x8
    refine Keeps.then (State.takeFree_keeps ..) rfl ?_
    exact Keeps.refl _ _
  clear_value x8
  have k16 : Keeps [.freeIdx, .regs, .jnl, .evt] s x9 := by
    unfold x9
    exact k15
  clear_value x9
  have k17 : Keeps [.freeIdx, .regs, .jnl, .evt] s x13 := by
    unfold x13
    refine Keeps.set_jnl rfl ?_
    exact k16
  clear_value x13
  refine Keeps.ite ?_ ?_
  · refine Keeps.then (State.journal_keeps ..) rfl ?_
    exact k14
  · refine Keeps.then (State.journal_keeps ..) rfl ?_
    exact k17

theorem State.stripLabelled_keeps (s c strip m) : Keeps [.freeIdx, .out, .regs, .jobs, .seam, .pen, .jnl, .tim, .fab, .axes, .evt,
    .pwr] s (State.stripLabelled s c strip m) := by
  unfold State.stripLabelled
  extract_lets x1
  have k2 : Keeps [.freeIdx, .out, .regs, .jobs, .seam, .pen, .jnl, .tim, .fab, .axes, .evt, .pwr] s x1 := by
    unfold x1
    refine Keeps.then (State.stripEntry_keeps ..) rfl ?_
    exact Keeps.refl _ _
  clear_value x1
  refine Keeps.then (State.seamApply_keeps ..) rfl ?_
  exact k2

theorem State.countPart_keeps (s c) : Keeps [.jnl] s (State.countPart s c) := by
  unfold State.countPart
  extract_lets x1 x2 x3
  refine Keeps.set_jnl rfl ?_
  exact Keeps.refl _ _

theorem State.gapEnter_keeps (s c g) : Keeps [.regs, .pen, .jnl, .evt, .pwr] s (State.gapEnter s c g) := by
  unfold State.gapEnter
  refine Keeps.then (State.penEnter_keeps ..) rfl ?_
  exact Keeps.refl _ _

theorem State.segOut_keeps (c m s o) : Keeps [.freeIdx, .out, .regs, .jobs, .seam, .pen, .jnl, .tim, .fab, .axes, .evt,
    .pwr] s (State.segOut c m s o) := by
  unfold State.segOut
  split
  · rename_i y1 y2 y3 y4
    extract_lets x5
    have k6 : Keeps [.freeIdx, .out, .regs, .jobs, .seam, .pen, .jnl, .tim, .fab, .axes, .evt, .pwr] s x5.1 := by
      unfold x5
      refine Keeps.then (State.catchGate_keeps ..) rfl ?_
      exact Keeps.refl _ _
    clear_value x5
    refine Keeps.ite ?_ ?_
    · exact k6
    · refine Keeps.then (State.report_keeps ..) rfl ?_
      exact k6
  · rename_i y7 y8 y9 y10 y11 y12 y13 y14 y15 y16
    extract_lets x17
    have k18 : Keeps [.freeIdx, .out, .regs, .jobs, .seam, .pen, .jnl, .tim, .fab, .axes, .evt, .pwr] s x17.1 := by
      unfold x17
      refine Keeps.then (State.catchGate_keeps ..) rfl ?_
      exact Keeps.refl _ _
    clear_value x17
    refine Keeps.ite ?_ ?_
    · exact k18
    · refine Keeps.then (State.penEnter_keeps ..) rfl ?_
      exact k18
  · rename_i y19 y20
    extract_lets x21
    have k22 : Keeps [.freeIdx, .out, .regs, .jobs, .seam, .pen, .jnl, .tim, .fab, .axes, .evt, .pwr] s x21.1 := by
      unfold x21
      refine Keeps.then (State.catchGate_keeps ..) rfl ?_
      exact Keeps.refl _ _
    clear_value x21
    refine Keeps.ite ?_ ?_
    · exact k22
    · refine Keeps.then (State.gapEnter_keeps ..) rfl ?_
      exact k22
  · rename_i y23 y24
    extract_lets x25 x26 x27
    have k28 : Keeps [.freeIdx, .out, .regs, .jobs, .seam, .pen, .jnl, .tim, .fab, .axes, .evt, .pwr] s x25.1 := by
      unfold x25
      refine Keeps.then (State.catchGate_keeps ..) rfl ?_
      refine Keeps.then (State.countPart_keeps ..) rfl ?_
      exact Keeps.refl _ _
    clear_value x25
    have k29 : Keeps [.freeIdx, .out, .regs, .jobs, .seam, .pen, .jnl, .tim, .fab, .axes, .evt, .pwr] s x26 := by
      unfold x26
      exact k28
    clear_value x26
    refine Keeps.ite ?_ ?_
    · exact k28
    · refine Keeps.set_seam rfl ?_
      exact k29
  · rename_i y30
    refine Keeps.then (State.bump_keeps ..) rfl ?_
    exact Keeps.refl _ _
  · rename_i y31
    refine Keeps.then (State.fire_keeps ..) rfl ?_
    refine Keeps.then (State.setFld_keeps ..) rfl ?_
    refine Keeps.then (State.bump_keeps ..) rfl ?_
    exact Keeps.refl _ _
  · rename_i y32
    refine Keeps.then (State.setFld_keeps ..) rfl ?_
    exact Keeps.refl _ _
  · rename_i y33
    refine Keeps.then (State.fire_keeps ..) rfl ?_
    exact Keeps.refl _ _
  · rename_i y34
    refine Keeps.then (State.setFld_keeps ..) rfl ?_
    refine Keeps.then (State.bump_keeps ..) rfl ?_
    exact Keeps.refl _ _
  · rename_i y35
    refine Keeps.then (State.setFld_keeps ..) rfl ?_
    exact Keeps.refl _ _
  · rename_i y36
    refine Keeps.then (State.setFld_keeps ..) rfl ?_
    exact Keeps.refl _ _
  · rename_i y37 y38
    refine Keeps.then (State.stripLabelled_keeps ..) rfl ?_
    exact Keeps.refl _ _

theorem State.segRegs_keeps (s c layers m) : Keeps [.regs] s (State.segRegs s c layers m) := by
  unfold State.segRegs
  extract_lets x1 x2 x3
  refine Keeps.then (State.setFlag_keeps ..) rfl ?_
  refine Keeps.then (State.setFld_keeps ..) rfl ?_
  exact Keeps.refl _ _

theorem State.segApply_keeps (s c layers m r) : Keeps [.freeIdx, .out, .regs, .ctxs, .jobs, .seam, .pen, .jnl, .tim, .fab, .axes, .evt,
    .pwr] s (State.segApply s c layers m r) := by
  unfold State.segApply
  extract_lets x1 x2
  have k3 : Keeps [.freeIdx, .out, .regs, .ctxs, .jobs, .seam, .pen, .jnl, .tim, .fab, .axes, .evt, .pwr] s x2 := by
    unfold x2
    refine Keeps.then (State.setCtx_keeps ..) rfl ?_
    exact Keeps.refl _ _
  clear_value x2
  refine Keeps.then (State.segRegs_keeps ..) rfl ?_
  refine Keeps.foldl ?_ ?_
  · exact k3
  · intro u4 e5 k6
    refine Keeps.then (State.segOut_keeps ..) rfl ?_
    exact k6

theorem State.closeCtx_keeps (s c cp) : Keeps [.freeIdx, .out, .regs, .ctxs, .jobs, .seam, .pen, .jnl, .tim, .fab, .axes, .evt,
    .pwr] s (State.closeCtx s c cp) := by
  unfold State.closeCtx
  extract_lets x1 x2 x3 x4 x5 x6
  refine Keeps.then (State.segApply_keeps ..) rfl ?_
  exact Keeps.refl _ _

theorem State.penDiscardGaps_keeps (s c m) : Keeps [.regs, .pen, .jnl, .evt, .pwr] s (State.penDiscardGaps s c m) := by
  unfold State.penDiscardGaps
  extract_lets x1 x2 x3 x4
  refine Keeps.foldl ?_ ?_
  · refine Keeps.set_pen rfl ?_
    exact Keeps.refl _ _
  · intro u5 e6 k7
    refine Keeps.then (State.gapEnter_keeps ..) rfl ?_
    exact k7

theorem State.gapRange_keeps (s c a b cause) : Keeps [.regs, .pen, .jnl, .evt, .pwr] s (State.gapRange s c a b cause) := by
  unfold State.gapRange
  extract_lets x1 x2
  refine Keeps.foldl ?_ ?_
  · exact Keeps.refl _ _
  · intro u3 e4 k5
    refine Keeps.then (State.gapEnter_keeps ..) rfl ?_
    exact k5

theorem State.restartGap_keeps (s c m) : Keeps [.regs, .pen, .jnl, .evt, .pwr] s (State.restartGap s c m) := by
  unfold State.restartGap
  split
  · rename_i y1 y2
    exact Keeps.refl _ _
  · rename_i y3 y4 y5
    extract_lets x6
    refine Keeps.then (State.gapRange_keeps ..) rfl ?_
    refine Keeps.set_jnl rfl ?_
    exact Keeps.refl _ _

theorem State.labelOne_keeps (s c cp o) : Keeps [.freeIdx, .out, .regs, .ctxs, .jobs, .seam, .pen, .jnl, .tim, .fab, .axes, .evt,
    .pwr] s (State.labelOne s c cp o) := by
  unfold State.labelOne
  extract_lets x1 x2 x3 x4 x5 x6 x7 x8
  have k9 : Keeps [.freeIdx, .out, .regs, .ctxs, .jobs, .seam, .pen, .jnl, .tim, .fab, .axes, .evt, .pwr] s x1 := by
    unfold x1
    refine Keeps.then (State.restartGap_keeps ..) rfl ?_
    exact Keeps.refl _ _
  clear_value x1
  have k10 : Keeps [.freeIdx, .out, .regs, .ctxs, .jobs, .seam, .pen, .jnl, .tim, .fab, .axes, .evt, .pwr] s x8 := by
    unfold x8
    refine Keeps.then (State.segApply_keeps ..) rfl ?_
    exact k9
  clear_value x8
  refine Keeps.then (State.penDiscardGaps_keeps ..) rfl ?_
  exact k10

theorem State.labelAll_keeps (s c cp a3) : Keeps [.freeIdx, .out, .regs, .ctxs, .jobs, .seam, .pen, .jnl, .tim, .fab, .axes, .evt,
    .pwr] s (State.labelAll s c cp a3) := by
  induction a3 generalizing s c cp
  · unfold State.labelAll
    exact Keeps.refl _ _
  · rename_i y1 y2
    unfold State.labelAll
    extract_lets x3
    split
    · rename_i y4 y5
      exact Keeps.refl _ _
    · rename_i y6 y7 y8 y9
      refine Keeps.then (y2 _ _ _) rfl ?_
      refine Keeps.then (State.labelOne_keeps ..) rfl ?_
      refine Keeps.then (State.setCtx_keeps ..) rfl ?_
      exact Keeps.refl _ _

theorem State.ovwTake_keeps (s c cp o) : Keeps [.ovw] s (State.ovwTake s c cp o) := by
  unfold State.ovwTake
  split
  · rename_i y1 y2
    exact Keeps.refl _ _
  · rename_i y3 y4 y5
    refine Keeps.ite ?_ ?_
    · refine Keeps.set_ovw rfl ?_
      exact Keeps.refl _ _
    · exact Keeps.refl _ _

theorem State.seamStripSend_keeps (s a dest w chans column) : Keeps [.out, .tim,
    .fab] s (State.seamStripSend s a dest w chans column) := by
  unfold State.seamStripSend
  extract_lets x1
  refine Keeps.then (State.fabSend_keeps ..) rfl ?_
  exact Keeps.refl _ _

theorem State.seamSide_keeps (s cp o side dest lo w) : Keeps [.out, .tim, .fab] s (State.seamSide s cp o side dest lo w) := by
  unfold State.seamSide
  extract_lets x1 x2 x3 x4 x5 x6 x7
  refine Keeps.ite ?_ ?_
  · exact Keeps.refl _ _
  · clear_value x4
    split
    · rename_i y8 y9
      refine Keeps.ite ?_ ?_
      · unfold x7
        extract_lets x10 x11 x12
        have k13 : Keeps [.out, .tim, .fab] s x10 := by
          unfold x10
          refine Keeps.then (State.seamStripSend_keeps ..) rfl ?_
          exact Keeps.refl _ _
        clear_value x10
        refine Keeps.ite ?_ ?_
        · refine Keeps.set_fab rfl ?_
          exact k13
        · refine Keeps.set_fab rfl ?_
          exact Keeps.refl _ _
      · unfold x7
        extract_lets x14 x15 x16
        have k17 : Keeps [.out, .tim, .fab] s x14 := by
          unfold x14
          refine Keeps.then (State.seamStripSend_keeps ..) rfl ?_
          refine Keeps.then (State.seamStripSend_keeps ..) rfl ?_
          exact Keeps.refl _ _
        clear_value x14
        refine Keeps.ite ?_ ?_
        · refine Keeps.set_fab rfl ?_
          exact k17
        · refine Keeps.set_fab rfl ?_
          refine Keeps.then (State.seamStripSend_keeps ..) rfl ?_
          exact Keeps.refl _ _
    · rename_i y18
      unfold x7
      extract_lets x19 x20 x21
      have k22 : Keeps [.out, .tim, .fab] s x19 := by
        unfold x19
        refine Keeps.then (State.seamStripSend_keeps ..) rfl ?_
        exact Keeps.refl _ _
      clear_value x19
      refine Keeps.ite ?_ ?_
      · refine Keeps.set_fab rfl ?_
        exact k22
      · refine Keeps.set_fab rfl ?_
        exact Keeps.refl _ _

theorem State.seamLine_keeps (s cp o) : Keeps [.out, .tim, .fab] s (State.seamLine s cp o) := by
  unfold State.seamLine
  extract_lets x1
  have k2 : Keeps [.out, .tim, .fab] s x1 := by
    unfold x1
    split
    · rename_i y3 y4 y5
      refine Keeps.then (State.seamSide_keeps ..) rfl ?_
      exact Keeps.refl _ _
    · rename_i y6 y7
      exact Keeps.refl _ _
  clear_value x1
  split
  · rename_i y8 y9 y10
    refine Keeps.then (State.seamSide_keeps ..) rfl ?_
    exact k2
  · rename_i y11 y12
    exact k2

theorem State.flushWaiting_keeps (s c cp a3) : Keeps [.out, .regs, .ctxs, .ovw, .tim, .fab] s (State.flushWaiting s c cp a3) := by
  induction a3 generalizing s c cp
  · unfold State.flushWaiting
    exact Keeps.refl _ _
  · rename_i y1 y2
    unfold State.flushWaiting
    extract_lets x3 x4
    split
    · rename_i y5 y6
      exact Keeps.refl _ _
    · rename_i y7 y8 y9 y10
      extract_lets x11 x12 x13 x14 x15 x16
      have k17 : Keeps [.out, .regs, .ctxs, .ovw, .tim, .fab] s x12.1 := by
        unfold x12
        refine Keeps.foldl_map Prod.fst ?_ ?_
        · dsimp -zeta only
          exact Keeps.refl _ _
        · intro u18 e19 k20
          refine Keeps.then (State.blendOne_keeps ..) rfl ?_
          exact k20
      clear_value x12
      have k21 : Keeps [.out, .regs, .ctxs, .ovw, .tim, .fab] s x16 := by
        unfold x16
        refine Keeps.then (State.setCtx_keeps ..) rfl ?_
        exact k17
      clear_value x16
      refine Keeps.ite ?_ ?_
      · exact Keeps.refl _ _
      · refine Keeps.then (y2 _ _ _) rfl ?_
        refine Keeps.then (State.seamLine_keeps ..) rfl ?_
        refine Keeps.then (State.ovwTake_keeps ..) rfl ?_
        exact k21

theorem State.flushBands_keeps (s c cp a3) : Keeps [.out, .regs, .ctxs, .ovw, .tim, .fab] s (State.flushBands s c cp a3) := by
  induction a3 generalizing s c cp
  · unfold State.flushBands
    exact Keeps.refl _ _
  · rename_i y1 y2
    unfold State.flushBands
    extract_lets x3 x4
    refine Keeps.ite ?_ ?_
    · refine Keeps.then (State.setCtx_keeps ..) rfl ?_
      exact Keeps.refl _ _
    · refine Keeps.then (y2 _ _ _) rfl ?_
      refine Keeps.then (State.flushWaiting_keeps ..) rfl ?_
      refine Keeps.then (State.setCtx_keeps ..) rfl ?_
      exact Keeps.refl _ _

theorem State.closeInspect_keeps (s c cp) : Keeps [.freeIdx, .out, .regs, .ctxs, .jobs, .seam, .pen, .jnl, .ovw, .tim, .fab, .axes,
    .evt, .pwr] s (State.closeInspect s c cp) := by
  unfold State.closeInspect
  extract_lets x1
  have k2 : Keeps [.freeIdx, .out, .regs, .ctxs, .jobs, .seam, .pen, .jnl, .ovw, .tim, .fab, .axes, .evt, .pwr] s x1 := by
    unfold x1
    refine Keeps.then (State.flushBands_keeps ..) rfl ?_
    exact Keeps.refl _ _
  clear_value x1
  refine Keeps.then (State.closeCtx_keeps ..) rfl ?_
  refine Keeps.then (State.labelAll_keeps ..) rfl ?_
  exact k2

theorem State.closeLive_keeps (s c cp) : Keeps [.freeIdx, .out, .regs, .ctxs, .jobs, .seam, .pen, .jnl, .ovw, .tim, .fab, .axes, .evt,
    .pwr] s (State.closeLive s c cp) := by
  unfold State.closeLive
  refine Keeps.ite ?_ ?_
  · refine Keeps.then (State.closeInspect_keeps ..) rfl ?_
    exact Keeps.refl _ _
  · exact Keeps.refl _ _

theorem State.setCoder_keeps (s c v) : Keeps [.coders] s (State.setCoder s c v) := by
  unfold State.setCoder
  refine Keeps.set_coders rfl ?_
  exact Keeps.refl _ _

theorem State.rawCheck_keeps (s c g) : Keeps [.regs, .evt] s (State.rawCheck s c g) := by
  unfold State.rawCheck
  extract_lets x1
  refine Keeps.ite ?_ ?_
  · refine Keeps.then (State.cmpFire_keeps ..) rfl ?_
    exact Keeps.refl _ _
  · exact Keeps.refl _ _

theorem State.coderStrip_keeps (s c g strip) : Keeps [.regs, .coders, .evt] s (State.coderStrip s c g strip) := by
  unfold State.coderStrip
  extract_lets x1 x2 x3 x4 x5
  have k6 : Keeps [.regs, .coders, .evt] s x1 := by
    unfold x1
    refine Keeps.then (State.rawCheck_keeps ..) rfl ?_
    exact Keeps.refl _ _
  clear_value x1
  split
  · rename_i y7 y8
    refine Keeps.then (State.setCoder_keeps ..) rfl ?_
    exact k6
  · rename_i y9 y10 y11 y12
    extract_lets x13 x14
    have k15 : Keeps [.regs, .coders, .evt] s x14 := by
      unfold x14
      refine Keeps.then (State.setCoder_keeps ..) rfl ?_
      exact k6
    clear_value x14
    refine Keeps.then (State.cmpFire_keeps ..) rfl ?_
    refine Keeps.then (State.setFld_keeps ..) rfl ?_
    exact k15

theorem State.coldColumn_keeps (s) : Keeps [.regs] s (State.coldColumn s) := by
  unfold State.coldColumn
  extract_lets x1
  refine Keeps.foldl ?_ ?_
  · exact Keeps.refl _ _
  · intro u2 e3 k4
    refine Keeps.ite ?_ ?_
    · exact k4
    · refine Keeps.then (State.setReg_keeps ..) rfl ?_
      exact k4

theorem State.rankReturn_keeps (s) : Keeps [.out, .regs, .sess, .evt] s (State.rankReturn s) := by
  unfold State.rankReturn
  refine Keeps.ite ?_ ?_
  · refine Keeps.then (State.enterMode_keeps ..) rfl ?_
    exact Keeps.refl _ _
  · exact Keeps.refl _ _

theorem State.storeRecipe_keeps (s p) : Keeps [.regs, .pwr] s (State.storeRecipe s p) := by
  unfold State.storeRecipe
  extract_lets x1 x2
  refine Keeps.ite ?_ ?_
  · refine Keeps.then (State.setFld_keeps ..) rfl ?_
    refine Keeps.set_pwr rfl ?_
    exact Keeps.refl _ _
  · exact Keeps.refl _ _

theorem State.ovwStart_keeps (s) : Keeps [.regs, .ovw, .evt] s (State.ovwStart s) := by
  unfold State.ovwStart
  split
  · rename_i y1 y2
    exact Keeps.refl _ _
  · rename_i y3 y4 y5
    extract_lets x6
    refine Keeps.ite ?_ ?_
    · exact Keeps.refl _ _
    · refine Keeps.then (State.fire_keeps ..) rfl ?_
      refine Keeps.then (State.setFld_keeps ..) rfl ?_
      refine Keeps.set_ovw rfl ?_
      exact Keeps.refl _ _

theorem State.ovwStop_keeps (s) : Keeps [.regs, .evt] s (State.ovwStop s) := by
  unfold State.ovwStop
  refine Keeps.ite ?_ ?_
  · refine Keeps.then (State.fire_keeps ..) rfl ?_
    refine Keeps.then (State.setFld_keeps ..) rfl ?_
    exact Keeps.refl _ _
  · exact Keeps.refl _ _

theorem State.ovwPlan_keeps (s) : Keeps [.regs, .ovw, .evt] s (State.ovwPlan s) := by
  unfold State.ovwPlan
  extract_lets x1
  refine Keeps.then (State.fire_keeps ..) rfl ?_
  refine Keeps.set_ovw rfl ?_
  exact Keeps.refl _ _

theorem State.fallbackDone_keeps (s n p) : Keeps [.out, .regs, .pln, .sess, .evt] s (State.fallbackDone s n p) := by
  unfold State.fallbackDone
  extract_lets x1 x2 x3
  have k4 : Keeps [.out, .regs, .pln, .sess, .evt] s x2 := by
    unfold x2
    refine Keeps.set_pln rfl ?_
    exact Keeps.refl _ _
  clear_value x2
  have k5 : Keeps [.out, .regs, .pln, .sess, .evt] s x3 := by
    unfold x3
    refine Keeps.then (State.setFld_keeps ..) rfl ?_
    exact k4
  clear_value x3
  refine Keeps.ite ?_ ?_
  · refine Keeps.then (State.noticeAll_keeps ..) rfl ?_
    refine Keeps.then (State.setFld_keeps ..) rfl ?_
    exact k5
  · exact k5

theorem State.planNumber_keeps (s p) : Keeps [.out, .regs, .pln, .sess, .evt] s (State.planNumber s p) := by
  unfold State.planNumber
  extract_lets x1 x2 x3
  have k4 : Keeps [.out, .regs, .pln, .sess, .evt] s x1 := by
    unfold x1
    refine Keeps.then (State.setFlds_keeps ..) rfl ?_
    refine Keeps.then (State.setFld_keeps ..) rfl ?_
    exact Keeps.refl _ _
  clear_value x1
  have k5 : Keeps [.out, .regs, .pln, .sess, .evt] s x3 := by
    unfold x3
    refine Keeps.set_pln rfl ?_
    exact k4
  clear_value x3
  refine Keeps.foldl ?_ ?_
  · exact k5
  · intro u6 e7 k8
    refine Keeps.then (State.fallbackDone_keeps ..) rfl ?_
    exact k8

theorem State.resetDark_keeps (s c) : Keeps [.regs, .ctxs] s (State.resetDark s c) := by
  unfold State.resetDark
  extract_lets x1 x2 x3 x4
  have k5 : Keeps [.regs, .ctxs] s x4 := by
    unfold x4
    refine Keeps.then (State.setCtx_keeps ..) rfl ?_
    exact Keeps.refl _ _
  clear_value x4
  refine Keeps.foldl ?_ ?_
  · exact k5
  · intro u6 e7 k8
    refine Keeps.then (State.setFldInt_keeps ..) rfl ?_
    exact k8

theorem State.restartModel_keeps (s c) : Keeps [.regs, .ctxs] s (State.restartModel s c) := by
  unfold State.restartModel
  extract_lets x1 x2
  have k3 : Keeps [.regs, .ctxs] s x2 := by
    unfold x2
    refine Keeps.then (State.setCtx_keeps ..) rfl ?_
    exact Keeps.refl _ _
  clear_value x2
  refine Keeps.then (State.setFlag_keeps ..) rfl ?_
  exact k3

theorem State.ctxLive_keeps (s old p c) : Keeps [.regs, .ctxs, .evt] s (State.ctxLive s old p c) := by
  unfold State.ctxLive
  extract_lets x1 x2 x3 x4
  have k5 : Keeps [.regs, .ctxs, .evt] s x3 := by
    unfold x3
    refine Keeps.then (State.restartModel_keeps ..) rfl ?_
    refine Keeps.then (State.bankLive_keeps ..) rfl ?_
    refine Keeps.then (State.rebase_keeps ..) rfl ?_
    exact Keeps.refl _ _
  clear_value x3
  have k6 : Keeps [.regs, .ctxs, .evt] s x4 := by
    unfold x4
    refine Keeps.ite ?_ ?_
    · refine Keeps.then (State.resetDark_keeps ..) rfl ?_
      exact k5
    · exact k5
  clear_value x4
  refine Keeps.ite ?_ ?_
  · refine Keeps.then (State.setFld_keeps ..) rfl ?_
    exact k6
  · exact k6

theorem State.dropLines_keeps (s c) : Keeps [.regs, .ctxs, .evt] s (State.dropLines s c) := by
  unfold State.dropLines
  extract_lets x1
  refine Keeps.then (State.fifoDrain_keeps ..) rfl ?_
  refine Keeps.then (State.setCtx_keeps ..) rfl ?_
  exact Keeps.refl _ _

theorem State.ctxsLive_keeps (s old p) : Keeps [.regs, .ctxs, .evt] s (State.ctxsLive s old p) := by
  unfold State.ctxsLive
  extract_lets x1
  have k2 : Keeps [.regs, .ctxs, .evt] s x1 := by
    unfold x1
    split
    · rename_i y3
      exact Keeps.refl _ _
    · rename_i y4 y5
      refine Keeps.foldl ?_ ?_
      · exact Keeps.refl _ _
      · intro u6 e7 k8
        refine Keeps.ite ?_ ?_
        · exact k8
        · refine Keeps.then (State.dropLines_keeps ..) rfl ?_
          exact k8
  clear_value x1
  refine Keeps.foldl ?_ ?_
  · exact k2
  · intro u9 e10 k11
    refine Keeps.then (State.ctxLive_keeps ..) rfl ?_
    exact k11

theorem State.planClaim_keeps (s kind idx) : Keeps [.regs, .evt] s (State.planClaim s kind idx) := by
  unfold State.planClaim
  split
  · rename_i y1 y2 y3
    refine Keeps.ite ?_ ?_
    · exact Keeps.refl _ _
    · refine Keeps.then (State.setClaim_keeps ..) rfl ?_
      refine Keeps.then (State.conflict_keeps ..) rfl ?_
      exact Keeps.refl _ _
  · rename_i y4 y5
    refine Keeps.then (State.setClaim_keeps ..) rfl ?_
    exact Keeps.refl _ _

theorem State.planEvents_keeps (s p) : Keeps [.regs, .evt] s (State.planEvents s p) := by
  unfold State.planEvents
  extract_lets x1
  have k2 : Keeps [.regs, .evt] s x1 := by
    unfold x1
    refine Keeps.foldl ?_ ?_
    · exact Keeps.refl _ _
    · intro u3 e4 k5
      refine Keeps.then (State.setReg_keeps ..) rfl ?_
      exact k5
  clear_value x1
  refine Keeps.foldl ?_ ?_
  · exact k2
  · intro u6 e7 k8
    split
    · rename_i y9 y10 y11
      refine Keeps.then (State.planClaim_keeps ..) rfl ?_
      refine Keeps.then (State.cellLoad_keeps ..) rfl ?_
      exact k8
    · rename_i y12 y13
      refine Keeps.ite ?_ ?_
      · exact k8
      · refine Keeps.then (State.cellLoad_keeps ..) rfl ?_
        exact k8

theorem State.planFabric_keeps (s p) : Keeps [.regs, .fab] s (State.planFabric s p) := by
  unfold State.planFabric
  extract_lets x1 x2
  split
  · rename_i y3 y4
    refine Keeps.then (State.setDomain_keeps ..) rfl ?_
    refine Keeps.then (State.setFlds_keeps ..) rfl ?_
    exact Keeps.refl _ _
  · rename_i y5 y6 y7
    extract_lets x8 x9 x10
    have k11 : Keeps [.regs, .fab] s x8 := by
      unfold x8
      refine Keeps.then (State.setFlds_keeps ..) rfl ?_
      exact Keeps.refl _ _
    clear_value x8
    have k12 : Keeps [.regs, .fab] s x10 := by
      unfold x10
      refine Keeps.ite ?_ ?_
      · exact k11
      · refine Keeps.then (State.setFld_keeps ..) rfl ?_
        refine Keeps.set_fab rfl ?_
        exact k11
    clear_value x10
    refine Keeps.then (State.setDomain_keeps ..) rfl ?_
    exact k12

theorem State.planRing_keeps (s r addr entries unit) : Keeps [.sess] s (State.planRing s r addr entries unit) := by
  unfold State.planRing
  extract_lets x1 x2
  refine Keeps.ite ?_ ?_
  · exact Keeps.refl _ _
  · refine Keeps.then (State.setHring_keeps ..) rfl ?_
    exact Keeps.refl _ _

theorem State.planRings_keeps (s p) : Keeps [.sess] s (State.planRings s p) := by
  unfold State.planRings
  extract_lets x1
  have k2 : Keeps [.sess] s x1 := by
    unfold x1
    refine Keeps.foldl ?_ ?_
    · exact Keeps.refl _ _
    · intro u3 e4 k5
      refine Keeps.ite ?_ ?_
      · exact k5
      · refine Keeps.then (State.planRing_keeps ..) rfl ?_
        exact k5
  clear_value x1
  refine Keeps.foldl ?_ ?_
  · exact k2
  · intro u6 e7 k8
    refine Keeps.then (State.planRing_keeps ..) rfl ?_
    exact k8

theorem State.planAxis_keeps (s p x) : Keeps [.out, .regs, .jnl, .sess, .axes, .evt] s (State.planAxis s p x) := by
  unfold State.planAxis
  split
  · rename_i y1 y2 y3
    extract_lets x4 x5
    have k6 : Keeps [.out, .regs, .jnl, .sess, .axes, .evt] s x4 := by
      unfold x4
      refine Keeps.then (State.setFlds_keeps ..) rfl ?_
      exact Keeps.refl _ _
    clear_value x4
    have k7 : Keeps [.out, .regs, .jnl, .sess, .axes, .evt] s x5 := by
      unfold x5
      refine Keeps.foldl ?_ ?_
      · exact k6
      · intro u8 e9 k10
        refine Keeps.then (State.planClaim_keeps ..) rfl ?_
        exact k10
    clear_value x5
    refine Keeps.ite ?_ ?_
    · refine Keeps.then (State.setFld_keeps ..) rfl ?_
      exact k7
    · exact k7
  · rename_i y11 y12
    extract_lets x13 x14 x15
    have k16 : Keeps [.out, .regs, .jnl, .sess, .axes, .evt] s x13 := by
      unfold x13
      refine Keeps.ite ?_ ?_
      · refine Keeps.then (State.hardStop_keeps ..) rfl ?_
        exact Keeps.refl _ _
      · refine Keeps.then (State.skipMarks_keeps ..) rfl ?_
        exact Keeps.refl _ _
    clear_value x13
    have k17 : Keeps [.out, .regs, .jnl, .sess, .axes, .evt] s x14 := by
      unfold x14
      refine Keeps.foldl ?_ ?_
      · exact k16
      · intro u18 e19 k20
        refine Keeps.then (State.missCompare_keeps ..) rfl ?_
        exact k20
    clear_value x14
    have k21 : Keeps [.out, .regs, .jnl, .sess, .axes, .evt] s x15 := by
      unfold x15
      refine Keeps.then (State.setFlds_keeps ..) rfl ?_
      exact k17
    clear_value x15
    refine Keeps.then (State.axRegs_keeps ..) rfl ?_
    refine Keeps.then (State.setFld_keeps ..) rfl ?_
    exact k21

theorem State.toutActive_keeps (s t) : Keeps [.regs] s (State.toutActive s t) := by
  unfold State.toutActive
  extract_lets x1 x2
  refine Keeps.then (State.setFlag_keeps ..) rfl ?_
  exact Keeps.refl _ _

theorem State.planTout_keeps (s p t) : Keeps [.regs, .tim, .evt] s (State.planTout s p t) := by
  unfold State.planTout
  extract_lets x1 x2 x3 x4 x5 x6
  have k7 : Keeps [.regs, .tim, .evt] s x6 := by
    unfold x6
    refine Keeps.ite ?_ ?_
    · refine Keeps.then (State.planClaim_keeps ..) rfl ?_
      refine Keeps.then (State.setTout_keeps ..) rfl ?_
      exact Keeps.refl _ _
    · refine Keeps.then (State.setTout_keeps ..) rfl ?_
      exact Keeps.refl _ _
  clear_value x6
  refine Keeps.then (State.toutActive_keeps ..) rfl ?_
  exact k7

theorem State.planUnclaim_keeps (s) : Keeps [.evt] s (State.planUnclaim s) := by
  unfold State.planUnclaim
  extract_lets x1
  refine Keeps.set_evt rfl ?_
  exact Keeps.refl _ _

theorem State.planEncRegs_keeps (s p k) : Keeps [.regs] s (State.planEncRegs s p k) := by
  unfold State.planEncRegs
  split
  · rename_i y1 y2 y3
    refine Keeps.then (State.setFlds_keeps ..) rfl ?_
    exact Keeps.refl _ _
  · rename_i y4 y5
    refine Keeps.then (State.setFlds_keeps ..) rfl ?_
    exact Keeps.refl _ _

theorem State.planEnc_keeps (s p k) : Keeps [.regs, .encs] s (State.planEnc s p k) := by
  unfold State.planEnc
  extract_lets x1 x2 x3
  have k4 : Keeps [.regs, .encs] s x2 := by
    unfold x2
    refine Keeps.then (State.planEncRegs_keeps ..) rfl ?_
    exact Keeps.refl _ _
  clear_value x2
  refine Keeps.ite ?_ ?_
  · exact k4
  · refine Keeps.then (State.setEnc_keeps ..) rfl ?_
    refine Keeps.then (State.setFld_keeps ..) rfl ?_
    exact k4

theorem State.ringRegs_keeps (s) : Keeps [.regs] s (State.ringRegs s) := by
  unfold State.ringRegs
  refine Keeps.then (State.setFld_keeps ..) rfl ?_
  refine Keeps.then (State.setFlag_keeps ..) rfl ?_
  exact Keeps.refl _ _

theorem State.keepTables_keeps (s c) : Keeps [.coders] s (State.keepTables s c) := by
  unfold State.keepTables
  extract_lets x1 x2 x3
  refine Keeps.then (State.setCoder_keeps ..) rfl ?_
  exact Keeps.refl _ _

theorem State.planTable_keeps (s e) : Keeps [.regs, .coders] s (State.planTable s e) := by
  unfold State.planTable
  extract_lets x1 x2 x3
  refine Keeps.ite ?_ ?_
  · refine Keeps.then (State.setCoder_keeps ..) rfl ?_
    exact Keeps.refl _ _
  · refine Keeps.then (State.setFld_keeps ..) rfl ?_
    refine Keeps.then (State.keepTables_keeps ..) rfl ?_
    refine Keeps.then (State.setCoder_keeps ..) rfl ?_
    exact Keeps.refl _ _

theorem State.setDigest_keeps (s f h) : Keeps [.regs] s (State.setDigest s f h) := by
  unfold State.setDigest
  refine Keeps.foldl ?_ ?_
  · exact Keeps.refl _ _
  · intro u1 e2 k3
    refine Keeps.then (State.setFld_keeps ..) rfl ?_
    exact k3

theorem State.planSpare_keeps (s p m) : Keeps [.regs] s (State.planSpare s p m) := by
  unfold State.planSpare
  extract_lets x1 x2 x3 x4
  have k5 : Keeps [.regs] s x4 := by
    unfold x4
    refine Keeps.foldl ?_ ?_
    · exact Keeps.refl _ _
    · intro u6 e7 k8
      refine Keeps.ite ?_ ?_
      · exact k8
      · refine Keeps.then (State.setFld_keeps ..) rfl ?_
        exact k8
  clear_value x4
  refine Keeps.ite ?_ ?_
  · exact Keeps.refl _ _
  · refine Keeps.then (State.setFlag_keeps ..) rfl ?_
    refine Keeps.ite ?_ ?_
    · refine Keeps.then (State.setFld_keeps ..) rfl ?_
      exact k5
    · exact k5

theorem State.discover_keeps (s p) : Keeps [.out, .regs, .ports, .jnl, .sess, .evt, .cal] s (State.discover s p) := by
  unfold State.discover
  extract_lets x1 x2
  have k3 : Keeps [.out, .regs, .ports, .jnl, .sess, .evt, .cal] s x1 := by
    unfold x1
    refine Keeps.then (State.calCutOn_keeps ..) rfl ?_
    exact Keeps.refl _ _
  clear_value x1
  have k4 : Keeps [.out, .regs, .ports, .jnl, .sess, .evt, .cal] s x2 := by
    unfold x2
    refine Keeps.then (State.setFld_keeps ..) rfl ?_
    refine Keeps.then (State.setFld_keeps ..) rfl ?_
    refine Keeps.then (State.setFld_keeps ..) rfl ?_
    exact k3
  clear_value x2
  refine Keeps.then (State.modPort_keeps ..) rfl ?_
  exact k4

theorem State.linkLost_keeps (s p) : Keeps [.out, .regs, .ports, .jnl, .pln, .sess, .evt, .cal] s (State.linkLost s p) := by
  unfold State.linkLost
  extract_lets x1
  have k2 : Keeps [.out, .regs, .ports, .jnl, .pln, .sess, .evt, .cal] s x1 := by
    unfold x1
    refine Keeps.then (State.modPort_keeps ..) rfl ?_
    refine Keeps.then (State.catalogue_keeps ..) rfl ?_
    refine Keeps.then (State.fire_keeps ..) rfl ?_
    exact Keeps.refl _ _
  clear_value x1
  refine Keeps.then (State.discover_keeps ..) rfl ?_
  exact k2

theorem State.rediscover_keeps (s p) : Keeps [.out, .regs, .ports, .jnl, .pln, .sess, .evt, .cal] s (State.rediscover s p) := by
  unfold State.rediscover
  refine Keeps.ite ?_ ?_
  · exact Keeps.refl _ _
  · refine Keeps.ite ?_ ?_
    · refine Keeps.then (State.linkLost_keeps ..) rfl ?_
      exact Keeps.refl _ _
    · refine Keeps.then (State.discover_keeps ..) rfl ?_
      exact Keeps.refl _ _

theorem State.planPort_keeps (s was bond c) : Keeps [.out, .regs, .ports, .jnl, .pln, .sess, .evt,
    .cal] s (State.planPort s was bond c) := by
  unfold State.planPort
  extract_lets x1 x2
  have k3 : Keeps [.out, .regs, .ports, .jnl, .pln, .sess, .evt, .cal] s x2 := by
    unfold x2
    refine Keeps.then (State.setFld_keeps ..) rfl ?_
    refine Keeps.then (State.setDomain_keeps ..) rfl ?_
    refine Keeps.then (State.emit_keeps ..) rfl ?_
    exact Keeps.refl _ _
  clear_value x2
  refine Keeps.ite ?_ ?_
  · refine Keeps.ite ?_ ?_
    · refine Keeps.then (State.rediscover_keeps ..) rfl ?_
      exact Keeps.refl _ _
    · exact Keeps.refl _ _
  · refine Keeps.ite ?_ ?_
    · refine Keeps.then (State.setDomain_keeps ..) rfl ?_
      refine Keeps.then (State.emit_keeps ..) rfl ?_
      exact Keeps.refl _ _
    · refine Keeps.then (State.modPort_keeps ..) rfl ?_
      exact k3

theorem State.planCtx_keeps (s p c) : Keeps [.regs] s (State.planCtx s p c) := by
  unfold State.planCtx
  extract_lets x1 x2 x3
  split
  · rename_i y4 y5
    refine Keeps.then (State.setFlds_keeps ..) rfl ?_
    exact Keeps.refl _ _
  · rename_i y6 y7 y8
    extract_lets x9
    have k10 : Keeps [.regs] s x9 := by
      unfold x9
      refine Keeps.then (State.setFlds_keeps ..) rfl ?_
      exact Keeps.refl _ _
    clear_value x9
    refine Keeps.then (State.bankStatus_keeps ..) rfl ?_
    exact k10

theorem State.planRegs_keeps (s p) : Keeps [.out, .regs, .ports, .coders, .jnl, .pln, .sess, .tim, .fab, .encs, .dividers, .axes, .evt,
    .cal] s (State.planRegs s p) := by
  unfold State.planRegs
  extract_lets x1 x2 x3 x4 x5 x6 x7 x8 x9 x10 x11 x12 x13 x14 x15
  have k16 : Keeps [.out, .regs, .ports, .coders, .jnl, .pln, .sess, .tim, .fab, .encs, .dividers, .axes, .evt, .cal] s x4 := by
    unfold x4
    refine Keeps.foldl ?_ ?_
    · exact Keeps.refl _ _
    · intro u17 e18 k19
      refine Keeps.then (State.planCtx_keeps ..) rfl ?_
      exact k19
  clear_value x4
  have k20 : Keeps [.out, .regs, .ports, .coders, .jnl, .pln, .sess, .tim, .fab, .encs, .dividers, .axes, .evt, .cal] s x5 := by
    unfold x5
    refine Keeps.foldl ?_ ?_
    · exact k16
    · intro u21 e22 k23
      refine Keeps.then (State.planPort_keeps ..) rfl ?_
      exact k23
  clear_value x5
  have k24 : Keeps [.out, .regs, .ports, .coders, .jnl, .pln, .sess, .tim, .fab, .encs, .dividers, .axes, .evt, .cal] s x6 := by
    unfold x6
    refine Keeps.then (State.setFlds_keeps ..) rfl ?_
    exact k20
  clear_value x6
  have k25 : Keeps [.out, .regs, .ports, .coders, .jnl, .pln, .sess, .tim, .fab, .encs, .dividers, .axes, .evt, .cal] s x7 := by
    unfold x7
    refine Keeps.foldl ?_ ?_
    · exact k24
    · intro u26 e27 k28
      refine Keeps.then (State.setFld_keeps ..) rfl ?_
      exact k28
  clear_value x7
  have k29 : Keeps [.out, .regs, .ports, .coders, .jnl, .pln, .sess, .tim, .fab, .encs, .dividers, .axes, .evt, .cal] s x8 := by
    unfold x8
    refine Keeps.foldl ?_ ?_
    · exact k25
    · intro u30 e31 k32
      refine Keeps.then (State.planSpare_keeps ..) rfl ?_
      exact k32
  clear_value x8
  have k33 : Keeps [.out, .regs, .ports, .coders, .jnl, .pln, .sess, .tim, .fab, .encs, .dividers, .axes, .evt, .cal] s x9 := by
    unfold x9
    refine Keeps.then (State.setDigest_keeps ..) rfl ?_
    refine Keeps.then (State.setDigest_keeps ..) rfl ?_
    refine Keeps.then (State.setInt64_keeps ..) rfl ?_
    exact k29
  clear_value x9
  have k34 : Keeps [.out, .regs, .ports, .coders, .jnl, .pln, .sess, .tim, .fab, .encs, .dividers, .axes, .evt, .cal] s x10 := by
    unfold x10
    refine Keeps.foldl ?_ ?_
    · refine Keeps.then (State.ringRegs_keeps ..) rfl ?_
      exact k33
    · intro u35 e36 k37
      refine Keeps.then (State.planTable_keeps ..) rfl ?_
      exact k37
  clear_value x10
  have k38 : Keeps [.out, .regs, .ports, .coders, .jnl, .pln, .sess, .tim, .fab, .encs, .dividers, .axes, .evt, .cal] s x11 := by
    unfold x11
    refine Keeps.foldl ?_ ?_
    · exact k34
    · intro u39 e40 k41
      refine Keeps.then (State.planEnc_keeps ..) rfl ?_
      exact k41
  clear_value x11
  have k42 : Keeps [.out, .regs, .ports, .coders, .jnl, .pln, .sess, .tim, .fab, .encs, .dividers, .axes, .evt, .cal] s x12 := by
    unfold x12
    refine Keeps.then (State.planUnclaim_keeps ..) rfl ?_
    exact k38
  clear_value x12
  have k43 : Keeps [.out, .regs, .ports, .coders, .jnl, .pln, .sess, .tim, .fab, .encs, .dividers, .axes, .evt, .cal] s x13 := by
    unfold x13
    refine Keeps.foldl ?_ ?_
    · exact k42
    · intro u44 e45 k46
      refine Keeps.then (State.planTout_keeps ..) rfl ?_
      exact k46
  clear_value x13
  have k47 : Keeps [.out, .regs, .ports, .coders, .jnl, .pln, .sess, .tim, .fab, .encs, .dividers, .axes, .evt, .cal] s x14 := by
    unfold x14
    refine Keeps.foldl ?_ ?_
    · exact k43
    · intro u48 e49 k50
      refine Keeps.then (State.planAxis_keeps ..) rfl ?_
      exact k50
  clear_value x14
  refine Keeps.then (State.alignDividers_keeps ..) rfl ?_
  refine Keeps.then (State.setDomain_keeps ..) rfl ?_
  refine Keeps.then (State.setDomain_keeps ..) rfl ?_
  refine Keeps.then (State.planRings_keeps ..) rfl ?_
  refine Keeps.then (State.planFabric_keeps ..) rfl ?_
  refine Keeps.then (State.planEvents_keeps ..) rfl ?_
  exact k47

end Sys2Proof.Machine
end

