-- ==== Sys2Proof/Laws/KeepsOps2.lean ====
section
/-! SUPPORT. What each operation and each command's meaning may change, one lemma each, part 2 of 4: an operation
stands after the operations it uses. -/

namespace Sys2Proof.Machine

open Sys2Proof.Safety

set_option maxRecDepth 10000

theorem State.splitLost_keeps (s new) : Keeps [.out, .regs, .jobs, .seam, .pen, .jnl, .tim, .fab, .axes, .evt,
    .pwr] s (State.splitLost s new) := by
  unfold State.splitLost
  refine Keeps.then (State.seamApply_keeps ..) rfl ?_
  exact Keeps.refl _ _

theorem State.goLive_keeps (s p) : Keeps [.freeIdx, .out, .regs, .ports, .ctxs, .coders, .jobs, .seam, .pen, .jnl, .ovw, .pln, .sess,
    .tim, .fab, .encs, .dividers, .axes, .evt, .cal, .pwr] s (State.goLive s p) := by
  unfold State.goLive
  extract_lets x1 x2 x3 x4 x5 x6 x7 x8 x9 x10 x11 x12 x13 x14 x15
  have k16 : Keeps [.freeIdx, .out, .regs, .ports, .ctxs, .coders, .jobs, .seam, .pen, .jnl, .ovw, .pln, .sess, .tim, .fab, .encs,
      .dividers, .axes, .evt, .cal, .pwr] s x2 := by
    unfold x2
    refine Keeps.then (State.calCutAll_keeps ..) rfl ?_
    exact Keeps.refl _ _
  clear_value x2
  have k17 : Keeps [.freeIdx, .out, .regs, .ports, .ctxs, .coders, .jobs, .seam, .pen, .jnl, .ovw, .pln, .sess, .tim, .fab, .encs,
      .dividers, .axes, .evt, .cal, .pwr] s x4 := by
    unfold x4
    refine Keeps.set_cal rfl ?_
    exact k16
  clear_value x4
  have k18 : Keeps [.freeIdx, .out, .regs, .ports, .ctxs, .coders, .jobs, .seam, .pen, .jnl, .ovw, .pln, .sess, .tim, .fab, .encs,
      .dividers, .axes, .evt, .cal, .pwr] s x5 := by
    unfold x5
    clear_value x1
    split
    · rename_i y19 y20
      refine Keeps.foldl ?_ ?_
      · exact k17
      · intro u21 e22 k23
        refine Keeps.then (State.closeLive_keeps ..) rfl ?_
        exact k23
    · rename_i y24
      exact k17
  clear_value x5
  have k25 : Keeps [.freeIdx, .out, .regs, .ports, .ctxs, .coders, .jobs, .seam, .pen, .jnl, .ovw, .pln, .sess, .tim, .fab, .encs,
      .dividers, .axes, .evt, .cal, .pwr] s x6 := by
    unfold x6
    refine Keeps.then (State.splitLost_keeps ..) rfl ?_
    exact k18
  clear_value x6
  have k26 : Keeps [.freeIdx, .out, .regs, .ports, .ctxs, .coders, .jobs, .seam, .pen, .jnl, .ovw, .pln, .sess, .tim, .fab, .encs,
      .dividers, .axes, .evt, .cal, .pwr] s x9 := by
    unfold x9
    refine Keeps.set_pln_fab rfl ?_
    exact k25
  clear_value x9
  have k27 : Keeps [.freeIdx, .out, .regs, .ports, .ctxs, .coders, .jobs, .seam, .pen, .jnl, .ovw, .pln, .sess, .tim, .fab, .encs,
      .dividers, .axes, .evt, .cal, .pwr] s x10 := by
    unfold x10
    refine Keeps.then (State.planRegs_keeps ..) rfl ?_
    refine Keeps.then (State.ctxsLive_keeps ..) rfl ?_
    exact k26
  clear_value x10
  have k28 : Keeps [.freeIdx, .out, .regs, .ports, .ctxs, .coders, .jobs, .seam, .pen, .jnl, .ovw, .pln, .sess, .tim, .fab, .encs,
      .dividers, .axes, .evt, .cal, .pwr] s x11 := by
    unfold x11
    refine Keeps.then (State.planNumber_keeps ..) rfl ?_
    refine Keeps.then (State.setFld_keeps ..) rfl ?_
    refine Keeps.then (State.setFld_keeps ..) rfl ?_
    exact k27
  clear_value x11
  have k29 : Keeps [.freeIdx, .out, .regs, .ports, .ctxs, .coders, .jobs, .seam, .pen, .jnl, .ovw, .pln, .sess, .tim, .fab, .encs,
      .dividers, .axes, .evt, .cal, .pwr] s x12 := by
    unfold x12
    refine Keeps.ite ?_ ?_
    · exact k28
    · refine Keeps.then (State.ovwPlan_keeps ..) rfl ?_
      exact k28
  clear_value x12
  have k30 : Keeps [.freeIdx, .out, .regs, .ports, .ctxs, .coders, .jobs, .seam, .pen, .jnl, .ovw, .pln, .sess, .tim, .fab, .encs,
      .dividers, .axes, .evt, .cal, .pwr] s x13 := by
    unfold x13
    refine Keeps.ite ?_ ?_
    · refine Keeps.then (State.ovwStop_keeps ..) rfl ?_
      exact k29
    · refine Keeps.ite ?_ ?_
      · refine Keeps.then (State.ovwStart_keeps ..) rfl ?_
        exact k29
      · exact k29
  clear_value x13
  have k31 : Keeps [.freeIdx, .out, .regs, .ports, .ctxs, .coders, .jobs, .seam, .pen, .jnl, .ovw, .pln, .sess, .tim, .fab, .encs,
      .dividers, .axes, .evt, .cal, .pwr] s x15 := by
    unfold x15
    refine Keeps.then (State.storeRecipe_keeps ..) rfl ?_
    refine Keeps.then (State.noticeAll_keeps ..) rfl ?_
    refine Keeps.then (State.journal_keeps ..) rfl ?_
    exact k30
  clear_value x15
  refine Keeps.then (State.rankReturn_keeps ..) rfl ?_
  exact k31

theorem State.commitLive_keeps (s) : Keeps [.freeIdx, .out, .regs, .ports, .ctxs, .coders, .jobs, .seam, .pen, .jnl, .ovw, .pln, .sess,
    .tim, .fab, .encs, .dividers, .axes, .evt, .cal, .pwr] s (State.commitLive s) := by
  unfold State.commitLive
  split
  · rename_i y1 y2 y3 y4 y5 y6
    extract_lets x7 x8 x9
    have k10 : Keeps [.freeIdx, .out, .regs, .ports, .ctxs, .coders, .jobs, .seam, .pen, .jnl, .ovw, .pln, .sess, .tim, .fab, .encs,
        .dividers, .axes, .evt, .cal, .pwr] s x8 := by
      unfold x8
      refine Keeps.set_pln rfl ?_
      exact Keeps.refl _ _
    clear_value x8
    have k11 : Keeps [.freeIdx, .out, .regs, .ports, .ctxs, .coders, .jobs, .seam, .pen, .jnl, .ovw, .pln, .sess, .tim, .fab, .encs,
        .dividers, .axes, .evt, .cal, .pwr] s x9 := by
      unfold x9
      refine Keeps.then (State.planStatus_keeps ..) rfl ?_
      refine Keeps.then (State.goLive_keeps ..) rfl ?_
      exact k10
    clear_value x9
    refine Keeps.ite ?_ ?_
    · refine Keeps.then (State.dropCommit_keeps ..) rfl ?_
      exact Keeps.refl _ _
    · refine Keeps.ite ?_ ?_
      · refine Keeps.then (State.finishDesc_keeps ..) rfl ?_
        exact k11
      · exact k11
  · rename_i y12 y13 y14
    exact Keeps.refl _ _

theorem State.sendReport_keeps (s d report) : Keeps [.out, .regs, .sess, .evt] s (State.sendReport s d report).1 := by
  unfold State.sendReport
  extract_lets x1 x2
  have k3 : Keeps [.out, .regs, .sess, .evt] s x2.1 := by
    unfold x2
    refine Keeps.then (State.hostWrite_keeps ..) rfl ?_
    exact Keeps.refl _ _
  clear_value x2
  refine Keeps.ite_map Prod.fst ?_ ?_
  · dsimp -zeta only
    exact Keeps.refl _ _
  · dsimp -zeta only
    exact k3

theorem State.planState_keeps (s refused) : Keeps [.regs] s (State.planState s refused) := by
  unfold State.planState
  refine Keeps.then (State.setFld_keeps ..) rfl ?_
  exact Keeps.refl _ _

theorem State.compileOk_keeps (s j b res p) : Keeps [.out, .regs, .jnl, .pln, .sess, .fab, .evt] s (State.compileOk s j b res p) := by
  unfold State.compileOk
  extract_lets x1 x2 x3 x4 x5 x6 x7 x8 x9
  have k10 : Keeps [.out, .regs, .jnl, .pln, .sess, .fab, .evt] s x7 := by
    unfold x7
    refine Keeps.set_pln_fab rfl ?_
    exact Keeps.refl _ _
  clear_value x7
  have k11 : Keeps [.out, .regs, .jnl, .pln, .sess, .fab, .evt] s x8 := by
    unfold x8
    refine Keeps.then (State.planStatus_keeps ..) rfl ?_
    refine Keeps.then (State.setFld_keeps ..) rfl ?_
    refine Keeps.then (State.planState_keeps ..) rfl ?_
    exact k10
  clear_value x8
  refine Keeps.ite ?_ ?_
  · refine Keeps.set_pln rfl ?_
    exact k11
  · split
    · rename_i y12 y13
      exact k11
    · rename_i y14 y15 y16
      extract_lets x17
      have k18 : Keeps [.out, .regs, .jnl, .pln, .sess, .fab, .evt] s x17.1 := by
        unfold x17
        refine Keeps.then (State.sendReport_keeps ..) rfl ?_
        exact k11
      clear_value x17
      refine Keeps.ite ?_ ?_
      · refine Keeps.then (State.finishDesc_keeps ..) rfl ?_
        exact k18
      · refine Keeps.then (State.finishDesc_keeps ..) rfl ?_
        exact k18

theorem State.compileRefused_keeps (s n idx st) : Keeps [.out, .regs, .jnl, .pln, .sess, .evt] s (State.compileRefused s n idx st) := by
  unfold State.compileRefused
  extract_lets x1 x2 x3
  have k4 : Keeps [.out, .regs, .jnl, .pln, .sess, .evt] s x3 := by
    unfold x3
    refine Keeps.then (State.planState_keeps ..) rfl ?_
    refine Keeps.set_pln rfl ?_
    exact Keeps.refl _ _
  clear_value x3
  refine Keeps.ite ?_ ?_
  · refine Keeps.then (State.planRefuse_keeps ..) rfl ?_
    exact k4
  · refine Keeps.then (State.planStatus_keeps ..) rfl ?_
    exact k4

theorem State.confirmAddress_keeps (s p) : Keeps [.regs, .fab] s (State.confirmAddress s p) := by
  unfold State.confirmAddress
  extract_lets x1 x2 x3
  have k4 : Keeps [.regs, .fab] s x3 := by
    unfold x3
    refine Keeps.set_fab rfl ?_
    exact Keeps.refl _ _
  clear_value x3
  refine Keeps.ite ?_ ?_
  · exact Keeps.refl _ _
  · refine Keeps.ite ?_ ?_
    · exact k4
    · refine Keeps.then (State.setFld_keeps ..) rfl ?_
      refine Keeps.then (State.fabDiscover_keeps ..) rfl ?_
      exact k4

theorem State.stopByEvent_keeps (s i e) : Keeps [.out, .regs, .jnl, .sess, .axes, .evt] s (State.stopByEvent s i e) := by
  unfold State.stopByEvent
  refine Keeps.ite ?_ ?_
  · exact Keeps.refl _ _
  · refine Keeps.then (State.axStop_keeps ..) rfl ?_
    exact Keeps.refl _ _

theorem State.toutPlace_keeps (s t time) : Keeps [.out, .regs, .tim, .evt] s (State.toutPlace s t time) := by
  unfold State.toutPlace
  extract_lets x1
  refine Keeps.ite ?_ ?_
  · refine Keeps.then (State.toutRise_keeps ..) rfl ?_
    exact Keeps.refl _ _
  · refine Keeps.then (State.setTout_keeps ..) rfl ?_
    exact Keeps.refl _ _

theorem State.toutEvent_keeps (s t time) : Keeps [.out, .regs, .tim, .evt] s (State.toutEvent s t time) := by
  unfold State.toutEvent
  split
  · rename_i y1 y2 y3
    refine Keeps.ite ?_ ?_
    · exact Keeps.refl _ _
    · refine Keeps.ite ?_ ?_
      · refine Keeps.then (State.setFld_keeps ..) rfl ?_
        exact Keeps.refl _ _
      · refine Keeps.then (State.toutPlace_keeps ..) rfl ?_
        exact Keeps.refl _ _
  · rename_i y4 y5
    exact Keeps.refl _ _

theorem State.ringRecord_keeps (s e) : Keeps [.out, .regs, .sess, .evt] s (State.ringRecord s e) := by
  unfold State.ringRecord
  extract_lets x1 x2 x3
  have k4 : Keeps [.out, .regs, .sess, .evt] s x2 := by
    unfold x2
    refine Keeps.set_evt rfl ?_
    exact Keeps.refl _ _
  clear_value x2
  refine Keeps.ite ?_ ?_
  · exact k4
  · refine Keeps.ite ?_ ?_
    · refine Keeps.then (State.eventTo_keeps ..) rfl ?_
      exact k4
    · refine Keeps.then (State.bump_keeps ..) rfl ?_
      exact k4

theorem State.consume_keeps (s e) : Keeps [.out, .regs, .jnl, .sess, .tim, .axes, .evt] s (State.consume s e) := by
  unfold State.consume
  extract_lets x1
  refine Keeps.ite ?_ ?_
  · refine Keeps.then (State.ringRecord_keeps ..) rfl ?_
    exact Keeps.refl _ _
  · refine Keeps.ite ?_ ?_
    · refine Keeps.then (State.toutEvent_keeps ..) rfl ?_
      refine Keeps.ite ?_ ?_
      · refine Keeps.then (State.setFld_keeps ..) rfl ?_
        exact Keeps.refl _ _
      · exact Keeps.refl _ _
    · refine Keeps.ite ?_ ?_
      · refine Keeps.then (State.cellInput_keeps ..) rfl ?_
        exact Keeps.refl _ _
      · refine Keeps.ite ?_ ?_
        · refine Keeps.then (State.stopByEvent_keeps ..) rfl ?_
          exact Keeps.refl _ _
        · exact Keeps.refl _ _

theorem State.corCount_keeps (s c o) : Keeps [.regs] s (State.corCount s c o) := by
  unfold State.corCount
  extract_lets x1 x2 x3 x4 x5
  have k6 : Keeps [.regs] s x2 := by
    unfold x2
    refine Keeps.then (State.bump_keeps ..) rfl ?_
    exact Keeps.refl _ _
  clear_value x2
  have k7 : Keeps [.regs] s x3 := by
    unfold x3
    refine Keeps.then (State.bump_keeps ..) rfl ?_
    refine Keeps.then (State.bump_keeps ..) rfl ?_
    exact k6
  clear_value x3
  have k8 : Keeps [.regs] s x4 := by
    unfold x4
    refine Keeps.ite ?_ ?_
    · refine Keeps.then (State.setFld_keeps ..) rfl ?_
      exact k7
    · exact k7
  clear_value x4
  have k9 : Keeps [.regs] s x5 := by
    unfold x5
    refine Keeps.ite ?_ ?_
    · refine Keeps.then (State.setFld_keeps ..) rfl ?_
      exact k8
    · exact k8
  clear_value x5
  refine Keeps.foldl ?_ ?_
  · exact k9
  · intro u10 e11 k12
    refine Keeps.then (State.setFldInt_keeps ..) rfl ?_
    exact k12

theorem State.mcAlert_keeps (s m cause) : Keeps [.regs, .evt] s (State.mcAlert s m cause) := by
  unfold State.mcAlert
  refine Keeps.then (State.fire_keeps ..) rfl ?_
  refine Keeps.then (State.setFld_keeps ..) rfl ?_
  exact Keeps.refl _ _

theorem State.journalLost_keeps (s) : Keeps [.out, .regs, .jobs, .pen, .jnl, .sess, .evt, .pwr] s (State.journalLost s) := by
  unfold State.journalLost
  extract_lets x1 x2 x3 x4 x5 x6 x7
  have k8 : Keeps [.out, .regs, .jobs, .pen, .jnl, .sess, .evt, .pwr] s x2 := by
    unfold x2
    refine Keeps.then (State.fire_keeps ..) rfl ?_
    refine Keeps.then (State.setFld_keeps ..) rfl ?_
    refine Keeps.then (State.setFld_keeps ..) rfl ?_
    exact Keeps.refl _ _
  clear_value x2
  have k9 : Keeps [.out, .regs, .jobs, .pen, .jnl, .sess, .evt, .pwr] s x6 := by
    unfold x6
    refine Keeps.then (State.jnlSpace_keeps ..) rfl ?_
    refine Keeps.set_jobs_pen_jnl rfl ?_
    exact k8
  clear_value x6
  have k10 : Keeps [.out, .regs, .jobs, .pen, .jnl, .sess, .evt, .pwr] s x7 := by
    unfold x7
    refine Keeps.foldl ?_ ?_
    · exact k9
    · intro u11 e12 k13
      extract_lets x14 x15 x16 x17 x18
      have k19 : Keeps [.out, .regs, .jobs, .pen, .jnl, .sess, .evt, .pwr] s x15 := by
        unfold x15
        refine Keeps.then (State.setSession_keeps ..) rfl ?_
        exact k13
      clear_value x15
      have k20 : Keeps [.out, .regs, .jobs, .pen, .jnl, .sess, .evt, .pwr] s x16 := by
        unfold x16
        refine Keeps.foldl ?_ ?_
        · exact k19
        · intro u21 e22 k23
          extract_lets x24 x25 x26
          have k27 : Keeps [.out, .regs, .jobs, .pen, .jnl, .sess, .evt, .pwr] s x25 := by
            unfold x25
            refine Keeps.then (State.journal_keeps ..) rfl ?_
            exact k23
          clear_value x25
          refine Keeps.then (State.setSession_keeps ..) rfl ?_
          exact k27
      clear_value x16
      have k28 : Keeps [.out, .regs, .jobs, .pen, .jnl, .sess, .evt, .pwr] s x18 := by
        unfold x18
        refine Keeps.foldl ?_ ?_
        · exact k20
        · intro u29 e30 k31
          refine Keeps.then (State.dropJob_keeps ..) rfl ?_
          exact k31
      clear_value x18
      refine Keeps.foldl ?_ ?_
      · exact k28
      · intro u32 e33 k34
        refine Keeps.then (State.finishDesc_keeps ..) rfl ?_
        exact k34
  clear_value x7
  refine Keeps.foldl ?_ ?_
  · exact k10
  · intro u35 e36 k37
    refine Keeps.then (State.gapRange_keeps ..) rfl ?_
    exact k37

theorem State.journalCopyLost_keeps (s m) : Keeps [.out, .regs, .jobs, .pen, .jnl, .pln, .sess, .evt,
    .pwr] s (State.journalCopyLost s m) := by
  unfold State.journalCopyLost
  refine Keeps.ite ?_ ?_
  · refine Keeps.then (State.journalLost_keeps ..) rfl ?_
    exact Keeps.refl _ _
  · refine Keeps.then (State.catalogue_keeps ..) rfl ?_
    refine Keeps.then (State.fire_keeps ..) rfl ?_
    refine Keeps.then (State.setFld_keeps ..) rfl ?_
    exact Keeps.refl _ _

theorem State.setMc_keeps (s m v) : Keeps [.mem] s (State.setMc s m v) := by
  unfold State.setMc
  extract_lets x1
  refine Keeps.set_mem rfl ?_
  exact Keeps.refl _ _

theorem State.modMc_keeps (s m f) : Keeps [.mem] s (State.modMc s m f) := by
  unfold State.modMc
  refine Keeps.then (State.setMc_keeps ..) rfl ?_
  exact Keeps.refl _ _

theorem State.rankOut_keeps (s m k) : Keeps [.out, .regs, .jobs, .pen, .jnl, .mem, .pln, .sess, .evt, .pwr] s (State.rankOut s m k) := by
  unfold State.rankOut
  extract_lets x1 x2 x3 x4 x5 x6
  have k7 : Keeps [.out, .regs, .jobs, .pen, .jnl, .mem, .pln, .sess, .evt, .pwr] s x3 := by
    unfold x3
    refine Keeps.then (State.fire_keeps ..) rfl ?_
    refine Keeps.then (State.mcAlert_keeps ..) rfl ?_
    refine Keeps.then (State.setFld_keeps ..) rfl ?_
    exact Keeps.refl _ _
  clear_value x3
  have k8 : Keeps [.out, .regs, .jobs, .pen, .jnl, .mem, .pln, .sess, .evt, .pwr] s x4 := by
    unfold x4
    refine Keeps.ite ?_ ?_
    · refine Keeps.then (State.setFld_keeps ..) rfl ?_
      exact k7
    · exact k7
  clear_value x4
  have k9 : Keeps [.out, .regs, .jobs, .pen, .jnl, .mem, .pln, .sess, .evt, .pwr] s x5 := by
    unfold x5
    refine Keeps.ite ?_ ?_
    · refine Keeps.then (State.setFld_keeps ..) rfl ?_
      refine Keeps.then (State.modMc_keeps ..) rfl ?_
      exact k8
    · exact k8
  clear_value x5
  have k10 : Keeps [.out, .regs, .jobs, .pen, .jnl, .mem, .pln, .sess, .evt, .pwr] s x6 := by
    unfold x6
    refine Keeps.then (State.catalogue_keeps ..) rfl ?_
    exact k9
  clear_value x6
  refine Keeps.ite ?_ ?_
  · exact Keeps.refl _ _
  · split
    · rename_i y11 y12 y13
      refine Keeps.ite ?_ ?_
      · refine Keeps.then (State.journalCopyLost_keeps ..) rfl ?_
        exact k10
      · exact k10
    · rename_i y14 y15
      exact k10

theorem State.retire_keeps (s m k d) : Keeps [.out, .regs, .jobs, .pen, .jnl, .mem, .pln, .sess, .evt,
    .pwr] s (State.retire s m k d) := by
  unfold State.retire
  extract_lets x1
  have k2 : Keeps [.out, .regs, .jobs, .pen, .jnl, .mem, .pln, .sess, .evt, .pwr] s x1 := by
    unfold x1
    refine Keeps.then (State.fire_keeps ..) rfl ?_
    refine Keeps.then (State.setFld_keeps ..) rfl ?_
    exact Keeps.refl _ _
  clear_value x1
  refine Keeps.ite ?_ ?_
  · exact Keeps.refl _ _
  · refine Keeps.ite ?_ ?_
    · exact k2
    · refine Keeps.ite ?_ ?_
      · refine Keeps.then (State.rankOut_keeps ..) rfl ?_
        exact k2
      · refine Keeps.then (State.mcAlert_keeps ..) rfl ?_
        refine Keeps.then (State.setFld_keeps ..) rfl ?_
        exact k2

theorem State.deviceError_keeps (s m k d) : Keeps [.out, .regs, .jobs, .pen, .jnl, .mem, .pln, .sess, .evt,
    .pwr] s (State.deviceError s m k d) := by
  unfold State.deviceError
  extract_lets x1 x2 x3 x4 x5
  have k6 : Keeps [.out, .regs, .jobs, .pen, .jnl, .mem, .pln, .sess, .evt, .pwr] s x2 := by
    unfold x2
    refine Keeps.then (State.bump_keeps ..) rfl ?_
    exact Keeps.refl _ _
  clear_value x2
  have k7 : Keeps [.out, .regs, .jobs, .pen, .jnl, .mem, .pln, .sess, .evt, .pwr] s x5 := by
    unfold x5
    refine Keeps.then (State.setMc_keeps ..) rfl ?_
    exact k6
  clear_value x5
  refine Keeps.ite ?_ ?_
  · refine Keeps.then (State.retire_keeps ..) rfl ?_
    exact k7
  · exact k7

theorem State.correctedWord_keeps (s m k symbols) : Keeps [.out, .regs, .jobs, .pen, .jnl, .mem, .pln, .sess, .evt,
    .pwr] s (State.correctedWord s m k symbols) := by
  unfold State.correctedWord
  extract_lets x1 x2
  have k3 : Keeps [.out, .regs, .jobs, .pen, .jnl, .mem, .pln, .sess, .evt, .pwr] s x2 := by
    unfold x2
    refine Keeps.then (State.fireIf_keeps ..) rfl ?_
    refine Keeps.then (State.bump_keeps ..) rfl ?_
    refine Keeps.then (State.modMc_keeps ..) rfl ?_
    exact Keeps.refl _ _
  clear_value x2
  refine Keeps.foldl ?_ ?_
  · exact k3
  · intro u4 e5 k6
    refine Keeps.then (State.deviceError_keeps ..) rfl ?_
    exact k6

theorem State.countModules_keeps (s) : Keeps [.regs] s (State.countModules s) := by
  unfold State.countModules
  refine Keeps.then (State.setFld_keeps ..) rfl ?_
  exact Keeps.refl _ _

theorem State.jobEnd_keeps (s j status) : Keeps [.freeIdx, .out, .regs, .jobs, .jnl, .sess, .evt] s (State.jobEnd s j status) := by
  unfold State.jobEnd
  extract_lets x1
  have k2 : Keeps [.freeIdx, .out, .regs, .jobs, .jnl, .sess, .evt] s x1 := by
    unfold x1
    refine Keeps.then (State.fireIf_keeps ..) rfl ?_
    exact Keeps.refl _ _
  clear_value x1
  refine Keeps.then (State.dropJob_keeps ..) rfl ?_
  refine Keeps.then (State.finishDesc_keeps ..) rfl ?_
  refine Keeps.then (State.checkpoint_keeps ..) rfl ?_
  exact k2

theorem State.jobSuspend_keeps (s j status) : Keeps [.freeIdx, .out, .regs, .jobs, .jnl, .sess,
    .evt] s (State.jobSuspend s j status) := by
  unfold State.jobSuspend
  extract_lets x1
  have k2 : Keeps [.freeIdx, .out, .regs, .jobs, .jnl, .sess, .evt] s x1 := by
    unfold x1
    refine Keeps.then (State.checkpoint_keeps ..) rfl ?_
    refine Keeps.then (State.setJob_keeps ..) rfl ?_
    exact Keeps.refl _ _
  clear_value x1
  refine Keeps.then (State.fire_keeps ..) rfl ?_
  refine Keeps.then (State.finishDesc_keeps ..) rfl ?_
  exact k2

theorem State.jobOverrun_keeps (s j) : Keeps [.regs, .evt] s (State.jobOverrun s j) := by
  unfold State.jobOverrun
  refine Keeps.then (State.fire_keeps ..) rfl ?_
  refine Keeps.then (State.bump_keeps ..) rfl ?_
  exact Keeps.refl _ _

theorem State.rawItem_keeps (s j it) : Keeps [.regs, .evt] s (State.rawItem s j it).1 := by
  unfold State.rawItem
  split
  · rename_i y1 y2 y3 y4 y5
    split
    · rename_i y6 y7
      dsimp -zeta only
      refine Keeps.then (State.jobOverrun_keeps ..) rfl ?_
      exact Keeps.refl _ _
    · rename_i y8 y9 y10
      refine Keeps.ite_map Prod.fst ?_ ?_
      · dsimp -zeta only
        exact Keeps.refl _ _
      · dsimp -zeta only
        exact Keeps.refl _ _
  · rename_i y11 y12 y13 y14 y15
    dsimp -zeta only
    exact Keeps.refl _ _
  · rename_i y16 y17
    extract_lets x18 x19
    dsimp -zeta only
    exact Keeps.refl _ _
  · rename_i y20 y21 y22 y23
    dsimp -zeta only
    exact Keeps.refl _ _

theorem State.penReproSeq_keeps (s) : Keeps [.regs, .pen, .jnl, .evt, .pwr] s (State.penReproSeq s).2 := by
  unfold State.penReproSeq
  extract_lets x1 x2
  have k3 : Keeps [.regs, .pen, .jnl, .evt, .pwr] s x1 := by
    unfold x1
    refine Keeps.ite ?_ ?_
    · exact Keeps.refl _ _
    · refine Keeps.then (State.penBlock_keeps ..) rfl ?_
      exact Keeps.refl _ _
  clear_value x1
  dsimp -zeta only
  refine Keeps.set_pen rfl ?_
  exact k3

theorem State.jobPen_keeps (a p) : Keeps [.regs, .pen, .jnl, .evt, .pwr] a.1 (State.jobPen a p).1 := by
  unfold State.jobPen
  extract_lets x1 x2
  have k3 : Keeps [.regs, .pen, .jnl, .evt, .pwr] a.1 x1.2 := by
    unfold x1
    refine Keeps.then (State.penReproSeq_keeps ..) rfl ?_
    exact Keeps.refl _ _
  clear_value x1
  dsimp -zeta only
  exact k3

theorem State.jobFound_keeps (a f) : Keeps [.regs, .pen, .jnl, .evt, .pwr] a.1 (State.jobFound a f).1 := by
  unfold State.jobFound
  extract_lets x1 x2 x3 x4 x5
  have k6 : Keeps [.regs, .pen, .jnl, .evt, .pwr] a.1 x1 := by
    unfold x1
    exact Keeps.refl _ _
  clear_value x1
  refine Keeps.ite_map Prod.fst ?_ ?_
  · refine Keeps.then (State.jobPen_keeps ..) rfl ?_
    exact Keeps.refl _ _
  · exact Keeps.refl _ _

theorem State.jobSeamOut_keeps (a o) : Keeps [.regs, .pen, .jnl, .evt, .pwr] a.1 (State.jobSeamOut a o).1 := by
  unfold State.jobSeamOut
  split
  · rename_i y1 y2
    extract_lets x3 x4 x5
    refine Keeps.ite_map Prod.fst ?_ ?_
    · exact Keeps.refl _ _
    · refine Keeps.then (State.jobFound_keeps ..) rfl ?_
      exact Keeps.refl _ _
  · rename_i y6 y7
    refine Keeps.ite_map Prod.fst ?_ ?_
    · exact Keeps.refl _ _
    · refine Keeps.then (State.jobFound_keeps ..) rfl ?_
      exact Keeps.refl _ _
  · rename_i y8 y9 y10
    exact Keeps.refl _ _

theorem State.jobSeam_keeps (a r) : Keeps [.regs, .pen, .jnl, .evt, .pwr] a.1 (State.jobSeam a r).1 := by
  unfold State.jobSeam
  extract_lets x1
  refine Keeps.foldl_map Prod.fst ?_ ?_
  · dsimp -zeta only
    exact Keeps.refl _ _
  · intro u2 e3 k4
    refine Keeps.then (State.jobSeamOut_keeps ..) rfl ?_
    exact k4

theorem State.jobBunt_keeps (a b) : Keeps [.regs, .pen, .jnl, .evt, .pwr] a.1 (State.jobBunt a b).1 := by
  unfold State.jobBunt
  extract_lets x1
  refine Keeps.then (State.jobSeam_keeps ..) rfl ?_
  exact Keeps.refl _ _

theorem State.jobGap_keeps (c a g) : Keeps [.regs, .pen, .jnl, .evt, .pwr] a.1 (State.jobGap c a g).1 := by
  unfold State.jobGap
  extract_lets x1 x2
  refine Keeps.ite_map Prod.fst ?_ ?_
  · exact Keeps.refl _ _
  · refine Keeps.then (State.jobPen_keeps ..) rfl ?_
    exact Keeps.refl _ _

theorem State.jobSegOut_keeps (c a o) : Keeps [.regs, .pen, .jnl, .evt, .pwr] a.1 (State.jobSegOut c a o).1 := by
  unfold State.jobSegOut
  split
  · rename_i y1 y2 y3 y4
    refine Keeps.then (State.jobFound_keeps ..) rfl ?_
    exact Keeps.refl _ _
  · rename_i y5 y6 y7 y8 y9 y10 y11 y12 y13 y14
    refine Keeps.then (State.jobPen_keeps ..) rfl ?_
    exact Keeps.refl _ _
  · rename_i y15 y16
    refine Keeps.then (State.jobGap_keeps ..) rfl ?_
    exact Keeps.refl _ _
  · rename_i y17 y18
    refine Keeps.then (State.jobBunt_keeps ..) rfl ?_
    exact Keeps.refl _ _
  · rename_i y19 y20
    refine Keeps.then (State.jobSeam_keeps ..) rfl ?_
    exact Keeps.refl _ _
  · rename_i y21 y22 y23 y24 y25 y26
    exact Keeps.refl _ _

theorem State.jobSegApply_keeps (c a r) : Keeps [.regs, .pen, .jnl, .evt, .pwr] a.1 (State.jobSegApply c a r).1 := by
  unfold State.jobSegApply
  split
  · rename_i y1 y2
    exact Keeps.refl _ _
  · rename_i y3 y4 y5
    extract_lets x6
    refine Keeps.foldl_map Prod.fst ?_ ?_
    · dsimp -zeta only
      exact Keeps.refl _ _
    · intro u7 e8 k9
      refine Keeps.then (State.jobSegOut_keeps ..) rfl ?_
      exact k9

theorem State.jobLabel_keeps (c cp a o) : Keeps [.regs, .pen, .jnl, .evt, .pwr] a.1 (State.jobLabel c cp a o).1 := by
  unfold State.jobLabel
  split
  · rename_i y1 y2
    exact Keeps.refl _ _
  · rename_i y3 y4 y5
    extract_lets x6 x7 x8 x9
    refine Keeps.then (State.jobSegApply_keeps ..) rfl ?_
    exact Keeps.refl _ _

theorem State.jobAbsent_keeps (c cp a2 a3 a4) : Keeps [.freeIdx, .regs, .pen, .jnl, .evt,
    .pwr] a4.1 (State.jobAbsent c cp a2 a3 a4).1 := by
  induction a2 generalizing c cp a3 a4
  · unfold State.jobAbsent
    exact Keeps.refl _ _
  · rename_i y1 y2
    unfold State.jobAbsent
    extract_lets x3
    have k4 : Keeps [.freeIdx, .regs, .pen, .jnl, .evt, .pwr] a4.1 x3.2 := by
      unfold x3
      refine Keeps.then (State.takeFree_keeps ..) rfl ?_
      exact Keeps.refl _ _
    clear_value x3
    refine Keeps.then (y2 _ _ _ _) rfl ?_
    refine Keeps.then (State.jobLabel_keeps ..) rfl ?_
    dsimp -zeta only
    exact k4

theorem State.jobClose_keeps (a) : Keeps [.freeIdx, .regs, .pen, .jnl, .evt, .pwr] a.1 (State.jobClose a).1 := by
  unfold State.jobClose
  extract_lets x1
  have k2 : Keeps [.freeIdx, .regs, .pen, .jnl, .evt, .pwr] a.1 x1.1 := by
    unfold x1
    refine Keeps.foldl_map Prod.fst ?_ ?_
    · exact Keeps.refl _ _
    · intro u3 e4 k5
      split
      · rename_i y6 y7 y8 y9 y10 y11
        extract_lets x12
        refine Keeps.ite_map Prod.fst ?_ ?_
        · exact k5
        · refine Keeps.then (State.jobAbsent_keeps ..) rfl ?_
          exact k5
      · rename_i y13 y14 y15
        exact k5
  clear_value x1
  refine Keeps.foldl_map Prod.fst ?_ ?_
  · exact k2
  · intro u16 e17 k18
    split
    · rename_i y19 y20 y21 y22 y23 y24
      extract_lets x25 x26 x27 x28
      refine Keeps.ite_map Prod.fst ?_ ?_
      · exact k18
      · refine Keeps.then (State.jobSegApply_keeps ..) rfl ?_
        exact k18
    · rename_i y29 y30 y31
      exact k18

theorem State.jobTake_keeps (c cp a o) : Keeps [.freeIdx, .regs, .pen, .jnl, .evt, .pwr] a.1 (State.jobTake c cp a o).1 := by
  unfold State.jobTake
  split
  · rename_i y1 y2
    exact Keeps.refl _ _
  · rename_i y3 y4 y5
    refine Keeps.ite_map Prod.fst ?_ ?_
    · exact Keeps.refl _ _
    · split
      · rename_i y6 y7 y8
        refine Keeps.then (State.jobLabel_keeps ..) rfl ?_
        exact Keeps.refl _ _
      · rename_i y9 y10
        refine Keeps.ite_map Prod.fst ?_ ?_
        · exact Keeps.refl _ _
        · refine Keeps.then (State.jobLabel_keeps ..) rfl ?_
          refine Keeps.then (State.jobAbsent_keeps ..) rfl ?_
          exact Keeps.refl _ _

theorem State.jobLabelAll_keeps (a) : Keeps [.freeIdx, .regs, .pen, .jnl, .evt, .pwr] a.1 (State.jobLabelAll a).1 := by
  unfold State.jobLabelAll
  refine Keeps.foldl_map Prod.fst ?_ ?_
  · exact Keeps.refl _ _
  · intro u1 e2 k3
    split
    · rename_i y4 y5
      exact k3
    · rename_i y6 y7 y8
      extract_lets x9 x10 x11
      have k12 : Keeps [.freeIdx, .regs, .pen, .jnl, .evt, .pwr] a.1 x11.1 := by
        unfold x11
        dsimp -zeta only
        exact k3
      clear_value x11
      refine Keeps.ite_map Prod.fst ?_ ?_
      · refine Keeps.foldl_map Prod.fst ?_ ?_
        · exact k12
        · intro u13 e14 k15
          refine Keeps.then (State.jobTake_keeps ..) rfl ?_
          exact k15
      · exact k12

theorem State.pipesOn_keeps (s final j) : Keeps [.freeIdx, .regs, .pen, .jnl, .evt, .pwr] s (State.pipesOn s final j).1 := by
  unfold State.pipesOn
  refine Keeps.ite_map Prod.fst ?_ ?_
  · refine Keeps.then (State.jobLabelAll_keeps ..) rfl ?_
    dsimp -zeta only
    exact Keeps.refl _ _
  · dsimp -zeta only
    exact Keeps.refl _ _

theorem State.pipeItem_keeps (s j it) : Keeps [.freeIdx, .regs, .pen, .jnl, .evt, .pwr] s (State.pipeItem s j it).1 := by
  unfold State.pipeItem
  extract_lets x1 x2
  have k3 : Keeps [.freeIdx, .regs, .pen, .jnl, .evt, .pwr] s x2.1 := by
    unfold x2
    refine Keeps.then (State.pipesOn_keeps ..) rfl ?_
    exact Keeps.refl _ _
  clear_value x2
  split
  · rename_i y4 y5 y6 y7 y8
    split
    · rename_i y9 y10
      dsimp -zeta only
      refine Keeps.then (State.jobOverrun_keeps ..) rfl ?_
      exact Keeps.refl _ _
    · rename_i y11 y12 y13
      extract_lets x14 x15 x16
      refine Keeps.ite_map Prod.fst ?_ ?_
      · dsimp -zeta only
        exact Keeps.refl _ _
      · refine Keeps.then (State.pipesOn_keeps ..) rfl ?_
        exact Keeps.refl _ _
  · rename_i y17 y18 y19 y20 y21
    dsimp -zeta only
    exact Keeps.refl _ _
  · rename_i y22
    refine Keeps.ite_map Prod.fst ?_ ?_
    · refine Keeps.then (State.jobClose_keeps ..) rfl ?_
      exact k3
    · exact k3
  · rename_i y23 y24 y25 y26
    dsimp -zeta only
    exact Keeps.refl _ _

theorem State.jobItem_keeps (s j) : Keeps [.freeIdx, .regs, .pen, .jnl, .evt, .pwr] s (State.jobItem s j).1 := by
  unfold State.jobItem
  split
  · rename_i y1 y2
    dsimp -zeta only
    exact Keeps.refl _ _
  · rename_i y3 y4 y5
    refine Keeps.ite_map Prod.fst ?_ ?_
    · dsimp -zeta only
      exact Keeps.refl _ _
    · refine Keeps.ite_map Prod.fst ?_ ?_
      · dsimp -zeta only
        exact Keeps.refl _ _
      · dsimp -zeta only
        exact Keeps.refl _ _
  · rename_i y6 y7 y8 y9 y10
    extract_lets x11
    refine Keeps.ite_map Prod.fst ?_ ?_
    · refine Keeps.then (State.pipeItem_keeps ..) rfl ?_
      exact Keeps.refl _ _
    · refine Keeps.then (State.rawItem_keeps ..) rfl ?_
      exact Keeps.refl _ _

theorem State.fill_keeps (a0 a1 a2 a3) : Keeps [.freeIdx, .regs, .pen, .jnl, .evt, .pwr] a3.1 (State.fill a0 a1 a2 a3).1 := by
  induction a0 generalizing a1 a2 a3
  · unfold State.fill
    dsimp -zeta only
    exact Keeps.refl _ _
  · rename_i y1 y2
    unfold State.fill
    extract_lets x3 x4 x5
    refine Keeps.ite_map Prod.fst ?_ ?_
    · dsimp -zeta only
      exact Keeps.refl _ _
    · refine Keeps.ite_map Prod.fst ?_ ?_
      · refine Keeps.then (y2 _ _ _) rfl ?_
        dsimp -zeta only
        exact Keeps.refl _ _
      · split
        · rename_i y6 y7 y8 y9
          extract_lets x10
          refine Keeps.ite_map Prod.fst ?_ ?_
          · dsimp -zeta only
            exact Keeps.refl _ _
          · refine Keeps.then (y2 _ _ _) rfl ?_
            dsimp -zeta only
            exact Keeps.refl _ _
        · rename_i y11 y12
          refine Keeps.ite_map Prod.fst ?_ ?_
          · dsimp -zeta only
            exact Keeps.refl _ _
          · refine Keeps.then (y2 _ _ _) rfl ?_
            refine Keeps.then (State.jobItem_keeps ..) rfl ?_
            exact Keeps.refl _ _

theorem State.cropUnit_keeps (s j) : Keeps [.freeIdx, .out, .regs, .jobs, .pen, .jnl, .sess, .evt, .pwr] s (State.cropUnit s j) := by
  unfold State.cropUnit
  extract_lets x1 x2 x3 x4 x5 x6 x7 x8
  have k9 : Keeps [.freeIdx, .out, .regs, .jobs, .pen, .jnl, .sess, .evt, .pwr] s x3.1 := by
    unfold x3
    refine Keeps.then (State.fill_keeps ..) rfl ?_
    dsimp -zeta only
    exact Keeps.refl _ _
  clear_value x3
  have k10 : Keeps [.freeIdx, .out, .regs, .jobs, .pen, .jnl, .sess, .evt, .pwr] s x5.1 := by
    unfold x5
    refine Keeps.then (State.hostWrite_keeps ..) rfl ?_
    exact k9
  clear_value x5
  have k11 : Keeps [.freeIdx, .out, .regs, .jobs, .pen, .jnl, .sess, .evt, .pwr] s x8 := by
    unfold x8
    refine Keeps.then (State.setJob_keeps ..) rfl ?_
    exact k10
  clear_value x8
  clear_value x4
  split
  · rename_i y12 y13 y14 y15
    extract_lets x16 x17 x18
    have k19 : Keeps [.freeIdx, .out, .regs, .jobs, .pen, .jnl, .sess, .evt, .pwr] s x16.1 := by
      unfold x16
      refine Keeps.then (State.fill_keeps ..) rfl ?_
      dsimp -zeta only
      exact Keeps.refl _ _
    clear_value x16
    have k20 : Keeps [.freeIdx, .out, .regs, .jobs, .pen, .jnl, .sess, .evt, .pwr] s x17.1 := by
      unfold x17
      refine Keeps.then (State.hostWrite_keeps ..) rfl ?_
      exact k19
    clear_value x17
    refine Keeps.ite ?_ ?_
    · refine Keeps.then (State.setJob_keeps ..) rfl ?_
      exact k20
    · refine Keeps.then (State.jobSuspend_keeps ..) rfl ?_
      exact k20
  · rename_i y21 y22
    split
    · rename_i y23 y24
      refine Keeps.ite ?_ ?_
      · refine Keeps.then (State.autoEnd_keeps ..) rfl ?_
        exact k10
      · refine Keeps.then (State.jobEnd_keeps ..) rfl ?_
        exact k10
    · rename_i y25 y26
      refine Keeps.ite ?_ ?_
      · refine Keeps.then (State.autoOverflow_keeps ..) rfl ?_
        exact k10
      · refine Keeps.ite ?_ ?_
        · refine Keeps.then (State.jobEnd_keeps ..) rfl ?_
          exact k10
        · refine Keeps.then (State.jobSuspend_keeps ..) rfl ?_
          exact k10
    · rename_i y27 y28
      refine Keeps.ite ?_ ?_
      · refine Keeps.then (State.checkpoint_keeps ..) rfl ?_
        exact k11
      · exact k11

theorem State.sendPkt_keeps (s p type body) : Keeps [.out, .ports] s (State.sendPkt s p type body) := by
  unfold State.sendPkt
  extract_lets x1
  refine Keeps.then (State.modPort_keeps ..) rfl ?_
  refine Keeps.then (State.emit_keeps ..) rfl ?_
  exact Keeps.refl _ _

theorem State.ctrlNext_keeps (s p) : Keeps [.out, .ports] s (State.ctrlNext s p) := by
  unfold State.ctrlNext
  extract_lets x1
  split
  · rename_i y2 y3 y4 y5 y6 y7
    extract_lets x8 x9
    have k10 : Keeps [.out, .ports] s x9 := by
      unfold x9
      refine Keeps.then (State.setPort_keeps ..) rfl ?_
      exact Keeps.refl _ _
    clear_value x9
    refine Keeps.then (State.sendPkt_keeps ..) rfl ?_
    exact k10
  · rename_i y11 y12 y13
    exact Keeps.refl _ _

theorem State.ctrlAdd_keeps (s p r) : Keeps [.out, .ports] s (State.ctrlAdd s p r) := by
  unfold State.ctrlAdd
  refine Keeps.then (State.ctrlNext_keeps ..) rfl ?_
  refine Keeps.then (State.modPort_keeps ..) rfl ?_
  exact Keeps.refl _ _

theorem State.ctrlDone_keeps (s r status data) : Keeps [.out, .regs, .jnl, .sess, .evt] s (State.ctrlDone s r status data) := by
  unfold State.ctrlDone
  extract_lets x1
  have k2 : Keeps [.out, .regs, .jnl, .sess, .evt] s x1.1 := by
    unfold x1
    refine Keeps.then (State.hostWrite_keeps ..) rfl ?_
    exact Keeps.refl _ _
  clear_value x1
  refine Keeps.ite ?_ ?_
  · exact Keeps.refl _ _
  · refine Keeps.ite ?_ ?_
    · split
      · rename_i y3 y4
        refine Keeps.then (State.finishDesc_keeps ..) rfl ?_
        exact k2
      · rename_i y5 y6 y7
        refine Keeps.then (State.finishDesc_keeps ..) rfl ?_
        exact k2
    · refine Keeps.then (State.finishDesc_keeps ..) rfl ?_
      exact Keeps.refl _ _

theorem State.ctxFallback_keeps (s o p c a) : Keeps [.freeIdx, .out, .regs, .ctxs, .jobs, .seam, .pen, .jnl, .ovw, .tim, .fab, .axes,
    .evt, .pwr] s (State.ctxFallback s o p c a) := by
  unfold State.ctxFallback
  split
  · rename_i y1 y2
    refine Keeps.then (State.dropLines_keeps ..) rfl ?_
    refine Keeps.then (State.closeInspect_keeps ..) rfl ?_
    exact Keeps.refl _ _
  · rename_i y3 y4 y5
    extract_lets x6 x7 x8
    have k9 : Keeps [.freeIdx, .out, .regs, .ctxs, .jobs, .seam, .pen, .jnl, .ovw, .tim, .fab, .axes, .evt, .pwr] s x8 := by
      unfold x8
      refine Keeps.ite ?_ ?_
      · exact Keeps.refl _ _
      · refine Keeps.then (State.setCtx_keeps ..) rfl ?_
        exact Keeps.refl _ _
    clear_value x8
    split
    · rename_i y10 y11 y12 y13 y14 y15
      refine Keeps.ite ?_ ?_
      · exact k9
      · refine Keeps.then (State.bankLive_keeps ..) rfl ?_
        refine Keeps.then (State.rebase_keeps ..) rfl ?_
        exact k9
    · rename_i y16 y17 y18 y19 y20
      refine Keeps.then (State.bankLive_keeps ..) rfl ?_
      refine Keeps.then (State.rebase_keeps ..) rfl ?_
      exact k9
    · rename_i y21 y22 y23
      exact k9

theorem State.ctxLost_keeps (s c) : Keeps [.ctxs] s (State.ctxLost s c) := by
  unfold State.ctxLost
  extract_lets x1 x2
  refine Keeps.then (State.setCtx_keeps ..) rfl ?_
  exact Keeps.refl _ _

theorem State.cutCurrents_keeps (s) : Keeps [.out, .axes] s (State.cutCurrents s) := by
  unfold State.cutCurrents
  refine Keeps.foldl ?_ ?_
  · exact Keeps.refl _ _
  · intro u1 e2 k3
    extract_lets x4
    refine Keeps.then (State.axCoils_keeps ..) rfl ?_
    refine Keeps.then (State.setAx_keeps ..) rfl ?_
    exact k3

theorem State.selfCompile_keeps (s recipe) : Keeps [.regs, .pln] s (State.selfCompile s recipe) := by
  unfold State.selfCompile
  extract_lets x1
  refine Keeps.ite ?_ ?_
  · exact Keeps.refl _ _
  · refine Keeps.then (State.setFld_keeps ..) rfl ?_
    refine Keeps.set_pln rfl ?_
    exact Keeps.refl _ _

theorem State.fabStart_keeps (s) : Keeps [.regs, .fab] s (State.fabStart s) := by
  unfold State.fabStart
  split
  · rename_i y1 y2
    exact Keeps.refl _ _
  · rename_i y3 y4 y5
    refine Keeps.ite ?_ ?_
    · refine Keeps.ite ?_ ?_
      · refine Keeps.then (State.fabDiscover_keeps ..) rfl ?_
        exact Keeps.refl _ _
      · exact Keeps.refl _ _
    · refine Keeps.then (State.setDomain_keeps ..) rfl ?_
      refine Keeps.then (State.setFlds_keeps ..) rfl ?_
      exact Keeps.refl _ _

theorem State.dawnDiscovery_keeps (s) : Keeps [.out, .regs, .ports, .jnl, .pln, .sess, .fab, .evt, .cal] s (State.dawnDiscovery s) := by
  unfold State.dawnDiscovery
  extract_lets x1 x2
  have k3 : Keeps [.out, .regs, .ports, .jnl, .pln, .sess, .fab, .evt, .cal] s x1 := by
    unfold x1
    refine Keeps.foldl ?_ ?_
    · exact Keeps.refl _ _
    · intro u4 e5 k6
      refine Keeps.ite ?_ ?_
      · refine Keeps.then (State.discover_keeps ..) rfl ?_
        refine Keeps.then (State.setDomain_keeps ..) rfl ?_
        refine Keeps.then (State.emit_keeps ..) rfl ?_
        exact k6
      · exact k6
  clear_value x1
  have k7 : Keeps [.out, .regs, .ports, .jnl, .pln, .sess, .fab, .evt, .cal] s x2 := by
    unfold x2
    refine Keeps.then (State.setFlag_keeps ..) rfl ?_
    exact k3
  clear_value x2
  refine Keeps.then (State.fabStart_keeps ..) rfl ?_
  refine Keeps.then (State.selfCompile_keeps ..) rfl ?_
  exact k7

theorem State.domainsUp_keeps (s) : Keeps [.regs] s (State.domainsUp s) := by
  unfold State.domainsUp
  refine Keeps.foldl ?_ ?_
  · exact Keeps.refl _ _
  · intro u1 e2 k3
    refine Keeps.then (State.setDomain_keeps ..) rfl ?_
    exact k3

theorem State.watchdogsServed_keeps (s) : Keeps [.pwr] s (State.watchdogsServed s) := by
  unfold State.watchdogsServed
  extract_lets x1
  refine Keeps.set_pwr rfl ?_
  exact Keeps.refl _ _

theorem State.startDone_keeps (s) : Keeps [.frameTick, .out, .regs, .sess, .evt, .pwr] s (State.startDone s) := by
  unfold State.startDone
  extract_lets x1 x2 x3
  have k4 : Keeps [.frameTick, .out, .regs, .sess, .evt, .pwr] s x1 := by
    unfold x1
    refine Keeps.then (State.enterMode_keeps ..) rfl ?_
    refine Keeps.then (State.watchdogsServed_keeps ..) rfl ?_
    refine Keeps.then (State.domainsUp_keeps ..) rfl ?_
    exact Keeps.refl _ _
  clear_value x1
  have k5 : Keeps [.frameTick, .out, .regs, .sess, .evt, .pwr] s x3 := by
    unfold x3
    refine Keeps.set_frameTick_pwr rfl ?_
    exact k4
  clear_value x3
  refine Keeps.then (State.fire_keeps ..) rfl ?_
  refine Keeps.then (State.set64_keeps ..) rfl ?_
  exact k5

theorem State.flashSeam_keeps (s e) : Keeps [.regs, .ctxs] s (State.flashSeam s e) := by
  unfold State.flashSeam
  split
  · rename_i y1 y2
    exact Keeps.refl _ _
  · rename_i y3 y4 y5
    extract_lets x6
    refine Keeps.then (State.bankStatus_keeps ..) rfl ?_
    refine Keeps.then (State.setNum_keeps ..) rfl ?_
    exact Keeps.refl _ _

theorem State.flashSeams_keeps (s) : Keeps [.regs, .ctxs, .cal] s (State.flashSeams s) := by
  unfold State.flashSeams
  split
  · rename_i y1 y2 y3
    extract_lets x4 x5
    have k6 : Keeps [.regs, .ctxs, .cal] s x5 := by
      unfold x5
      refine Keeps.set_cal rfl ?_
      exact Keeps.refl _ _
    clear_value x5
    refine Keeps.ite ?_ ?_
    · refine Keeps.foldl ?_ ?_
      · exact k6
      · intro u7 e8 k9
        refine Keeps.then (State.flashSeam_keeps ..) rfl ?_
        exact k9
    · exact Keeps.refl _ _
  · rename_i y10 y11
    exact Keeps.refl _ _

theorem State.dawnDone_keeps (s) : Keeps [.frameTick, .freeIdx, .out, .regs, .ports, .ctxs, .coders, .jobs, .seam, .pen, .jnl, .ovw,
    .pln, .sess, .tim, .fab, .encs, .dividers, .axes, .evt, .cal, .pwr] s (State.dawnDone s) := by
  unfold State.dawnDone
  extract_lets x1 x2 x3 x4
  have k5 : Keeps [.frameTick, .freeIdx, .out, .regs, .ports, .ctxs, .coders, .jobs, .seam, .pen, .jnl, .ovw, .pln, .sess, .tim, .fab,
      .encs, .dividers, .axes, .evt, .cal, .pwr] s x1 := by
    unfold x1
    refine Keeps.then (State.flashSeams_keeps ..) rfl ?_
    refine Keeps.then (State.commitLive_keeps ..) rfl ?_
    exact Keeps.refl _ _
  clear_value x1
  have k6 : Keeps [.frameTick, .freeIdx, .out, .regs, .ports, .ctxs, .coders, .jobs, .seam, .pen, .jnl, .ovw, .pln, .sess, .tim, .fab,
      .encs, .dividers, .axes, .evt, .cal, .pwr] s x2 := by
    unfold x2
    refine Keeps.then (State.coldColumn_keeps ..) rfl ?_
    exact k5
  clear_value x2
  have k7 : Keeps [.frameTick, .freeIdx, .out, .regs, .ports, .ctxs, .coders, .jobs, .seam, .pen, .jnl, .ovw, .pln, .sess, .tim, .fab,
      .encs, .dividers, .axes, .evt, .cal, .pwr] s x4 := by
    unfold x4
    refine Keeps.set_pwr rfl ?_
    exact k6
  clear_value x4
  refine Keeps.then (State.startDone_keeps ..) rfl ?_
  exact k7

theorem State.ranksFailed_keeps (s) : Keeps [.regs] s (State.ranksFailed s) := by
  unfold State.ranksFailed
  refine Keeps.foldl ?_ ?_
  · exact Keeps.refl _ _
  · intro u1 e2 k3
    refine Keeps.foldl ?_ ?_
    · exact k3
    · intro u4 e5 k6
      refine Keeps.ite ?_ ?_
      · refine Keeps.then (State.setFld_keeps ..) rfl ?_
        exact k6
      · exact k6

theorem State.flashTraining_keeps (s) : Keeps [.pwr] s (State.flashTraining s) := by
  unfold State.flashTraining
  extract_lets x1 x2 x3 x4 x5
  refine Keeps.set_pwr rfl ?_
  exact Keeps.refl _ _

theorem State.firmware_keeps (s r) : Keeps [.regs] s (State.firmware s r) := by
  unfold State.firmware
  extract_lets x1
  have k2 : Keeps [.regs] s x1 := by
    unfold x1
    refine Keeps.then (State.setReg_keeps ..) rfl ?_
    exact Keeps.refl _ _
  clear_value x1
  refine Keeps.then (State.setDigest_keeps ..) rfl ?_
  exact k2

theorem State.trainAll_keeps (s) : Keeps [.regs] s (State.trainAll s) := by
  unfold State.trainAll
  refine Keeps.foldl ?_ ?_
  · exact Keeps.refl _ _
  · intro u1 e2 k3
    refine Keeps.then (State.setFld_keeps ..) rfl ?_
    exact k3

theorem State.dawnEffect_keeps (s n r) : Keeps [.frameTick, .freeIdx, .out, .regs, .ports, .ctxs, .coders, .jobs, .seam, .pen, .jnl,
    .ovw, .pln, .sess, .tim, .fab, .encs, .dividers, .axes, .evt, .cal, .pwr] s (State.dawnEffect s n r) := by
  unfold State.dawnEffect
  split
  · rename_i y1
    refine Keeps.then (State.emit_keeps ..) rfl ?_
    exact Keeps.refl _ _
  · rename_i y2
    extract_lets x3 x4 x5 x6
    have k7 : Keeps [.frameTick, .freeIdx, .out, .regs, .ports, .ctxs, .coders, .jobs, .seam, .pen, .jnl, .ovw, .pln, .sess, .tim,
        .fab, .encs, .dividers, .axes, .evt, .cal, .pwr] s x6 := by
      unfold x6
      refine Keeps.set_pwr rfl ?_
      exact Keeps.refl _ _
    clear_value x6
    refine Keeps.then (State.trainAll_keeps ..) rfl ?_
    refine Keeps.then (State.firmware_keeps ..) rfl ?_
    refine Keeps.then (State.setFlag_keeps ..) rfl ?_
    exact k7
  · rename_i y8
    refine Keeps.then (State.flashTraining_keeps ..) rfl ?_
    refine Keeps.then (State.ranksFailed_keeps ..) rfl ?_
    exact Keeps.refl _ _
  · rename_i y9
    extract_lets x10
    refine Keeps.then (State.penBlock_keeps ..) rfl ?_
    refine Keeps.set_jnl rfl ?_
    exact Keeps.refl _ _
  · rename_i y11
    refine Keeps.then (State.dawnDiscovery_keeps ..) rfl ?_
    exact Keeps.refl _ _
  · rename_i y12
    refine Keeps.then (State.dawnDone_keeps ..) rfl ?_
    exact Keeps.refl _ _
  · rename_i y13 y14 y15 y16 y17 y18 y19
    exact Keeps.refl _ _

theorem State.pathLost_keeps (s) : Keeps [.regs, .ports, .ctxs, .slices, .coders, .ring, .seam, .ovw,
    .statHeld] s (State.pathLost s) := by
  unfold State.pathLost
  extract_lets x1 x2 x3 x4 x5 x6
  have k7 : Keeps [.regs, .ports, .ctxs, .slices, .coders, .ring, .seam, .ovw, .statHeld] s x1 := by
    unfold x1
    refine Keeps.foldl ?_ ?_
    · exact Keeps.refl _ _
    · intro u8 e9 k10
      extract_lets x11
      have k12 : Keeps [.regs, .ports, .ctxs, .slices, .coders, .ring, .seam, .ovw, .statHeld] s x11 := by
        unfold x11
        refine Keeps.then (State.setPort_keeps ..) rfl ?_
        refine Keeps.then (State.setCtx_keeps ..) rfl ?_
        exact k10
      clear_value x11
      refine Keeps.then (State.setFld_keeps ..) rfl ?_
      refine Keeps.then (State.setCoder_keeps ..) rfl ?_
      exact k12
  clear_value x1
  have k13 : Keeps [.regs, .ports, .ctxs, .slices, .coders, .ring, .seam, .ovw, .statHeld] s x3 := by
    unfold x3
    refine Keeps.foldl ?_ ?_
    · exact k7
    · intro u14 e15 k16
      refine Keeps.then (State.setSlice_keeps ..) rfl ?_
      exact k16
  clear_value x3
  refine Keeps.set_ring_seam_ovw_statHeld rfl ?_
  exact k13

theorem State.jobsParked_keeps (s) : Keeps [.jobs] s (State.jobsParked s) := by
  unfold State.jobsParked
  extract_lets x1 x2
  refine Keeps.set_jobs rfl ?_
  exact Keeps.refl _ _

theorem State.workLost_keeps (s) : Keeps [.pen, .jnl, .mem, .pln, .crcs, .cal] s (State.workLost s) := by
  unfold State.workLost
  extract_lets x1 x2 x3 x4 x5 x6
  refine Keeps.set_pen_jnl_mem_pln_crcs_cal rfl ?_
  exact Keeps.refl _ _

theorem State.setEth_keeps (s e v) : Keeps [.eths] s (State.setEth s e v) := by
  unfold State.setEth
  refine Keeps.set_eths rfl ?_
  exact Keeps.refl _ _

theorem State.toutLost_keeps (s t) : Keeps [.out, .tim] s (State.toutLost s t) := by
  unfold State.toutLost
  extract_lets x1 x2 x3
  have k4 : Keeps [.out, .tim] s x3 := by
    unfold x3
    refine Keeps.then (State.setTout_keeps ..) rfl ?_
    exact Keeps.refl _ _
  clear_value x3
  refine Keeps.ite ?_ ?_
  · refine Keeps.then (State.emit_keeps ..) rfl ?_
    exact k4
  · exact k4

theorem State.timingLost_keeps (s) : Keeps [.out, .regs, .latches, .eths, .tim, .fab, .encs, .evt] s (State.timingLost s) := by
  unfold State.timingLost
  extract_lets x1 x2 x3 x4 x5 x6
  have k7 : Keeps [.out, .regs, .latches, .eths, .tim, .fab, .encs, .evt] s x1 := by
    unfold x1
    refine Keeps.foldl ?_ ?_
    · exact Keeps.refl _ _
    · intro u8 e9 k10
      refine Keeps.then (State.toutLost_keeps ..) rfl ?_
      exact k10
  clear_value x1
  have k11 : Keeps [.out, .regs, .latches, .eths, .tim, .fab, .encs, .evt] s x2 := by
    unfold x2
    refine Keeps.foldl ?_ ?_
    · exact k7
    · intro u12 e13 k14
      extract_lets x15
      refine Keeps.then (State.setEnc_keeps ..) rfl ?_
      exact k14
  clear_value x2
  have k16 : Keeps [.out, .regs, .latches, .eths, .tim, .fab, .encs, .evt] s x3 := by
    unfold x3
    refine Keeps.foldl ?_ ?_
    · exact k11
    · intro u17 e18 k19
      extract_lets x20
      refine Keeps.then (State.setFld_keeps ..) rfl ?_
      refine Keeps.then (State.setEth_keeps ..) rfl ?_
      exact k19
  clear_value x3
  refine Keeps.set_latches_tim_fab_evt rfl ?_
  exact k16

theorem State.regsWarm_keeps (s power) : Keeps [.regs] s (State.regsWarm s power) := by
  unfold State.regsWarm
  refine Keeps.foldl ?_ ?_
  · exact Keeps.refl _ _
  · intro u1 e2 k3
    refine Keeps.ite ?_ ?_
    · exact k3
    · refine Keeps.then (State.setReg_keeps ..) rfl ?_
      exact k3

theorem State.sessDown_keeps (s n) : Keeps [.regs, .sess] s (State.sessDown s n) := by
  unfold State.sessDown
  extract_lets x1 x2 x3 x4 x5 x6 x7
  have k8 : Keeps [.regs, .sess] s x2 := by
    unfold x2
    refine Keeps.then (State.setFlag_keeps ..) rfl ?_
    refine Keeps.then (State.setFld_keeps ..) rfl ?_
    exact Keeps.refl _ _
  clear_value x2
  refine Keeps.then (State.setSession_keeps ..) rfl ?_
  exact k8

theorem State.entryReleased_keeps (s e) : Keeps [.out, .regs, .sess, .evt] s (State.entryReleased s e) := by
  unfold State.entryReleased
  extract_lets x1 x2 x3
  refine Keeps.ite ?_ ?_
  · refine Keeps.then (State.setSession_keeps ..) rfl ?_
    exact Keeps.refl _ _
  · refine Keeps.ite ?_ ?_
    · split
      · rename_i y4 y5
        exact Keeps.refl _ _
      · rename_i y6 y7 y8
        extract_lets x9
        refine Keeps.then (State.flushCpl_keeps ..) rfl ?_
        refine Keeps.then (State.setSession_keeps ..) rfl ?_
        exact Keeps.refl _ _
    · exact Keeps.refl _ _

theorem State.jnlReclaim_keeps (s) : Keeps [.regs, .jnl, .evt] s (State.jnlReclaim s) := by
  unfold State.jnlReclaim
  extract_lets x1 x2 x3
  refine Keeps.ite ?_ ?_
  · exact Keeps.refl _ _
  · refine Keeps.then (State.jnlSpace_keeps ..) rfl ?_
    refine Keeps.set_jnl rfl ?_
    exact Keeps.refl _ _

theorem State.jnlDurable_keeps (s n) : Keeps [.out, .regs, .jnl, .sess, .evt] s (State.jnlDurable s n) := by
  unfold State.jnlDurable
  extract_lets x1 x2 x3 x4
  have k5 : Keeps [.out, .regs, .jnl, .sess, .evt] s x4 := by
    unfold x4
    refine Keeps.set_jnl rfl ?_
    exact Keeps.refl _ _
  clear_value x4
  split
  · rename_i y6 y7
    exact Keeps.refl _ _
  · rename_i y8 y9 y10
    refine Keeps.then (State.jnlReclaim_keeps ..) rfl ?_
    refine Keeps.foldl ?_ ?_
    · refine Keeps.then (State.set64_keeps ..) rfl ?_
      exact k5
    · intro u11 e12 k13
      refine Keeps.then (State.entryReleased_keeps ..) rfl ?_
      exact k13

theorem State.penGather_keeps (s) : Keeps [.regs, .pen, .jnl, .evt] s (State.penGather s) := by
  unfold State.penGather
  extract_lets x1 x2 x3 x4
  have k5 : Keeps [.regs, .pen, .jnl, .evt] s x3 := by
    unfold x3
    refine Keeps.then (State.journal_keeps ..) rfl ?_
    exact Keeps.refl _ _
  clear_value x3
  refine Keeps.ite ?_ ?_
  · exact Keeps.refl _ _
  · refine Keeps.set_pen rfl ?_
    exact k5

theorem State.penGatherAll_keeps (s a1) : Keeps [.regs, .pen, .jnl, .evt] s (State.penGatherAll s a1) := by
  induction a1 generalizing s
  · unfold State.penGatherAll
    exact Keeps.refl _ _
  · rename_i y1 y2
    unfold State.penGatherAll
    refine Keeps.ite ?_ ?_
    · exact Keeps.refl _ _
    · refine Keeps.then (y2 _) rfl ?_
      refine Keeps.then (State.penGather_keeps ..) rfl ?_
      exact Keeps.refl _ _

theorem State.jnlMerge_keeps (s) : Keeps [.out, .regs, .pen, .jnl, .sess, .evt] s (State.jnlMerge s) := by
  unfold State.jnlMerge
  extract_lets x1
  have k2 : Keeps [.out, .regs, .pen, .jnl, .sess, .evt] s x1 := by
    unfold x1
    refine Keeps.then (State.penGatherAll_keeps ..) rfl ?_
    exact Keeps.refl _ _
  clear_value x1
  refine Keeps.then (State.jnlDurable_keeps ..) rfl ?_
  exact k2

theorem State.dieLost_keeps (s) : Keeps [.out, .regs, .latches, .ports, .ctxs, .slices, .coders, .ring, .jobs, .seam, .pen, .jnl, .ovw,
    .mem, .pln, .sess, .eths, .tim, .fab, .encs, .evt, .crcs, .cal, .statHeld] s (State.dieLost s) := by
  unfold State.dieLost
  extract_lets x1 x2
  have k3 : Keeps [.out, .regs, .latches, .ports, .ctxs, .slices, .coders, .ring, .jobs, .seam, .pen, .jnl, .ovw, .mem, .pln, .sess,
      .eths, .tim, .fab, .encs, .evt, .crcs, .cal, .statHeld] s x1 := by
    unfold x1
    refine Keeps.then (State.jnlMerge_keeps ..) rfl ?_
    refine Keeps.then (State.aoTake_keeps ..) rfl ?_
    exact Keeps.refl _ _
  clear_value x1
  have k4 : Keeps [.out, .regs, .latches, .ports, .ctxs, .slices, .coders, .ring, .jobs, .seam, .pen, .jnl, .ovw, .mem, .pln, .sess,
      .eths, .tim, .fab, .encs, .evt, .crcs, .cal, .statHeld] s x2 := by
    unfold x2
    refine Keeps.foldl ?_ ?_
    · exact k3
    · intro u5 e6 k7
      refine Keeps.then (State.sessDown_keeps ..) rfl ?_
      exact k7
  clear_value x2
  refine Keeps.then (State.regsWarm_keeps ..) rfl ?_
  refine Keeps.then (State.timingLost_keeps ..) rfl ?_
  refine Keeps.then (State.workLost_keeps ..) rfl ?_
  refine Keeps.then (State.jobsParked_keeps ..) rfl ?_
  refine Keeps.then (State.pathLost_keeps ..) rfl ?_
  exact k4

theorem State.toNight_keeps (s dram) : Keeps allParts s (State.toNight s dram) := by
  unfold State.toNight
  extract_lets x1 x2 x3 x4 x5 x6 x7 x8
  have k9 : Keeps allParts s x2 := by
    unfold x2
    refine Keeps.then (State.dieLost_keeps ..) rfl ?_
    exact Keeps.refl _ _
  clear_value x2
  have k10 : Keeps allParts s x3 := by
    unfold x3
    refine Keeps.foldl ?_ ?_
    · exact k9
    · intro u11 e12 k13
      extract_lets x14
      refine Keeps.then (State.setEnc_keeps ..) rfl ?_
      exact k13
  clear_value x3
  have k15 : Keeps allParts s x4 := by
    unfold x4
    refine Keeps.foldl ?_ ?_
    · exact k10
    · intro u16 e17 k18
      refine Keeps.then (State.setFld_keeps ..) rfl ?_
      exact k18
  clear_value x4
  have k19 : Keeps allParts s x5 := by
    unfold x5
    refine Keeps.then (State.setReg_keeps ..) rfl ?_
    refine Keeps.then (State.setReg_keeps ..) rfl ?_
    exact k15
  clear_value x5
  have k20 : Keeps allParts s x6 := by
    unfold x6
    refine Keeps.then (State.setFld_keeps ..) rfl ?_
    refine Keeps.then (State.emit_keeps ..) rfl ?_
    refine Keeps.then (State.startClear_keeps ..) rfl ?_
    exact k19
  clear_value x6
  have k21 : Keeps allParts s x8 := by
    unfold x8
    refine Keeps.then (State.enterMode_keeps ..) rfl ?_
    refine Keeps.set_pwr rfl ?_
    exact k20
  clear_value x8
  split
  · rename_i y22 y23
    exact k21
  · rename_i y24 y25 y26
    refine Keeps.then (State.leaveNight_keeps ..) rfl ?_
    exact k21

theorem State.startRecord_keeps (s mode step cause) : Keeps [.regs] s (State.startRecord s mode step cause) := by
  unfold State.startRecord
  refine Keeps.then (State.set64_keeps ..) rfl ?_
  refine Keeps.then (State.setFlds_keeps ..) rfl ?_
  exact Keeps.refl _ _

theorem State.dawnFails_keeps (s step cause) : Keeps allParts s (State.dawnFails s step cause) := by
  unfold State.dawnFails
  extract_lets x1 x2 x3
  have k4 : Keeps allParts s x1 := by
    unfold x1
    refine Keeps.then (State.fire_keeps ..) rfl ?_
    refine Keeps.then (State.startRecord_keeps ..) rfl ?_
    exact Keeps.refl _ _
  clear_value x1
  have k5 : Keeps allParts s x3 := by
    unfold x3
    refine Keeps.set_pwr rfl ?_
    exact k4
  clear_value x3
  refine Keeps.then (State.toNight_keeps ..) rfl ?_
  exact k5

theorem State.nextFrame_keeps (s) : Keeps [.frameTick, .regs] s (State.nextFrame s) := by
  unfold State.nextFrame
  refine Keeps.then (State.set64_keeps ..) rfl ?_
  refine Keeps.set_frameTick rfl ?_
  exact Keeps.refl _ _

theorem State.frameStep_keeps (s before) : Keeps [.frameTick, .regs] s (State.frameStep s before) := by
  unfold State.frameStep
  extract_lets x1
  refine Keeps.ite ?_ ?_
  · exact Keeps.refl _ _
  · refine Keeps.ite ?_ ?_
    · refine Keeps.then (State.nextFrame_keeps ..) rfl ?_
      exact Keeps.refl _ _
    · refine Keeps.set_frameTick rfl ?_
      exact Keeps.refl _ _

theorem State.lostGap_keeps (s a m k) : Keeps [.regs, .pen, .jnl, .evt, .pwr] s (State.lostGap s a m k) := by
  unfold State.lostGap
  extract_lets x1 x2
  refine Keeps.then (State.penEnter_keeps ..) rfl ?_
  exact Keeps.refl _ _

theorem State.lostGapStep_keeps (s e) : Keeps [.regs, .pen, .jnl, .fab, .evt, .pwr] s (State.lostGapStep s e) := by
  unfold State.lostGapStep
  split
  · rename_i y1 y2
    exact Keeps.refl _ _
  · rename_i y3 y4 y5
    extract_lets x6 x7 x8 x9 x10
    have k11 : Keeps [.regs, .pen, .jnl, .fab, .evt, .pwr] s x10 := by
      unfold x10
      refine Keeps.set_fab rfl ?_
      exact Keeps.refl _ _
    clear_value x10
    refine Keeps.ite ?_ ?_
    · refine Keeps.then (State.lostGap_keeps ..) rfl ?_
      refine Keeps.set_fab rfl ?_
      exact Keeps.refl _ _
    · refine Keeps.ite ?_ ?_
      · refine Keeps.ite ?_ ?_
        · refine Keeps.then (State.lostGap_keeps ..) rfl ?_
          exact k11
        · exact k11
      · exact Keeps.refl _ _

theorem State.lostGapsStep_keeps (s) : Keeps [.regs, .pen, .jnl, .fab, .evt, .pwr] s (State.lostGapsStep s) := by
  unfold State.lostGapsStep
  refine Keeps.ite ?_ ?_
  · refine Keeps.foldl ?_ ?_
    · exact Keeps.refl _ _
    · intro u1 e2 k3
      refine Keeps.then (State.lostGapStep_keeps ..) rfl ?_
      exact k3
  · exact Keeps.refl _ _

theorem State.dayTick_keeps (s) : Keeps [.clock, .frameTick, .out, .regs, .pen, .jnl, .tim, .fab, .evt, .pwr] s (State.dayTick s) := by
  unfold State.dayTick
  extract_lets x1 x2
  have k3 : Keeps [.clock, .frameTick, .out, .regs, .pen, .jnl, .tim, .fab, .evt, .pwr] s x2 := by
    unfold x2
    refine Keeps.then (State.clockTick_keeps ..) rfl ?_
    refine Keeps.set_clock rfl ?_
    exact Keeps.refl _ _
  clear_value x2
  refine Keeps.then (State.lostGapsStep_keeps ..) rfl ?_
  refine Keeps.then (State.cellsTick_keeps ..) rfl ?_
  refine Keeps.then (State.frameStep_keeps ..) rfl ?_
  exact k3

theorem State.waitAt_keeps (s e) : Keeps [.regs, .evt] s (State.waitAt s e) := by
  unfold State.waitAt
  split
  · rename_i y1 y2
    extract_lets x3
    refine Keeps.then (State.setFld_keeps ..) rfl ?_
    refine Keeps.set_evt rfl ?_
    exact Keeps.refl _ _
  · rename_i y4 y5 y6
    extract_lets x7 x8 x9 x10 x11
    have k12 : Keeps [.regs, .evt] s x9 := by
      unfold x9
      refine Keeps.set_evt rfl ?_
      exact Keeps.refl _ _
    have k13 : Keeps [.regs, .evt] s x11 := by
      unfold x11
      refine Keeps.then (State.setFld_keeps ..) rfl ?_
      exact k12
    clear_value x11
    refine Keeps.ite ?_ ?_
    · refine Keeps.then (State.setFld_keeps ..) rfl ?_
      exact k13
    · exact k13

theorem State.pendingRun_keeps (s v) : Keeps [.out, .regs, .jnl, .sess, .tim, .axes, .evt] s (State.pendingRun s v) := by
  unfold State.pendingRun
  split
  · rename_i y1 y2
    exact Keeps.refl _ _
  · rename_i y3 y4 y5
    extract_lets x6 x7
    have k8 : Keeps [.out, .regs, .jnl, .sess, .tim, .axes, .evt] s x7 := by
      unfold x7
      refine Keeps.set_evt rfl ?_
      exact Keeps.refl _ _
    clear_value x7
    refine Keeps.ite ?_ ?_
    · exact Keeps.refl _ _
    · refine Keeps.then (State.consume_keeps ..) rfl ?_
      refine Keeps.then (State.setFld_keeps ..) rfl ?_
      exact k8

theorem State.deliver_keeps (s e fs) : Keeps [.out, .regs, .jnl, .sess, .tim, .axes, .evt] s (State.deliver s e fs) := by
  unfold State.deliver
  extract_lets x1 x2 x3 x4 x5 x6 x7
  have k8 : Keeps [.out, .regs, .jnl, .sess, .tim, .axes, .evt] s x3 := by
    unfold x3
    refine Keeps.foldl ?_ ?_
    · exact Keeps.refl _ _
    · intro u9 e10 k11
      extract_lets x12
      have k13 : Keeps [.out, .regs, .jnl, .sess, .tim, .axes, .evt] s x12 := by
        unfold x12
        refine Keeps.then (State.setFld_keeps ..) rfl ?_
        exact k11
      clear_value x12
      refine Keeps.ite ?_ ?_
      · refine Keeps.then (State.setFld_keeps ..) rfl ?_
        exact k13
      · exact k13
  clear_value x3
  have k14 : Keeps [.out, .regs, .jnl, .sess, .tim, .axes, .evt] s x5 := by
    unfold x5
    refine Keeps.ite ?_ ?_
    · refine Keeps.then (State.setFld_keeps ..) rfl ?_
      exact k8
    · exact k8
  clear_value x5
  have k15 : Keeps [.out, .regs, .jnl, .sess, .tim, .axes, .evt] s x7 := by
    unfold x7
    refine Keeps.then (State.pendingRun_keeps ..) rfl ?_
    exact k14
  clear_value x7
  refine Keeps.ite ?_ ?_
  · refine Keeps.then (State.waitAt_keeps ..) rfl ?_
    exact k15
  · refine Keeps.then (State.consume_keeps ..) rfl ?_
    exact k15

theorem State.sliceBack_keeps (s k) : Keeps [.regs, .slices] s (State.sliceBack s k) := by
  unfold State.sliceBack
  extract_lets x1
  refine Keeps.then (State.setDomain_keeps ..) rfl ?_
  refine Keeps.then (State.setDomain_keeps ..) rfl ?_
  refine Keeps.then (State.setSlice_keeps ..) rfl ?_
  exact Keeps.refl _ _

theorem State.diagnose_keeps (s) : Keeps [.freeIdx, .regs, .slices, .pln, .pwr] s (State.diagnose s) := by
  unfold State.diagnose
  extract_lets x1 x2 x3 x4 x5 x6 x7 x8 x9 x10
  have k11 : Keeps [.freeIdx, .regs, .slices, .pln, .pwr] s x2.2 := by
    unfold x2
    refine Keeps.then (State.takeFree_keeps ..) rfl ?_
    exact Keeps.refl _ _
  have k12 : Keeps [.freeIdx, .regs, .slices, .pln, .pwr] s x3 := by
    unfold x3
    exact k11
  have k13 : Keeps [.freeIdx, .regs, .slices, .pln, .pwr] s x6 := by
    unfold x6
    refine Keeps.foldl ?_ ?_
    · exact k12
    · intro u14 e15 k16
      refine Keeps.then (State.sliceBack_keeps ..) rfl ?_
      exact k16
  have k17 : Keeps [.freeIdx, .regs, .slices, .pln, .pwr] s x7 := by
    unfold x7
    refine Keeps.foldl ?_ ?_
    · exact k13
    · intro u18 e19 k20
      refine Keeps.then (State.setDomain_keeps ..) rfl ?_
      exact k20
  have k21 : Keeps [.freeIdx, .regs, .slices, .pln, .pwr] s x9 := by
    unfold x9
    refine Keeps.set_pwr rfl ?_
    exact k17
  refine Keeps.ite ?_ ?_
  · exact Keeps.refl _ _
  · refine Keeps.ite ?_ ?_
    · refine Keeps.then (State.selfCompile_keeps ..) rfl ?_
      exact k21
    · exact k21

theorem State.divFree_keeps (s a b) : Keeps [.freeIdx] s (State.divFree s a b).2 := by
  unfold State.divFree
  extract_lets x1
  have k2 : Keeps [.freeIdx] s x1.2 := by
    unfold x1
    refine Keeps.then (State.takeFree_keeps ..) rfl ?_
    exact Keeps.refl _ _
  clear_value x1
  refine Keeps.ite_map Prod.snd ?_ ?_
  · dsimp -zeta only
    exact Keeps.refl _ _
  · dsimp -zeta only
    exact k2

theorem State.toutTrigger_keeps (s p time) : Keeps [.out, .regs, .tim, .evt] s (State.toutTrigger s p time) := by
  unfold State.toutTrigger
  extract_lets x1
  have k2 : Keeps [.out, .regs, .tim, .evt] s x1 := by
    unfold x1
    refine Keeps.foldl ?_ ?_
    · exact Keeps.refl _ _
    · intro u3 e4 k5
      refine Keeps.then (State.toutRise_keeps ..) rfl ?_
      exact k5
  clear_value x1
  refine Keeps.foldl ?_ ?_
  · exact k2
  · intro u6 e7 k8
    refine Keeps.then (State.toutPlace_keeps ..) rfl ?_
    exact k8

theorem State.lineTrigger_keeps (s p) : Keeps [.out, .regs, .ports, .tim, .evt] s (State.lineTrigger s p) := by
  unfold State.lineTrigger
  extract_lets x1 x2 x3 x4
  have k5 : Keeps [.out, .regs, .ports, .tim, .evt] s x4 := by
    unfold x4
    refine Keeps.then (State.setPort_keeps ..) rfl ?_
    exact Keeps.refl _ _
  clear_value x4
  refine Keeps.ite ?_ ?_
  · exact Keeps.refl _ _
  · split
    · rename_i y6 y7
      exact Keeps.refl _ _
    · rename_i y8 y9 y10
      refine Keeps.ite ?_ ?_
      · refine Keeps.then (State.toutTrigger_keeps ..) rfl ?_
        exact Keeps.refl _ _
      · refine Keeps.then (State.toutTrigger_keeps ..) rfl ?_
        refine Keeps.ite ?_ ?_
        · refine Keeps.then (State.emit_keeps ..) rfl ?_
          exact k5
        · exact k5

theorem State.divide_keeps (s k first pd d) : Keeps [.out, .regs, .ports, .tim, .dividers, .evt] s (State.divide s k first pd d) := by
  unfold State.divide
  extract_lets x1
  refine Keeps.ite ?_ ?_
  · refine Keeps.then (State.fireIf_keeps ..) rfl ?_
    refine Keeps.then (State.lineTrigger_keeps ..) rfl ?_
    refine Keeps.then (State.setDivider_keeps ..) rfl ?_
    exact Keeps.refl _ _
  · refine Keeps.then (State.setDivider_keeps ..) rfl ?_
    exact Keeps.refl _ _

theorem State.doneDesc_keeps (s n d result) : Keeps [.out, .regs, .jnl, .sess, .evt] s (State.doneDesc s n d result) := by
  unfold State.doneDesc
  refine Keeps.then (State.finishDesc_keeps ..) rfl ?_
  exact Keeps.refl _ _

theorem State.doorbell_keeps (s n slot bytes) : Keeps [.out, .regs, .jnl, .sess, .evt, .statHeld] s (State.doorbell s n slot bytes) := by
  unfold State.doorbell
  extract_lets x1 x2 x3 x4 x5
  have k6 : Keeps [.out, .regs, .jnl, .sess, .evt, .statHeld] s x5 := by
    unfold x5
    refine Keeps.then (State.setHring_keeps ..) rfl ?_
    exact Keeps.refl _ _
  clear_value x5
  refine Keeps.ite ?_ ?_
  · refine Keeps.then (State.badBell_keeps ..) rfl ?_
    exact Keeps.refl _ _
  · refine Keeps.ite ?_ ?_
    · refine Keeps.then (State.badBell_keeps ..) rfl ?_
      exact Keeps.refl _ _
    · refine Keeps.ite ?_ ?_
      · refine Keeps.then (State.bump_keeps ..) rfl ?_
        exact Keeps.refl _ _
      · refine Keeps.ite ?_ ?_
        · refine Keeps.then (State.badBell_keeps ..) rfl ?_
          exact Keeps.refl _ _
        · refine Keeps.then (State.bellMove_keeps ..) rfl ?_
          exact k6

theorem State.penReplay_keeps (s n a2) : Keeps [.out, .regs, .jnl, .sess, .evt] s (State.penReplay s n a2) := by
  induction a2 generalizing s n
  · unfold State.penReplay
    exact Keeps.refl _ _
  · rename_i y1 y2 y3
    unfold State.penReplay
    extract_lets x4 x5 x6 x7
    have k8 : Keeps [.out, .regs, .jnl, .sess, .evt] s x5.1 := by
      unfold x5
      refine Keeps.then (State.hostWrite_keeps ..) rfl ?_
      exact Keeps.refl _ _
    clear_value x5
    have k9 : Keeps [.out, .regs, .jnl, .sess, .evt] s x6 := by
      unfold x6
      refine Keeps.then (State.bump_keeps ..) rfl ?_
      exact k8
    clear_value x6
    split
    · rename_i y10 y11 y12
      exact k8
    · rename_i y13 y14
      refine Keeps.then (y3 _ _) rfl ?_
      refine Keeps.set_jnl rfl ?_
      exact k9

theorem State.penWritten_keeps (s p) : Keeps [.regs, .pen, .evt] s (State.penWritten s p) := by
  unfold State.penWritten
  extract_lets x1 x2 x3 x4 x5 x6
  have k7 : Keeps [.regs, .pen, .evt] s x2 := by
    unfold x2
    refine Keeps.then (State.set64_keeps ..) rfl ?_
    refine Keeps.then (State.bump_keeps ..) rfl ?_
    exact Keeps.refl _ _
  clear_value x2
  have k8 : Keeps [.regs, .pen, .evt] s x4 := by
    unfold x4
    refine Keeps.set_pen rfl ?_
    exact k7
  clear_value x4
  have k9 : Keeps [.regs, .pen, .evt] s x5 := by
    unfold x5
    refine Keeps.then (State.fireIf_keeps ..) rfl ?_
    exact k8
  clear_value x5
  have k10 : Keeps [.regs, .pen, .evt] s x6 := by
    unfold x6
    refine Keeps.ite ?_ ?_
    · refine Keeps.then (State.fire_keeps ..) rfl ?_
      refine Keeps.then (State.setFld_keeps ..) rfl ?_
      refine Keeps.then (State.bump_keeps ..) rfl ?_
      exact k9
    · exact k9
  clear_value x6
  refine Keeps.ite ?_ ?_
  · refine Keeps.then (State.fire_keeps ..) rfl ?_
    refine Keeps.then (State.bump_keeps ..) rfl ?_
    exact k10
  · exact k10

theorem State.penDrop_keeps (s n) : Keeps [.regs, .pen, .evt] s (State.penDrop s n) := by
  unfold State.penDrop
  extract_lets x1 x2 x3
  refine Keeps.then (State.penLevels_keeps ..) rfl ?_
  refine Keeps.set_pen rfl ?_
  exact Keeps.refl _ _

theorem State.penRdma_keeps (s n) : Keeps [.out, .regs, .pen, .sess, .evt] s (State.penRdma s n) := by
  unfold State.penRdma
  extract_lets x1 x2 x3 x4 x5 x6
  have k7 : Keeps [.out, .regs, .pen, .sess, .evt] s x4.1 := by
    unfold x4
    refine Keeps.then (State.hostWrite_keeps ..) rfl ?_
    exact Keeps.refl _ _
  clear_value x4
  have k8 : Keeps [.out, .regs, .pen, .sess, .evt] s x6 := by
    unfold x6
    refine Keeps.then (State.mirror_keeps ..) rfl ?_
    refine Keeps.then (State.setHring_keeps ..) rfl ?_
    exact k7
  clear_value x6
  refine Keeps.ite ?_ ?_
  · exact Keeps.refl _ _
  · split
    · rename_i y9 y10 y11
      exact k7
    · rename_i y12 y13
      refine Keeps.then (State.penDrop_keeps ..) rfl ?_
      refine Keeps.foldl ?_ ?_
      · exact k8
      · intro u14 e15 k16
        refine Keeps.then (State.penWritten_keeps ..) rfl ?_
        exact k16

theorem State.penDatagram_keeps (s p) : Keeps [.out, .regs, .pen, .tim, .evt] s (State.penDatagram s p) := by
  unfold State.penDatagram
  extract_lets x1 x2 x3 x4 x5 x6 x7
  have k8 : Keeps [.out, .regs, .pen, .tim, .evt] s x4 := by
    unfold x4
    refine Keeps.then (State.setQueue_keeps ..) rfl ?_
    exact Keeps.refl _ _
  clear_value x4
  have k9 : Keeps [.out, .regs, .pen, .tim, .evt] s x6 := by
    unfold x6
    refine Keeps.ite ?_ ?_
    · refine Keeps.then (State.emit_keeps ..) rfl ?_
      exact Keeps.refl _ _
    · refine Keeps.set_tim rfl ?_
      exact k8
  clear_value x6
  refine Keeps.ite ?_ ?_
  · exact Keeps.refl _ _
  · refine Keeps.then (State.penDrop_keeps ..) rfl ?_
    refine Keeps.foldl ?_ ?_
    · refine Keeps.set_pen rfl ?_
      exact k9
    · intro u10 e11 k12
      refine Keeps.then (State.penWritten_keeps ..) rfl ?_
      exact k12

theorem State.penDeliver_keeps (s) : Keeps [.out, .regs, .pen, .jnl, .sess, .tim, .evt] s (State.penDeliver s) := by
  unfold State.penDeliver
  refine Keeps.ite ?_ ?_
  · split
    · rename_i y1 y2
      exact Keeps.refl _ _
    · rename_i y3 y4 y5
      refine Keeps.then (State.penDatagram_keeps ..) rfl ?_
      exact Keeps.refl _ _
  · split
    · rename_i y6 y7
      exact Keeps.refl _ _
    · rename_i y8 y9 y10
      refine Keeps.ite ?_ ?_
      · refine Keeps.then (State.penRdma_keeps ..) rfl ?_
        exact Keeps.refl _ _
      · refine Keeps.then (State.penReplay_keeps ..) rfl ?_
        exact Keeps.refl _ _

theorem State.penFlush_keeps (s a1) : Keeps [.out, .regs, .pen, .jnl, .sess, .tim, .evt] s (State.penFlush s a1) := by
  induction a1 generalizing s
  · unfold State.penFlush
    exact Keeps.refl _ _
  · rename_i y1 y2
    unfold State.penFlush
    extract_lets x3 x4
    have k5 : Keeps [.out, .regs, .pen, .jnl, .sess, .tim, .evt] s x3 := by
      unfold x3
      refine Keeps.then (State.penGather_keeps ..) rfl ?_
      exact Keeps.refl _ _
    clear_value x3
    have k6 : Keeps [.out, .regs, .pen, .jnl, .sess, .tim, .evt] s x4 := by
      unfold x4
      refine Keeps.then (State.penDeliver_keeps ..) rfl ?_
      refine Keeps.then (State.jnlDurable_keeps ..) rfl ?_
      exact k5
    clear_value x4
    refine Keeps.ite ?_ ?_
    · refine Keeps.then (y2 _) rfl ?_
      exact k6
    · exact k6

theorem State.drainPennants_keeps (s) : Keeps [.out, .regs, .pen, .jnl, .sess, .tim, .evt] s (State.drainPennants s) := by
  unfold State.drainPennants
  refine Keeps.then (State.penFlush_keeps ..) rfl ?_
  exact Keeps.refl _ _

theorem State.dramExit_keeps (s r) : Keeps [.regs, .mem] s (State.dramExit s r) := by
  unfold State.dramExit
  refine Keeps.foldl ?_ ?_
  · exact Keeps.refl _ _
  · intro u1 e2 k3
    extract_lets x4
    have k5 : Keeps [.regs, .mem] s x4 := by
      unfold x4
      refine Keeps.then (State.setDomain_keeps ..) rfl ?_
      exact k3
    clear_value x4
    refine Keeps.ite ?_ ?_
    · exact k3
    · refine Keeps.ite ?_ ?_
      · refine Keeps.then (State.setFld_keeps ..) rfl ?_
        refine Keeps.then (State.modMc_keeps ..) rfl ?_
        exact k5
      · refine Keeps.then (State.setFld_keeps ..) rfl ?_
        exact k5

theorem State.dropApplies_keeps (s p) : Keeps [.out, .regs, .ports, .ctxs, .jnl, .sess, .evt] s (State.dropApplies s p) := by
  unfold State.dropApplies
  extract_lets x1 x2
  have k3 : Keeps [.out, .regs, .ports, .ctxs, .jnl, .sess, .evt] s x2 := by
    unfold x2
    refine Keeps.foldl ?_ ?_
    · exact Keeps.refl _ _
    · intro u4 e5 k6
      refine Keeps.ite ?_ ?_
      · exact k6
      · refine Keeps.then (State.finishDesc_keeps ..) rfl ?_
        exact k6
  clear_value x2
  refine Keeps.then (State.setNum_keeps ..) rfl ?_
  refine Keeps.then (State.applyCount_keeps ..) rfl ?_
  refine Keeps.then (State.modPort_keeps ..) rfl ?_
  exact k3

theorem State.dropCtrl_keeps (s p) : Keeps [.out, .regs, .ports, .jnl, .sess, .evt] s (State.dropCtrl s p) := by
  unfold State.dropCtrl
  extract_lets x1 x2 x3
  have k4 : Keeps [.out, .regs, .ports, .jnl, .sess, .evt] s x3 := by
    unfold x3
    refine Keeps.then (State.setPort_keeps ..) rfl ?_
    exact Keeps.refl _ _
  clear_value x3
  refine Keeps.foldl ?_ ?_
  · exact k4
  · intro u5 e6 k7
    refine Keeps.ite ?_ ?_
    · refine Keeps.then (State.finishDesc_keeps ..) rfl ?_
      exact k7
    · exact k7

theorem State.dropDue_keeps (s o) : Keeps [.pln] s (State.dropDue s o) := by
  unfold State.dropDue
  extract_lets x1
  refine Keeps.set_pln rfl ?_
  exact Keeps.refl _ _

theorem State.finishOrder_keeps (s o status result) : Keeps [.out, .regs, .jnl, .sess, .fab,
    .evt] s (State.finishOrder s o status result) := by
  unfold State.finishOrder
  refine Keeps.ite ?_ ?_
  · exact Keeps.refl _ _
  · refine Keeps.ite ?_ ?_
    · refine Keeps.then (State.finishDesc_keeps ..) rfl ?_
      exact Keeps.refl _ _
    · split
      · rename_i y1 y2
        exact Keeps.refl _ _
      · rename_i y3 y4 y5
        extract_lets x6 x7
        refine Keeps.ite ?_ ?_
        · refine Keeps.then (State.finishDesc_keeps ..) rfl ?_
          refine Keeps.set_fab rfl ?_
          exact Keeps.refl _ _
        · refine Keeps.set_fab rfl ?_
          exact Keeps.refl _ _

theorem State.dropOrders_keeps (s) : Keeps [.out, .regs, .jnl, .pln, .sess, .fab, .evt] s (State.dropOrders s) := by
  unfold State.dropOrders
  extract_lets x1 x2
  refine Keeps.foldl ?_ ?_
  · refine Keeps.set_pln rfl ?_
    exact Keeps.refl _ _
  · intro u3 e4 k5
    refine Keeps.then (State.finishOrder_keeps ..) rfl ?_
    exact k5

theorem State.dropSets_keeps (s n idx) : Keeps [.pln] s (State.dropSets s n idx) := by
  unfold State.dropSets
  extract_lets x1
  refine Keeps.set_pln rfl ?_
  exact Keeps.refl _ _

theorem State.endMotion_keeps (s x) : Keeps [.out, .regs, .jnl, .sess, .axes, .evt] s (State.endMotion s x) := by
  unfold State.endMotion
  extract_lets x1 x2 x3 x4 x5 x6 x7
  have k8 : Keeps [.out, .regs, .jnl, .sess, .axes, .evt] s x4 := by
    unfold x4
    refine Keeps.then (State.setAx_keeps ..) rfl ?_
    exact Keeps.refl _ _
  clear_value x4
  have k9 : Keeps [.out, .regs, .jnl, .sess, .axes, .evt] s x5 := by
    unfold x5
    refine Keeps.then (State.fire_keeps ..) rfl ?_
    refine Keeps.then (State.axRegs_keeps ..) rfl ?_
    refine Keeps.then (State.setFld_keeps ..) rfl ?_
    exact k8
  clear_value x5
  have k10 : Keeps [.out, .regs, .jnl, .sess, .axes, .evt] s x6 := by
    unfold x6
    refine Keeps.foldl ?_ ?_
    · exact k9
    · intro u11 e12 k13
      refine Keeps.then (State.axFinish_keeps ..) rfl ?_
      exact k13
  clear_value x6
  split
  · rename_i y14 y15 y16
    refine Keeps.ite ?_ ?_
    · refine Keeps.then (State.beginSegs_keeps ..) rfl ?_
      refine Keeps.then (State.setAx_keeps ..) rfl ?_
      exact k10
    · exact k10
  · rename_i y17 y18
    exact k10

theorem State.duskAxis_keeps (s x) : Keeps [.out, .regs, .pen, .jnl, .sess, .tim, .axes, .evt, .pwr] s (State.duskAxis s x) := by
  unfold State.duskAxis
  extract_lets x1 x2 x3 x4
  have k5 : Keeps [.out, .regs, .pen, .jnl, .sess, .tim, .axes, .evt, .pwr] s x1 := by
    unfold x1
    refine Keeps.ite ?_ ?_
    · refine Keeps.then (State.rampedStop_keeps ..) rfl ?_
      exact Keeps.refl _ _
    · exact Keeps.refl _ _
  clear_value x1
  have k6 : Keeps [.out, .regs, .pen, .jnl, .sess, .tim, .axes, .evt, .pwr] s x3 := by
    unfold x3
    split
    · rename_i y7 y8
      exact k5
    · rename_i y9 y10 y11
      extract_lets x12
      have k13 : Keeps [.out, .regs, .pen, .jnl, .sess, .tim, .axes, .evt, .pwr] s x12 := by
        unfold x12
        refine Keeps.then (State.setAx_keeps ..) rfl ?_
        exact k5
      clear_value x12
      refine Keeps.then (State.endMotion_keeps ..) rfl ?_
      refine Keeps.then (State.axisCompares_keeps ..) rfl ?_
      exact k13
  clear_value x3
  refine Keeps.ite ?_ ?_
  · exact Keeps.refl _ _
  · refine Keeps.then (State.axCoils_keeps ..) rfl ?_
    refine Keeps.then (State.setAx_keeps ..) rfl ?_
    exact k6

theorem State.duskCal_keeps (s) : Keeps [.out, .regs, .jnl, .sess, .evt, .cal] s (State.duskCal s) := by
  unfold State.duskCal
  refine Keeps.then (State.calCutAll_keeps ..) rfl ?_
  exact Keeps.refl _ _

theorem State.duskCameras_keeps (s target) : Keeps [.out, .regs, .ports] s (State.duskCameras s target) := by
  unfold State.duskCameras
  refine Keeps.foldl ?_ ?_
  · exact Keeps.refl _ _
  · intro u1 e2 k3
    extract_lets x4 x5
    have k6 : Keeps [.out, .regs, .ports] s x4 := by
      unfold x4
      refine Keeps.then (State.emit_keeps ..) rfl ?_
      exact k3
    clear_value x4
    have k7 : Keeps [.out, .regs, .ports] s x5 := by
      unfold x5
      refine Keeps.ite ?_ ?_
      · refine Keeps.then (State.setDomain_keeps ..) rfl ?_
        refine Keeps.then (State.emit_keeps ..) rfl ?_
        exact k6
      · exact k6
    clear_value x5
    refine Keeps.ite ?_ ?_
    · refine Keeps.then (State.modPort_keeps ..) rfl ?_
      refine Keeps.then (State.setFld_keeps ..) rfl ?_
      exact k7
    · exact k3

theorem State.duskTarget_keeps (s target from') : Keeps allParts s (State.duskTarget s target from') := by
  unfold State.duskTarget
  split
  · rename_i y1
    refine Keeps.then (State.toNight_keeps ..) rfl ?_
    exact Keeps.refl _ _
  · rename_i y2
    refine Keeps.then (State.toNight_keeps ..) rfl ?_
    refine Keeps.then (State.setFld_keeps ..) rfl ?_
    exact Keeps.refl _ _
  · rename_i y3
    extract_lets x4 x5
    have k6 : Keeps allParts s x4 := by
      unfold x4
      refine Keeps.then (State.dieLost_keeps ..) rfl ?_
      exact Keeps.refl _ _
    clear_value x4
    refine Keeps.then (State.startSunrise_keeps ..) rfl ?_
    refine Keeps.set_pwr rfl ?_
    exact k6
  · rename_i y7
    refine Keeps.then (State.startDawn_keeps ..) rfl ?_
    exact Keeps.refl _ _
  · rename_i y8 y9 y10 y11 y12
    refine Keeps.then (State.toNight_keeps ..) rfl ?_
    exact Keeps.refl _ _

theorem State.saveSeams_keeps (s) : Keeps [.pwr] s (State.saveSeams s) := by
  unfold State.saveSeams
  extract_lets x1 x2 x3
  refine Keeps.set_pwr rfl ?_
  exact Keeps.refl _ _

theorem State.duskFlash_keeps (s) : Keeps [.pwr] s (State.duskFlash s) := by
  unfold State.duskFlash
  extract_lets x1 x2 x3 x4
  have k5 : Keeps [.pwr] s x1 := by
    unfold x1
    refine Keeps.then (State.saveSeams_keeps ..) rfl ?_
    refine Keeps.then (State.flashTraining_keeps ..) rfl ?_
    exact Keeps.refl _ _
  clear_value x1
  refine Keeps.set_pwr rfl ?_
  exact k5

theorem State.modeDone_keeps (s who) : Keeps [.out, .regs, .jnl, .sess, .evt] s (State.modeDone s who) := by
  unfold State.modeDone
  split
  · rename_i y1
    exact Keeps.refl _ _
  · rename_i y2 y3 y4
    refine Keeps.then (State.finishDesc_keeps ..) rfl ?_
    exact Keeps.refl _ _

theorem State.duskJob_keeps (s keep j) : Keeps [.freeIdx, .out, .regs, .jobs, .jnl, .sess, .evt, .crcs] s (State.duskJob s keep j) := by
  unfold State.duskJob
  extract_lets x1 x2
  have k3 : Keeps [.freeIdx, .out, .regs, .jobs, .jnl, .sess, .evt, .crcs] s x1 := by
    unfold x1
    refine Keeps.ite ?_ ?_
    · refine Keeps.then (State.fire_keeps ..) rfl ?_
      refine Keeps.then (State.bump_keeps ..) rfl ?_
      exact Keeps.refl _ _
    · exact Keeps.refl _ _
  clear_value x1
  have k4 : Keeps [.freeIdx, .out, .regs, .jobs, .jnl, .sess, .evt, .crcs] s x2 := by
    unfold x2
    refine Keeps.ite ?_ ?_
    · refine Keeps.then (State.dropJob_keeps ..) rfl ?_
      exact k3
    · refine Keeps.then (State.jobEnd_keeps ..) rfl ?_
      exact k3
  clear_value x2
  refine Keeps.ite ?_ ?_
  · refine Keeps.then (State.checkpoint_keeps ..) rfl ?_
    exact k3
  · refine Keeps.ite ?_ ?_
    · refine Keeps.then (State.crcEnd_keeps ..) rfl ?_
      exact k4
    · exact k4

theorem State.duskEnd_keeps (s) : Keeps allParts s (State.duskEnd s) := by
  unfold State.duskEnd
  extract_lets x1 x2 x3 x4 x5
  have k6 : Keeps allParts s x3 := by
    unfold x3
    refine Keeps.ite ?_ ?_
    · exact Keeps.refl _ _
    · refine Keeps.then (State.duskCal_keeps ..) rfl ?_
      refine Keeps.foldl ?_ ?_
      · exact Keeps.refl _ _
      · intro u7 e8 k9
        refine Keeps.then (State.duskJob_keeps ..) rfl ?_
        exact k9
  clear_value x3
  have k10 : Keeps allParts s x4 := by
    unfold x4
    refine Keeps.then (State.emit_keeps ..) rfl ?_
    refine Keeps.then (State.setDomain_keeps ..) rfl ?_
    refine Keeps.then (State.duskAxis_keeps ..) rfl ?_
    refine Keeps.then (State.duskAxis_keeps ..) rfl ?_
    exact k6
  clear_value x4
  have k11 : Keeps allParts s x5 := by
    unfold x5
    refine Keeps.then (State.jnlMerge_keeps ..) rfl ?_
    refine Keeps.then (State.modeDone_keeps ..) rfl ?_
    refine Keeps.then (State.duskFlash_keeps ..) rfl ?_
    refine Keeps.then (State.duskCameras_keeps ..) rfl ?_
    exact k10
  clear_value x5
  refine Keeps.then (State.duskTarget_keeps ..) rfl ?_
  exact k11

theorem State.duskStopped_keeps (s) : Keeps [.regs, .evt] s (State.duskStopped s) := by
  unfold State.duskStopped
  refine Keeps.foldl ?_ ?_
  · exact Keeps.refl _ _
  · intro u1 e2 k3
    refine Keeps.ite ?_ ?_
    · refine Keeps.then (State.fire_keeps ..) rfl ?_
      refine Keeps.then (State.setFld_keeps ..) rfl ?_
      exact k3
    · exact k3

theorem State.webCompares_keeps (s) : Keeps [.out, .regs, .pen, .jnl, .sess, .tim, .axes, .evt, .pwr] s (State.webCompares s) := by
  unfold State.webCompares
  refine Keeps.foldl ?_ ?_
  · exact Keeps.refl _ _
  · intro u1 e2 k3
    refine Keeps.foldl ?_ ?_
    · exact k3
    · intro u4 e5 k6
      refine Keeps.ite ?_ ?_
      · refine Keeps.then (State.fireCompare_keeps ..) rfl ?_
        exact k6
      · exact k6

theorem State.giveBand_keeps (s c cp o b) : Keeps [.out, .regs, .ctxs, .ovw, .tim, .fab] s (State.giveBand s c cp o b) := by
  unfold State.giveBand
  split
  · rename_i y1 y2
    exact Keeps.refl _ _
  · rename_i y3 y4 y5
    extract_lets x6 x7 x8 x9 x10
    have k11 : Keeps [.out, .regs, .ctxs, .ovw, .tim, .fab] s x10 := by
      unfold x10
      refine Keeps.then (State.setCtx_keeps ..) rfl ?_
      exact Keeps.refl _ _
    clear_value x10
    refine Keeps.ite ?_ ?_
    · exact Keeps.refl _ _
    · refine Keeps.then (State.flushWaiting_keeps ..) rfl ?_
      exact k11

theorem State.putLine_keeps (s c cp o phaseErr) : Keeps [.out, .regs, .ctxs, .ovw, .tim, .fab] s (State.putLine s c cp o phaseErr) := by
  unfold State.putLine
  extract_lets x1 x2 x3 x4 x5 x6
  have k7 : Keeps [.out, .regs, .ctxs, .ovw, .tim, .fab] s x1 := by
    unfold x1
    refine Keeps.then (State.setInt64_keeps ..) rfl ?_
    exact Keeps.refl _ _
  clear_value x1
  have k8 : Keeps [.out, .regs, .ctxs, .ovw, .tim, .fab] s x2 := by
    unfold x2
    refine Keeps.ite ?_ ?_
    · refine Keeps.then (State.setFld_keeps ..) rfl ?_
      refine Keeps.then (State.bump_keeps ..) rfl ?_
      exact k7
    · exact k7
  clear_value x2
  have k9 : Keeps [.out, .regs, .ctxs, .ovw, .tim, .fab] s x3 := by
    unfold x3
    refine Keeps.foldl ?_ ?_
    · exact k8
    · intro u10 e11 k12
      refine Keeps.then (State.giveBand_keeps ..) rfl ?_
      exact k12
  clear_value x3
  have k13 : Keeps [.out, .regs, .ctxs, .ovw, .tim, .fab] s x6 := by
    unfold x6
    refine Keeps.then (State.setCtx_keeps ..) rfl ?_
    exact k9
  clear_value x6
  refine Keeps.then (State.flushWaiting_keeps ..) rfl ?_
  exact k13

theorem State.passLines_keeps (s c cp y a4 a5) : Keeps [.out, .regs, .ctxs, .ovw, .tim, .fab] s (State.passLines s c cp y a4 a5) := by
  induction a4 generalizing s c cp y a5
  · unfold State.passLines
    exact Keeps.refl _ _
  · rename_i y1 y2
    unfold State.passLines
    extract_lets x3 x4 x5
    have k6 : Keeps [.out, .regs, .ctxs, .ovw, .tim, .fab] s x5 := by
      unfold x5
      refine Keeps.then (State.setCtx_keeps ..) rfl ?_
      exact Keeps.refl _ _
    clear_value x5
    refine Keeps.ite ?_ ?_
    · refine Keeps.then (y2 _ _ _ _ _) rfl ?_
      refine Keeps.then (State.putLine_keeps ..) rfl ?_
      exact k6
    · exact Keeps.refl _ _

theorem State.passCtx_keeps (s c cp) : Keeps [.out, .regs, .ctxs, .slices, .ovw, .tim, .fab] s (State.passCtx s c cp) := by
  unfold State.passCtx
  extract_lets x1 x2 x3 x4
  have k5 : Keeps [.out, .regs, .ctxs, .slices, .ovw, .tim, .fab] s x2 := by
    unfold x2
    refine Keeps.then (State.wakeSlice_keeps ..) rfl ?_
    exact Keeps.refl _ _
  clear_value x2
  refine Keeps.ite ?_ ?_
  · exact Keeps.refl _ _
  · split
    · rename_i y6 y7
      refine Keeps.then (State.setCtx_keeps ..) rfl ?_
      exact k5
    · rename_i y8 y9 y10
      refine Keeps.then (State.passLines_keeps ..) rfl ?_
      exact k5

theorem State.passDown_keeps (s) : Keeps [.out, .regs, .ctxs, .slices, .ovw, .tim, .fab] s (State.passDown s) := by
  unfold State.passDown
  split
  · rename_i y1 y2
    exact Keeps.refl _ _
  · rename_i y3 y4 y5
    refine Keeps.foldl ?_ ?_
    · exact Keeps.refl _ _
    · intro u6 e7 k8
      refine Keeps.then (State.passCtx_keeps ..) rfl ?_
      exact k8

theorem State.encDrives_keeps (s k d) : Keeps [.out, .regs, .ports, .ctxs, .slices, .pen, .jnl, .ovw, .sess, .tim, .fab, .dividers,
    .axes, .evt, .pwr] s (State.encDrives s k d) := by
  unfold State.encDrives
  extract_lets x1 x2 x3
  have k4 : Keeps [.out, .regs, .ports, .ctxs, .slices, .pen, .jnl, .ovw, .sess, .tim, .fab, .dividers, .axes, .evt, .pwr] s x3 := by
    unfold x3
    refine Keeps.foldl ?_ ?_
    · exact Keeps.refl _ _
    · intro u5 e6 k7
      refine Keeps.then (State.divide_keeps ..) rfl ?_
      exact k7
  clear_value x3
  refine Keeps.ite ?_ ?_
  · exact Keeps.refl _ _
  · refine Keeps.then (State.passDown_keeps ..) rfl ?_
    refine Keeps.ite ?_ ?_
    · refine Keeps.then (State.webCompares_keeps ..) rfl ?_
      exact k4
    · exact k4

theorem State.encCount_keeps (s k d) : Keeps [.out, .regs, .ports, .ctxs, .slices, .pen, .jnl, .ovw, .sess, .tim, .fab, .encs,
    .dividers, .axes, .evt, .pwr] s (State.encCount s k d) := by
  unfold State.encCount
  extract_lets x1 x2 x3
  have k4 : Keeps [.out, .regs, .ports, .ctxs, .slices, .pen, .jnl, .ovw, .sess, .tim, .fab, .encs, .dividers, .axes, .evt,
      .pwr] s x3 := by
    unfold x3
    refine Keeps.then (State.setEnc_keeps ..) rfl ?_
    refine Keeps.then (State.setFld_keeps ..) rfl ?_
    exact Keeps.refl _ _
  clear_value x3
  refine Keeps.then (State.encDrives_keeps ..) rfl ?_
  refine Keeps.then (State.setInt64_keeps ..) rfl ?_
  exact k4

theorem State.encDirection_keeps (s k d) : Keeps [.regs, .evt] s (State.encDirection s k d) := by
  unfold State.encDirection
  extract_lets x1
  refine Keeps.then (State.fireIf_keeps ..) rfl ?_
  refine Keeps.then (State.setFlag_keeps ..) rfl ?_
  exact Keeps.refl _ _

theorem State.encIllegal_keeps (s k) : Keeps [.regs, .evt] s (State.encIllegal s k) := by
  unfold State.encIllegal
  refine Keeps.then (State.fire_keeps ..) rfl ?_
  refine Keeps.then (State.bump_keeps ..) rfl ?_
  refine Keeps.then (State.setFld_keeps ..) rfl ?_
  exact Keeps.refl _ _

theorem State.encGuess_keeps (s k size dir) : Keeps [.out, .regs, .ports, .ctxs, .slices, .pen, .jnl, .ovw, .sess, .tim, .fab, .encs,
    .dividers, .axes, .evt, .pwr] s (State.encGuess s k size dir) := by
  unfold State.encGuess
  extract_lets x1 x2
  have k3 : Keeps [.out, .regs, .ports, .ctxs, .slices, .pen, .jnl, .ovw, .sess, .tim, .fab, .encs, .dividers, .axes, .evt,
      .pwr] s x1 := by
    unfold x1
    refine Keeps.then (State.encIllegal_keeps ..) rfl ?_
    exact Keeps.refl _ _
  clear_value x1
  refine Keeps.ite ?_ ?_
  · refine Keeps.then (State.encCount_keeps ..) rfl ?_
    exact k3
  · exact k3

theorem State.encInvalid_keeps (s k) : Keeps [.regs, .evt] s (State.encInvalid s k) := by
  unfold State.encInvalid
  refine Keeps.then (State.fire_keeps ..) rfl ?_
  refine Keeps.then (State.bump_keeps ..) rfl ?_
  refine Keeps.then (State.setFld_keeps ..) rfl ?_
  exact Keeps.refl _ _

theorem State.encMiss_keeps (s k) : Keeps [.regs, .encs, .evt] s (State.encMiss s k) := by
  unfold State.encMiss
  extract_lets x1 x2 x3
  have k4 : Keeps [.regs, .encs, .evt] s x1 := by
    unfold x1
    refine Keeps.then (State.fire_keeps ..) rfl ?_
    refine Keeps.then (State.bump_keeps ..) rfl ?_
    refine Keeps.then (State.setFld_keeps ..) rfl ?_
    exact Keeps.refl _ _
  clear_value x1
  have k5 : Keeps [.regs, .encs, .evt] s x3 := by
    unfold x3
    refine Keeps.then (State.setEnc_keeps ..) rfl ?_
    exact k4
  clear_value x3
  refine Keeps.ite ?_ ?_
  · refine Keeps.then (State.encSuspect_keeps ..) rfl ?_
    exact k5
  · exact k5

theorem State.endClaims_keeps (s n) : Keeps [.regs, .tim, .axes, .evt] s (State.endClaims s n) := by
  unfold State.endClaims
  extract_lets x1 x2 x3 x4
  have k5 : Keeps [.regs, .tim, .axes, .evt] s x1 := by
    unfold x1
    refine Keeps.foldl ?_ ?_
    · exact Keeps.refl _ _
    · intro u6 e7 k8
      extract_lets x9
      split
      · rename_i y10 y11 y12
        refine Keeps.ite ?_ ?_
        · refine Keeps.then (State.toutActive_keeps ..) rfl ?_
          refine Keeps.then (State.setTout_keeps ..) rfl ?_
          exact k8
        · exact k8
      · rename_i y13 y14
        exact k8
  clear_value x1
  have k15 : Keeps [.regs, .tim, .axes, .evt] s x2 := by
    unfold x2
    refine Keeps.foldl ?_ ?_
    · exact k5
    · intro u16 e17 k18
      extract_lets x19
      refine Keeps.then (State.axRegs_keeps ..) rfl ?_
      refine Keeps.then (State.setAx_keeps ..) rfl ?_
      exact k18
  clear_value x2
  have k20 : Keeps [.regs, .tim, .axes, .evt] s x3 := by
    unfold x3
    refine Keeps.foldl ?_ ?_
    · exact k15
    · intro u21 e22 k23
      refine Keeps.then (State.setQueue_keeps ..) rfl ?_
      exact k23
  clear_value x3
  refine Keeps.set_evt rfl ?_
  exact k20

theorem State.portLoop_keeps (s p old new) : Keeps [.out, .regs, .ports, .jnl, .sess, .evt, .cal] s (State.portLoop s p old new) := by
  unfold State.portLoop
  extract_lets x1 x2
  have k3 : Keeps [.out, .regs, .ports, .jnl, .sess, .evt, .cal] s x1 := by
    unfold x1
    refine Keeps.ite ?_ ?_
    · refine Keeps.then (State.emit_keeps ..) rfl ?_
      exact Keeps.refl _ _
    · exact Keeps.refl _ _
  clear_value x1
  have k4 : Keeps [.out, .regs, .ports, .jnl, .sess, .evt, .cal] s x2 := by
    unfold x2
    refine Keeps.ite ?_ ?_
    · refine Keeps.then (State.emit_keeps ..) rfl ?_
      exact k3
    · exact k3
  clear_value x2
  refine Keeps.ite ?_ ?_
  · exact Keeps.refl _ _
  · refine Keeps.ite ?_ ?_
    · refine Keeps.ite ?_ ?_
      · refine Keeps.then (State.discover_keeps ..) rfl ?_
        exact k3
      · refine Keeps.then (State.setFld_keeps ..) rfl ?_
        exact k3
    · refine Keeps.then (State.setFld_keeps ..) rfl ?_
      exact k4

theorem State.endLoops_keeps (s) : Keeps [.out, .regs, .ports, .jnl, .sess, .evt, .cal] s (State.endLoops s) := by
  unfold State.endLoops
  refine Keeps.foldl ?_ ?_
  · exact Keeps.refl _ _
  · intro u1 e2 k3
    refine Keeps.then (State.portLoop_keeps ..) rfl ?_
    refine Keeps.then (State.setFld_keeps ..) rfl ?_
    exact k3

theorem State.ensignForward_keeps (s e b) : Keeps [.out] s (State.ensignForward s e b) := by
  unfold State.ensignForward
  refine Keeps.ite ?_ ?_
  · refine Keeps.then (State.emit_keeps ..) rfl ?_
    exact Keeps.refl _ _
  · exact Keeps.refl _ _

theorem State.neighbourBack_keeps (s a) : Keeps [.regs, .seam, .fab, .evt] s (State.neighbourBack s a) := by
  unfold State.neighbourBack
  extract_lets x1 x2 x3 x4 x5 x6 x7 x8 x9 x10 x11 x12 x13
  have k14 : Keeps [.regs, .seam, .fab, .evt] s x6 := by
    unfold x6
    refine Keeps.set_fab rfl ?_
    exact Keeps.refl _ _
  clear_value x6
  have k15 : Keeps [.regs, .seam, .fab, .evt] s x11 := by
    unfold x11
    refine Keeps.set_seam rfl ?_
    exact k14
  clear_value x11
  have k16 : Keeps [.regs, .seam, .fab, .evt] s x12 := by
    unfold x12
    refine Keeps.ite ?_ ?_
    · refine Keeps.then (State.setFld_keeps ..) rfl ?_
      exact k15
    · exact k15
  clear_value x12
  have k17 : Keeps [.regs, .seam, .fab, .evt] s x13 := by
    unfold x13
    refine Keeps.ite ?_ ?_
    · refine Keeps.then (State.setFld_keeps ..) rfl ?_
      exact k16
    · exact k16
  clear_value x13
  split
  · rename_i y18 y19 y20
    refine Keeps.ite ?_ ?_
    · exact Keeps.refl _ _
    · refine Keeps.then (State.fire_keeps ..) rfl ?_
      exact k17
  · rename_i y21 y22
    exact Keeps.refl _ _

theorem State.setCoord_keeps (s serial) : Keeps [.regs, .evt] s (State.setCoord s serial) := by
  unfold State.setCoord
  refine Keeps.then (State.fireIf_keeps ..) rfl ?_
  refine Keeps.then (State.setFlag_keeps ..) rfl ?_
  refine Keeps.then (State.set64_keeps ..) rfl ?_
  exact Keeps.refl _ _

theorem State.followCoord_keeps (s p) : Keeps [.regs, .evt] s (State.followCoord s p) := by
  unfold State.followCoord
  extract_lets x1
  refine Keeps.ite ?_ ?_
  · refine Keeps.then (State.setCoord_keeps ..) rfl ?_
    exact Keeps.refl _ _
  · exact Keeps.refl _ _

theorem State.ensignHeard_keeps (s e b) : Keeps [.regs, .seam, .fab, .evt] s (State.ensignHeard s e b) := by
  unfold State.ensignHeard
  extract_lets x1 x2 x3 x4 x5 x6 x7
  have k8 : Keeps [.regs, .seam, .fab, .evt] s x3 := by
    unfold x3
    refine Keeps.set_fab rfl ?_
    exact Keeps.refl _ _
  have k9 : Keeps [.regs, .seam, .fab, .evt] s x4 := by
    unfold x4
    refine Keeps.then (State.confirmAddress_keeps ..) rfl ?_
    refine Keeps.then (State.followCoord_keeps ..) rfl ?_
    refine Keeps.then (State.countModules_keeps ..) rfl ?_
    exact k8
  have k10 : Keeps [.regs, .seam, .fab, .evt] s x6 := by
    unfold x6
    refine Keeps.ite ?_ ?_
    · refine Keeps.then (State.fabDiscover_keeps ..) rfl ?_
      exact k9
    · refine Keeps.ite ?_ ?_
      · refine Keeps.then (State.setFld_keeps ..) rfl ?_
        exact k9
      · exact k9
  have k11 : Keeps [.regs, .seam, .fab, .evt] s x7 := by
    unfold x7
    refine Keeps.ite ?_ ?_
    · refine Keeps.then (State.neighbourBack_keeps ..) rfl ?_
      exact k10
    · exact k10
  refine Keeps.ite ?_ ?_
  · refine Keeps.then (State.mismatchCheck_keeps ..) rfl ?_
    exact k11
  · exact k11

theorem State.fabChans_keeps (s) : Keeps [.freeIdx] s (State.fabChans s).2 := by
  unfold State.fabChans
  split
  · rename_i y1 y2 y3
    dsimp -zeta only
    exact Keeps.refl _ _
  · rename_i y4 y5
    extract_lets x6
    have k7 : Keeps [.freeIdx] s x6.2 := by
      unfold x6
      refine Keeps.then (State.takeFree_keeps ..) rfl ?_
      exact Keeps.refl _ _
    clear_value x6
    dsimp -zeta only
    exact k7

theorem State.fabDone_keeps (s o) : Keeps [.fab] s (State.fabDone s o) := by
  unfold State.fabDone
  extract_lets x1
  refine Keeps.set_fab rfl ?_
  exact Keeps.refl _ _

theorem State.fabFor_keeps (s b type) : Yields (fun r => r.2) [.regs, .seam, .fab, .evt] s (State.fabFor s b type) := by
  unfold State.fabFor
  extract_lets x1
  refine Yields.ite ?_ ?_
  · refine Yields.some ?_
    dsimp -zeta only
    refine Keeps.then (State.neighbourBack_keeps ..) rfl ?_
    exact Keeps.refl _ _
  · exact Yields.none

theorem State.fabPassed_keeps (s src type seq) : Keeps [.fab] s (State.fabPassed s src type seq) := by
  unfold State.fabPassed
  extract_lets x1
  refine Keeps.set_fab rfl ?_
  exact Keeps.refl _ _

theorem State.fabRefused_keeps (s st) : Keeps [.out, .regs, .jnl, .pln, .sess, .evt] s (State.fabRefused s st) := by
  unfold State.fabRefused
  split
  · rename_i y1 y2 y3
    refine Keeps.then (State.compileRefused_keeps ..) rfl ?_
    exact Keeps.refl _ _
  · rename_i y4 y5
    refine Keeps.then (State.planStatus_keeps ..) rfl ?_
    exact Keeps.refl _ _

theorem State.fabReply_keeps (s dest type ref body) : Keeps [.out, .tim, .fab] s (State.fabReply s dest type ref body) := by
  unfold State.fabReply
  extract_lets x1 x2 x3
  refine Keeps.then (State.fabEmit_keeps ..) rfl ?_
  refine Keeps.set_fab rfl ?_
  exact Keeps.refl _ _

theorem State.fabStale_keeps (s) : Keeps [.regs] s (State.fabStale s) := by
  unfold State.fabStale
  refine Keeps.then (State.bump_keeps ..) rfl ?_
  exact Keeps.refl _ _

theorem State.fabTook_keeps (s src type seq) : Keeps [.fab] s (State.fabTook s src type seq) := by
  unfold State.fabTook
  extract_lets x1 x2 x3
  refine Keeps.set_fab rfl ?_
  exact Keeps.refl _ _

theorem State.fallbackDown_keeps (s n keep) : Keeps [.out, .regs, .jnl, .pln, .sess, .evt] s (State.fallbackDown s n keep) := by
  unfold State.fallbackDown
  extract_lets x1 x2 x3 x4
  have k5 : Keeps [.out, .regs, .jnl, .pln, .sess, .evt] s x1 := by
    unfold x1
    refine Keeps.then (State.setFlds_keeps ..) rfl ?_
    exact Keeps.refl _ _
  clear_value x1
  have k6 : Keeps [.out, .regs, .jnl, .pln, .sess, .evt] s x2 := by
    unfold x2
    refine Keeps.then (State.planNumber_keeps ..) rfl ?_
    refine Keeps.then (State.bump_keeps ..) rfl ?_
    exact k5
  clear_value x2
  have k7 : Keeps [.out, .regs, .jnl, .pln, .sess, .evt] s x3 := by
    unfold x3
    refine Keeps.then (State.journal_keeps ..) rfl ?_
    exact k6
  clear_value x3
  have k8 : Keeps [.out, .regs, .jnl, .pln, .sess, .evt] s x4 := by
    unfold x4
    refine Keeps.then (State.noticeAll_keeps ..) rfl ?_
    exact k7
  clear_value x4
  refine Keeps.ite ?_ ?_
  · refine Keeps.then (State.enterMode_keeps ..) rfl ?_
    exact k8
  · exact k8

theorem State.sliceFallback_keeps (s o p n) : Keeps [.regs, .ctxs, .slices, .jnl, .evt] s (State.sliceFallback s o p n) := by
  unfold State.sliceFallback
  extract_lets x1 x2 x3
  have k4 : Keeps [.regs, .ctxs, .slices, .jnl, .evt] s x3 := by
    unfold x3
    refine Keeps.foldl ?_ ?_
    · exact Keeps.refl _ _
    · intro u5 e6 k7
      split
      · rename_i y8 y9 y10
        refine Keeps.then (State.wakeSlice_keeps ..) rfl ?_
        exact k7
      · rename_i y11 y12
        exact k7
  clear_value x3
  refine Keeps.then (State.catchUp_keeps ..) rfl ?_
  exact k4

theorem State.flashFailed_keeps (s m mask) : Keeps [.pwr] s (State.flashFailed s m mask) := by
  unfold State.flashFailed
  extract_lets x1 x2
  refine Keeps.set_pwr rfl ?_
  exact Keeps.refl _ _

theorem State.ringLost_keeps (s) : Keeps [.regs, .ring] s (State.ringLost s) := by
  unfold State.ringLost
  extract_lets x1 x2
  have k3 : Keeps [.regs, .ring] s x2 := by
    unfold x2
    refine Keeps.set_ring rfl ?_
    exact Keeps.refl _ _
  clear_value x2
  refine Keeps.then (State.ringRegs_keeps ..) rfl ?_
  refine Keeps.then (State.setFld_keeps ..) rfl ?_
  exact k3

theorem State.migrationDone_keeps (s m) : Keeps [.out, .regs, .mem, .sess, .evt, .pwr] s (State.migrationDone s m) := by
  unfold State.migrationDone
  split
  · rename_i y1 y2
    exact Keeps.refl _ _
  · rename_i y3 y4 y5
    extract_lets x6 x7
    have k8 : Keeps [.out, .regs, .mem, .sess, .evt, .pwr] s x6 := by
      unfold x6
      refine Keeps.then (State.modMc_keeps ..) rfl ?_
      exact Keeps.refl _ _
    clear_value x6
    have k9 : Keeps [.out, .regs, .mem, .sess, .evt, .pwr] s x7 := by
      unfold x7
      refine Keeps.then (State.setFld_keeps ..) rfl ?_
      refine Keeps.then (State.setFld_keeps ..) rfl ?_
      refine Keeps.then (State.setFld_keeps ..) rfl ?_
      exact k8
    clear_value x7
    refine Keeps.then (State.rankReturn_keeps ..) rfl ?_
    refine Keeps.then (State.mcAlert_keeps ..) rfl ?_
    refine Keeps.then (State.flashFailed_keeps ..) rfl ?_
    exact k9

theorem State.toAfternoon_keeps (s) : Keeps [.out, .regs, .sess, .evt] s (State.toAfternoon s) := by
  unfold State.toAfternoon
  refine Keeps.ite ?_ ?_
  · refine Keeps.then (State.enterMode_keeps ..) rfl ?_
    exact Keeps.refl _ _
  · exact Keeps.refl _ _

theorem State.replayStart_keeps (s cause) : Keeps [.out, .regs, .sess, .evt] s (State.replayStart s cause) := by
  unfold State.replayStart
  refine Keeps.then (State.toAfternoon_keeps ..) rfl ?_
  refine Keeps.then (State.fire_keeps ..) rfl ?_
  refine Keeps.then (State.setFld_keeps ..) rfl ?_
  refine Keeps.then (State.setFld_keeps ..) rfl ?_
  exact Keeps.refl _ _

theorem State.rankSwitch_keeps (s m k wasSpare) : Keeps [.out, .regs, .ring, .mem, .sess, .evt,
    .pwr] s (State.rankSwitch s m k wasSpare) := by
  unfold State.rankSwitch
  extract_lets x1 x2 x3 x4 x5
  have k6 : Keeps [.out, .regs, .ring, .mem, .sess, .evt, .pwr] s x3 := by
    unfold x3
    refine Keeps.then (State.setFld_keeps ..) rfl ?_
    refine Keeps.then (State.setFld_keeps ..) rfl ?_
    refine Keeps.then (State.setFld_keeps ..) rfl ?_
    exact Keeps.refl _ _
  clear_value x3
  have k7 : Keeps [.out, .regs, .ring, .mem, .sess, .evt, .pwr] s x4 := by
    unfold x4
    refine Keeps.then (State.setFld_keeps ..) rfl ?_
    refine Keeps.then (State.setFld_keeps ..) rfl ?_
    exact k6
  clear_value x4
  have k8 : Keeps [.out, .regs, .ring, .mem, .sess, .evt, .pwr] s x5 := by
    unfold x5
    refine Keeps.then (State.replayStart_keeps ..) rfl ?_
    refine Keeps.then (State.modMc_keeps ..) rfl ?_
    exact k7
  clear_value x5
  refine Keeps.ite ?_ ?_
  · exact Keeps.refl _ _
  · refine Keeps.ite ?_ ?_
    · refine Keeps.ite ?_ ?_
      · refine Keeps.then (State.migrationDone_keeps ..) rfl ?_
        exact k8
      · exact k8
    · refine Keeps.then (State.replayStart_keeps ..) rfl ?_
      refine Keeps.then (State.ringLost_keeps ..) rfl ?_
      refine Keeps.then (State.flashFailed_keeps ..) rfl ?_
      refine Keeps.then (State.setFld_keeps ..) rfl ?_
      exact Keeps.refl _ _

theorem State.fallbackLive_keeps (s n p) : Keeps [.freeIdx, .out, .regs, .ports, .ctxs, .slices, .coders, .ring, .jobs, .seam, .pen,
    .jnl, .ovw, .mem, .pln, .sess, .tim, .fab, .encs, .dividers, .axes, .evt, .cal, .pwr] s (State.fallbackLive s n p) := by
  unfold State.fallbackLive
  split
  · rename_i y1 y2
    exact Keeps.refl _ _
  · rename_i y3 y4 y5
    extract_lets x6 x7 x8 x9 x10 x11 x12 x13 x14 x15 x16
    have k17 : Keeps [.freeIdx, .out, .regs, .ports, .ctxs, .slices, .coders, .ring, .jobs, .seam, .pen, .jnl, .ovw, .mem, .pln, .sess,
        .tim, .fab, .encs, .dividers, .axes, .evt, .cal, .pwr] s x6 := by
      unfold x6
      refine Keeps.then (State.calCutAll_keeps ..) rfl ?_
      exact Keeps.refl _ _
    clear_value x6
    have k18 : Keeps [.freeIdx, .out, .regs, .ports, .ctxs, .slices, .coders, .ring, .jobs, .seam, .pen, .jnl, .ovw, .mem, .pln, .sess,
        .tim, .fab, .encs, .dividers, .axes, .evt, .cal, .pwr] s x8 := by
      unfold x8
      refine Keeps.foldl ?_ ?_
      · exact k17
      · intro u19 e20 k21
        refine Keeps.ite ?_ ?_
        · refine Keeps.then (State.ctxFallback_keeps ..) rfl ?_
          exact k21
        · exact k21
    clear_value x8
    have k22 : Keeps [.freeIdx, .out, .regs, .ports, .ctxs, .slices, .coders, .ring, .jobs, .seam, .pen, .jnl, .ovw, .mem, .pln, .sess,
        .tim, .fab, .encs, .dividers, .axes, .evt, .cal, .pwr] s x9 := by
      unfold x9
      refine Keeps.ite ?_ ?_
      · refine Keeps.then (State.splitLost_keeps ..) rfl ?_
        exact k18
      · exact k18
    clear_value x9
    have k23 : Keeps [.freeIdx, .out, .regs, .ports, .ctxs, .slices, .coders, .ring, .jobs, .seam, .pen, .jnl, .ovw, .mem, .pln, .sess,
        .tim, .fab, .encs, .dividers, .axes, .evt, .cal, .pwr] s x13 := by
      unfold x13
      refine Keeps.set_pln rfl ?_
      exact k22
    clear_value x13
    have k24 : Keeps [.freeIdx, .out, .regs, .ports, .ctxs, .slices, .coders, .ring, .jobs, .seam, .pen, .jnl, .ovw, .mem, .pln, .sess,
        .tim, .fab, .encs, .dividers, .axes, .evt, .cal, .pwr] s x14 := by
      unfold x14
      refine Keeps.then (State.planRegs_keeps ..) rfl ?_
      refine Keeps.then (State.setFld_keeps ..) rfl ?_
      exact k23
    clear_value x14
    have k25 : Keeps [.freeIdx, .out, .regs, .ports, .ctxs, .slices, .coders, .ring, .jobs, .seam, .pen, .jnl, .ovw, .mem, .pln, .sess,
        .tim, .fab, .encs, .dividers, .axes, .evt, .cal, .pwr] s x15 := by
      unfold x15
      refine Keeps.ite ?_ ?_
      · refine Keeps.then (State.rankSwitch_keeps ..) rfl ?_
        exact k24
      · exact k24
    clear_value x15
    have k26 : Keeps [.freeIdx, .out, .regs, .ports, .ctxs, .slices, .coders, .ring, .jobs, .seam, .pen, .jnl, .ovw, .mem, .pln, .sess,
        .tim, .fab, .encs, .dividers, .axes, .evt, .cal, .pwr] s x16 := by
      unfold x16
      refine Keeps.ite ?_ ?_
      · refine Keeps.then (State.sliceFallback_keeps ..) rfl ?_
        exact k25
      · exact k25
    clear_value x16
    refine Keeps.then (State.fallbackDown_keeps ..) rfl ?_
    exact k26

theorem State.feFlatRun_keeps (s c cp r ln) : Keeps [.regs, .ctxs, .cal] s (State.feFlatRun s c cp r ln) := by
  unfold State.feFlatRun
  extract_lets x1 x2 x3 x4 x5 x6 x7 x8 x9
  have k10 : Keeps [.regs, .ctxs, .cal] s x7 := by
    unfold x7
    refine Keeps.then (State.setCtx_keeps ..) rfl ?_
    exact Keeps.refl _ _
  clear_value x7
  have k11 : Keeps [.regs, .ctxs, .cal] s x9 := by
    unfold x9
    refine Keeps.set_cal rfl ?_
    exact k10
  clear_value x9
  refine Keeps.ite ?_ ?_
  · exact Keeps.refl _ _
  · refine Keeps.ite ?_ ?_
    · refine Keeps.then (State.setFld_keeps ..) rfl ?_
      exact k11
    · exact k11

theorem State.feMissing_keeps (s c ln) : Keeps [.regs, .ctxs, .evt] s (State.feMissing s c ln) := by
  unfold State.feMissing
  extract_lets x1 x2
  refine Keeps.then (State.alert_keeps ..) rfl ?_
  refine Keeps.then (State.setCtx_keeps ..) rfl ?_
  exact Keeps.refl _ _

theorem State.statAddRec_keeps (s c raw) : Keeps [.out, .regs, .sess, .evt, .statHeld] s (State.statAddRec s c raw) := by
  unfold State.statAddRec
  split
  · rename_i y1 y2
    exact Keeps.refl _ _
  · rename_i y3 y4 y5
    split
    · rename_i y6 y7
      exact Keeps.refl _ _
    · rename_i y8 y9 y10
      extract_lets x11 x12
      have k13 : Keeps [.out, .regs, .sess, .evt, .statHeld] s x12 := by
        unfold x12
        refine Keeps.ite ?_ ?_
        · refine Keeps.then (State.bump_keeps ..) rfl ?_
          exact Keeps.refl _ _
        · refine Keeps.set_statHeld rfl ?_
          exact Keeps.refl _ _
      clear_value x12
      refine Keeps.then (State.statFlush_keeps ..) rfl ?_
      exact k13

theorem State.statDone_keeps (s c d) : Keeps [.out, .regs, .sess, .evt, .statHeld] s (State.statDone s c d) := by
  unfold State.statDone
  extract_lets x1 x2
  have k3 : Keeps [.out, .regs, .sess, .evt, .statHeld] s x2 := by
    unfold x2
    refine Keeps.ite ?_ ?_
    · refine Keeps.then (State.alert_keeps ..) rfl ?_
      exact Keeps.refl _ _
    · exact Keeps.refl _ _
  clear_value x2
  refine Keeps.foldl ?_ ?_
  · exact k3
  · intro u4 e5 k6
    extract_lets x7 x8
    have k9 : Keeps [.out, .regs, .sess, .evt, .statHeld] s x8 := by
      unfold x8
      refine Keeps.then (State.statAddRec_keeps ..) rfl ?_
      exact k6
    clear_value x8
    refine Keeps.ite ?_ ?_
    · refine Keeps.then (State.alert_keeps ..) rfl ?_
      exact k9
    · exact k9

theorem State.feedGeo_keeps (s c cp r) : Keeps [.regs, .ctxs] s (State.feedGeo s c cp r) := by
  unfold State.feedGeo
  extract_lets x1 x2 x3
  have k4 : Keeps [.regs, .ctxs] s x3 := by
    unfold x3
    refine Keeps.then (State.setCtx_keeps ..) rfl ?_
    exact Keeps.refl _ _
  clear_value x3
  refine Keeps.ite ?_ ?_
  · refine Keeps.then (State.setFld_keeps ..) rfl ?_
    refine Keeps.then (State.bump_keeps ..) rfl ?_
    exact k4
  · exact k4

theorem State.feRun_keeps (s c cp scale ln) : Keeps [.out, .regs, .ctxs, .sess, .evt, .statHeld] s (State.feRun s c cp scale ln) := by
  unfold State.feRun
  extract_lets x1 x2 x3 x4
  have k5 : Keeps [.out, .regs, .ctxs, .sess, .evt, .statHeld] s x3 := by
    unfold x3
    refine Keeps.then (State.setCtx_keeps ..) rfl ?_
    exact Keeps.refl _ _
  clear_value x3
  have k6 : Keeps [.out, .regs, .ctxs, .sess, .evt, .statHeld] s x4 := by
    unfold x4
    refine Keeps.foldl ?_ ?_
    · refine Keeps.then (State.corCount_keeps ..) rfl ?_
      exact k5
    · intro u7 e8 k9
      refine Keeps.then (State.feedGeo_keeps ..) rfl ?_
      exact k9
  clear_value x4
  refine Keeps.foldl ?_ ?_
  · exact k6
  · intro u10 e11 k12
    refine Keeps.then (State.statDone_keeps ..) rfl ?_
    exact k12

theorem State.feSource_keeps (s c cp) : Yields (fun r => r.2) [.regs, .ctxs, .jnl, .evt] s (State.feSource s c cp) := by
  unfold State.feSource
  split
  · rename_i y1 y2 y3
    refine Yields.then (State.catchLine_keeps _ _ _ _) rfl ?_
    exact Keeps.refl _ _
  · rename_i y4 y5
    extract_lets x6
    refine Yields.ite ?_ ?_
    · split
      · rename_i y7 y8
        exact Yields.none
      · rename_i y9 y10 y11 y12
        refine Yields.some ?_
        dsimp -zeta only
        refine Keeps.then (State.setCtx_keeps ..) rfl ?_
        exact Keeps.refl _ _
    · split
      · rename_i y13 y14
        exact Yields.none
      · rename_i y15 y16 y17
        extract_lets x18
        refine Yields.some ?_
        dsimp -zeta only
        refine Keeps.then (State.fifoDrain_keeps ..) rfl ?_
        refine Keeps.then (State.setCtx_keeps ..) rfl ?_
        exact Keeps.refl _ _

theorem State.fetchEnd_keeps (s n) : Keeps [.out, .regs, .sess, .evt] s (State.fetchEnd s n) := by
  unfold State.fetchEnd
  refine Keeps.then (State.kickFetch_keeps ..) rfl ?_
  refine Keeps.then (State.mirror_keeps ..) rfl ?_
  exact Keeps.refl _ _

theorem State.rowGains_keeps (med a1 a2) : Keeps [.freeIdx] a2 (State.rowGains med a1 a2).2 := by
  induction a1 generalizing med a2
  · unfold State.rowGains
    dsimp -zeta only
    exact Keeps.refl _ _
  · rename_i y1 y2 y3
    unfold State.rowGains
    extract_lets x4 x5
    have k6 : Keeps [.freeIdx] a2 x4.2 := by
      unfold x4
      refine Keeps.ite_map Prod.snd ?_ ?_
      · dsimp -zeta only
        exact Keeps.refl _ _
      · refine Keeps.then (State.takeFree_keeps ..) rfl ?_
        exact Keeps.refl _ _
    clear_value x4
    have k7 : Keeps [.freeIdx] a2 x5.2 := by
      unfold x5
      refine Keeps.then (y3 _ _) rfl ?_
      exact k6
    clear_value x5
    dsimp -zeta only
    exact k7

theorem State.flatGains_keeps (a0 a1) : Keeps [.freeIdx] a1 (State.flatGains a0 a1).2.2 := by
  induction a0 generalizing a1
  · unfold State.flatGains
    dsimp -zeta only
    exact Keeps.refl _ _
  · rename_i y1 y2 y3
    unfold State.flatGains
    extract_lets x4 x5 x6
    have k7 : Keeps [.freeIdx] a1 x5.2 := by
      unfold x5
      refine Keeps.then (State.rowGains_keeps ..) rfl ?_
      exact Keeps.refl _ _
    clear_value x5
    have k8 : Keeps [.freeIdx] a1 x6.2.2 := by
      unfold x6
      refine Keeps.then (y3 _) rfl ?_
      exact k7
    clear_value x6
    dsimp -zeta only
    exact k8

theorem State.flatResult_keeps (s r) : Keeps [.freeIdx, .out, .regs, .jnl, .sess, .evt, .cal] s (State.flatResult s r) := by
  unfold State.flatResult
  extract_lets x1 x2 x3 x4 x5 x6 x7 x8
  have k9 : Keeps [.freeIdx, .out, .regs, .jnl, .sess, .evt, .cal] s x2.2.2 := by
    unfold x2
    refine Keeps.then (State.flatGains_keeps ..) rfl ?_
    exact Keeps.refl _ _
  clear_value x2
  have k10 : Keeps [.freeIdx, .out, .regs, .jnl, .sess, .evt, .cal] s x5.2 := by
    unfold x5
    refine Keeps.then (State.rootFree_keeps ..) rfl ?_
    exact k9
  clear_value x5
  have k11 : Keeps [.freeIdx, .out, .regs, .jnl, .sess, .evt, .cal] s x8.1 := by
    unfold x8
    refine Keeps.ite_map Prod.fst ?_ ?_
    · refine Keeps.then (State.hostWrite_keeps ..) rfl ?_
      exact k10
    · dsimp -zeta only
      exact k10
  clear_value x8
  split
  · rename_i y12 y13 y14
    refine Keeps.then (State.finishDesc_keeps ..) rfl ?_
    refine Keeps.then (State.calGone_keeps ..) rfl ?_
    exact k11
  · rename_i y15 y16
    refine Keeps.then (State.calDone_keeps ..) rfl ?_
    exact k11

theorem State.forgetPlanner_keeps (s n) : Keeps [.regs, .pln, .fab, .cal, .pwr] s (State.forgetPlanner s n) := by
  unfold State.forgetPlanner
  extract_lets x1 x2 x3 x4 x5 x6 x7 x8 x9 x10 x11
  have k12 : Keeps [.regs, .pln, .fab, .cal, .pwr] s x10 := by
    unfold x10
    refine Keeps.set_pln_fab_cal_pwr rfl ?_
    exact Keeps.refl _ _
  clear_value x10
  refine Keeps.ite ?_ ?_
  · refine Keeps.then (State.setFld_keeps ..) rfl ?_
    refine Keeps.set_pln rfl ?_
    exact k12
  · exact k12

theorem State.forgetUnits_keeps (s n) : Keeps [.ports, .axes] s (State.forgetUnits s n) := by
  unfold State.forgetUnits
  extract_lets x1 x2 x3 x4 x5 x6 x7
  have k8 : Keeps [.ports, .axes] s x7 := by
    unfold x7
    refine Keeps.foldl ?_ ?_
    · exact Keeps.refl _ _
    · intro u9 e10 k11
      refine Keeps.then (State.setPort_keeps ..) rfl ?_
      exact k11
  clear_value x7
  refine Keeps.foldl ?_ ?_
  · exact k8
  · intro u12 e13 k14
    refine Keeps.then (State.setAx_keeps ..) rfl ?_
    exact k14

theorem State.forwardCevt_keeps (s p code a2 a4) : Keeps [.out, .regs, .sess, .evt] s (State.forwardCevt s p code a2 a4) := by
  unfold State.forwardCevt
  refine Keeps.then (State.noticeAll_keeps ..) rfl ?_
  refine Keeps.then (State.camNotice_keeps ..) rfl ?_
  exact Keeps.refl _ _

theorem State.gapStart_keeps (s a) : Keeps [.freeIdx] s (State.gapStart s a).2 := by
  unfold State.gapStart
  split
  · rename_i y1 y2 y3
    dsimp -zeta only
    exact Keeps.refl _ _
  · rename_i y4 y5
    extract_lets x6
    have k7 : Keeps [.freeIdx] s x6.2 := by
      unfold x6
      refine Keeps.then (State.takeFree_keeps ..) rfl ?_
      exact Keeps.refl _ _
    clear_value x6
    dsimp -zeta only
    exact k7

theorem State.rebaseAll_keeps (s) : Keeps [.regs, .ctxs, .evt] s (State.rebaseAll s) := by
  unfold State.rebaseAll
  refine Keeps.foldl ?_ ?_
  · exact Keeps.refl _ _
  · intro u1 e2 k3
    refine Keeps.then (State.rebase_keeps ..) rfl ?_
    exact k3

theorem State.gateAll_keeps (s) : Keeps [.freeIdx, .out, .regs, .ctxs, .jobs, .seam, .pen, .jnl, .ovw, .tim, .fab, .axes, .evt,
    .pwr] s (State.gateAll s) := by
  unfold State.gateAll
  extract_lets x1 x2 x3 x4
  have k5 : Keeps [.freeIdx, .out, .regs, .ctxs, .jobs, .seam, .pen, .jnl, .ovw, .tim, .fab, .axes, .evt, .pwr] s x2 := by
    unfold x2
    refine Keeps.foldl ?_ ?_
    · exact Keeps.refl _ _
    · intro u6 e7 k8
      refine Keeps.then (State.closeLive_keeps ..) rfl ?_
      exact k8
  clear_value x2
  have k9 : Keeps [.freeIdx, .out, .regs, .ctxs, .jobs, .seam, .pen, .jnl, .ovw, .tim, .fab, .axes, .evt, .pwr] s x3 := by
    unfold x3
    refine Keeps.then (State.rebaseAll_keeps ..) rfl ?_
    exact k5
  clear_value x3
  have k10 : Keeps [.freeIdx, .out, .regs, .ctxs, .jobs, .seam, .pen, .jnl, .ovw, .tim, .fab, .axes, .evt, .pwr] s x4 := by
    unfold x4
    refine Keeps.foldl ?_ ?_
    · exact k9
    · intro u11 e12 k13
      extract_lets x14
      have k15 : Keeps [.freeIdx, .out, .regs, .ctxs, .jobs, .seam, .pen, .jnl, .ovw, .tim, .fab, .axes, .evt, .pwr] s x14 := by
        unfold x14
        refine Keeps.then (State.setNum_keeps ..) rfl ?_
        refine Keeps.then (State.dropLines_keeps ..) rfl ?_
        exact k13
      clear_value x14
      refine Keeps.then (State.setFld_keeps ..) rfl ?_
      exact k15
  clear_value x4
  refine Keeps.then (State.ovwStop_keeps ..) rfl ?_
  exact k10

theorem State.startDusk_keeps (s target who critical) : Keeps [.freeIdx, .out, .regs, .ctxs, .jobs, .seam, .pen, .jnl, .ovw, .pln,
    .sess, .tim, .fab, .axes, .evt, .pwr] s (State.startDusk s target who critical) := by
  unfold State.startDusk
  extract_lets x1 x2 x3 x4
  have k5 : Keeps [.freeIdx, .out, .regs, .ctxs, .jobs, .seam, .pen, .jnl, .ovw, .pln, .sess, .tim, .fab, .axes, .evt, .pwr] s x3 := by
    unfold x3
    refine Keeps.set_pwr rfl ?_
    exact Keeps.refl _ _
  clear_value x3
  have k6 : Keeps [.freeIdx, .out, .regs, .ctxs, .jobs, .seam, .pen, .jnl, .ovw, .pln, .sess, .tim, .fab, .axes, .evt, .pwr] s x4 := by
    unfold x4
    refine Keeps.ite ?_ ?_
    · refine Keeps.then (State.gateAll_keeps ..) rfl ?_
      exact k5
    · refine Keeps.ite ?_ ?_
      · refine Keeps.then (State.rebaseAll_keeps ..) rfl ?_
        exact k5
      · exact k5
  clear_value x4
  refine Keeps.then (State.duskStopped_keeps ..) rfl ?_
  refine Keeps.then (State.dropOrders_keeps ..) rfl ?_
  refine Keeps.then (State.enterMode_keeps ..) rfl ?_
  refine Keeps.then (State.setFld_keeps ..) rfl ?_
  exact k6

theorem State.toMidnight_keeps (s) : Keeps [.freeIdx, .out, .regs, .slices, .pln, .sess, .evt, .pwr] s (State.toMidnight s) := by
  unfold State.toMidnight
  extract_lets x1
  have k2 : Keeps [.freeIdx, .out, .regs, .slices, .pln, .sess, .evt, .pwr] s x1 := by
    unfold x1
    refine Keeps.foldl ?_ ?_
    · exact Keeps.refl _ _
    · intro u3 e4 k5
      refine Keeps.ite ?_ ?_
      · refine Keeps.then (State.setFld_keeps ..) rfl ?_
        exact k5
      · exact k5
  clear_value x1
  refine Keeps.then (State.diagnose_keeps ..) rfl ?_
  refine Keeps.then (State.enterMode_keeps ..) rfl ?_
  exact k2

theorem State.modeTo_keeps (s target who) : Keeps [.freeIdx, .out, .regs, .ports, .ctxs, .slices, .jobs, .seam, .pen, .jnl, .ovw, .pln,
    .sess, .tim, .fab, .axes, .evt, .cal, .pwr] s (State.modeTo s target who) := by
  unfold State.modeTo
  split
  · rename_i y1
    refine Keeps.then (State.modeDone_keeps ..) rfl ?_
    refine Keeps.then (State.enterMode_keeps ..) rfl ?_
    refine Keeps.ite ?_ ?_
    · refine Keeps.then (State.endLoops_keeps ..) rfl ?_
      exact Keeps.refl _ _
    · exact Keeps.refl _ _
  · rename_i y2
    refine Keeps.then (State.modeDone_keeps ..) rfl ?_
    refine Keeps.ite ?_ ?_
    · exact Keeps.refl _ _
    · refine Keeps.then (State.toMidnight_keeps ..) rfl ?_
      exact Keeps.refl _ _
  · rename_i y3 y4 y5
    refine Keeps.then (State.startDusk_keeps ..) rfl ?_
    exact Keeps.refl _ _

theorem State.modeOrder_keeps (s target who) : Keeps [.freeIdx, .out, .regs, .ports, .ctxs, .slices, .jobs, .seam, .pen, .jnl, .ovw,
    .pln, .sess, .tim, .fab, .axes, .evt, .cal, .pwr] s (State.modeOrder s target who) := by
  unfold State.modeOrder
  extract_lets x1
  refine Keeps.ite ?_ ?_
  · refine Keeps.set_pwr rfl ?_
    exact Keeps.refl _ _
  · refine Keeps.then (State.modeTo_keeps ..) rfl ?_
    exact Keeps.refl _ _

theorem State.resetOrder_keeps (s o target) : Keeps [.freeIdx, .out, .regs, .ports, .ctxs, .slices, .jobs, .seam, .pen, .jnl, .ovw,
    .pln, .sess, .tim, .fab, .axes, .evt, .cal, .pwr] s (State.resetOrder s o target) := by
  unfold State.resetOrder
  refine Keeps.ite ?_ ?_
  · refine Keeps.then (State.finishOrder_keeps ..) rfl ?_
    exact Keeps.refl _ _
  · refine Keeps.then (State.modeOrder_keeps ..) rfl ?_
    exact Keeps.refl _ _

theorem State.snapWrite_keeps (s n idx blocks) : Keeps [.out, .regs, .jnl, .sess, .evt] s (State.snapWrite s n idx blocks) := by
  unfold State.snapWrite
  split
  · rename_i y1 y2
    exact Keeps.refl _ _
  · rename_i y3 y4 y5
    extract_lets x6 x7 x8 x9
    have k10 : Keeps [.out, .regs, .jnl, .sess, .evt] s x9.1 := by
      unfold x9
      refine Keeps.ite_map Prod.fst ?_ ?_
      · dsimp -zeta only
        exact Keeps.refl _ _
      · refine Keeps.then (State.hostWrite_keeps ..) rfl ?_
        exact Keeps.refl _ _
    clear_value x9
    split
    · rename_i y11 y12 y13
      refine Keeps.then (State.finishDesc_keeps ..) rfl ?_
      exact k10
    · rename_i y14 y15
      refine Keeps.then (State.finishDesc_keeps ..) rfl ?_
      exact k10

theorem State.snapGathered_keeps (s) : Keeps [.out, .regs, .jnl, .sess, .fab, .evt] s (State.snapGathered s) := by
  unfold State.snapGathered
  split
  · rename_i y1 y2
    exact Keeps.refl _ _
  · rename_i y3 y4 y5 y6
    extract_lets x7 x8
    refine Keeps.ite ?_ ?_
    · exact Keeps.refl _ _
    · refine Keeps.then (State.snapWrite_keeps ..) rfl ?_
      refine Keeps.set_fab rfl ?_
      exact Keeps.refl _ _

theorem State.snapEffect_keeps (s o) : Keeps [.out, .regs, .jnl, .sess, .tim, .fab, .evt] s (State.snapEffect s o) := by
  unfold State.snapEffect
  extract_lets x1 x2 x3 x4 x5
  have k6 : Keeps [.out, .regs, .jnl, .sess, .tim, .fab, .evt] s x3 := by
    unfold x3
    refine Keeps.set_fab rfl ?_
    exact Keeps.refl _ _
  clear_value x3
  refine Keeps.ite ?_ ?_
  · refine Keeps.then (State.snapWrite_keeps ..) rfl ?_
    exact Keeps.refl _ _
  · refine Keeps.ite ?_ ?_
    · refine Keeps.then (State.snapGathered_keeps ..) rfl ?_
      refine Keeps.set_fab rfl ?_
      exact k6
    · refine Keeps.then (State.fabSend_keeps ..) rfl ?_
      exact Keeps.refl _ _

theorem State.moveCompares_keeps (s delta) : Keeps [.axes] s (State.moveCompares s delta) := by
  unfold State.moveCompares
  refine Keeps.foldl ?_ ?_
  · exact Keeps.refl _ _
  · intro u1 e2 k3
    extract_lets x4
    refine Keeps.then (State.setAx_keeps ..) rfl ?_
    exact k3

theorem State.latchZero_keeps (s) : Keeps [.regs, .dividers, .axes, .zeroLatched] s (State.latchZero s) := by
  unfold State.latchZero
  extract_lets x1 x2 x3 x4
  have k5 : Keeps [.regs, .dividers, .axes, .zeroLatched] s x4 := by
    unfold x4
    refine Keeps.then (State.alignDividers_keeps ..) rfl ?_
    refine Keeps.then (State.setInt64_keeps ..) rfl ?_
    refine Keeps.set_zeroLatched rfl ?_
    exact Keeps.refl _ _
  clear_value x4
  refine Keeps.then (State.moveCompares_keeps ..) rfl ?_
  exact k5

theorem State.moveMarks_keeps (s delta) : Keeps [.axes] s (State.moveMarks s delta) := by
  unfold State.moveMarks
  refine Keeps.foldl ?_ ?_
  · exact Keeps.refl _ _
  · intro u1 e2 k3
    extract_lets x4 x5
    refine Keeps.then (State.setAx_keeps ..) rfl ?_
    exact k3

theorem State.rezeroLive_keeps (s) : Keeps [.freeIdx, .out, .regs, .ctxs, .jobs, .seam, .pen, .jnl, .ovw, .tim, .fab, .dividers, .axes,
    .evt, .pwr, .zeroLatched] s (State.rezeroLive s) := by
  unfold State.rezeroLive
  extract_lets x1 x2 x3 x4 x5 x6 x7
  have k8 : Keeps [.freeIdx, .out, .regs, .ctxs, .jobs, .seam, .pen, .jnl, .ovw, .tim, .fab, .dividers, .axes, .evt, .pwr,
      .zeroLatched] s x3 := by
    unfold x3
    refine Keeps.foldl ?_ ?_
    · exact Keeps.refl _ _
    · intro u9 e10 k11
      refine Keeps.then (State.closeLive_keeps ..) rfl ?_
      exact k11
  clear_value x3
  have k12 : Keeps [.freeIdx, .out, .regs, .ctxs, .jobs, .seam, .pen, .jnl, .ovw, .tim, .fab, .dividers, .axes, .evt, .pwr,
      .zeroLatched] s x5 := by
    unfold x5
    refine Keeps.then (State.latchZero_keeps ..) rfl ?_
    refine Keeps.then (State.rebaseAll_keeps ..) rfl ?_
    exact k8
  clear_value x5
  have k13 : Keeps [.freeIdx, .out, .regs, .ctxs, .jobs, .seam, .pen, .jnl, .ovw, .tim, .fab, .dividers, .axes, .evt, .pwr,
      .zeroLatched] s x7 := by
    unfold x7
    refine Keeps.foldl ?_ ?_
    · exact k12
    · intro u14 e15 k16
      extract_lets x17
      refine Keeps.then (State.setCtx_keeps ..) rfl ?_
      exact k16
  clear_value x7
  refine Keeps.then (State.moveMarks_keeps ..) rfl ?_
  exact k13

theorem State.zeroEffect_keeps (s o) : Keeps [.freeIdx, .out, .regs, .ctxs, .jobs, .seam, .pen, .jnl, .ovw, .sess, .tim, .fab,
    .dividers, .axes, .evt, .pwr, .zeroLatched] s (State.zeroEffect s o) := by
  unfold State.zeroEffect
  extract_lets x1
  have k2 : Keeps [.freeIdx, .out, .regs, .ctxs, .jobs, .seam, .pen, .jnl, .ovw, .sess, .tim, .fab, .dividers, .axes, .evt, .pwr,
      .zeroLatched] s x1 := by
    unfold x1
    refine Keeps.ite ?_ ?_
    · refine Keeps.then (State.rezeroLive_keeps ..) rfl ?_
      exact Keeps.refl _ _
    · refine Keeps.then (State.latchZero_keeps ..) rfl ?_
      exact Keeps.refl _ _
  clear_value x1
  refine Keeps.then (State.finishOrder_keeps ..) rfl ?_
  exact k2

theorem State.stopInspection_keeps (s) : Keeps [.freeIdx, .out, .regs, .ctxs, .jobs, .seam, .pen, .jnl, .ovw, .sess, .tim, .fab, .axes,
    .evt, .pwr] s (State.stopInspection s) := by
  unfold State.stopInspection
  refine Keeps.then (State.enterMode_keeps ..) rfl ?_
  refine Keeps.then (State.gateAll_keeps ..) rfl ?_
  exact Keeps.refl _ _

theorem State.stopEffect_keeps (s o) : Keeps [.freeIdx, .out, .regs, .ctxs, .jobs, .seam, .pen, .jnl, .ovw, .sess, .tim, .fab, .axes,
    .evt, .pwr] s (State.stopEffect s o) := by
  unfold State.stopEffect
  refine Keeps.ite ?_ ?_
  · refine Keeps.then (State.finishOrder_keeps ..) rfl ?_
    refine Keeps.then (State.stopInspection_keeps ..) rfl ?_
    exact Keeps.refl _ _
  · refine Keeps.then (State.finishOrder_keeps ..) rfl ?_
    exact Keeps.refl _ _

theorem State.startCtx_keeps (s form val zero c) : Keeps [.regs, .ctxs, .evt] s (State.startCtx s form val zero c) := by
  unfold State.startCtx
  extract_lets x1 x2 x3 x4 x5
  have k6 : Keeps [.regs, .ctxs, .evt] s x1 := by
    unfold x1
    refine Keeps.ite ?_ ?_
    · exact Keeps.refl _ _
    · refine Keeps.then (State.rebase_keeps ..) rfl ?_
      exact Keeps.refl _ _
  clear_value x1
  have k7 : Keeps [.regs, .ctxs, .evt] s x4 := by
    unfold x4
    refine Keeps.then (State.fifoDrain_keeps ..) rfl ?_
    refine Keeps.then (State.setCtx_keeps ..) rfl ?_
    exact k6
  clear_value x4
  have k8 : Keeps [.regs, .ctxs, .evt] s x5 := by
    unfold x5
    refine Keeps.then (State.setNum_keeps ..) rfl ?_
    exact k7
  clear_value x5
  refine Keeps.then (State.setFld_keeps ..) rfl ?_
  exact k8

theorem State.startInspection_keeps (s form val zero) : Keeps [.out, .regs, .ctxs, .ovw, .sess, .dividers, .axes, .evt, .pwr,
    .zeroLatched] s (State.startInspection s form val zero) := by
  unfold State.startInspection
  extract_lets x1 x2 x3 x4 x5
  have k6 : Keeps [.out, .regs, .ctxs, .ovw, .sess, .dividers, .axes, .evt, .pwr, .zeroLatched] s x1 := by
    unfold x1
    refine Keeps.ite ?_ ?_
    · exact Keeps.refl _ _
    · refine Keeps.then (State.latchZero_keeps ..) rfl ?_
      exact Keeps.refl _ _
  clear_value x1
  have k7 : Keeps [.out, .regs, .ctxs, .ovw, .sess, .dividers, .axes, .evt, .pwr, .zeroLatched] s x2 := by
    unfold x2
    refine Keeps.foldl ?_ ?_
    · exact k6
    · intro u8 e9 k10
      refine Keeps.then (State.startCtx_keeps ..) rfl ?_
      exact k10
  clear_value x2
  have k11 : Keeps [.out, .regs, .ctxs, .ovw, .sess, .dividers, .axes, .evt, .pwr, .zeroLatched] s x3 := by
    unfold x3
    refine Keeps.ite ?_ ?_
    · refine Keeps.then (State.ovwStart_keeps ..) rfl ?_
      exact k7
    · exact k7
  clear_value x3
  have k12 : Keeps [.out, .regs, .ctxs, .ovw, .sess, .dividers, .axes, .evt, .pwr, .zeroLatched] s x5 := by
    unfold x5
    refine Keeps.set_pwr rfl ?_
    exact k11
  clear_value x5
  refine Keeps.then (State.toAfternoon_keeps ..) rfl ?_
  refine Keeps.then (State.enterMode_keeps ..) rfl ?_
  exact k12

theorem State.startEffect_keeps (s o) : Keeps [.out, .regs, .ctxs, .jnl, .ovw, .sess, .fab, .dividers, .axes, .evt, .pwr,
    .zeroLatched] s (State.startEffect s o) := by
  unfold State.startEffect
  refine Keeps.ite ?_ ?_
  · refine Keeps.then (State.finishOrder_keeps ..) rfl ?_
    exact Keeps.refl _ _
  · refine Keeps.then (State.finishOrder_keeps ..) rfl ?_
    refine Keeps.then (State.startInspection_keeps ..) rfl ?_
    exact Keeps.refl _ _

theorem State.globalEffect_keeps (s o) : Keeps [.freeIdx, .out, .regs, .ports, .ctxs, .slices, .coders, .jobs, .seam, .pen, .jnl, .ovw,
    .pln, .sess, .tim, .fab, .encs, .dividers, .axes, .evt, .cal, .pwr, .zeroLatched] s (State.globalEffect s o) := by
  unfold State.globalEffect
  extract_lets x1
  have k2 : Keeps [.freeIdx, .out, .regs, .ports, .ctxs, .slices, .coders, .jobs, .seam, .pen, .jnl, .ovw, .pln, .sess, .tim, .fab,
      .encs, .dividers, .axes, .evt, .cal, .pwr, .zeroLatched] s x1 := by
    unfold x1
    split
    · rename_i y3 y4
      refine Keeps.then (State.startEffect_keeps ..) rfl ?_
      exact Keeps.refl _ _
    · rename_i y5 y6
      refine Keeps.then (State.stopEffect_keeps ..) rfl ?_
      exact Keeps.refl _ _
    · rename_i y7 y8
      refine Keeps.then (State.zeroEffect_keeps ..) rfl ?_
      exact Keeps.refl _ _
    · rename_i y9 y10
      refine Keeps.then (State.snapEffect_keeps ..) rfl ?_
      exact Keeps.refl _ _
    · rename_i y11 y12
      refine Keeps.then (State.commitLive_keeps ..) rfl ?_
      exact Keeps.refl _ _
    · rename_i y13 y14
      refine Keeps.then (State.resetOrder_keeps ..) rfl ?_
      exact Keeps.refl _ _
    · rename_i y15 y16
      refine Keeps.then (State.resetOrder_keeps ..) rfl ?_
      exact Keeps.refl _ _
    · rename_i y17 y18 y19 y20 y21 y22 y23 y24
      exact Keeps.refl _ _
  clear_value x1
  refine Keeps.then (State.fire_keeps ..) rfl ?_
  exact k2

theorem State.goodLine_keeps (s p c cp k) : Keeps [.regs, .ports, .ctxs, .slices, .ring, .evt, .cal] s (State.goodLine s p c cp k) := by
  unfold State.goodLine
  extract_lets x1 x2
  have k3 : Keeps [.regs, .ports, .ctxs, .slices, .ring, .evt, .cal] s x2.1 := by
    unfold x2
    refine Keeps.then (State.linePos_keeps ..) rfl ?_
    exact Keeps.refl _ _
  clear_value x2
  refine Keeps.then (State.indexRule_keeps ..) rfl ?_
  exact k3

theorem State.holdUp_keeps (s cause) : Keeps allParts s (State.holdUp s cause) := by
  unfold State.holdUp
  extract_lets x1 x2 x3 x4
  have k5 : Keeps allParts s x2 := by
    unfold x2
    refine Keeps.then (State.toNight_keeps ..) rfl ?_
    refine Keeps.then (State.bridgesOff_keeps ..) rfl ?_
    refine Keeps.then (State.catalogue_keeps ..) rfl ?_
    exact Keeps.refl _ _
  clear_value x2
  have k6 : Keeps allParts s x3 := by
    unfold x3
    refine Keeps.then (State.setFld_keeps ..) rfl ?_
    exact k5
  clear_value x3
  refine Keeps.set_pwr rfl ?_
  exact k6

theorem State.holdUpStart_keeps (s) : Keeps allParts s (State.holdUpStart s) := by
  unfold State.holdUpStart
  extract_lets x1 x2
  have k3 : Keeps allParts s x1 := by
    unfold x1
    refine Keeps.then (State.toNight_keeps ..) rfl ?_
    refine Keeps.then (State.bridgesOff_keeps ..) rfl ?_
    exact Keeps.refl _ _
  clear_value x1
  refine Keeps.set_pwr rfl ?_
  exact k3

theorem State.indexCheck_keeps (s k prev) : Keeps [.out, .regs, .ports, .ctxs, .slices, .pen, .jnl, .ovw, .sess, .tim, .fab, .encs,
    .dividers, .axes, .evt, .pwr] s (State.indexCheck s k prev) := by
  unfold State.indexCheck
  extract_lets x1 x2 x3 x4 x5 x6
  have k7 : Keeps [.out, .regs, .ports, .ctxs, .slices, .pen, .jnl, .ovw, .sess, .tim, .fab, .encs, .dividers, .axes, .evt,
      .pwr] s x3 := by
    unfold x3
    refine Keeps.then (State.setFldInt_keeps ..) rfl ?_
    exact Keeps.refl _ _
  clear_value x3
  have k8 : Keeps [.out, .regs, .ports, .ctxs, .slices, .pen, .jnl, .ovw, .sess, .tim, .fab, .encs, .dividers, .axes, .evt,
      .pwr] s x4 := by
    unfold x4
    refine Keeps.then (State.encMiss_keeps ..) rfl ?_
    exact k7
  clear_value x4
  refine Keeps.ite ?_ ?_
  · refine Keeps.ite ?_ ?_
    · refine Keeps.then (State.encCount_keeps ..) rfl ?_
      exact k8
    · exact k8
  · refine Keeps.then (State.setEnc_keeps ..) rfl ?_
    exact k7

theorem State.queueDue_keeps (s o) : Keeps [.pln] s (State.queueDue s o) := by
  unfold State.queueDue
  extract_lets x1
  refine Keeps.set_pln rfl ?_
  exact Keeps.refl _ _

theorem State.issueOrder_keeps (s op form time pos hash sess desc) : Keeps [.out, .pln, .tim,
    .fab] s (State.issueOrder s op form time pos hash sess desc) := by
  unfold State.issueOrder
  extract_lets x1 x2 x3 x4 x5 x6 x7 x8 x9
  have k10 : Keeps [.out, .pln, .tim, .fab] s x5 := by
    unfold x5
    refine Keeps.then (State.fabSend_keeps ..) rfl ?_
    exact Keeps.refl _ _
  clear_value x5
  have k11 : Keeps [.out, .pln, .tim, .fab] s x9 := by
    unfold x9
    refine Keeps.set_fab rfl ?_
    exact k10
  clear_value x9
  refine Keeps.then (State.queueDue_keeps ..) rfl ?_
  exact k11

theorem State.jobJournal_keeps (s j a2) : Keeps [.regs, .jnl, .evt] s (State.jobJournal s j a2).1 := by
  induction a2 generalizing s j
  · unfold State.jobJournal
    dsimp -zeta only
    exact Keeps.refl _ _
  · rename_i y1 y2
    unfold State.jobJournal
    split
    · rename_i y3 y4
      dsimp -zeta only
      exact Keeps.refl _ _
    · rename_i y5 y6 y7 y8
      extract_lets x9 x10 x11
      have k12 : Keeps [.regs, .jnl, .evt] s x11 := by
        unfold x11
        refine Keeps.then (State.journal_keeps ..) rfl ?_
        exact Keeps.refl _ _
      clear_value x11
      refine Keeps.then (y2 _ _) rfl ?_
      exact k12

theorem State.openPipes_keeps (s j) : Keeps [.freeIdx] s (State.openPipes s j).1 := by
  unfold State.openPipes
  extract_lets x1 x2 x3 x4 x5 x6 x7 x8 x9 x10 x11 x12 x13 x14 x15 x16 x17 x18
  have k19 : Keeps [.freeIdx] s x15.2 := by
    unfold x15
    refine Keeps.then (State.takeFree_keeps ..) rfl ?_
    exact Keeps.refl _ _
  clear_value x15
  refine Keeps.ite_map Prod.fst ?_ ?_
  · dsimp -zeta only
    exact Keeps.refl _ _
  · dsimp -zeta only
    exact k19

theorem State.jobOpen_keeps (s j) : Keeps [.freeIdx] s (State.jobOpen s j).1 := by
  unfold State.jobOpen
  refine Keeps.ite_map Prod.fst ?_ ?_
  · refine Keeps.then (State.openPipes_keeps ..) rfl ?_
    exact Keeps.refl _ _
  · dsimp -zeta only
    exact Keeps.refl _ _

theorem State.jobRefused_keeps (s o rest) : Keeps [.freeIdx, .out, .regs, .jobs, .jnl, .sess, .evt,
    .crcs] s (State.jobRefused s o rest) := by
  unfold State.jobRefused
  split
  · rename_i y1 y2
    exact Keeps.refl _ _
  · rename_i y3 y4 y5
    extract_lets x6 x7 x8 x9
    refine Keeps.ite ?_ ?_
    · refine Keeps.then (State.crcEnd_keeps ..) rfl ?_
      refine Keeps.then (State.finishDesc_keeps ..) rfl ?_
      exact Keeps.refl _ _
    · refine Keeps.ite ?_ ?_
      · refine Keeps.then (State.setJob_keeps ..) rfl ?_
        exact Keeps.refl _ _
      · refine Keeps.then (State.jobSuspend_keeps ..) rfl ?_
        exact Keeps.refl _ _

theorem State.jobStart_keeps (s j) : Yields (fun r => r.1) [.freeIdx] s (State.jobStart s j) := by
  unfold State.jobStart
  extract_lets x1
  refine Yields.ite ?_ ?_
  · refine Yields.some ?_
    dsimp -zeta only
    exact Keeps.refl _ _
  · refine Yields.ite ?_ ?_
    · exact Yields.none
    · clear_value x1
      split
      · rename_i y2
        exact Yields.none
      · rename_i y3 y4
        extract_lets x5 x6
        have k7 : Keeps [.freeIdx] s x5.1 := by
          unfold x5
          refine Keeps.then (State.jobOpen_keeps ..) rfl ?_
          exact Keeps.refl _ _
        clear_value x5
        refine Yields.ite ?_ ?_
        · refine Yields.some ?_
          dsimp -zeta only
          exact Keeps.refl _ _
        · refine Yields.some ?_
          dsimp -zeta only
          exact k7

theorem State.journalMerged_keeps (s) : Keeps [.regs, .pen, .jnl, .evt, .pwr] s (State.journalMerged s) := by
  unfold State.journalMerged
  extract_lets x1 x2 x3 x4
  have k5 : Keeps [.regs, .pen, .jnl, .evt, .pwr] s x3 := by
    unfold x3
    refine Keeps.then (State.setFld_keeps ..) rfl ?_
    refine Keeps.set_jnl rfl ?_
    exact Keeps.refl _ _
  clear_value x3
  refine Keeps.ite ?_ ?_
  · exact k5
  · refine Keeps.then (State.penBlock_keeps ..) rfl ?_
    refine Keeps.set_jnl rfl ?_
    exact k5

theorem State.laneEnds_keeps (s p own peer kept) : Keeps [.freeIdx, .out, .regs, .ports, .jnl, .sess, .evt,
    .cal] s (State.laneEnds s p own peer kept) := by
  unfold State.laneEnds
  split
  · rename_i y1 y2 y3
    refine Keeps.then (State.calLane_keeps ..) rfl ?_
    exact Keeps.refl _ _
  · rename_i y4 y5
    refine Keeps.then (State.trySwitch_keeps ..) rfl ?_
    exact Keeps.refl _ _

theorem State.stepFails_keeps (s p l v) : Keeps [.freeIdx, .out, .regs, .ports, .jnl, .sess, .evt, .cal] s (State.stepFails s p l v) := by
  unfold State.stepFails
  extract_lets x1 x2
  refine Keeps.then (State.laneEnds_keeps ..) rfl ?_
  refine Keeps.then (State.setFld_keeps ..) rfl ?_
  refine Keeps.then (State.setLane_keeps ..) rfl ?_
  exact Keeps.refl _ _

theorem State.stepKept_keeps (s p l v own) : Keeps [.freeIdx, .out, .regs, .ports, .jnl, .sess, .evt,
    .cal] s (State.stepKept s p l v own) := by
  unfold State.stepKept
  extract_lets x1
  have k2 : Keeps [.freeIdx, .out, .regs, .ports, .jnl, .sess, .evt, .cal] s x1 := by
    unfold x1
    refine Keeps.then (State.setFld_keeps ..) rfl ?_
    refine Keeps.then (State.setLane_keeps ..) rfl ?_
    exact Keeps.refl _ _
  clear_value x1
  refine Keeps.ite ?_ ?_
  · refine Keeps.then (State.sendStep_keeps ..) rfl ?_
    exact k2
  · refine Keeps.then (State.laneEnds_keeps ..) rfl ?_
    exact k2

theorem State.judgeStep_keeps (s p l) : Keeps [.freeIdx, .out, .regs, .ports, .jnl, .sess, .evt, .cal] s (State.judgeStep s p l) := by
  unfold State.judgeStep
  extract_lets x1
  split
  · rename_i y2 y3 y4 y5 y6 y7
    refine Keeps.ite ?_ ?_
    · refine Keeps.then (State.stepKept_keeps ..) rfl ?_
      exact Keeps.refl _ _
    · refine Keeps.then (State.stepFails_keeps ..) rfl ?_
      exact Keeps.refl _ _
  · rename_i y8 y9 y10
    exact Keeps.refl _ _

theorem State.keepBank_keeps (s c id b) : Keeps [.regs, .coders, .ring] s (State.keepBank s c id b) := by
  unfold State.keepBank
  extract_lets x1 x2
  refine Keeps.ite ?_ ?_
  · exact Keeps.refl _ _
  · clear_value x2
    split
    · rename_i y3 y4 y5 y6
      extract_lets x7 x8 x9
      have k10 : Keeps [.regs, .coders, .ring] s x9 := by
        unfold x9
        refine Keeps.then (State.setCoder_keeps ..) rfl ?_
        exact Keeps.refl _ _
      clear_value x9
      refine Keeps.ite ?_ ?_
      · refine Keeps.then (State.bump_keeps ..) rfl ?_
        refine Keeps.set_ring rfl ?_
        exact k10
      · refine Keeps.then (State.setCoder_keeps ..) rfl ?_
        exact Keeps.refl _ _
    · rename_i y11
      exact Keeps.refl _ _

theorem State.launchBad_keeps (s n d e) : Keeps [.out, .regs, .jnl, .sess, .evt] s (State.launchBad s n d e) := by
  unfold State.launchBad
  split
  · rename_i y1 y2
    refine Keeps.then (State.badParam_keeps ..) rfl ?_
    exact Keeps.refl _ _
  · rename_i y3
    refine Keeps.then (State.wrongState_keeps ..) rfl ?_
    exact Keeps.refl _ _

theorem State.launchOut_keeps (s e l late) : Keeps [.out] s (State.launchOut s e l late) := by
  unfold State.launchOut
  refine Keeps.ite ?_ ?_
  · refine Keeps.then (State.emit_keeps ..) rfl ?_
    exact Keeps.refl _ _
  · refine Keeps.ite ?_ ?_
    · refine Keeps.then (State.emit_keeps ..) rfl ?_
      exact Keeps.refl _ _
    · split
      · rename_i y1 y2 y3
        refine Keeps.then (State.emit_keeps ..) rfl ?_
        exact Keeps.refl _ _
      · rename_i y4 y5
        exact Keeps.refl _ _

theorem State.limitAxes_keeps (s m) : Keeps [.regs, .axes] s (State.limitAxes s m) := by
  unfold State.limitAxes
  refine Keeps.foldl ?_ ?_
  · exact Keeps.refl _ _
  · intro u1 e2 k3
    extract_lets x4
    refine Keeps.then (State.setFlag_keeps ..) rfl ?_
    refine Keeps.then (State.setAx_keeps ..) rfl ?_
    exact k3

theorem State.linesSkip_keeps (s c g) : Keeps [.regs, .ctxs, .ring, .evt] s (State.linesSkip s c g) := by
  unfold State.linesSkip
  extract_lets x1 x2 x3
  have k4 : Keeps [.regs, .ctxs, .ring, .evt] s x2 := by
    unfold x2
    refine Keeps.foldl ?_ ?_
    · exact Keeps.refl _ _
    · intro u5 e6 k7
      refine Keeps.then (State.ringSkip_keeps ..) rfl ?_
      exact k7
  clear_value x2
  refine Keeps.then (State.fifoDrain_keeps ..) rfl ?_
  refine Keeps.then (State.setCtx_keeps ..) rfl ?_
  exact k4

end Sys2Proof.Machine
end

