-- ==== Sys2Proof/Laws/KeepsOps3.lean ====
section
/-! SUPPORT. What each operation and each command's meaning may change, one lemma each, part 3 of 4: an operation
stands after the operations it uses. -/

namespace Sys2Proof.Machine

open Sys2Proof.Safety

set_option maxRecDepth 10000

theorem State.linkContext_keeps (s c) : Keeps [.regs, .ports, .ctxs, .evt] s (State.linkContext s c) := by
  unfold State.linkContext
  extract_lets x1 x2 x3
  have k4 : Keeps [.regs, .ports, .ctxs, .evt] s x1 := by
    unfold x1
    refine Keeps.then (State.rebase_keeps ..) rfl ?_
    exact Keeps.refl _ _
  clear_value x1
  have k5 : Keeps [.regs, .ports, .ctxs, .evt] s x3 := by
    unfold x3
    refine Keeps.then (State.resetDark_keeps ..) rfl ?_
    refine Keeps.then (State.setCtx_keeps ..) rfl ?_
    exact k4
  clear_value x3
  refine Keeps.ite ?_ ?_
  · refine Keeps.then (State.modPort_keeps ..) rfl ?_
    refine Keeps.then (State.restartModel_keeps ..) rfl ?_
    exact k5
  · exact k5

theorem State.sideMissing_keeps (s a) : Keeps [.seam] s (State.sideMissing s a) := by
  unfold State.sideMissing
  extract_lets x1 x2 x3
  refine Keeps.set_seam rfl ?_
  exact Keeps.refl _ _

theorem State.partsBack_keeps (s a) : Keeps [.regs, .jobs, .pen, .jnl, .fab, .axes, .evt, .pwr] s (State.partsBack s a) := by
  unfold State.partsBack
  extract_lets x1 x2 x3 x4
  have k5 : Keeps [.regs, .jobs, .pen, .jnl, .fab, .axes, .evt, .pwr] s x4 := by
    unfold x4
    refine Keeps.set_fab rfl ?_
    exact Keeps.refl _ _
  clear_value x4
  refine Keeps.foldl ?_ ?_
  · exact k5
  · intro u6 e7 k8
    refine Keeps.then (State.splitOut_keeps ..) rfl ?_
    exact k8

theorem State.neighbourGone_keeps (s a) : Keeps [.freeIdx, .out, .regs, .jobs, .seam, .pen, .jnl, .tim, .fab, .axes, .evt,
    .pwr] s (State.neighbourGone s a) := by
  unfold State.neighbourGone
  extract_lets x1 x2 x3 x4 x5 x6 x7 x8 x9 x10 x11 x12 x13
  have k14 : Keeps [.freeIdx, .out, .regs, .jobs, .seam, .pen, .jnl, .tim, .fab, .axes, .evt, .pwr] s x4 := by
    unfold x4
    refine Keeps.set_fab rfl ?_
    exact Keeps.refl _ _
  clear_value x4
  have k15 : Keeps [.freeIdx, .out, .regs, .jobs, .seam, .pen, .jnl, .tim, .fab, .axes, .evt, .pwr] s x5 := by
    unfold x5
    refine Keeps.ite ?_ ?_
    · refine Keeps.then (State.setFld_keeps ..) rfl ?_
      exact k14
    · exact k14
  clear_value x5
  have k16 : Keeps [.freeIdx, .out, .regs, .jobs, .seam, .pen, .jnl, .tim, .fab, .axes, .evt, .pwr] s x6 := by
    unfold x6
    refine Keeps.ite ?_ ?_
    · refine Keeps.then (State.setFld_keeps ..) rfl ?_
      exact k15
    · exact k15
  clear_value x6
  have k17 : Keeps [.freeIdx, .out, .regs, .jobs, .seam, .pen, .jnl, .tim, .fab, .axes, .evt, .pwr] s x7 := by
    unfold x7
    refine Keeps.then (State.fire_keeps ..) rfl ?_
    refine Keeps.then (State.bump_keeps ..) rfl ?_
    exact k16
  clear_value x7
  have k18 : Keeps [.freeIdx, .out, .regs, .jobs, .seam, .pen, .jnl, .tim, .fab, .axes, .evt, .pwr] s x8 := by
    unfold x8
    refine Keeps.then (State.partsBack_keeps ..) rfl ?_
    exact k17
  clear_value x8
  have k19 : Keeps [.freeIdx, .out, .regs, .jobs, .seam, .pen, .jnl, .tim, .fab, .axes, .evt, .pwr] s x9 := by
    unfold x9
    refine Keeps.then (State.seamApply_keeps ..) rfl ?_
    exact k18
  clear_value x9
  have k20 : Keeps [.freeIdx, .out, .regs, .jobs, .seam, .pen, .jnl, .tim, .fab, .axes, .evt, .pwr] s x10 := by
    unfold x10
    refine Keeps.ite ?_ ?_
    · refine Keeps.then (State.sideMissing_keeps ..) rfl ?_
      exact k19
    · exact k19
  clear_value x10
  have k21 : Keeps [.freeIdx, .out, .regs, .jobs, .seam, .pen, .jnl, .tim, .fab, .axes, .evt, .pwr] s x11.2 := by
    unfold x11
    refine Keeps.then (State.gapStart_keeps ..) rfl ?_
    exact k20
  clear_value x11
  have k22 : Keeps [.freeIdx, .out, .regs, .jobs, .seam, .pen, .jnl, .tim, .fab, .axes, .evt, .pwr] s x12 := by
    unfold x12
    exact k21
  clear_value x12
  refine Keeps.ite ?_ ?_
  · exact Keeps.refl _ _
  · refine Keeps.ite ?_ ?_
    · exact k17
    · refine Keeps.ite ?_ ?_
      · refine Keeps.set_fab rfl ?_
        exact k22
      · exact k20

theorem State.linkFalls_keeps (s e) : Keeps [.freeIdx, .out, .regs, .jobs, .seam, .pen, .jnl, .eths, .tim, .fab, .axes, .evt,
    .pwr] s (State.linkFalls s e) := by
  unfold State.linkFalls
  extract_lets x1 x2 x3
  have k4 : Keeps [.freeIdx, .out, .regs, .jobs, .seam, .pen, .jnl, .eths, .tim, .fab, .axes, .evt, .pwr] s x2 := by
    unfold x2
    refine Keeps.then (State.fire_keeps ..) rfl ?_
    refine Keeps.then (State.setEth_keeps ..) rfl ?_
    refine Keeps.then (State.setFld_keeps ..) rfl ?_
    exact Keeps.refl _ _
  clear_value x2
  refine Keeps.ite ?_ ?_
  · exact Keeps.refl _ _
  · refine Keeps.ite ?_ ?_
    · refine Keeps.foldl ?_ ?_
      · exact k4
      · intro u5 e6 k7
        refine Keeps.then (State.neighbourGone_keeps ..) rfl ?_
        exact k7
    · exact k4

theorem State.numberSync_keeps (s p) : Keeps [.out] s (State.numberSync s p) := by
  unfold State.numberSync
  split
  · rename_i y1 y2 y3
    refine Keeps.ite ?_ ?_
    · exact Keeps.refl _ _
    · refine Keeps.then (State.emit_keeps ..) rfl ?_
      exact Keeps.refl _ _
  · rename_i y4 y5
    exact Keeps.refl _ _

theorem State.recipeWrites_keeps (s p) : Keeps [.out, .ports] s (State.recipeWrites s p) := by
  unfold State.recipeWrites
  split
  · rename_i y1 y2
    exact Keeps.refl _ _
  · rename_i y3 y4 y5
    refine Keeps.foldl ?_ ?_
    · exact Keeps.refl _ _
    · intro u6 e7 k8
      refine Keeps.then (State.ctrlAdd_keeps ..) rfl ?_
      exact k8

theorem State.portBack_keeps (s) : Keeps [.regs, .pln] s (State.portBack s) := by
  unfold State.portBack
  refine Keeps.ite ?_ ?_
  · refine Keeps.then (State.selfCompile_keeps ..) rfl ?_
    exact Keeps.refl _ _
  · exact Keeps.refl _ _

theorem State.setDegraded_keeps (s p) : Keeps [.regs] s (State.setDegraded s p) := by
  unfold State.setDegraded
  refine Keeps.then (State.setFlag_keeps ..) rfl ?_
  exact Keeps.refl _ _

theorem State.linkUp_keeps (s p) : Keeps [.out, .regs, .ports, .ctxs, .jnl, .pln, .sess, .evt] s (State.linkUp s p) := by
  unfold State.linkUp
  extract_lets x1 x2 x3 x4 x5 x6 x7
  have k8 : Keeps [.out, .regs, .ports, .ctxs, .jnl, .pln, .sess, .evt] s x1 := by
    unfold x1
    refine Keeps.then (State.fire_keeps ..) rfl ?_
    refine Keeps.then (State.setFld_keeps ..) rfl ?_
    exact Keeps.refl _ _
  clear_value x1
  have k9 : Keeps [.out, .regs, .ports, .ctxs, .jnl, .pln, .sess, .evt] s x2 := by
    unfold x2
    refine Keeps.then (State.modPort_keeps ..) rfl ?_
    exact k8
  clear_value x2
  have k10 : Keeps [.out, .regs, .ports, .ctxs, .jnl, .pln, .sess, .evt] s x3 := by
    unfold x3
    refine Keeps.then (State.linkContext_keeps ..) rfl ?_
    refine Keeps.then (State.dropCtrl_keeps ..) rfl ?_
    refine Keeps.then (State.dropApplies_keeps ..) rfl ?_
    exact k9
  clear_value x3
  have k11 : Keeps [.out, .regs, .ports, .ctxs, .jnl, .pln, .sess, .evt] s x4 := by
    unfold x4
    refine Keeps.then (State.setDegraded_keeps ..) rfl ?_
    refine Keeps.then (State.checkCamera_keeps ..) rfl ?_
    exact k10
  clear_value x4
  have k12 : Keeps [.out, .regs, .ports, .ctxs, .jnl, .pln, .sess, .evt] s x6 := by
    unfold x6
    refine Keeps.ite ?_ ?_
    · refine Keeps.ite ?_ ?_
      · refine Keeps.then (State.planFault_keeps ..) rfl ?_
        exact k11
      · exact k11
    · refine Keeps.then (State.portBack_keeps ..) rfl ?_
      exact k11
  clear_value x6
  have k13 : Keeps [.out, .regs, .ports, .ctxs, .jnl, .pln, .sess, .evt] s x7 := by
    unfold x7
    refine Keeps.then (State.recipeWrites_keeps ..) rfl ?_
    refine Keeps.then (State.numberSync_keeps ..) rfl ?_
    exact k12
  clear_value x7
  refine Keeps.ite ?_ ?_
  · refine Keeps.then (State.selfCompile_keeps ..) rfl ?_
    exact k13
  · exact k13

theorem State.loadRead_keeps (s n d off len why) : Keeps [.out, .regs, .jnl, .sess, .evt] s (State.loadRead s n d off len why) := by
  unfold State.loadRead
  extract_lets x1 x2
  have k3 : Keeps [.out, .regs, .jnl, .sess, .evt] s x2.1 := by
    unfold x2
    refine Keeps.then (State.hostRead_keeps ..) rfl ?_
    exact Keeps.refl _ _
  clear_value x2
  refine Keeps.ite ?_ ?_
  · refine Keeps.then (State.badParam_keeps ..) rfl ?_
    exact Keeps.refl _ _
  · split
    · rename_i y4 y5 y6
      refine Keeps.then (State.finishDesc_keeps ..) rfl ?_
      exact k3
    · rename_i y7 y8
      exact k3

theorem State.loadWrite_keeps (s u v) : Keeps [.regs, .evt, .crcs] s (State.loadWrite s u v) := by
  unfold State.loadWrite
  extract_lets x1 x2 x3 x4
  have k5 : Keeps [.regs, .evt, .crcs] s x4 := by
    unfold x4
    refine Keeps.then (State.setCrc_keeps ..) rfl ?_
    exact Keeps.refl _ _
  clear_value x4
  refine Keeps.ite ?_ ?_
  · exact Keeps.refl _ _
  · refine Keeps.ite ?_ ?_
    · refine Keeps.then (State.crcFire_keeps ..) rfl ?_
      refine Keeps.then (State.bump_keeps ..) rfl ?_
      refine Keeps.then (State.setFld_keeps ..) rfl ?_
      exact Keeps.refl _ _
    · refine Keeps.ite ?_ ?_
      · refine Keeps.then (State.crcFire_keeps ..) rfl ?_
        refine Keeps.then (State.setFld_keeps ..) rfl ?_
        exact Keeps.refl _ _
      · refine Keeps.then (State.setFld_keeps ..) rfl ?_
        refine Keeps.then (State.crcShow_keeps ..) rfl ?_
        exact k5

theorem State.lockLost_keeps (s p) : Keeps [.out, .regs, .ports, .jnl, .pln, .sess, .evt, .cal] s (State.lockLost s p) := by
  unfold State.lockLost
  extract_lets x1
  refine Keeps.ite ?_ ?_
  · refine Keeps.then (State.linkLost_keeps ..) rfl ?_
    exact Keeps.refl _ _
  · refine Keeps.ite ?_ ?_
    · refine Keeps.then (State.discover_keeps ..) rfl ?_
      exact Keeps.refl _ _
    · exact Keeps.refl _ _

theorem State.loopDrop_keeps (s v) : Keeps [.regs] s (State.loopDrop s v) := by
  unfold State.loopDrop
  refine Keeps.then (State.bump_keeps ..) rfl ?_
  refine Keeps.then (State.setFld_keeps ..) rfl ?_
  exact Keeps.refl _ _

theorem State.mapBad_keeps (s n d e) : Keeps [.out, .regs, .jnl, .sess, .evt] s (State.mapBad s n d e) := by
  unfold State.mapBad
  split
  · rename_i y1 y2
    refine Keeps.then (State.badParam_keeps ..) rfl ?_
    exact Keeps.refl _ _
  · rename_i y3
    refine Keeps.then (State.wrongState_keeps ..) rfl ?_
    exact Keeps.refl _ _

theorem State.setWindow_keeps (s n w v) : Keeps [.sess] s (State.setWindow s n w v) := by
  unfold State.setWindow
  extract_lets x1
  refine Keeps.then (State.setSession_keeps ..) rfl ?_
  exact Keeps.refl _ _

theorem State.statsGoOn_keeps (s n) : Keeps [.out, .regs, .sess, .evt, .statHeld] s (State.statsGoOn s n) := by
  unfold State.statsGoOn
  split
  · rename_i y1 y2
    exact Keeps.refl _ _
  · rename_i y3 y4 y5
    refine Keeps.foldl ?_ ?_
    · exact Keeps.refl _ _
    · intro u6 e7 k8
      refine Keeps.ite ?_ ?_
      · refine Keeps.then (State.statFlush_keeps ..) rfl ?_
        exact k8
      · exact k8

theorem State.mapPages_keeps (s n w first es) : Keeps [.out, .regs, .sess, .evt, .statHeld] s (State.mapPages s n w first es) := by
  unfold State.mapPages
  split
  · rename_i y1 y2
    exact Keeps.refl _ _
  · rename_i y3 y4 y5
    extract_lets x6
    refine Keeps.then (State.statsGoOn_keeps ..) rfl ?_
    refine Keeps.then (State.setWindow_keeps ..) rfl ?_
    exact Keeps.refl _ _

theorem State.mcService_keeps (s m on) : Keeps [.regs] s (State.mcService s m on) := by
  unfold State.mcService
  refine Keeps.then (State.setDomain_keeps ..) rfl ?_
  refine Keeps.then (State.setFlag_keeps ..) rfl ?_
  refine Keeps.then (State.setFld_keeps ..) rfl ?_
  exact Keeps.refl _ _

theorem State.mcTemp_keeps (s m ds) : Keeps [.regs, .mem, .evt] s (State.mcTemp s m ds) := by
  unfold State.mcTemp
  extract_lets x1 x2 x3
  have k4 : Keeps [.regs, .mem, .evt] s x3 := by
    unfold x3
    refine Keeps.then (State.setFldInt_keeps ..) rfl ?_
    refine Keeps.then (State.modMc_keeps ..) rfl ?_
    exact Keeps.refl _ _
  clear_value x3
  refine Keeps.ite ?_ ?_
  · refine Keeps.then (State.mcAlert_keeps ..) rfl ?_
    exact k4
  · exact k4

theorem State.seqAccept_keeps (s n q) : Keeps [.regs, .pwr] s (State.seqAccept s n q) := by
  unfold State.seqAccept
  extract_lets x1 x2 x3 x4
  refine Keeps.then (State.set64_keeps ..) rfl ?_
  refine Keeps.set_pwr rfl ?_
  exact Keeps.refl _ _

theorem State.mgmtSend_keeps (s f bytes) : Keeps [.out] s (State.mgmtSend s f bytes) := by
  unfold State.mgmtSend
  refine Keeps.then (State.emit_keeps ..) rfl ?_
  exact Keeps.refl _ _

/-- What a management request may change: what its checks and its answer change, and what its type's own work `g` changes. -/
theorem State.mgmtRun_keeps {ps : List Safety.Part} {s t : State} {f : MgmtFrame} {types anon named : Nat → Bool} {g : MgmtFn}
    (w : Within [.out, .regs, .sess, .evt, .pwr] ps) (h : Keeps ps s t)
    (k : ∀ n m x u, Keeps ps s u → Gives (fun r => r.2.2) ps s (g n m x u)) : Answers ps s (t.mgmtRun f types anon named g) := by
  have chk : ∀ n m x u, Keeps ps s u → Gives (fun r => r.2.2) ps s (mgmtChecks anon named g n m x u) := by
    intro n m x u hu
    unfold mgmtChecks
    exact Gives.ite (Gives.ok hu) (Gives.ite (Gives.ok hu) (Gives.ite (Gives.ok hu) (Gives.ite (Gives.ok hu) (k _ _ _ _ hu))))
  have hs : ∀ b, Keeps ps s (t.mgmtSend f b) := fun b => (State.mgmtSend_keeps ..).then (Within.trans (ps := [.out]) (qs := [.out,
      .regs, .sess, .evt, .pwr]) rfl w) h
  have ha : ∀ n, Keeps ps s (t.authFail n) := fun n => (State.authFail_keeps ..).then (Within.trans (ps := [.regs, .sess,
      .evt]) (qs := [.out, .regs, .sess, .evt, .pwr]) rfl w) h
  have hq : ∀ n q, Keeps ps s (t.seqAccept n q) := fun n q => (State.seqAccept_keeps ..).then (Within.trans (ps := [.regs,
      .pwr]) (qs := [.out, .regs, .sess, .evt, .pwr]) rfl w) h
  unfold State.mgmtRun
  extract_lets m last old
  refine Answers.ite (.next h) (Answers.ite ?_ (Answers.ite (.next h) ?_))
  · split
    · exact Answers.fault
    · next e => exact .next ((State.mgmtSend_keeps ..).then (Within.trans (ps := [.out]) (qs := [.out, .regs, .sess, .evt,
        .pwr]) rfl w) (chk _ _ _ _ h _ e))
  · split
    · exact .next (ha _)
    · refine Answers.ite (.next (ha _)) (Answers.ite (.next (hs _)) (Answers.ite (.next (hs _)) ?_))
      split
      · exact Answers.fault
      · next e =>
        exact .next ((State.mgmtSend_keeps ..).then (Within.trans (ps := [.out]) (qs := [.out, .regs, .sess, .evt, .pwr]) rfl w)
          ((State.setSession_keeps ..).then (Within.trans (ps := [.sess]) (qs := [.out, .regs, .sess, .evt,
              .pwr]) rfl w) (chk _ _ _ _ (hq _ _) _ e)))

/-- A management request of one type. -/
theorem State.mgmtType_keeps {ps : List Safety.Part} {s t : State} {f : MgmtFrame} {ty : Nat} {g : MgmtFn}
    (w : Within [.out, .regs, .sess, .evt, .pwr] ps) (h : Keeps ps s t)
    (k : ∀ n m x u, Keeps ps s u → Gives (fun r => r.2.2) ps s (g n m x u)) : Answers ps s (t.mgmtType f ty g) :=
  State.mgmtRun_keeps w h k

theorem State.migrateOn_keeps (s m g) : Keeps [.out, .regs, .mem, .sess, .evt, .pwr] s (State.migrateOn s m g) := by
  unfold State.migrateOn
  extract_lets x1
  have k2 : Keeps [.out, .regs, .mem, .sess, .evt, .pwr] s x1 := by
    unfold x1
    refine Keeps.then (State.setFld_keeps ..) rfl ?_
    refine Keeps.then (State.modMc_keeps ..) rfl ?_
    exact Keeps.refl _ _
  clear_value x1
  refine Keeps.ite ?_ ?_
  · refine Keeps.then (State.migrationDone_keeps ..) rfl ?_
    exact k2
  · exact k2

theorem State.netApplied_keeps (s e) : Keeps [.regs] s (State.netApplied s e) := by
  unfold State.netApplied
  refine Keeps.then (State.setFlag_keeps ..) rfl ?_
  exact Keeps.refl _ _

theorem State.netCommit_keeps (s e) : Keeps [.regs, .eths] s (State.netCommit s e) := by
  unfold State.netCommit
  extract_lets x1 x2 x3 x4 x5 x6 x7 x8
  refine Keeps.ite ?_ ?_
  · refine Keeps.then (State.setFld_keeps ..) rfl ?_
    exact Keeps.refl _ _
  · refine Keeps.then (State.netApplied_keeps ..) rfl ?_
    refine Keeps.then (State.setEth_keeps ..) rfl ?_
    exact Keeps.refl _ _

theorem State.netWarm_keeps (s) : Keeps [.eths] s (State.netWarm s) := by
  unfold State.netWarm
  refine Keeps.foldl ?_ ?_
  · exact Keeps.refl _ _
  · intro u1 e2 k3
    extract_lets x4
    refine Keeps.then (State.setEth_keeps ..) rfl ?_
    exact k3

theorem State.nightTick_keeps (s) : Keeps [.clock, .regs, .tim] s (State.nightTick s) := by
  unfold State.nightTick
  extract_lets x1 x2
  have k3 : Keeps [.clock, .regs, .tim] s x2 := by
    unfold x2
    refine Keeps.set_clock rfl ?_
    exact Keeps.refl _ _
  clear_value x2
  refine Keeps.ite ?_ ?_
  · exact k3
  · refine Keeps.then (State.aoTick_keeps ..) rfl ?_
    exact k3

theorem State.pensRefused_keeps (s n os) : Keeps [.jnl] s (State.pensRefused s n os) := by
  unfold State.pensRefused
  extract_lets x1 x2 x3 x4
  refine Keeps.set_jnl rfl ?_
  exact Keeps.refl _ _

theorem State.readRefused_keeps (s n why) : Keeps [.out, .regs, .jnl, .pln, .sess, .evt] s (State.readRefused s n why) := by
  unfold State.readRefused
  split
  · rename_i y1 y2 y3
    extract_lets x4
    refine Keeps.then (State.stopRings_keeps ..) rfl ?_
    refine Keeps.then (State.setSession_keeps ..) rfl ?_
    exact Keeps.refl _ _
  · rename_i y5 y6
    split
    · rename_i y7 y8 y9
      extract_lets x10 x11
      have k12 : Keeps [.out, .regs, .jnl, .pln, .sess, .evt] s x11 := by
        unfold x11
        refine Keeps.ite ?_ ?_
        · refine Keeps.then (State.planState_keeps ..) rfl ?_
          refine Keeps.set_pln rfl ?_
          exact Keeps.refl _ _
        · exact Keeps.refl _ _
      clear_value x11
      refine Keeps.then (State.finishDesc_keeps ..) rfl ?_
      refine Keeps.then (State.dropSets_keeps ..) rfl ?_
      exact k12
    · rename_i y13 y14
      refine Keeps.then (State.finishDesc_keeps ..) rfl ?_
      refine Keeps.then (State.dropSets_keeps ..) rfl ?_
      exact Keeps.refl _ _
  · rename_i y15 y16
    refine Keeps.then (State.finishDesc_keeps ..) rfl ?_
    exact Keeps.refl _ _
  · rename_i y17 y18
    refine Keeps.then (State.finishDesc_keeps ..) rfl ?_
    exact Keeps.refl _ _
  · rename_i y19 y20
    refine Keeps.then (State.finishDesc_keeps ..) rfl ?_
    exact Keeps.refl _ _
  · rename_i y21 y22
    refine Keeps.then (State.finishDesc_keeps ..) rfl ?_
    exact Keeps.refl _ _
  · rename_i y23 y24
    refine Keeps.then (State.finishDesc_keeps ..) rfl ?_
    exact Keeps.refl _ _
  · rename_i y25 y26
    refine Keeps.then (State.finishDesc_keeps ..) rfl ?_
    exact Keeps.refl _ _
  · rename_i y27 y28
    exact Keeps.refl _ _

theorem State.opRefused_keeps (s n o rest) : Keeps [.freeIdx, .out, .regs, .jobs, .jnl, .pln, .sess, .evt,
    .crcs] s (State.opRefused s n o rest) := by
  unfold State.opRefused
  split
  · rename_i y1 y2 y3
    refine Keeps.then (State.jobRefused_keeps ..) rfl ?_
    exact Keeps.refl _ _
  · rename_i y4 y5 y6 y7
    refine Keeps.then (State.readRefused_keeps ..) rfl ?_
    exact Keeps.refl _ _
  · rename_i y8 y9
    split
    · rename_i y10 y11
      refine Keeps.then (State.jobRefused_keeps ..) rfl ?_
      exact Keeps.refl _ _
    · rename_i y12 y13
      refine Keeps.then (State.jobRefused_keeps ..) rfl ?_
      exact Keeps.refl _ _
    · rename_i y14 y15
      refine Keeps.then (State.jobRefused_keeps ..) rfl ?_
      exact Keeps.refl _ _
    · rename_i y16 y17
      refine Keeps.then (State.pensRefused_keeps ..) rfl ?_
      exact Keeps.refl _ _
    · rename_i y18 y19
      refine Keeps.then (State.fire_keeps ..) rfl ?_
      refine Keeps.then (State.bump_keeps ..) rfl ?_
      exact Keeps.refl _ _
    · rename_i y20 y21
      refine Keeps.then (State.bump_keeps ..) rfl ?_
      exact Keeps.refl _ _
    · rename_i y22 y23
      exact Keeps.refl _ _
    · rename_i y24 y25 y26 y27 y28 y29 y30 y31
      refine Keeps.then (State.stopRings_keeps ..) rfl ?_
      refine Keeps.then (State.holdWrite_keeps ..) rfl ?_
      exact Keeps.refl _ _

theorem State.sessState_keeps (s n v) : Keeps [.out, .regs, .sess, .evt] s (State.sessState s n v) := by
  unfold State.sessState
  extract_lets x1
  have k2 : Keeps [.out, .regs, .sess, .evt] s x1 := by
    unfold x1
    refine Keeps.then (State.setFld_keeps ..) rfl ?_
    exact Keeps.refl _ _
  clear_value x1
  refine Keeps.ite ?_ ?_
  · exact k2
  · refine Keeps.then (State.noticeAll_keeps ..) rfl ?_
    exact k2

theorem State.openDone_keeps (s n) : Keeps [.out, .regs, .sess, .evt] s (State.openDone s n) := by
  unfold State.openDone
  refine Keeps.then (State.sessState_keeps ..) rfl ?_
  refine Keeps.then (State.fire_keeps ..) rfl ?_
  exact Keeps.refl _ _

theorem State.openQp_keeps (s n o) : Keeps [.freeIdx, .regs, .sess] s (State.openQp s n o) := by
  unfold State.openQp
  extract_lets x1 x2 x3 x4 x5 x6 x7 x8 x9 x10 x11
  have k12 : Keeps [.freeIdx, .regs, .sess] s x1.2 := by
    unfold x1
    refine Keeps.then (State.takeFree_keeps ..) rfl ?_
    exact Keeps.refl _ _
  clear_value x1
  have k13 : Keeps [.freeIdx, .regs, .sess] s x2.2 := by
    unfold x2
    refine Keeps.then (State.takeFree_keeps ..) rfl ?_
    exact k12
  clear_value x2
  have k14 : Keeps [.freeIdx, .regs, .sess] s x3.2 := by
    unfold x3
    refine Keeps.then (State.takeFree_keeps ..) rfl ?_
    exact k13
  clear_value x3
  have k15 : Keeps [.freeIdx, .regs, .sess] s x4.2 := by
    unfold x4
    refine Keeps.then (State.takeFree_keeps ..) rfl ?_
    exact k14
  clear_value x4
  have k16 : Keeps [.freeIdx, .regs, .sess] s x5 := by
    unfold x5
    exact k15
  clear_value x5
  have k17 : Keeps [.freeIdx, .regs, .sess] s x9 := by
    unfold x9
    refine Keeps.then (State.setSession_keeps ..) rfl ?_
    exact k16
  clear_value x9
  have k18 : Keeps [.freeIdx, .regs, .sess] s x10 := by
    unfold x10
    refine Keeps.then (State.set64_keeps ..) rfl ?_
    refine Keeps.then (State.set64_keeps ..) rfl ?_
    refine Keeps.then (State.set64_keeps ..) rfl ?_
    exact k17
  clear_value x10
  have k19 : Keeps [.freeIdx, .regs, .sess] s x11 := by
    unfold x11
    refine Keeps.then (State.setReg_keeps ..) rfl ?_
    exact k18
  clear_value x11
  refine Keeps.then (State.setFlds_keeps ..) rfl ?_
  exact k19

theorem State.openFresh_keeps (s n o) : Keeps [.freeIdx, .out, .regs, .pen, .ovw, .sess, .evt] s (State.openFresh s n o) := by
  unfold State.openFresh
  extract_lets x1 x2 x3 x4 x5 x6 x7 x8
  have k9 : Keeps [.freeIdx, .out, .regs, .pen, .ovw, .sess, .evt] s x1 := by
    unfold x1
    refine Keeps.then (State.openQp_keeps ..) rfl ?_
    exact Keeps.refl _ _
  clear_value x1
  have k10 : Keeps [.freeIdx, .out, .regs, .pen, .ovw, .sess, .evt] s x3 := by
    unfold x3
    refine Keeps.then (State.setHring_keeps ..) rfl ?_
    refine Keeps.then (State.setHring_keeps ..) rfl ?_
    refine Keeps.then (State.setHring_keeps ..) rfl ?_
    exact k9
  clear_value x3
  have k11 : Keeps [.freeIdx, .out, .regs, .pen, .ovw, .sess, .evt] s x4 := by
    unfold x4
    refine Keeps.then (State.setFld_keeps ..) rfl ?_
    refine Keeps.then (State.setHring_keeps ..) rfl ?_
    exact k10
  clear_value x4
  have k12 : Keeps [.freeIdx, .out, .regs, .pen, .ovw, .sess, .evt] s x6 := by
    unfold x6
    refine Keeps.ite ?_ ?_
    · refine Keeps.set_pen rfl ?_
      exact k11
    · exact k10
  clear_value x6
  have k13 : Keeps [.freeIdx, .out, .regs, .pen, .ovw, .sess, .evt] s x7 := by
    unfold x7
    refine Keeps.ite ?_ ?_
    · refine Keeps.then (State.setFld_keeps ..) rfl ?_
      refine Keeps.then (State.setHring_keeps ..) rfl ?_
      exact k12
    · exact k12
  clear_value x7
  have k14 : Keeps [.freeIdx, .out, .regs, .pen, .ovw, .sess, .evt] s x8 := by
    unfold x8
    refine Keeps.then (State.openDone_keeps ..) rfl ?_
    exact k13
  clear_value x8
  refine Keeps.ite ?_ ?_
  · refine Keeps.then (State.ovwStart_keeps ..) rfl ?_
    exact k14
  · exact k14

theorem State.rereads_keeps (s n) : Keeps [.out, .regs, .sess, .evt] s (State.rereads s n) := by
  unfold State.rereads
  extract_lets x1 x2 x3 x4
  have k5 : Keeps [.out, .regs, .sess, .evt] s x4 := by
    unfold x4
    refine Keeps.then (State.setSession_keeps ..) rfl ?_
    exact Keeps.refl _ _
  clear_value x4
  refine Keeps.foldl ?_ ?_
  · exact k5
  · intro u6 e7 k8
    split
    · rename_i y9 y10 y11
      refine Keeps.then (State.hostRead_keeps ..) rfl ?_
      exact k8
    · rename_i y12 y13
      exact k8

theorem State.replayCpls_keeps (s n) : Keeps [.out, .regs, .sess, .evt] s (State.replayCpls s n) := by
  unfold State.replayCpls
  extract_lets x1
  refine Keeps.foldl ?_ ?_
  · exact Keeps.refl _ _
  · intro u2 e3 k4
    extract_lets x5
    split
    · rename_i y6 y7
      exact k4
    · rename_i y8 y9 y10
      refine Keeps.then (State.hostWrite_keeps ..) rfl ?_
      exact k4

theorem State.rewrites_keeps (s n) : Keeps [.out, .regs, .sess, .evt] s (State.rewrites s n) := by
  unfold State.rewrites
  extract_lets x1 x2 x3
  have k4 : Keeps [.out, .regs, .sess, .evt] s x3 := by
    unfold x3
    refine Keeps.then (State.setSession_keeps ..) rfl ?_
    exact Keeps.refl _ _
  clear_value x3
  refine Keeps.foldl ?_ ?_
  · exact k4
  · intro u5 e6 k7
    refine Keeps.then (State.hostWrite_keeps ..) rfl ?_
    exact k7

theorem State.openResume_keeps (s n o) : Keeps [.freeIdx, .out, .regs, .jnl, .ovw, .sess, .evt] s (State.openResume s n o) := by
  unfold State.openResume
  extract_lets x1 x2 x3 x4 x5 x6 x7
  have k8 : Keeps [.freeIdx, .out, .regs, .jnl, .ovw, .sess, .evt] s x2 := by
    unfold x2
    refine Keeps.then (State.replayStart_keeps ..) rfl ?_
    refine Keeps.then (State.openDone_keeps ..) rfl ?_
    refine Keeps.then (State.openQp_keeps ..) rfl ?_
    exact Keeps.refl _ _
  clear_value x2
  have k9 : Keeps [.freeIdx, .out, .regs, .jnl, .ovw, .sess, .evt] s x3 := by
    unfold x3
    refine Keeps.then (State.rewrites_keeps ..) rfl ?_
    refine Keeps.then (State.replayCpls_keeps ..) rfl ?_
    exact k8
  clear_value x3
  have k10 : Keeps [.freeIdx, .out, .regs, .jnl, .ovw, .sess, .evt] s x5 := by
    unfold x5
    refine Keeps.ite ?_ ?_
    · refine Keeps.set_jnl rfl ?_
      exact k9
    · exact k9
  clear_value x5
  have k11 : Keeps [.freeIdx, .out, .regs, .jnl, .ovw, .sess, .evt] s x6 := by
    unfold x6
    refine Keeps.then (State.flushEvt_keeps ..) rfl ?_
    refine Keeps.then (State.flushCpl_keeps ..) rfl ?_
    refine Keeps.then (State.rereads_keeps ..) rfl ?_
    exact k10
  clear_value x6
  have k12 : Keeps [.freeIdx, .out, .regs, .jnl, .ovw, .sess, .evt] s x7 := by
    unfold x7
    refine Keeps.ite ?_ ?_
    · refine Keeps.then (State.ovwStart_keeps ..) rfl ?_
      exact k11
    · exact k11
  clear_value x7
  refine Keeps.then (State.kickFetch_keeps ..) rfl ?_
  exact k12

theorem State.orderAcked_keeps (s g src) : Keeps [.out, .regs, .jnl, .sess, .fab, .evt] s (State.orderAcked s g src) := by
  unfold State.orderAcked
  extract_lets x1 x2 x3 x4 x5
  have k6 : Keeps [.out, .regs, .jnl, .sess, .fab, .evt] s x4 := by
    unfold x4
    refine Keeps.set_fab rfl ?_
    exact Keeps.refl _ _
  clear_value x4
  refine Keeps.ite ?_ ?_
  · refine Keeps.set_fab rfl ?_
    exact Keeps.refl _ _
  · split
    · rename_i y7 y8 y9
      refine Keeps.then (State.finishDesc_keeps ..) rfl ?_
      refine Keeps.set_fab rfl ?_
      exact k6
    · rename_i y10 y11
      refine Keeps.set_fab rfl ?_
      exact k6

theorem State.orderAnswer_keeps (s dest ref status time) : Keeps [.out, .tim, .fab] s (State.orderAnswer s dest ref status time) := by
  unfold State.orderAnswer
  refine Keeps.then (State.fabReply_keeps ..) rfl ?_
  exact Keeps.refl _ _

theorem State.ovwDrop_keeps (s rest) : Keeps [.ovw] s (State.ovwDrop s rest) := by
  unfold State.ovwDrop
  extract_lets x1
  refine Keeps.set_ovw rfl ?_
  exact Keeps.refl _ _

theorem State.ovwWritten_keeps (s p l rest) : Keeps [.regs, .ovw, .evt] s (State.ovwWritten s p l rest) := by
  unfold State.ovwWritten
  extract_lets x1 x2 x3
  have k4 : Keeps [.regs, .ovw, .evt] s x2 := by
    unfold x2
    refine Keeps.set_ovw rfl ?_
    exact Keeps.refl _ _
  clear_value x2
  have k5 : Keeps [.regs, .ovw, .evt] s x3 := by
    unfold x3
    refine Keeps.then (State.fireIf_keeps ..) rfl ?_
    refine Keeps.then (State.bump_keeps ..) rfl ?_
    exact k4
  clear_value x3
  refine Keeps.ite ?_ ?_
  · refine Keeps.then (State.fire_keeps ..) rfl ?_
    refine Keeps.then (State.bump_keeps ..) rfl ?_
    exact k5
  · exact k5

theorem State.peerGone_keeps (s serial) : Keeps [.regs, .fab] s (State.peerGone s serial) := by
  unfold State.peerGone
  extract_lets x1 x2
  have k3 : Keeps [.regs, .fab] s x2 := by
    unfold x2
    refine Keeps.set_fab rfl ?_
    exact Keeps.refl _ _
  clear_value x2
  refine Keeps.then (State.countModules_keeps ..) rfl ?_
  exact k3

theorem State.phyResume_keeps (s p w) : Keeps [.out, .regs, .ports] s (State.phyResume s p w) := by
  unfold State.phyResume
  extract_lets x1 x2
  have k3 : Keeps [.out, .regs, .ports] s x1 := by
    unfold x1
    refine Keeps.then (State.setDomain_keeps ..) rfl ?_
    refine Keeps.then (State.emit_keeps ..) rfl ?_
    refine Keeps.then (State.emit_keeps ..) rfl ?_
    exact Keeps.refl _ _
  clear_value x1
  have k4 : Keeps [.out, .regs, .ports] s x2 := by
    unfold x2
    refine Keeps.foldl ?_ ?_
    · exact k3
    · intro u5 e6 k7
      extract_lets x8
      refine Keeps.then (State.setLane_keeps ..) rfl ?_
      exact k7
  clear_value x2
  refine Keeps.then (State.modPort_keeps ..) rfl ?_
  refine Keeps.then (State.setFld_keeps ..) rfl ?_
  exact k4

theorem State.phySleep_keeps (s p) : Keeps [.out, .regs, .ports] s (State.phySleep s p) := by
  unfold State.phySleep
  extract_lets x1
  have k2 : Keeps [.out, .regs, .ports] s x1 := by
    unfold x1
    refine Keeps.then (State.setDomain_keeps ..) rfl ?_
    refine Keeps.then (State.emit_keeps ..) rfl ?_
    refine Keeps.then (State.emit_keeps ..) rfl ?_
    exact Keeps.refl _ _
  clear_value x1
  refine Keeps.then (State.modPort_keeps ..) rfl ?_
  refine Keeps.then (State.setFld_keeps ..) rfl ?_
  exact k2

theorem State.planFromRegs_keeps (s) : Keeps [.coders, .pln] s (State.planFromRegs s) := by
  unfold State.planFromRegs
  split
  · rename_i y1 y2
    exact Keeps.refl _ _
  · rename_i y3 y4 y5
    extract_lets x6 x7 x8 x9 x10 x11 x12 x13
    have k14 : Keeps [.coders, .pln] s x13 := by
      unfold x13
      refine Keeps.set_pln rfl ?_
      exact Keeps.refl _ _
    clear_value x13
    refine Keeps.foldl ?_ ?_
    · exact k14
    · intro u15 e16 k17
      extract_lets x18 x19
      refine Keeps.then (State.setCoder_keeps ..) rfl ?_
      exact k17

theorem State.planNone_keeps (s) : Keeps [.regs, .pln, .tim, .evt] s (State.planNone s) := by
  unfold State.planNone
  extract_lets x1 x2 x3 x4
  have k5 : Keeps [.regs, .pln, .tim, .evt] s x2 := by
    unfold x2
    refine Keeps.foldl ?_ ?_
    · exact Keeps.refl _ _
    · intro u6 e7 k8
      refine Keeps.then (State.setReg_keeps ..) rfl ?_
      exact k8
  clear_value x2
  have k9 : Keeps [.regs, .pln, .tim, .evt] s x3 := by
    unfold x3
    refine Keeps.foldl ?_ ?_
    · exact k5
    · intro u10 e11 k12
      refine Keeps.then (State.setTout_keeps ..) rfl ?_
      exact k12
  clear_value x3
  refine Keeps.then (State.planUnclaim_keeps ..) rfl ?_
  refine Keeps.set_pln rfl ?_
  exact k9

theorem State.warmFault_keeps (s) : Keeps [.out, .regs, .latches, .ports, .ctxs, .slices, .coders, .ring, .jobs, .seam, .pen, .jnl,
    .ovw, .mem, .pln, .sess, .eths, .tim, .fab, .encs, .axes, .evt, .crcs, .cal, .pwr, .statHeld] s (State.warmFault s) := by
  unfold State.warmFault
  extract_lets x1 x2 x3
  have k4 : Keeps [.out, .regs, .latches, .ports, .ctxs, .slices, .coders, .ring, .jobs, .seam, .pen, .jnl, .ovw, .mem, .pln, .sess,
      .eths, .tim, .fab, .encs, .axes, .evt, .crcs, .cal, .pwr, .statHeld] s x2 := by
    unfold x2
    refine Keeps.then (State.dieLost_keeps ..) rfl ?_
    refine Keeps.then (State.axesHalt_keeps ..) rfl ?_
    exact Keeps.refl _ _
  clear_value x2
  refine Keeps.then (State.startSunrise_keeps ..) rfl ?_
  refine Keeps.set_pwr rfl ?_
  exact k4

theorem State.pllLost_keeps (s pll) : Keeps allParts s (State.pllLost s pll) := by
  unfold State.pllLost
  extract_lets x1 x2 x3 x4 x5 x6 x7
  have k8 : Keeps allParts s x2 := by
    unfold x2
    refine Keeps.then (State.catalogue_keeps ..) rfl ?_
    exact Keeps.refl _ _
  clear_value x2
  have k9 : Keeps allParts s x6 := by
    unfold x6
    refine Keeps.set_pwr rfl ?_
    exact k8
  clear_value x6
  have k10 : Keeps allParts s x7 := by
    unfold x7
    refine Keeps.ite ?_ ?_
    · refine Keeps.then (State.bump_keeps ..) rfl ?_
      exact k9
    · exact k9
  clear_value x7
  refine Keeps.ite ?_ ?_
  · refine Keeps.then (State.startDawn_keeps ..) rfl ?_
    refine Keeps.then (State.dieLost_keeps ..) rfl ?_
    refine Keeps.then (State.axesHalt_keeps ..) rfl ?_
    refine Keeps.then (State.startRecord_keeps ..) rfl ?_
    exact k10
  · refine Keeps.then (State.warmFault_keeps ..) rfl ?_
    exact k10

theorem State.poisonUse_keeps (s u) : Keeps [.ctxs, .ring, .jnl] s (State.poisonUse s u) := by
  unfold State.poisonUse
  split
  · rename_i y1 y2 y3 y4
    extract_lets x5 x6
    refine Keeps.then (State.setCtx_keeps ..) rfl ?_
    exact Keeps.refl _ _
  · rename_i y7 y8 y9 y10
    extract_lets x11 x12
    refine Keeps.ite ?_ ?_
    · refine Keeps.set_ring rfl ?_
      exact Keeps.refl _ _
    · exact Keeps.refl _ _
  · rename_i y13 y14
    extract_lets x15
    refine Keeps.ite ?_ ?_
    · refine Keeps.set_jnl rfl ?_
      exact Keeps.refl _ _
    · exact Keeps.refl _ _
  · rename_i y16 y17
    exact Keeps.refl _ _
  · rename_i y18
    exact Keeps.refl _ _
  · rename_i y19
    exact Keeps.refl _ _

theorem State.portsResume_keeps (s) : Keeps [.out, .regs, .ports, .jnl, .sess, .evt, .cal] s (State.portsResume s) := by
  unfold State.portsResume
  refine Keeps.foldl ?_ ?_
  · exact Keeps.refl _ _
  · intro u1 e2 k3
    refine Keeps.ite ?_ ?_
    · exact k3
    · refine Keeps.ite ?_ ?_
      · refine Keeps.then (State.phyResume_keeps ..) rfl ?_
        exact k3
      · refine Keeps.then (State.discover_keeps ..) rfl ?_
        refine Keeps.then (State.setDomain_keeps ..) rfl ?_
        refine Keeps.then (State.emit_keeps ..) rfl ?_
        exact k3

theorem State.pwrRestart_keeps (s v) : Keeps [.freeIdx, .out, .regs, .ports, .ctxs, .slices, .jobs, .seam, .pen, .jnl, .ovw, .pln,
    .sess, .tim, .fab, .axes, .evt, .cal, .pwr] s (State.pwrRestart s v) := by
  unfold State.pwrRestart
  extract_lets x1
  refine Keeps.ite ?_ ?_
  · exact Keeps.refl _ _
  · refine Keeps.then (State.modeOrder_keeps ..) rfl ?_
    exact Keeps.refl _ _

theorem State.qpEnd_keeps (s n) : Keeps [.sess] s (State.qpEnd s n) := by
  unfold State.qpEnd
  extract_lets x1 x2 x3
  refine Keeps.then (State.setSession_keeps ..) rfl ?_
  exact Keeps.refl _ _

theorem State.queuePeakClear_keeps (s) : Keeps [.regs] s (State.queuePeakClear s) := by
  unfold State.queuePeakClear
  refine Keeps.then (State.setFld_keeps ..) rfl ?_
  exact Keeps.refl _ _

theorem frameLoaded_keeps (n d b s) : Keeps [.out, .regs, .jnl, .sess, .tim, .evt] s (frameLoaded n d b s) := by
  unfold frameLoaded
  split
  · rename_i y1 y2 y3
    refine Keeps.then (State.launchBad_keeps ..) rfl ?_
    exact Keeps.refl _ _
  · rename_i y4 y5
    extract_lets x6 x7
    refine Keeps.then (State.setQueue_keeps ..) rfl ?_
    exact Keeps.refl _ _

theorem sineLoaded_keeps (n d b s) : Keeps [.out, .regs, .jnl, .sess, .axes, .evt] s (sineLoaded n d b s) := by
  unfold sineLoaded
  extract_lets x1 x2
  refine Keeps.ite ?_ ?_
  · refine Keeps.then (State.doneDesc_keeps ..) rfl ?_
    refine Keeps.then (State.setAx_keeps ..) rfl ?_
    exact Keeps.refl _ _
  · refine Keeps.then (State.badParam_keeps ..) rfl ?_
    exact Keeps.refl _ _

theorem axisTableLoaded_keeps (n d b s) : Keeps [.out, .regs, .jnl, .sess, .axes, .evt] s (axisTableLoaded n d b s) := by
  unfold axisTableLoaded
  extract_lets x1 x2 x3 x4 x5 x6 x7
  refine Keeps.ite ?_ ?_
  · refine Keeps.then (State.badParam_keeps ..) rfl ?_
    exact Keeps.refl _ _
  · refine Keeps.ite ?_ ?_
    · refine Keeps.then (State.wrongState_keeps ..) rfl ?_
      exact Keeps.refl _ _
    · refine Keeps.ite ?_ ?_
      · refine Keeps.then (State.beginSegs_keeps ..) rfl ?_
        refine Keeps.then (State.setAx_keeps ..) rfl ?_
        exact Keeps.refl _ _
      · refine Keeps.then (State.setAx_keeps ..) rfl ?_
        exact Keeps.refl _ _

theorem ctrlDataRead_keeps (n d bytes s) : Keeps [.out, .ports] s (ctrlDataRead n d bytes s) := by
  unfold ctrlDataRead
  extract_lets x1
  refine Keeps.then (State.ctrlAdd_keeps ..) rfl ?_
  exact Keeps.refl _ _

theorem settingsApply_keeps (n d pairs s) : Keeps [.out, .regs, .ports, .jnl, .sess, .evt] s (settingsApply n d pairs s) := by
  unfold settingsApply
  extract_lets x1 x2 x3
  split
  · rename_i y4 y5
    refine Keeps.then (State.wrongState_keeps ..) rfl ?_
    exact Keeps.refl _ _
  · rename_i y6 y7 y8
    extract_lets x9 x10 x11 x12 x13
    have k14 : Keeps [.out, .regs, .ports, .jnl, .sess, .evt] s x13 := by
      unfold x13
      refine Keeps.then (State.setPort_keeps ..) rfl ?_
      exact Keeps.refl _ _
    clear_value x13
    refine Keeps.ite ?_ ?_
    · refine Keeps.then (State.wrongState_keeps ..) rfl ?_
      exact Keeps.refl _ _
    · refine Keeps.then (State.sendPkt_keeps ..) rfl ?_
      refine Keeps.then (State.applyCount_keeps ..) rfl ?_
      exact k14

theorem State.tableCame_keeps (s n d b) : Gives (fun r => r) [.out, .regs, .jnl, .sess, .evt, .statHeld] s (State.tableCame s n d b) := by
  unfold State.tableCame
  extract_lets x1
  refine Gives.ite ?_ ?_
  · refine Gives.ok ?_
    refine Keeps.then (State.wrongState_keeps ..) rfl ?_
    exact Keeps.refl _ _
  · refine Gives.ite ?_ ?_
    · exact Gives.error
    · refine Gives.ok ?_
      refine Keeps.then (State.doneDesc_keeps ..) rfl ?_
      refine Keeps.then (State.mapPages_keeps ..) rfl ?_
      exact Keeps.refl _ _

theorem State.recipeCame_keeps (s n idx b) : Keeps [.regs, .pln, .fab] s (State.recipeCame s n idx b) := by
  unfold State.recipeCame
  split
  · rename_i y1 y2
    exact Keeps.refl _ _
  · rename_i y3 y4 y5
    extract_lets x6
    refine Keeps.ite ?_ ?_
    · exact Keeps.refl _ _
    · refine Keeps.then (State.fabStart_keeps ..) rfl ?_
      refine Keeps.set_pln rfl ?_
      exact Keeps.refl _ _

theorem State.slotLoad_keeps (s n d b set) : Keeps [.out, .regs, .jnl, .pln, .sess, .evt] s (State.slotLoad s n d b set) := by
  unfold State.slotLoad
  extract_lets x1 x2 x3 x4 x5
  split
  · rename_i y6 y7 y8
    refine Keeps.then (State.finishDesc_keeps ..) rfl ?_
    exact Keeps.refl _ _
  · rename_i y9 y10
    refine Keeps.then (State.finishDesc_keeps ..) rfl ?_
    refine Keeps.set_pln rfl ?_
    exact Keeps.refl _ _

theorem State.recordsCame_keeps (s n idx b) : Keeps [.out, .regs, .ctxs, .jnl, .pln, .sess, .fab,
    .evt] s (State.recordsCame s n idx b) := by
  unfold State.recordsCame
  split
  · rename_i y1 y2 y3 y4 y5 y6
    extract_lets x7 x8 x9
    have k10 : Keeps [.out, .regs, .ctxs, .jnl, .pln, .sess, .fab, .evt] s x8 := by
      unfold x8
      refine Keeps.set_pln rfl ?_
      exact Keeps.refl _ _
    clear_value x8
    refine Keeps.ite ?_ ?_
    · refine Keeps.then (State.bankUpdate_keeps ..) rfl ?_
      exact k10
    · refine Keeps.then (State.slotLoad_keeps ..) rfl ?_
      exact k10
  · rename_i y11 y12 y13
    refine Keeps.then (State.recipeCame_keeps ..) rfl ?_
    exact Keeps.refl _ _

theorem State.readCame_keeps (s n why b) : Gives (fun r => r) [.out, .regs, .ports, .ctxs, .jobs, .jnl, .pln, .sess, .tim, .fab, .axes,
    .evt, .crcs, .statHeld] s (State.readCame s n why b) := by
  unfold State.readCame
  extract_lets x1
  split
  · rename_i y2 y3 y4
    refine Gives.ok ?_
    exact Keeps.refl _ _
  · rename_i y5 y6
    refine Gives.ok ?_
    refine Keeps.then (State.recordsCame_keeps ..) rfl ?_
    exact Keeps.refl _ _
  · rename_i y7 y8
    split
    · rename_i y9 y10 y11
      refine Gives.then (State.tableCame_keeps _ _ _ _) rfl ?_
      exact Keeps.refl _ _
    · rename_i y12 y13
      refine Gives.ok ?_
      exact Keeps.refl _ _
  · rename_i y14 y15
    unfold x1
    refine Gives.ok ?_
    dsimp -zeta only
    split
    · rename_i y16 y17 y18
      refine Keeps.then (settingsApply_keeps ..) rfl ?_
      exact Keeps.refl _ _
    · rename_i y19 y20
      exact Keeps.refl _ _
  · rename_i y21 y22
    unfold x1
    refine Gives.ok ?_
    dsimp -zeta only
    split
    · rename_i y23 y24 y25
      refine Keeps.then (ctrlDataRead_keeps ..) rfl ?_
      exact Keeps.refl _ _
    · rename_i y26 y27
      exact Keeps.refl _ _
  · rename_i y28 y29
    unfold x1
    refine Gives.ok ?_
    dsimp -zeta only
    split
    · rename_i y30 y31 y32
      refine Keeps.then (axisTableLoaded_keeps ..) rfl ?_
      exact Keeps.refl _ _
    · rename_i y33 y34
      exact Keeps.refl _ _
  · rename_i y35 y36
    unfold x1
    refine Gives.ok ?_
    dsimp -zeta only
    split
    · rename_i y37 y38 y39
      refine Keeps.then (sineLoaded_keeps ..) rfl ?_
      exact Keeps.refl _ _
    · rename_i y40 y41
      exact Keeps.refl _ _
  · rename_i y42 y43
    unfold x1
    refine Gives.ok ?_
    dsimp -zeta only
    split
    · rename_i y44 y45 y46
      refine Keeps.then (frameLoaded_keeps ..) rfl ?_
      exact Keeps.refl _ _
    · rename_i y47 y48
      exact Keeps.refl _ _
  · rename_i y49 y50
    refine Gives.ok ?_
    split
    · rename_i y51 y52 y53
      refine Keeps.then (State.checkData_keeps ..) rfl ?_
      exact Keeps.refl _ _
    · rename_i y54 y55
      exact Keeps.refl _ _

theorem State.readapt_keeps (s p) : Keeps [.out, .regs, .ports] s (State.readapt s p) := by
  unfold State.readapt
  extract_lets x1 x2
  have k3 : Keeps [.out, .regs, .ports] s x2 := by
    unfold x2
    refine Keeps.then (State.modPort_keeps ..) rfl ?_
    refine Keeps.then (State.setFld_keeps ..) rfl ?_
    exact Keeps.refl _ _
  clear_value x2
  refine Keeps.ite ?_ ?_
  · refine Keeps.foldl ?_ ?_
    · exact k3
    · intro u4 e5 k6
      refine Keeps.then (State.adaptLane_keeps ..) rfl ?_
      exact k6
  · exact Keeps.refl _ _

theorem State.readyCheck_keeps (s) : Keeps [.out, .pln, .tim, .fab] s (State.readyCheck s) := by
  unfold State.readyCheck
  extract_lets x1 x2 x3
  split
  · rename_i y4 y5
    exact Keeps.refl _ _
  · rename_i y6 y7 y8 y9
    refine Keeps.ite ?_ ?_
    · refine Keeps.then (State.issueOrder_keeps ..) rfl ?_
      refine Keeps.set_fab rfl ?_
      exact Keeps.refl _ _
    · exact Keeps.refl _ _

theorem State.redConfirm_keeps (s k) : Keeps [.regs, .encs] s (State.redConfirm s k) := by
  unfold State.redConfirm
  extract_lets x1 x2 x3 x4 x5 x6 x7
  have k8 : Keeps [.regs, .encs] s x7 := by
    unfold x7
    refine Keeps.then (State.setEnc_keeps ..) rfl ?_
    exact Keeps.refl _ _
  clear_value x7
  refine Keeps.ite ?_ ?_
  · exact Keeps.refl _ _
  · refine Keeps.ite ?_ ?_
    · refine Keeps.then (State.setFld_keeps ..) rfl ?_
      exact k8
    · exact k8

theorem State.regRead_keeps (s reader a) : Keeps [.latches] s (State.regRead s reader a).2 := by
  unfold State.regRead
  extract_lets x1
  refine Keeps.ite_map Prod.snd ?_ ?_
  · dsimp -zeta only
    exact Keeps.refl _ _
  · refine Keeps.ite_map Prod.snd ?_ ?_
    · dsimp -zeta only
      refine Keeps.set_latches rfl ?_
      exact Keeps.refl _ _
    · dsimp -zeta only
      exact Keeps.refl _ _

theorem State.regReads_keeps (s n a2 a3) : Keeps [.latches] s (State.regReads s n a2 a3).2 := by
  induction a2 generalizing s n a3
  · unfold State.regReads
    dsimp -zeta only
    exact Keeps.refl _ _
  · rename_i y1 y2
    unfold State.regReads
    extract_lets x3 x4
    have k5 : Keeps [.latches] s x3.2 := by
      unfold x3
      refine Keeps.then (State.regRead_keeps ..) rfl ?_
      exact Keeps.refl _ _
    clear_value x3
    have k6 : Keeps [.latches] s x4.2 := by
      unfold x4
      refine Keeps.then (y2 _ _ _) rfl ?_
      exact k5
    clear_value x4
    dsimp -zeta only
    exact k6

theorem State.wroteAxis_keeps (s x) : Keeps [.out, .regs, .jnl, .sess, .axes, .evt] s (State.wroteAxis s x) := by
  unfold State.wroteAxis
  refine Keeps.ite ?_ ?_
  · refine Keeps.ite ?_ ?_
    · refine Keeps.then (State.axCoils_keeps ..) rfl ?_
      refine Keeps.then (State.setFld_keeps ..) rfl ?_
      exact Keeps.refl _ _
    · exact Keeps.refl _ _
  · refine Keeps.ite ?_ ?_
    · exact Keeps.refl _ _
    · refine Keeps.then (State.axCoils_keeps ..) rfl ?_
      refine Keeps.then (State.setFld_keeps ..) rfl ?_
      refine Keeps.then (State.hardStop_keeps ..) rfl ?_
      exact Keeps.refl _ _

theorem State.wroteFab_keeps (s) : Keeps [.regs, .evt] s (State.wroteFab s) := by
  unfold State.wroteFab
  extract_lets x1 x2
  have k3 : Keeps [.regs, .evt] s x1 := by
    unfold x1
    refine Keeps.then (State.setDomain_keeps ..) rfl ?_
    exact Keeps.refl _ _
  clear_value x1
  have k4 : Keeps [.regs, .evt] s x2 := by
    unfold x2
    refine Keeps.then (State.claimQueues_keeps ..) rfl ?_
    exact k3
  clear_value x2
  refine Keeps.ite ?_ ?_
  · refine Keeps.ite ?_ ?_
    · refine Keeps.then (State.claimQueues_keeps ..) rfl ?_
      refine Keeps.then (State.setFld_keeps ..) rfl ?_
      exact k4
    · exact k4
  · refine Keeps.then (State.claimQueues_keeps ..) rfl ?_
    exact k3

theorem State.wrotePace_keeps (s) : Keeps [.regs, .evt] s (State.wrotePace s) := by
  unfold State.wrotePace
  extract_lets x1
  have k2 : Keeps [.regs, .evt] s x1 := by
    unfold x1
    refine Keeps.then (State.claimQueues_keeps ..) rfl ?_
    exact Keeps.refl _ _
  clear_value x1
  refine Keeps.ite ?_ ?_
  · refine Keeps.then (State.claimQueues_keeps ..) rfl ?_
    exact Keeps.refl _ _
  · refine Keeps.ite ?_ ?_
    · refine Keeps.then (State.claimQueues_keeps ..) rfl ?_
      refine Keeps.then (State.setReg_keeps ..) rfl ?_
      exact k2
    · exact k2

theorem State.servo_keeps (s v) : Keeps [.freeIdx, .out, .regs, .jnl, .sess, .evt, .cal] s (State.servo s v) := by
  unfold State.servo
  extract_lets x1 x2
  have k3 : Keeps [.freeIdx, .out, .regs, .jnl, .sess, .evt, .cal] s x1 := by
    unfold x1
    refine Keeps.then (State.setFld_keeps ..) rfl ?_
    exact Keeps.refl _ _
  clear_value x1
  have k4 : Keeps [.freeIdx, .out, .regs, .jnl, .sess, .evt, .cal] s x2 := by
    unfold x2
    refine Keeps.then (State.fireIf_keeps ..) rfl ?_
    exact k3
  clear_value x2
  refine Keeps.then (State.asymLost_keeps ..) rfl ?_
  refine Keeps.ite ?_ ?_
  · refine Keeps.then (State.bump_keeps ..) rfl ?_
    refine Keeps.then (State.fire_keeps ..) rfl ?_
    exact k4
  · exact k4

theorem State.selectMaster_keeps (s) : Keeps [.freeIdx, .out, .regs, .jnl, .sess, .tim, .evt, .cal] s (State.selectMaster s) := by
  unfold State.selectMaster
  extract_lets x1 x2 x3 x4
  have k5 : Keeps [.freeIdx, .out, .regs, .jnl, .sess, .tim, .evt, .cal] s x4 := by
    unfold x4
    refine Keeps.set_tim rfl ?_
    exact Keeps.refl _ _
  clear_value x4
  refine Keeps.ite ?_ ?_
  · refine Keeps.then (State.fireIf_keeps ..) rfl ?_
    exact k5
  · clear_value x1
    split
    · rename_i y6
      refine Keeps.set_tim rfl ?_
      exact Keeps.refl _ _
    · rename_i y7 y8 y9
      extract_lets x10 x11 x12 x13 x14
      have k15 : Keeps [.freeIdx, .out, .regs, .jnl, .sess, .tim, .evt, .cal] s x11 := by
        unfold x11
        refine Keeps.then (State.setFld_keeps ..) rfl ?_
        refine Keeps.set_tim rfl ?_
        exact Keeps.refl _ _
      clear_value x11
      have k16 : Keeps [.freeIdx, .out, .regs, .jnl, .sess, .tim, .evt, .cal] s x12 := by
        unfold x12
        refine Keeps.then (State.setFlag_keeps ..) rfl ?_
        exact k15
      clear_value x12
      have k17 : Keeps [.freeIdx, .out, .regs, .jnl, .sess, .tim, .evt, .cal] s x14 := by
        unfold x14
        refine Keeps.then (State.fire_keeps ..) rfl ?_
        refine Keeps.set_tim rfl ?_
        exact k16
      clear_value x14
      refine Keeps.ite ?_ ?_
      · exact k16
      · refine Keeps.ite ?_ ?_
        · refine Keeps.then (State.asymLost_keeps ..) rfl ?_
          exact k17
        · refine Keeps.then (State.servo_keeps ..) rfl ?_
          exact k17

theorem State.setRate_keeps (s f r) : Keeps [.regs, .tim] s (State.setRate s f r) := by
  unfold State.setRate
  extract_lets x1
  refine Keeps.then (State.setInt64_keeps ..) rfl ?_
  refine Keeps.set_tim rfl ?_
  exact Keeps.refl _ _

theorem State.servoFree_keeps (s) : Keeps [.freeIdx, .out, .regs, .jnl, .sess, .tim, .evt, .cal] s (State.servoFree s) := by
  unfold State.servoFree
  extract_lets x1
  refine Keeps.then (State.servo_keeps ..) rfl ?_
  refine Keeps.then (State.setRate_keeps ..) rfl ?_
  refine Keeps.set_tim rfl ?_
  exact Keeps.refl _ _

theorem State.wroteTim_keeps (s old) : Keeps [.freeIdx, .out, .regs, .jnl, .sess, .tim, .evt, .cal] s (State.wroteTim s old) := by
  unfold State.wroteTim
  extract_lets x1
  have k2 : Keeps [.freeIdx, .out, .regs, .jnl, .sess, .tim, .evt, .cal] s x1 := by
    unfold x1
    refine Keeps.ite ?_ ?_
    · refine Keeps.then (State.servo_keeps ..) rfl ?_
      exact Keeps.refl _ _
    · exact Keeps.refl _ _
  clear_value x1
  refine Keeps.ite ?_ ?_
  · refine Keeps.then (State.servoFree_keeps ..) rfl ?_
    exact Keeps.refl _ _
  · refine Keeps.then (State.selectMaster_keeps ..) rfl ?_
    exact k2

theorem State.retiredClear_keeps (s m) : Keeps [.regs, .pwr] s (State.retiredClear s m) := by
  unfold State.retiredClear
  extract_lets x1
  have k2 : Keeps [.regs, .pwr] s x1 := by
    unfold x1
    refine Keeps.then (State.flashFailed_keeps ..) rfl ?_
    refine Keeps.then (State.setFld_keeps ..) rfl ?_
    refine Keeps.then (State.setReg_keeps ..) rfl ?_
    exact Keeps.refl _ _
  clear_value x1
  refine Keeps.ite ?_ ?_
  · exact Keeps.refl _ _
  · refine Keeps.foldl ?_ ?_
    · exact k2
    · intro u3 e4 k5
      refine Keeps.ite ?_ ?_
      · refine Keeps.then (State.setFld_keeps ..) rfl ?_
        exact k5
      · exact k5

theorem State.wrotePort_keeps (s p old v) : Keeps [.out, .regs, .ports, .jnl, .pln, .sess, .evt, .cal] s (State.wrotePort s p old v) := by
  unfold State.wrotePort
  extract_lets x1 x2 x3
  have k4 : Keeps [.out, .regs, .ports, .jnl, .pln, .sess, .evt, .cal] s x1 := by
    unfold x1
    refine Keeps.then (State.portLoop_keeps ..) rfl ?_
    exact Keeps.refl _ _
  clear_value x1
  have k5 : Keeps [.out, .regs, .ports, .jnl, .pln, .sess, .evt, .cal] s x2 := by
    unfold x2
    refine Keeps.ite ?_ ?_
    · refine Keeps.then (State.planPort_keeps ..) rfl ?_
      exact k4
    · exact k4
  clear_value x2
  have k6 : Keeps [.out, .regs, .ports, .jnl, .pln, .sess, .evt, .cal] s x3 := by
    unfold x3
    refine Keeps.ite ?_ ?_
    · refine Keeps.then (State.rediscover_keeps ..) rfl ?_
      exact k5
    · exact k5
  clear_value x3
  refine Keeps.ite ?_ ?_
  · refine Keeps.then (State.readapt_keeps ..) rfl ?_
    exact k6
  · exact k6

theorem State.startFailClear_keeps (s) : Keeps [.regs] s (State.startFailClear s) := by
  unfold State.startFailClear
  refine Keeps.then (State.setReg_keeps ..) rfl ?_
  refine Keeps.then (State.setReg_keeps ..) rfl ?_
  refine Keeps.then (State.setReg_keeps ..) rfl ?_
  exact Keeps.refl _ _

theorem State.wrote_keeps (s a old v) : Keeps [.freeIdx, .out, .regs, .ports, .ctxs, .slices, .jobs, .seam, .pen, .jnl, .ovw, .pln,
    .sess, .tim, .fab, .encs, .axes, .evt, .crcs, .cal, .pwr] s (State.wrote s a old v) := by
  unfold State.wrote
  extract_lets x1 x2
  refine Keeps.ite ?_ ?_
  · refine Keeps.then (State.setReg_keeps ..) rfl ?_
    exact Keeps.refl _ _
  · refine Keeps.ite ?_ ?_
    · refine Keeps.ite ?_ ?_
      · refine Keeps.then (State.startFailClear_keeps ..) rfl ?_
        exact Keeps.refl _ _
      · exact Keeps.refl _ _
    · refine Keeps.ite ?_ ?_
      · refine Keeps.then (State.pwrRestart_keeps ..) rfl ?_
        exact Keeps.refl _ _
      · refine Keeps.ite ?_ ?_
        · refine Keeps.then (State.wrotePort_keeps ..) rfl ?_
          exact Keeps.refl _ _
        · refine Keeps.ite ?_ ?_
          · refine Keeps.ite ?_ ?_
            · refine Keeps.then (State.setFld_keeps ..) rfl ?_
              exact Keeps.refl _ _
            · exact Keeps.refl _ _
          · refine Keeps.ite ?_ ?_
            · refine Keeps.ite ?_ ?_
              · refine Keeps.then (State.setFld_keeps ..) rfl ?_
                exact Keeps.refl _ _
              · exact Keeps.refl _ _
            · refine Keeps.ite ?_ ?_
              · refine Keeps.ite ?_ ?_
                · refine Keeps.then (State.queuePeakClear_keeps ..) rfl ?_
                  exact Keeps.refl _ _
                · exact Keeps.refl _ _
              · refine Keeps.ite ?_ ?_
                · refine Keeps.ite ?_ ?_
                  · refine Keeps.then (State.retiredClear_keeps ..) rfl ?_
                    exact Keeps.refl _ _
                  · exact Keeps.refl _ _
                · refine Keeps.ite ?_ ?_
                  · refine Keeps.ite ?_ ?_
                    · exact Keeps.refl _ _
                    · refine Keeps.then (State.wroteTim_keeps ..) rfl ?_
                      exact Keeps.refl _ _
                  · refine Keeps.ite ?_ ?_
                    · refine Keeps.then (State.wrotePace_keeps ..) rfl ?_
                      exact Keeps.refl _ _
                    · refine Keeps.ite ?_ ?_
                      · refine Keeps.then (State.wroteFab_keeps ..) rfl ?_
                        exact Keeps.refl _ _
                      · refine Keeps.ite ?_ ?_
                        · refine Keeps.ite ?_ ?_
                          · exact Keeps.refl _ _
                          · refine Keeps.ite ?_ ?_
                            · refine Keeps.then (State.setEnc_keeps ..) rfl ?_
                              refine Keeps.then (State.setFld_keeps ..) rfl ?_
                              exact Keeps.refl _ _
                            · exact Keeps.refl _ _
                        · refine Keeps.ite ?_ ?_
                          · refine Keeps.then (State.wroteAxis_keeps ..) rfl ?_
                            exact Keeps.refl _ _
                          · refine Keeps.ite ?_ ?_
                            · refine Keeps.then (State.loadWrite_keeps ..) rfl ?_
                              exact Keeps.refl _ _
                            · exact Keeps.refl _ _

theorem State.writeStaged_keeps (s u hi v) : Keeps [.crcs] s (State.writeStaged s u hi v) := by
  unfold State.writeStaged
  extract_lets x1 x2
  refine Keeps.then (State.setCrc_keeps ..) rfl ?_
  exact Keeps.refl _ _

theorem State.writeCell_keeps (s n l a x) : Gives (fun r => r) [.regs, .evt] s (State.writeCell s n l a x) := by
  unfold State.writeCell
  extract_lets x1 x2
  refine Gives.ite ?_ ?_
  · refine Gives.ok ?_
    exact Keeps.refl _ _
  · refine Gives.ite ?_ ?_
    · refine Gives.ite ?_ ?_
      · exact Gives.error
      · refine Gives.ok ?_
        exact Keeps.refl _ _
    · split
      · rename_i y3 y4 y5
        refine Gives.ite ?_ ?_
        · refine Gives.ok ?_
          refine Keeps.then (State.cellWrite_keeps ..) rfl ?_
          exact Keeps.refl _ _
        · refine Gives.ok ?_
          refine Keeps.then (State.conflict_keeps ..) rfl ?_
          exact Keeps.refl _ _
      · rename_i y6 y7
        refine Gives.ok ?_
        refine Keeps.then (State.cellWrite_keeps ..) rfl ?_
        exact Keeps.refl _ _

theorem State.writeChan_keeps (s v x) : Gives (fun r => r) [.regs] s (State.writeChan s v x) := by
  unfold State.writeChan
  extract_lets x1 x2 x3
  refine Gives.ite ?_ ?_
  · refine Gives.ok ?_
    exact Keeps.refl _ _
  · refine Gives.ite ?_ ?_
    · exact Gives.error
    · refine Gives.ok ?_
      refine Keeps.then (State.setReg_keeps ..) rfl ?_
      exact Keeps.refl _ _

theorem State.regWrite_keeps (s n a v) : Gives (fun r => r) [.freeIdx, .out, .regs, .ports, .ctxs, .slices, .coders, .jobs, .seam,
    .pen, .jnl, .ovw, .pln, .sess, .tim, .fab, .encs, .axes, .evt, .crcs, .cal, .pwr] s (State.regWrite s n a v) := by
  unfold State.regWrite
  extract_lets x1 x2 x3 x4 x5
  have k6 : Keeps [.freeIdx, .out, .regs, .ports, .ctxs, .slices, .coders, .jobs, .seam, .pen, .jnl, .ovw, .pln, .sess, .tim, .fab,
      .encs, .axes, .evt, .crcs, .cal, .pwr] s x4 := by
    unfold x4
    refine Keeps.ite ?_ ?_
    · exact Keeps.refl _ _
    · refine Keeps.then (State.setReg_keeps ..) rfl ?_
      exact Keeps.refl _ _
  clear_value x4
  have k7 : Keeps [.freeIdx, .out, .regs, .ports, .ctxs, .slices, .coders, .jobs, .seam, .pen, .jnl, .ovw, .pln, .sess, .tim, .fab,
      .encs, .axes, .evt, .crcs, .cal, .pwr] s x5 := by
    unfold x5
    refine Keeps.then (State.wrote_keeps ..) rfl ?_
    exact k6
  clear_value x5
  refine Gives.ite ?_ ?_
  · refine Gives.then (State.writeChan_keeps _ _ _) rfl ?_
    exact Keeps.refl _ _
  · refine Gives.ite ?_ ?_
    · refine Gives.then (State.writeCell_keeps _ _ _ _ _) rfl ?_
      exact Keeps.refl _ _
    · refine Gives.ite ?_ ?_
      · refine Gives.ok ?_
        refine Keeps.then (State.writeStaged_keeps ..) rfl ?_
        exact Keeps.refl _ _
      · refine Gives.ite ?_ ?_
        · exact Gives.error
        · refine Gives.ite ?_ ?_
          · exact Gives.error
          · refine Gives.ok ?_
            refine Keeps.ite ?_ ?_
            · refine Keeps.then (State.planFromRegs_keeps ..) rfl ?_
              exact k7
            · exact k7

theorem State.regWrites_keeps (s n a2 a3) : Gives (fun r => r) [.freeIdx, .out, .regs, .ports, .ctxs, .slices, .coders, .jobs, .seam,
    .pen, .jnl, .ovw, .pln, .sess, .tim, .fab, .encs, .axes, .evt, .crcs, .cal, .pwr] s (State.regWrites s n a2 a3) := by
  induction a3 generalizing s n a2
  · unfold State.regWrites
    refine Gives.ok ?_
    exact Keeps.refl _ _
  · rename_i y1 y2 y3
    unfold State.regWrites
    split
    · rename_i y4 y5 y6
      exact Gives.error
    · rename_i y7 y8 y9
      refine Gives.then (y3 _ _ _) rfl ?_
      have k10 := State.regWrite_keeps _ _ _ _ _ y9
      refine Keeps.then k10 rfl ?_
      exact Keeps.refl _ _

theorem State.replan_keeps (s x m byLimits) : Keeps [.out, .regs, .jnl, .sess, .axes, .evt] s (State.replan s x m byLimits) := by
  unfold State.replan
  extract_lets x1 x2 x3 x4 x5
  have k6 : Keeps [.out, .regs, .jnl, .sess, .axes, .evt] s x4 := by
    unfold x4
    refine Keeps.then (State.setAx_keeps ..) rfl ?_
    exact Keeps.refl _ _
  clear_value x4
  have k7 : Keeps [.out, .regs, .jnl, .sess, .axes, .evt] s x5 := by
    unfold x5
    refine Keeps.ite ?_ ?_
    · refine Keeps.then (State.fire_keeps ..) rfl ?_
      refine Keeps.then (State.setFld_keeps ..) rfl ?_
      exact k6
    · exact k6
  clear_value x5
  refine Keeps.ite ?_ ?_
  · refine Keeps.then (State.endMotion_keeps ..) rfl ?_
    refine Keeps.then (State.setFld_keeps ..) rfl ?_
    exact k7
  · refine Keeps.then (State.beginSegs_keeps ..) rfl ?_
    exact k7

theorem State.replayEnds_keeps (s) : Keeps [.out, .regs, .sess, .evt] s (State.replayEnds s) := by
  unfold State.replayEnds
  refine Keeps.ite ?_ ?_
  · exact Keeps.refl _ _
  · refine Keeps.then (State.rankReturn_keeps ..) rfl ?_
    refine Keeps.then (State.fire_keeps ..) rfl ?_
    exact Keeps.refl _ _

theorem State.reproItems_keeps (a0 a1) : Keeps [.freeIdx, .regs, .pen, .jnl, .evt, .pwr] a1.1 (State.reproItems a0 a1).1 := by
  induction a0 generalizing a1
  · unfold State.reproItems
    exact Keeps.refl _ _
  · rename_i y1 y2
    unfold State.reproItems
    refine Keeps.ite_map Prod.fst ?_ ?_
    · dsimp -zeta only
      exact Keeps.refl _ _
    · refine Keeps.then (y2 _) rfl ?_
      refine Keeps.then (State.jobItem_keeps ..) rfl ?_
      exact Keeps.refl _ _

theorem State.reproUnit_keeps (s j) : Keeps [.freeIdx, .out, .regs, .jobs, .pen, .jnl, .sess, .evt, .pwr] s (State.reproUnit s j) := by
  unfold State.reproUnit
  extract_lets x1 x2 x3 x4 x5 x6 x7 x8 x9 x10 x11 x12 x13 x14
  have k15 : Keeps [.freeIdx, .out, .regs, .jobs, .pen, .jnl, .sess, .evt, .pwr] s x1.1 := by
    unfold x1
    refine Keeps.then (State.reproItems_keeps ..) rfl ?_
    dsimp -zeta only
    exact Keeps.refl _ _
  clear_value x1
  have k16 : Keeps [.freeIdx, .out, .regs, .jobs, .pen, .jnl, .sess, .evt, .pwr] s x2.1 := by
    unfold x2
    refine Keeps.then (State.jobJournal_keeps ..) rfl ?_
    exact k15
  clear_value x2
  have k17 : Keeps [.freeIdx, .out, .regs, .jobs, .pen, .jnl, .sess, .evt, .pwr] s x3 := by
    unfold x3
    exact k16
  clear_value x3
  have k18 : Keeps [.freeIdx, .out, .regs, .jobs, .pen, .jnl, .sess, .evt, .pwr] s x9.1 := by
    unfold x9
    refine Keeps.ite_map Prod.fst ?_ ?_
    · dsimp -zeta only
      exact k17
    · refine Keeps.then (State.hostWrite_keeps ..) rfl ?_
      exact k17
  clear_value x9
  have k19 : Keeps [.freeIdx, .out, .regs, .jobs, .pen, .jnl, .sess, .evt, .pwr] s x13 := by
    unfold x13
    refine Keeps.ite ?_ ?_
    · exact k18
    · refine Keeps.then (State.mirror_keeps ..) rfl ?_
      refine Keeps.then (State.setHring_keeps ..) rfl ?_
      exact k18
  clear_value x13
  have k20 : Keeps [.freeIdx, .out, .regs, .jobs, .pen, .jnl, .sess, .evt, .pwr] s x14 := by
    unfold x14
    refine Keeps.then (State.setJob_keeps ..) rfl ?_
    exact k19
  clear_value x14
  split
  · rename_i y21 y22 y23 y24
    refine Keeps.then (State.jobSuspend_keeps ..) rfl ?_
    exact k18
  · rename_i y25 y26
    refine Keeps.ite ?_ ?_
    · refine Keeps.then (State.jobEnd_keeps ..) rfl ?_
      exact k19
    · refine Keeps.ite ?_ ?_
      · refine Keeps.then (State.checkpoint_keeps ..) rfl ?_
        exact k20
      · exact k20

theorem State.resendOp_keeps (s n o) : Keeps [.out] s (State.resendOp s n o) := by
  unfold State.resendOp
  extract_lets x1
  split
  · rename_i y2 y3 y4
    refine Keeps.foldl ?_ ?_
    · exact Keeps.refl _ _
    · intro u5 e6 k7
      refine Keeps.then (State.emit_keeps ..) rfl ?_
      exact k7
  · rename_i y8 y9
    clear_value x1
    split
    · rename_i y10 y11 y12 y13
      refine Keeps.then (State.emit_keeps ..) rfl ?_
      exact Keeps.refl _ _
    · rename_i y14 y15
      exact Keeps.refl _ _

theorem State.sendSelect_keeps (s p) : Keeps [.out] s (State.sendSelect s p) := by
  unfold State.sendSelect
  extract_lets x1 x2
  refine Keeps.then (State.emit_keeps ..) rfl ?_
  exact Keeps.refl _ _

theorem State.resendSelect_keeps (s p) : Keeps [.out, .regs, .ports, .jnl, .sess, .evt, .cal] s (State.resendSelect s p) := by
  unfold State.resendSelect
  refine Keeps.ite ?_ ?_
  · refine Keeps.then (State.discover_keeps ..) rfl ?_
    exact Keeps.refl _ _
  · refine Keeps.then (State.sendSelect_keeps ..) rfl ?_
    refine Keeps.then (State.modPort_keeps ..) rfl ?_
    exact Keeps.refl _ _

theorem State.resumeJudge_keeps (s p) : Keeps [.out, .regs, .ports, .ctxs, .jnl, .pln, .sess, .evt, .cal] s (State.resumeJudge s p) := by
  unfold State.resumeJudge
  extract_lets x1
  refine Keeps.ite ?_ ?_
  · refine Keeps.ite ?_ ?_
    · refine Keeps.then (State.linkUp_keeps ..) rfl ?_
      exact Keeps.refl _ _
    · refine Keeps.then (State.discover_keeps ..) rfl ?_
      exact Keeps.refl _ _
  · exact Keeps.refl _ _

theorem State.retireAll_keeps (s n) : Keeps [.regs, .jnl, .evt] s (State.retireAll s n) := by
  unfold State.retireAll
  extract_lets x1
  refine Keeps.foldl ?_ ?_
  · exact Keeps.refl _ _
  · intro u2 e3 k4
    refine Keeps.then (State.journal_keeps ..) rfl ?_
    exact k4

theorem State.shortMarks_keeps (s c) : Keeps [.ring] s (State.shortMarks s c) := by
  unfold State.shortMarks
  extract_lets x1 x2
  refine Keeps.set_ring rfl ?_
  exact Keeps.refl _ _

theorem State.ringAppend_keeps (s c g cp ln) : Keeps [.regs, .coders, .ring, .evt] s (State.ringAppend s c g cp ln) := by
  unfold State.ringAppend
  extract_lets x1 x2 x3 x4 x5 x6 x7 x8 x9 x10 x11 x12 x13 x14
  have k15 : Keeps [.regs, .coders, .ring, .evt] s x7 := by
    unfold x7
    refine Keeps.ite ?_ ?_
    · exact Keeps.refl _ _
    · refine Keeps.then (State.coderStrip_keeps ..) rfl ?_
      exact Keeps.refl _ _
  clear_value x7
  have k16 : Keeps [.regs, .coders, .ring, .evt] s x14 := by
    unfold x14
    refine Keeps.then (State.setCoder_keeps ..) rfl ?_
    exact k15
  clear_value x14
  clear_value x10
  split
  · rename_i y17 y18
    exact k15
  · rename_i y19 y20 y21
    extract_lets x22 x23 x24 x25 x26
    have k27 : Keeps [.regs, .coders, .ring, .evt] s x26 := by
      unfold x26
      refine Keeps.then (State.setFld_keeps ..) rfl ?_
      refine Keeps.then (State.bump_keeps ..) rfl ?_
      refine Keeps.then (State.bump_keeps ..) rfl ?_
      refine Keeps.set_ring rfl ?_
      exact k16
    clear_value x26
    refine Keeps.then (State.ringRegs_keeps ..) rfl ?_
    refine Keeps.then (State.shortMarks_keeps ..) rfl ?_
    refine Keeps.then (State.keepTables_keeps ..) rfl ?_
    refine Keeps.then (State.keepBank_keeps ..) rfl ?_
    exact k27

theorem State.ringFound_keeps (s) : Keeps [.regs, .evt] s (State.ringFound s) := by
  unfold State.ringFound
  refine Keeps.ite ?_ ?_
  · refine Keeps.then (State.fireIf_keeps ..) rfl ?_
    refine Keeps.then (State.setFld_keeps ..) rfl ?_
    exact Keeps.refl _ _
  · exact Keeps.refl _ _

theorem State.startDesc_keeps (s n idx) : Keeps [.sess] s (State.startDesc s n idx) := by
  unfold State.startDesc
  extract_lets x1
  refine Keeps.then (State.setSession_keeps ..) rfl ?_
  exact Keeps.refl _ _

/-- What a descriptor may change: what starting and finishing one changes, and what its effect `f` changes. -/
theorem State.runDesc_keeps {ps : List Safety.Part} {s t : State} {n idx op : Nat} {modes : ModeSet} {f : OutDesc → State → State}
    (w : Within [.out, .regs, .jnl, .sess, .evt] ps) (h : Keeps ps s t) (k : ∀ d u, Keeps ps s u → Keeps ps s (f d u)) :
    Keeps ps s (t.runDesc n idx op modes f) := by
  have h' : Keeps ps s (t.startDesc n idx) := (State.startDesc_keeps ..).then (Within.trans (ps := [.sess]) (qs := [.out, .regs, .jnl,
      .sess, .evt]) rfl w) h
  unfold State.runDesc
  split
  · exact h
  · exact Keeps.ite h (Keeps.ite (k _ _ h') ((State.finishDesc_keeps ..).then w h'))

theorem State.seamAsk_keeps (s c shift) : Keeps [.regs, .cal] s (State.seamAsk s c shift) := by
  unfold State.seamAsk
  extract_lets x1
  refine Keeps.ite ?_ ?_
  · exact Keeps.refl _ _
  · refine Keeps.ite ?_ ?_
    · refine Keeps.then (State.setFld_keeps ..) rfl ?_
      exact Keeps.refl _ _
    · refine Keeps.set_cal rfl ?_
      exact Keeps.refl _ _

theorem State.seamResidual_keeps (s key shift) : Keeps [.freeIdx, .regs, .cal] s (State.seamResidual s key shift) := by
  unfold State.seamResidual
  split
  · rename_i y1 y2
    exact Keeps.refl _ _
  · rename_i y3 y4 y5
    extract_lets x6 x7 x8 x9 x10
    have k11 : Keeps [.freeIdx, .regs, .cal] s x6.2 := by
      unfold x6
      refine Keeps.then (State.divFree_keeps ..) rfl ?_
      exact Keeps.refl _ _
    clear_value x6
    have k12 : Keeps [.freeIdx, .regs, .cal] s x9 := by
      unfold x9
      exact k11
    clear_value x9
    refine Keeps.then (State.setFld_keeps ..) rfl ?_
    refine Keeps.set_cal rfl ?_
    exact k12

theorem State.serveMarks_keeps (s x a2) : Keeps [.out, .regs, .pen, .jnl, .sess, .tim, .axes, .evt,
    .pwr] s (State.serveMarks s x a2) := by
  induction a2 generalizing s x
  · unfold State.serveMarks
    exact Keeps.refl _ _
  · rename_i y1 y2
    unfold State.serveMarks
    extract_lets x3
    split
    · rename_i y4 y5 y6 y7 y8 y9 y10
      extract_lets x11 x12 x13 x14 x15 x16 x17
      have k18 : Keeps [.out, .regs, .pen, .jnl, .sess, .tim, .axes, .evt, .pwr] s x14 := by
        unfold x14
        refine Keeps.then (State.axRegs_keeps ..) rfl ?_
        refine Keeps.then (State.setAx_keeps ..) rfl ?_
        exact Keeps.refl _ _
      clear_value x14
      have k19 : Keeps [.out, .regs, .pen, .jnl, .sess, .tim, .axes, .evt, .pwr] s x16 := by
        unfold x16
        refine Keeps.then (State.setAx_keeps ..) rfl ?_
        exact k18
      clear_value x16
      have k20 : Keeps [.out, .regs, .pen, .jnl, .sess, .tim, .axes, .evt, .pwr] s x17 := by
        unfold x17
        refine Keeps.then (State.replan_keeps ..) rfl ?_
        exact k19
      clear_value x17
      refine Keeps.ite ?_ ?_
      · exact Keeps.refl _ _
      · refine Keeps.ite ?_ ?_
        · refine Keeps.then (y2 _ _) rfl ?_
          refine Keeps.then (State.skipMark_keeps ..) rfl ?_
          exact k18
        · refine Keeps.then (State.armCompare_keeps ..) rfl ?_
          exact k20
    · rename_i y21 y22 y23
      exact Keeps.refl _ _

theorem State.servoStep_keeps (s o) : Keeps [.regs, .tim, .evt] s (State.servoStep s o) := by
  unfold State.servoStep
  extract_lets x1
  refine Keeps.then (State.setFld_keeps ..) rfl ?_
  refine Keeps.then (State.fire_keeps ..) rfl ?_
  refine Keeps.then (State.bump_keeps ..) rfl ?_
  refine Keeps.set_tim rfl ?_
  exact Keeps.refl _ _

theorem State.servoTrack_keeps (s far near o) : Keeps [.freeIdx, .out, .regs, .jnl, .sess, .tim, .evt,
    .cal] s (State.servoTrack s far near o) := by
  unfold State.servoTrack
  extract_lets x1 x2 x3 x4 x5
  have k6 : Keeps [.freeIdx, .out, .regs, .jnl, .sess, .tim, .evt, .cal] s x4 := by
    unfold x4
    refine Keeps.then (State.setRate_keeps ..) rfl ?_
    refine Keeps.set_tim rfl ?_
    exact Keeps.refl _ _
  have k7 : Keeps [.freeIdx, .out, .regs, .jnl, .sess, .tim, .evt, .cal] s x5 := by
    unfold x5
    refine Keeps.ite ?_ ?_
    · refine Keeps.then (State.fireIf_keeps ..) rfl ?_
      refine Keeps.then (State.setFld_keeps ..) rfl ?_
      exact k6
    · refine Keeps.ite ?_ ?_
      · refine Keeps.then (State.setFld_keeps ..) rfl ?_
        exact k6
      · exact k6
  refine Keeps.ite ?_ ?_
  · refine Keeps.then (State.servo_keeps ..) rfl ?_
    exact k7
  · exact k7

theorem State.servoUpdate_keeps (s o) : Keeps [.freeIdx, .out, .regs, .jnl, .sess, .tim, .evt, .cal] s (State.servoUpdate s o) := by
  unfold State.servoUpdate
  extract_lets x1 x2 x3
  have k4 : Keeps [.freeIdx, .out, .regs, .jnl, .sess, .tim, .evt, .cal] s x1 := by
    unfold x1
    refine Keeps.then (State.setFldInt_keeps ..) rfl ?_
    exact Keeps.refl _ _
  clear_value x1
  have k5 : Keeps [.freeIdx, .out, .regs, .jnl, .sess, .tim, .evt, .cal] s x3 := by
    unfold x3
    refine Keeps.ite ?_ ?_
    · refine Keeps.then (State.servo_keeps ..) rfl ?_
      exact k4
    · exact k4
  clear_value x3
  refine Keeps.ite ?_ ?_
  · refine Keeps.then (State.servoStep_keeps ..) rfl ?_
    exact k5
  · refine Keeps.then (State.servoTrack_keeps ..) rfl ?_
    exact k5

theorem State.sessHold_keeps (s n) : Keeps [.out, .regs, .sess, .evt] s (State.sessHold s n) := by
  unfold State.sessHold
  refine Keeps.then (State.sessState_keeps ..) rfl ?_
  refine Keeps.then (State.setFld_keeps ..) rfl ?_
  refine Keeps.then (State.qpEnd_keeps ..) rfl ?_
  exact Keeps.refl _ _

theorem State.sessRelease_keeps (s n) : Keeps [.out, .regs, .ports, .jobs, .jnl, .pln, .sess, .tim, .fab, .axes, .evt, .crcs, .cal,
    .pwr] s (State.sessRelease s n) := by
  unfold State.sessRelease
  extract_lets x1 x2 x3 x4 x5 x6 x7 x8 x9 x10 x11 x12 x13 x14
  have k15 : Keeps [.out, .regs, .ports, .jobs, .jnl, .pln, .sess, .tim, .fab, .axes, .evt, .crcs, .cal, .pwr] s x3 := by
    unfold x3
    refine Keeps.ite ?_ ?_
    · refine Keeps.then (State.ovwStop_keeps ..) rfl ?_
      exact Keeps.refl _ _
    · exact Keeps.refl _ _
  clear_value x3
  have k16 : Keeps [.out, .regs, .ports, .jobs, .jnl, .pln, .sess, .tim, .fab, .axes, .evt, .crcs, .cal, .pwr] s x5 := by
    unfold x5
    refine Keeps.foldl ?_ ?_
    · exact k15
    · intro u17 e18 k19
      refine Keeps.ite ?_ ?_
      · refine Keeps.then (State.crcEnd_keeps ..) rfl ?_
        exact k19
      · refine Keeps.then (State.dropJob_keeps ..) rfl ?_
        exact k19
  clear_value x5
  have k20 : Keeps [.out, .regs, .ports, .jobs, .jnl, .pln, .sess, .tim, .fab, .axes, .evt, .crcs, .cal, .pwr] s x6 := by
    unfold x6
    refine Keeps.then (State.retireAll_keeps ..) rfl ?_
    refine Keeps.then (State.endClaims_keeps ..) rfl ?_
    refine Keeps.then (State.forgetPlanner_keeps ..) rfl ?_
    refine Keeps.then (State.forgetUnits_keeps ..) rfl ?_
    exact k16
  clear_value x6
  have k21 : Keeps [.out, .regs, .ports, .jobs, .jnl, .pln, .sess, .tim, .fab, .axes, .evt, .crcs, .cal, .pwr] s x10 := by
    unfold x10
    refine Keeps.then (State.setSession_keeps ..) rfl ?_
    exact k20
  clear_value x10
  have k22 : Keeps [.out, .regs, .ports, .jobs, .jnl, .pln, .sess, .tim, .fab, .axes, .evt, .crcs, .cal, .pwr] s x12 := by
    unfold x12
    refine Keeps.ite ?_ ?_
    · refine Keeps.set_jnl rfl ?_
      exact k21
    · exact k21
  clear_value x12
  have k23 : Keeps [.out, .regs, .ports, .jobs, .jnl, .pln, .sess, .tim, .fab, .axes, .evt, .crcs, .cal, .pwr] s x13 := by
    unfold x13
    refine Keeps.foldl ?_ ?_
    · exact k22
    · intro u24 e25 k26
      refine Keeps.then (State.setReg_keeps ..) rfl ?_
      exact k26
  clear_value x13
  have k27 : Keeps [.out, .regs, .ports, .jobs, .jnl, .pln, .sess, .tim, .fab, .axes, .evt, .crcs, .cal, .pwr] s x14 := by
    unfold x14
    refine Keeps.then (State.setFlds_keeps ..) rfl ?_
    exact k23
  clear_value x14
  refine Keeps.then (State.sessState_keeps ..) rfl ?_
  exact k27

theorem State.sessClose_keeps (s n b) : Keeps [.out, .regs, .ports, .jobs, .jnl, .pln, .sess, .tim, .fab, .axes, .evt, .crcs, .cal,
    .pwr] s (State.sessClose s n b).2.2 := by
  unfold State.sessClose
  refine Keeps.ite_map (fun r => Prod.snd (Prod.snd (r))) ?_ ?_
  · dsimp -zeta only
    exact Keeps.refl _ _
  · refine Keeps.ite_map (fun r => Prod.snd (Prod.snd (r))) ?_ ?_
    · dsimp -zeta only
      exact Keeps.refl _ _
    · refine Keeps.ite_map (fun r => Prod.snd (Prod.snd (r))) ?_ ?_
      · dsimp -zeta only
        refine Keeps.then (State.sessRelease_keeps ..) rfl ?_
        exact Keeps.refl _ _
      · dsimp -zeta only
        refine Keeps.ite ?_ ?_
        · refine Keeps.then (State.sessHold_keeps ..) rfl ?_
          exact Keeps.refl _ _
        · exact Keeps.refl _ _

theorem State.sessLost_keeps (s n) : Keeps [.out, .regs, .sess, .evt] s (State.sessLost s n) := by
  unfold State.sessLost
  refine Keeps.ite ?_ ?_
  · refine Keeps.then (State.fire_keeps ..) rfl ?_
    refine Keeps.then (State.sessHold_keeps ..) rfl ?_
    exact Keeps.refl _ _
  · exact Keeps.refl _ _

theorem State.sessOpen_keeps (s n b) : Keeps [.freeIdx, .out, .regs, .ports, .jobs, .pen, .jnl, .ovw, .pln, .sess, .tim, .fab, .axes,
    .evt, .crcs, .cal, .pwr] s (State.sessOpen s n b).2.2 := by
  unfold State.sessOpen
  extract_lets x1 x2
  have k3 : Keeps [.freeIdx, .out, .regs, .ports, .jobs, .pen, .jnl, .ovw, .pln, .sess, .tim, .fab, .axes, .evt, .crcs, .cal,
      .pwr] s x2 := by
    unfold x2
    refine Keeps.ite ?_ ?_
    · refine Keeps.then (State.sessRelease_keeps ..) rfl ?_
      exact Keeps.refl _ _
    · exact Keeps.refl _ _
  clear_value x2
  refine Keeps.ite_map (fun r => Prod.snd (Prod.snd (r))) ?_ ?_
  · dsimp -zeta only
    exact Keeps.refl _ _
  · refine Keeps.ite_map (fun r => Prod.snd (Prod.snd (r))) ?_ ?_
    · dsimp -zeta only
      exact Keeps.refl _ _
    · refine Keeps.ite_map (fun r => Prod.snd (Prod.snd (r))) ?_ ?_
      · refine Keeps.ite_map (fun r => Prod.snd (Prod.snd (r))) ?_ ?_
        · dsimp -zeta only
          exact Keeps.refl _ _
        · refine Keeps.ite_map (fun r => Prod.snd (Prod.snd (r))) ?_ ?_
          · dsimp -zeta only
            exact Keeps.refl _ _
          · dsimp -zeta only
            refine Keeps.then (State.openResume_keeps ..) rfl ?_
            exact Keeps.refl _ _
      · refine Keeps.ite_map (fun r => Prod.snd (Prod.snd (r))) ?_ ?_
        · dsimp -zeta only
          exact Keeps.refl _ _
        · refine Keeps.ite_map (fun r => Prod.snd (Prod.snd (r))) ?_ ?_
          · dsimp -zeta only
            exact Keeps.refl _ _
          · dsimp -zeta only
            refine Keeps.then (State.openFresh_keeps ..) rfl ?_
            exact k3

theorem State.sessRestart_keeps (s n b) : Keeps [.out, .regs, .sess, .evt] s (State.sessRestart s n b).2.2 := by
  unfold State.sessRestart
  extract_lets x1 x2
  have k3 : Keeps [.out, .regs, .sess, .evt] s x1 := by
    unfold x1
    refine Keeps.then (State.rewrites_keeps ..) rfl ?_
    refine Keeps.ite ?_ ?_
    · refine Keeps.then (State.setFld_keeps ..) rfl ?_
      exact Keeps.refl _ _
    · exact Keeps.refl _ _
  clear_value x1
  have k4 : Keeps [.out, .regs, .sess, .evt] s x2 := by
    unfold x2
    refine Keeps.then (State.kickFetch_keeps ..) rfl ?_
    refine Keeps.then (State.flushEvt_keeps ..) rfl ?_
    refine Keeps.then (State.flushCpl_keeps ..) rfl ?_
    exact k3
  clear_value x2
  refine Keeps.ite_map (fun r => Prod.snd (Prod.snd (r))) ?_ ?_
  · dsimp -zeta only
    exact Keeps.refl _ _
  · refine Keeps.ite_map (fun r => Prod.snd (Prod.snd (r))) ?_ ?_
    · dsimp -zeta only
      exact Keeps.refl _ _
    · dsimp -zeta only
      exact k4

theorem State.setKey_keeps (s n k) : Keeps [.regs, .sess] s (State.setKey s n k) := by
  unfold State.setKey
  extract_lets x1
  refine Keeps.then (State.bump_keeps ..) rfl ?_
  refine Keeps.then (State.setFld_keeps ..) rfl ?_
  refine Keeps.then (State.setSession_keeps ..) rfl ?_
  exact Keeps.refl _ _

theorem State.setOps_keeps (s n ops) : Keeps [.sess] s (State.setOps s n ops) := by
  unfold State.setOps
  extract_lets x1 x2
  refine Keeps.then (State.setSession_keeps ..) rfl ?_
  exact Keeps.refl _ _

theorem State.setPtp_keeps (s e v) : Keeps [.tim] s (State.setPtp s e v) := by
  unfold State.setPtp
  extract_lets x1
  refine Keeps.set_tim rfl ?_
  exact Keeps.refl _ _

theorem State.setRoceRate_keeps (s n r) : Keeps [.regs, .sess] s (State.setRoceRate s n r) := by
  unfold State.setRoceRate
  extract_lets x1 x2 x3 x4
  have k5 : Keeps [.regs, .sess] s x3 := by
    unfold x3
    refine Keeps.then (State.setSession_keeps ..) rfl ?_
    exact Keeps.refl _ _
  clear_value x3
  refine Keeps.then (State.setFlag_keeps ..) rfl ?_
  exact k5

theorem State.sliceUp_keeps (s k) : Keeps [.regs, .slices] s (State.sliceUp s k) := by
  unfold State.sliceUp
  extract_lets x1
  refine Keeps.then (State.setDomain_keeps ..) rfl ?_
  refine Keeps.then (State.setDomain_keeps ..) rfl ?_
  refine Keeps.then (State.setSlice_keeps ..) rfl ?_
  exact Keeps.refl _ _

theorem State.stepAxis_keeps (s x a2) : Keeps [.out, .regs, .pen, .jnl, .sess, .tim, .axes, .evt, .pwr] s (State.stepAxis s x a2) := by
  induction a2 generalizing s x
  · unfold State.stepAxis
    exact Keeps.refl _ _
  · rename_i y1 y2
    unfold State.stepAxis
    extract_lets x3 x4
    split
    · rename_i y5 y6
      exact Keeps.refl _ _
    · rename_i y7 y8 y9 y10
      extract_lets x11 x12 x13
      have k14 : Keeps [.out, .regs, .pen, .jnl, .sess, .tim, .axes, .evt, .pwr] s x12 := by
        unfold x12
        refine Keeps.then (State.setAx_keeps ..) rfl ?_
        exact Keeps.refl _ _
      clear_value x12
      have k15 : Keeps [.out, .regs, .pen, .jnl, .sess, .tim, .axes, .evt, .pwr] s x13 := by
        unfold x13
        refine Keeps.then (State.axRegs_keeps ..) rfl ?_
        refine Keeps.then (State.axisCompares_keeps ..) rfl ?_
        exact k14
      clear_value x13
      refine Keeps.ite ?_ ?_
      · refine Keeps.then (State.axRegs_keeps ..) rfl ?_
        refine Keeps.then (State.axisCompares_keeps ..) rfl ?_
        refine Keeps.then (State.setAx_keeps ..) rfl ?_
        exact Keeps.refl _ _
      · refine Keeps.ite ?_ ?_
        · refine Keeps.then (State.endMotion_keeps ..) rfl ?_
          exact k15
        · refine Keeps.then (y2 _ _) rfl ?_
          exact k15

theorem State.stepUp_keeps (s p) : Keeps [.out, .regs, .ports] s (State.stepUp s p) := by
  unfold State.stepUp
  extract_lets x1 x2 x3
  have k4 : Keeps [.out, .regs, .ports] s x2 := by
    unfold x2
    refine Keeps.then (State.modPort_keeps ..) rfl ?_
    refine Keeps.then (State.setFld_keeps ..) rfl ?_
    exact Keeps.refl _ _
  clear_value x2
  have k5 : Keeps [.out, .regs, .ports] s x3 := by
    unfold x3
    refine Keeps.foldl ?_ ?_
    · exact k4
    · intro u6 e7 k8
      refine Keeps.ite ?_ ?_
      · exact k8
      · refine Keeps.then (State.emit_keeps ..) rfl ?_
        exact k8
  clear_value x3
  refine Keeps.foldl ?_ ?_
  · exact k5
  · intro u9 e10 k11
    refine Keeps.then (State.sendStep_keeps ..) rfl ?_
    exact k11

theorem State.stopThenMode_keeps (s target) : Keeps [.freeIdx, .out, .regs, .ports, .ctxs, .slices, .jobs, .seam, .pen, .jnl, .ovw,
    .pln, .sess, .tim, .fab, .axes, .evt, .cal, .pwr] s (State.stopThenMode s target) := by
  unfold State.stopThenMode
  extract_lets x1 x2 x3
  have k4 : Keeps [.freeIdx, .out, .regs, .ports, .ctxs, .slices, .jobs, .seam, .pen, .jnl, .ovw, .pln, .sess, .tim, .fab, .axes, .evt,
      .cal, .pwr] s x3 := by
    unfold x3
    refine Keeps.set_pwr rfl ?_
    exact Keeps.refl _ _
  clear_value x3
  refine Keeps.ite ?_ ?_
  · refine Keeps.then (State.modeTo_keeps ..) rfl ?_
    refine Keeps.then (State.stopInspection_keeps ..) rfl ?_
    exact k4
  · refine Keeps.then (State.startDusk_keeps ..) rfl ?_
    exact k4

theorem State.warmPlan_keeps (s) : Keeps [.regs, .pln, .tim, .evt] s (State.warmPlan s) := by
  unfold State.warmPlan
  split
  · rename_i y1 y2
    refine Keeps.then (State.selfCompile_keeps ..) rfl ?_
    exact Keeps.refl _ _
  · rename_i y3 y4 y5
    refine Keeps.ite ?_ ?_
    · exact Keeps.refl _ _
    · refine Keeps.then (State.selfCompile_keeps ..) rfl ?_
      refine Keeps.then (State.planNone_keeps ..) rfl ?_
      exact Keeps.refl _ _

theorem State.tablesLoaded_keeps (s) : Keeps [.regs, .ctxs, .tim, .dividers, .evt] s (State.tablesLoaded s) := by
  unfold State.tablesLoaded
  split
  · rename_i y1 y2
    exact Keeps.refl _ _
  · rename_i y3 y4 y5
    extract_lets x6 x7
    have k8 : Keeps [.regs, .ctxs, .tim, .dividers, .evt] s x6 := by
      unfold x6
      refine Keeps.foldl ?_ ?_
      · exact Keeps.refl _ _
      · intro u9 e10 k11
        refine Keeps.then (State.restartModel_keeps ..) rfl ?_
        refine Keeps.then (State.resetDark_keeps ..) rfl ?_
        exact k11
    clear_value x6
    have k12 : Keeps [.regs, .ctxs, .tim, .dividers, .evt] s x7 := by
      unfold x7
      refine Keeps.foldl ?_ ?_
      · exact k8
      · intro u13 e14 k15
        refine Keeps.then (State.planTout_keeps ..) rfl ?_
        exact k15
    clear_value x7
    refine Keeps.then (State.alignDividers_keeps ..) rfl ?_
    exact k12

theorem State.sunriseDone_keeps (s) : Keeps [.frameTick, .out, .regs, .ctxs, .pln, .sess, .eths, .tim, .dividers, .axes, .evt,
    .pwr] s (State.sunriseDone s) := by
  unfold State.sunriseDone
  extract_lets x1 x2 x3 x4
  have k5 : Keeps [.frameTick, .out, .regs, .ctxs, .pln, .sess, .eths, .tim, .dividers, .axes, .evt, .pwr] s x1 := by
    unfold x1
    refine Keeps.then (State.netWarm_keeps ..) rfl ?_
    refine Keeps.then (State.regsWarm_keeps ..) rfl ?_
    refine Keeps.then (State.tablesLoaded_keeps ..) rfl ?_
    exact Keeps.refl _ _
  clear_value x1
  have k6 : Keeps [.frameTick, .out, .regs, .ctxs, .pln, .sess, .eths, .tim, .dividers, .axes, .evt, .pwr] s x4 := by
    unfold x4
    refine Keeps.set_pwr rfl ?_
    exact k5
  clear_value x4
  refine Keeps.then (State.warmPlan_keeps ..) rfl ?_
  refine Keeps.then (State.startDone_keeps ..) rfl ?_
  refine Keeps.then (State.axesUp_keeps ..) rfl ?_
  exact k6

theorem State.sunriseEffect_keeps (s n r) : Keeps [.frameTick, .out, .regs, .ports, .ctxs, .pen, .jnl, .mem, .pln, .sess, .eths, .tim,
    .encs, .dividers, .axes, .evt, .cal, .pwr] s (State.sunriseEffect s n r) := by
  unfold State.sunriseEffect
  split
  · rename_i y1
    refine Keeps.then (State.clocksRun_keeps ..) rfl ?_
    exact Keeps.refl _ _
  · rename_i y2
    refine Keeps.then (State.firmware_keeps ..) rfl ?_
    exact Keeps.refl _ _
  · rename_i y3
    refine Keeps.then (State.dramExit_keeps ..) rfl ?_
    exact Keeps.refl _ _
  · rename_i y4
    refine Keeps.then (State.portsResume_keeps ..) rfl ?_
    exact Keeps.refl _ _
  · rename_i y5
    refine Keeps.then (State.journalMerged_keeps ..) rfl ?_
    exact Keeps.refl _ _
  · rename_i y6
    refine Keeps.then (State.sunriseDone_keeps ..) rfl ?_
    exact Keeps.refl _ _
  · rename_i y7 y8 y9 y10 y11 y12 y13
    exact Keeps.refl _ _

theorem State.syncDone_keeps (s e t1 t2 corr) : Keeps [.freeIdx, .out, .regs, .jnl, .sess, .tim, .evt,
    .cal] s (State.syncDone s e t1 t2 corr) := by
  unfold State.syncDone
  extract_lets x1
  refine Keeps.then (State.servoUpdate_keeps ..) rfl ?_
  refine Keeps.then (State.setPtp_keeps ..) rfl ?_
  exact Keeps.refl _ _

theorem State.syncTimeout_keeps (s) : Keeps [.freeIdx, .out, .regs, .jnl, .sess, .tim, .evt, .cal] s (State.syncTimeout s) := by
  unfold State.syncTimeout
  extract_lets x1
  refine Keeps.ite ?_ ?_
  · refine Keeps.then (State.servo_keeps ..) rfl ?_
    refine Keeps.then (State.setRate_keeps ..) rfl ?_
    refine Keeps.set_tim rfl ?_
    exact Keeps.refl _ _
  · exact Keeps.refl _ _

theorem State.takeMark_keeps (s p l block t) : Keeps [.ports] s (State.takeMark s p l block t) := by
  unfold State.takeMark
  extract_lets x1 x2
  split
  · rename_i y3 y4
    refine Keeps.then (State.setLane_keeps ..) rfl ?_
    exact Keeps.refl _ _
  · rename_i y5 y6 y7 y8
    extract_lets x9 x10 x11 x12
    refine Keeps.ite ?_ ?_
    · refine Keeps.then (State.setLane_keeps ..) rfl ?_
      exact Keeps.refl _ _
    · refine Keeps.then (State.setLane_keeps ..) rfl ?_
      exact Keeps.refl _ _

theorem State.takeRole_keeps (s) : Keeps [.regs, .fab, .evt] s (State.takeRole s) := by
  unfold State.takeRole
  extract_lets x1 x2 x3
  have k4 : Keeps [.regs, .fab, .evt] s x3 := by
    unfold x3
    refine Keeps.ite ?_ ?_
    · refine Keeps.set_fab rfl ?_
      exact Keeps.refl _ _
    · exact Keeps.refl _ _
  clear_value x3
  refine Keeps.then (State.fireIf_keeps ..) rfl ?_
  refine Keeps.then (State.setCoord_keeps ..) rfl ?_
  exact k4

theorem State.takeStrip_keeps (s c) : Keeps [.ctxs] s (State.takeStrip s c) := by
  unfold State.takeStrip
  extract_lets x1
  split
  · rename_i y2 y3 y4 y5 y6 y7
    refine Keeps.then (State.setCtx_keeps ..) rfl ?_
    exact Keeps.refl _ _
  · rename_i y8 y9 y10
    exact Keeps.refl _ _

theorem State.tempCheck_keeps (s i t warn crit) : Keeps [.regs, .evt, .pwr] s (State.tempCheck s i t warn crit) := by
  unfold State.tempCheck
  extract_lets x1 x2 x3 x4 x5 x6 x7 x8 x9
  have k10 : Keeps [.regs, .evt, .pwr] s x8 := by
    unfold x8
    refine Keeps.set_pwr rfl ?_
    exact Keeps.refl _ _
  clear_value x8
  have k11 : Keeps [.regs, .evt, .pwr] s x9 := by
    unfold x9
    refine Keeps.ite ?_ ?_
    · refine Keeps.then (State.fire_keeps ..) rfl ?_
      refine Keeps.then (State.setFld_keeps ..) rfl ?_
      exact k10
    · exact k10
  clear_value x9
  refine Keeps.ite ?_ ?_
  · refine Keeps.then (State.fire_keeps ..) rfl ?_
    exact k11
  · exact k11

theorem State.tooHot_keeps (s res) : Keeps [.freeIdx, .out, .regs, .ctxs, .jobs, .seam, .pen, .jnl, .ovw, .pln, .sess, .tim, .fab,
    .axes, .evt, .pwr] s (State.tooHot s res) := by
  unfold State.tooHot
  extract_lets x1 x2 x3 x4 x5
  have k6 : Keeps [.freeIdx, .out, .regs, .ctxs, .jobs, .seam, .pen, .jnl, .ovw, .pln, .sess, .tim, .fab, .axes, .evt, .pwr] s x1 := by
    unfold x1
    refine Keeps.then (State.startRecord_keeps ..) rfl ?_
    refine Keeps.then (State.catalogue_keeps ..) rfl ?_
    exact Keeps.refl _ _
  have k7 : Keeps [.freeIdx, .out, .regs, .ctxs, .jobs, .seam, .pen, .jnl, .ovw, .pln, .sess, .tim, .fab, .axes, .evt, .pwr] s x3 := by
    unfold x3
    refine Keeps.set_pwr rfl ?_
    exact k6
  have k8 : Keeps [.freeIdx, .out, .regs, .ctxs, .jobs, .seam, .pen, .jnl, .ovw, .pln, .sess, .tim, .fab, .axes, .evt, .pwr] s x4 := by
    unfold x4
    refine Keeps.ite ?_ ?_
    · refine Keeps.then (State.gateAll_keeps ..) rfl ?_
      exact k7
    · exact k7
  clear_value x4
  refine Keeps.ite ?_ ?_
  · refine Keeps.then (State.setFld_keeps ..) rfl ?_
    refine Keeps.set_pwr rfl ?_
    exact k8
  · refine Keeps.then (State.startDusk_keeps ..) rfl ?_
    exact k7

theorem State.tryClaim_keeps (s kind index owner) : Yields (fun r => r) [.evt] s (State.tryClaim s kind index owner) := by
  unfold State.tryClaim
  split
  · rename_i y1 y2 y3
    refine Yields.ite ?_ ?_
    · refine Yields.some ?_
      exact Keeps.refl _ _
    · exact Yields.none
  · rename_i y4 y5
    refine Yields.some ?_
    refine Keeps.then (State.setClaim_keeps ..) rfl ?_
    exact Keeps.refl _ _

theorem State.warmFailed_keeps (s step cause) : Keeps [.regs, .encs, .evt, .pwr] s (State.warmFailed s step cause) := by
  unfold State.warmFailed
  extract_lets x1 x2 x3
  have k4 : Keeps [.regs, .encs, .evt, .pwr] s x1 := by
    unfold x1
    refine Keeps.then (State.fire_keeps ..) rfl ?_
    refine Keeps.then (State.bump_keeps ..) rfl ?_
    refine Keeps.then (State.startRecord_keeps ..) rfl ?_
    refine Keeps.then (State.aoTake_keeps ..) rfl ?_
    exact Keeps.refl _ _
  clear_value x1
  refine Keeps.set_pwr rfl ?_
  exact k4

theorem State.withFetchWord_keeps (s nbits w) : Keeps [.pending] s (State.withFetchWord s nbits w) := by
  unfold State.withFetchWord
  split
  · rename_i y1 y2
    exact Keeps.refl _ _
  · rename_i y3 y4 y5
    refine Keeps.set_pending rfl ?_
    exact Keeps.refl _ _

theorem State.writeEnds_keeps (s a ws) : Keeps [.regs, .eths] s (State.writeEnds s a ws) := by
  unfold State.writeEnds
  refine Keeps.foldl ?_ ?_
  · exact Keeps.refl _ _
  · intro u1 e2 k3
    extract_lets x4 x5
    refine Keeps.ite ?_ ?_
    · refine Keeps.then (State.netCommit_keeps ..) rfl ?_
      exact k3
    · refine Keeps.ite ?_ ?_
      · refine Keeps.then (State.netApplied_keeps ..) rfl ?_
        exact k3
      · exact k3

theorem axisLimitsEffect_keeps (n d s) : Keeps [.out, .regs, .jnl, .sess, .axes, .evt] s (axisLimitsEffect n d s) := by
  unfold axisLimitsEffect
  extract_lets x1 x2 x3 x4 x5
  refine Keeps.ite ?_ ?_
  · refine Keeps.then (State.badParam_keeps ..) rfl ?_
    exact Keeps.refl _ _
  · refine Keeps.ite ?_ ?_
    · refine Keeps.then (State.badParam_keeps ..) rfl ?_
      exact Keeps.refl _ _
    · refine Keeps.ite ?_ ?_
      · refine Keeps.then (State.badParam_keeps ..) rfl ?_
        exact Keeps.refl _ _
      · refine Keeps.ite ?_ ?_
        · refine Keeps.then (State.badParam_keeps ..) rfl ?_
          exact Keeps.refl _ _
        · refine Keeps.ite ?_ ?_
          · refine Keeps.then (State.owned_keeps ..) rfl ?_
            exact Keeps.refl _ _
          · refine Keeps.then (State.doneDesc_keeps ..) rfl ?_
            refine Keeps.then (State.setAx_keeps ..) rfl ?_
            exact Keeps.refl _ _

theorem axisMoveEffect_keeps (n d s) : Keeps [.out, .regs, .jnl, .sess, .axes, .evt] s (axisMoveEffect n d s) := by
  unfold axisMoveEffect
  extract_lets x1 x2 x3 x4 x5 x6
  refine Keeps.ite ?_ ?_
  · refine Keeps.then (State.badParam_keeps ..) rfl ?_
    exact Keeps.refl _ _
  · refine Keeps.ite ?_ ?_
    · refine Keeps.then (State.badParam_keeps ..) rfl ?_
      exact Keeps.refl _ _
    · refine Keeps.ite ?_ ?_
      · refine Keeps.then (State.badParam_keeps ..) rfl ?_
        exact Keeps.refl _ _
      · refine Keeps.ite ?_ ?_
        · refine Keeps.then (State.owned_keeps ..) rfl ?_
          exact Keeps.refl _ _
        · split
          · rename_i y7 y8
            refine Keeps.then (State.wrongState_keeps ..) rfl ?_
            exact Keeps.refl _ _
          · rename_i y9 y10 y11
            extract_lets x12
            refine Keeps.ite ?_ ?_
            · refine Keeps.then (State.wrongState_keeps ..) rfl ?_
              exact Keeps.refl _ _
            · refine Keeps.ite ?_ ?_
              · refine Keeps.then (State.badParam_keeps ..) rfl ?_
                exact Keeps.refl _ _
              · refine Keeps.ite ?_ ?_
                · refine Keeps.then (State.wrongState_keeps ..) rfl ?_
                  exact Keeps.refl _ _
                · refine Keeps.foldl ?_ ?_
                  · refine Keeps.then (State.setAx_keeps ..) rfl ?_
                    exact Keeps.refl _ _
                  · intro u13 e14 k15
                    refine Keeps.then (State.axFinish_keeps ..) rfl ?_
                    exact k15

theorem axisStopEffect_keeps (n d s) : Keeps [.out, .regs, .jnl, .sess, .axes, .evt] s (axisStopEffect n d s) := by
  unfold axisStopEffect
  extract_lets x1 x2 x3
  have k4 : Keeps [.out, .regs, .jnl, .sess, .axes, .evt] s x2 := by
    unfold x2
    refine Keeps.then (State.setFld_keeps ..) rfl ?_
    refine Keeps.then (State.setFld_keeps ..) rfl ?_
    refine Keeps.then (State.setFld_keeps ..) rfl ?_
    exact Keeps.refl _ _
  clear_value x2
  refine Keeps.ite ?_ ?_
  · refine Keeps.then (State.badParam_keeps ..) rfl ?_
    exact Keeps.refl _ _
  · refine Keeps.ite ?_ ?_
    · refine Keeps.then (State.badParam_keeps ..) rfl ?_
      exact Keeps.refl _ _
    · refine Keeps.ite ?_ ?_
      · refine Keeps.ite ?_ ?_
        · refine Keeps.then (State.axFinish_keeps ..) rfl ?_
          refine Keeps.then (State.axCoils_keeps ..) rfl ?_
          refine Keeps.then (State.setAx_keeps ..) rfl ?_
          exact k4
        · refine Keeps.then (State.wrongState_keeps ..) rfl ?_
          exact Keeps.refl _ _
      · refine Keeps.then (State.axStop_keeps ..) rfl ?_
        exact Keeps.refl _ _

theorem axisTableEffect_keeps (n d s) : Keeps [.out, .regs, .jnl, .sess, .evt] s (axisTableEffect n d s) := by
  unfold axisTableEffect
  extract_lets x1
  refine Keeps.ite ?_ ?_
  · refine Keeps.then (State.badParam_keeps ..) rfl ?_
    exact Keeps.refl _ _
  · refine Keeps.ite ?_ ?_
    · refine Keeps.then (State.badParam_keeps ..) rfl ?_
      exact Keeps.refl _ _
    · refine Keeps.ite ?_ ?_
      · refine Keeps.then (State.badParam_keeps ..) rfl ?_
        exact Keeps.refl _ _
      · refine Keeps.ite ?_ ?_
        · refine Keeps.then (State.owned_keeps ..) rfl ?_
          exact Keeps.refl _ _
        · refine Keeps.ite ?_ ?_
          · refine Keeps.then (State.wrongState_keeps ..) rfl ?_
            exact Keeps.refl _ _
          · refine Keeps.then (State.loadRead_keeps ..) rfl ?_
            exact Keeps.refl _ _

theorem bankEffect_keeps (n set slot d s) : Keeps [.out, .regs, .jnl, .pln, .sess, .evt] s (bankEffect n set slot d s) := by
  unfold bankEffect
  extract_lets x1 x2
  have k3 : Keeps [.out, .regs, .jnl, .pln, .sess, .evt] s x1 := by
    unfold x1
    refine Keeps.then (State.loadRead_keeps ..) rfl ?_
    exact Keeps.refl _ _
  clear_value x1
  refine Keeps.ite ?_ ?_
  · refine Keeps.then (State.badParam_keeps ..) rfl ?_
    exact Keeps.refl _ _
  · refine Keeps.ite ?_ ?_
    · refine Keeps.then (State.badParam_keeps ..) rfl ?_
      exact Keeps.refl _ _
    · refine Keeps.ite ?_ ?_
      · refine Keeps.then (State.badParam_keeps ..) rfl ?_
        exact Keeps.refl _ _
      · refine Keeps.ite ?_ ?_
        · refine Keeps.then (State.planRefuse_keeps ..) rfl ?_
          exact Keeps.refl _ _
        · refine Keeps.ite ?_ ?_
          · exact k3
          · refine Keeps.set_pln rfl ?_
            exact k3

theorem calEffect_keeps (n d s) : Keeps [.freeIdx, .out, .regs, .ports, .jnl, .sess, .evt, .cal] s (calEffect n d s) := by
  unfold calEffect
  extract_lets x1 x2
  refine Keeps.ite ?_ ?_
  · refine Keeps.then (State.badParam_keeps ..) rfl ?_
    exact Keeps.refl _ _
  · refine Keeps.ite ?_ ?_
    · refine Keeps.then (State.finishDesc_keeps ..) rfl ?_
      exact Keeps.refl _ _
    · refine Keeps.ite ?_ ?_
      · refine Keeps.then (State.badParam_keeps ..) rfl ?_
        exact Keeps.refl _ _
      · refine Keeps.ite ?_ ?_
        · refine Keeps.then (State.wrongState_keeps ..) rfl ?_
          exact Keeps.refl _ _
        · clear_value x1
          split
          · rename_i y3
            refine Keeps.then (State.calLanes_keeps ..) rfl ?_
            exact Keeps.refl _ _
          · rename_i y4
            refine Keeps.then (State.calTrain_keeps ..) rfl ?_
            exact Keeps.refl _ _
          · rename_i y5
            refine Keeps.then (State.calSeamReport_keeps ..) rfl ?_
            exact Keeps.refl _ _
          · rename_i y6
            refine Keeps.then (State.calFlat_keeps ..) rfl ?_
            exact Keeps.refl _ _
          · rename_i y7
            refine Keeps.then (State.calChop_keeps ..) rfl ?_
            exact Keeps.refl _ _
          · rename_i y8 y9 y10 y11 y12 y13
            refine Keeps.then (State.calAsym_keeps ..) rfl ?_
            exact Keeps.refl _ _

theorem cameraCtrlEffect_keeps (n d s) : Keeps [.out, .regs, .ports, .jnl, .sess, .evt] s (cameraCtrlEffect n d s) := by
  unfold cameraCtrlEffect
  extract_lets x1 x2 x3 x4
  have k5 : Keeps [.out, .regs, .ports, .jnl, .sess, .evt] s x4.1 := by
    unfold x4
    refine Keeps.then (State.hostRead_keeps ..) rfl ?_
    exact Keeps.refl _ _
  clear_value x4
  refine Keeps.ite ?_ ?_
  · refine Keeps.then (State.badParam_keeps ..) rfl ?_
    exact Keeps.refl _ _
  · refine Keeps.ite ?_ ?_
    · refine Keeps.then (State.badParam_keeps ..) rfl ?_
      exact Keeps.refl _ _
    · refine Keeps.ite ?_ ?_
      · refine Keeps.then (State.badParam_keeps ..) rfl ?_
        exact Keeps.refl _ _
      · refine Keeps.ite ?_ ?_
        · refine Keeps.then (State.wrongState_keeps ..) rfl ?_
          exact Keeps.refl _ _
        · refine Keeps.ite ?_ ?_
          · refine Keeps.then (State.ctrlAdd_keeps ..) rfl ?_
            exact Keeps.refl _ _
          · split
            · rename_i y6 y7
              exact k5
            · rename_i y8 y9 y10
              refine Keeps.then (State.finishDesc_keeps ..) rfl ?_
              exact k5

theorem commitEffect_keeps (n d s) : Keeps [.out, .regs, .jnl, .pln, .sess, .tim, .fab, .evt] s (commitEffect n d s) := by
  unfold commitEffect
  split
  · rename_i y1 y2
    refine Keeps.then (State.planRefuse_keeps ..) rfl ?_
    exact Keeps.refl _ _
  · rename_i y3 y4 y5
    extract_lets x6 x7 x8 x9 x10
    have k11 : Keeps [.out, .regs, .jnl, .pln, .sess, .tim, .fab, .evt] s x7 := by
      unfold x7
      refine Keeps.set_pln rfl ?_
      exact Keeps.refl _ _
    clear_value x7
    refine Keeps.ite ?_ ?_
    · refine Keeps.then (State.planRefuse_keeps ..) rfl ?_
      exact Keeps.refl _ _
    · refine Keeps.ite ?_ ?_
      · refine Keeps.then (State.planRefuse_keeps ..) rfl ?_
        exact Keeps.refl _ _
      · refine Keeps.ite ?_ ?_
        · refine Keeps.then (State.planRefuse_keeps ..) rfl ?_
          exact Keeps.refl _ _
        · refine Keeps.ite ?_ ?_
          · refine Keeps.ite ?_ ?_
            · refine Keeps.then (State.readyCheck_keeps ..) rfl ?_
              refine Keeps.set_fab rfl ?_
              exact k11
            · refine Keeps.then (State.fabSend_keeps ..) rfl ?_
              exact k11
          · exact k11

theorem compareArmEffect_keeps (n d s) : Keeps [.freeIdx, .out, .regs, .pen, .jnl, .sess, .tim, .axes, .evt,
    .pwr] s (compareArmEffect n d s) := by
  unfold compareArmEffect
  extract_lets x1 x2
  have k3 : Keeps [.freeIdx, .out, .regs, .pen, .jnl, .sess, .tim, .axes, .evt, .pwr] s x2.2 := by
    unfold x2
    refine Keeps.then (State.takeFree_keeps ..) rfl ?_
    exact Keeps.refl _ _
  clear_value x2
  refine Keeps.ite ?_ ?_
  · refine Keeps.then (State.badParam_keeps ..) rfl ?_
    exact Keeps.refl _ _
  · refine Keeps.ite ?_ ?_
    · refine Keeps.then (State.badParam_keeps ..) rfl ?_
      exact Keeps.refl _ _
    · refine Keeps.ite ?_ ?_
      · refine Keeps.then (State.badParam_keeps ..) rfl ?_
        exact Keeps.refl _ _
      · refine Keeps.ite ?_ ?_
        · refine Keeps.then (State.badParam_keeps ..) rfl ?_
          exact Keeps.refl _ _
        · split
          · rename_i y4 y5 y6 y7 y8 y9
            extract_lets x10
            refine Keeps.then (State.armCompare_keeps ..) rfl ?_
            refine Keeps.then (State.setClaim_keeps ..) rfl ?_
            exact k3
          · rename_i y11 y12 y13
            refine Keeps.then (State.wrongState_keeps ..) rfl ?_
            exact Keeps.refl _ _

theorem compileEffect_keeps (n d s) : Keeps [.out, .regs, .jnl, .pln, .sess, .evt] s (compileEffect n d s) := by
  unfold compileEffect
  extract_lets x1 x2
  have k3 : Keeps [.out, .regs, .jnl, .pln, .sess, .evt] s x1 := by
    unfold x1
    refine Keeps.then (State.loadRead_keeps ..) rfl ?_
    exact Keeps.refl _ _
  clear_value x1
  refine Keeps.ite ?_ ?_
  · refine Keeps.then (State.badParam_keeps ..) rfl ?_
    exact Keeps.refl _ _
  · refine Keeps.ite ?_ ?_
    · refine Keeps.then (State.badParam_keeps ..) rfl ?_
      exact Keeps.refl _ _
    · refine Keeps.ite ?_ ?_
      · refine Keeps.then (State.badParam_keeps ..) rfl ?_
        exact Keeps.refl _ _
      · refine Keeps.ite ?_ ?_
        · refine Keeps.then (State.wrongState_keeps ..) rfl ?_
          exact Keeps.refl _ _
        · refine Keeps.ite ?_ ?_
          · refine Keeps.then (State.planRefuse_keeps ..) rfl ?_
            refine Keeps.then (State.planState_keeps ..) rfl ?_
            exact Keeps.refl _ _
          · refine Keeps.ite ?_ ?_
            · exact k3
            · refine Keeps.then (State.setFld_keeps ..) rfl ?_
              refine Keeps.set_pln rfl ?_
              exact k3

theorem encoderClearEffect_keeps (n d s) : Keeps [.out, .regs, .jnl, .sess, .encs, .evt] s (encoderClearEffect n d s) := by
  unfold encoderClearEffect
  extract_lets x1 x2
  refine Keeps.ite ?_ ?_
  · refine Keeps.then (State.badParam_keeps ..) rfl ?_
    exact Keeps.refl _ _
  · refine Keeps.then (State.doneDesc_keeps ..) rfl ?_
    refine Keeps.then (State.setFld_keeps ..) rfl ?_
    refine Keeps.then (State.setEnc_keeps ..) rfl ?_
    exact Keeps.refl _ _

theorem execAck_keeps (p ty seq s) : Answers [.out, .regs, .ports] s (execAck p ty seq s) := by
  unfold execAck
  refine Answers.next ?_
  refine Keeps.ite ?_ ?_
  · refine Keeps.then (State.stepUp_keeps ..) rfl ?_
    exact Keeps.refl _ _
  · exact Keeps.refl _ _

theorem execAckTimeout_keeps (n s) : Answers [.out, .regs, .sess, .evt] s (execAckTimeout n s) := by
  unfold execAckTimeout
  extract_lets x1 x2
  refine Answers.ite ?_ ?_
  · refine Answers.next ?_
    exact Keeps.refl _ _
  · refine Answers.ite ?_ ?_
    · refine Answers.next ?_
      refine Keeps.then (State.sessLost_keeps ..) rfl ?_
      exact Keeps.refl _ _
    · refine Answers.next ?_
      refine Keeps.foldl ?_ ?_
      · refine Keeps.then (State.setSession_keeps ..) rfl ?_
        exact Keeps.refl _ _
      · intro u3 e4 k5
        refine Keeps.then (State.resendOp_keeps ..) rfl ?_
        exact k5

theorem execAdapt_keeps (p s) : Answers [.out, .regs, .ports] s (execAdapt p s) := by
  unfold execAdapt
  refine Answers.next ?_
  refine Keeps.then (State.readapt_keeps ..) rfl ?_
  exact Keeps.refl _ _

theorem execAdaptationDone_keeps (p l eye s) : Answers [.freeIdx, .out, .regs, .ports, .jnl, .sess, .evt,
    .cal] s (execAdaptationDone p l eye s) := by
  unfold execAdaptationDone
  extract_lets x1 x2 x3
  have k4 : Keeps [.freeIdx, .out, .regs, .ports, .jnl, .sess, .evt, .cal] s x3 := by
    unfold x3
    refine Keeps.then (State.emit_keeps ..) rfl ?_
    refine Keeps.then (State.setFld_keeps ..) rfl ?_
    refine Keeps.then (State.setLane_keeps ..) rfl ?_
    exact Keeps.refl _ _
  clear_value x3
  refine Answers.ite ?_ ?_
  · refine Answers.next ?_
    refine Keeps.then (State.judgeStep_keeps ..) rfl ?_
    exact k4
  · refine Answers.next ?_
    exact Keeps.refl _ _

theorem execAddressAssignment_keeps (s) : Answers [.freeIdx, .out, .regs, .jnl, .pln, .sess, .tim, .fab,
    .evt] s (execAddressAssignment s) := by
  unfold execAddressAssignment
  extract_lets x1 x2 x3 x4 x5 x6
  have k7 : Keeps [.freeIdx, .out, .regs, .jnl, .pln, .sess, .tim, .fab, .evt] s x3.2 := by
    unfold x3
    refine Keeps.then (State.fabChans_keeps ..) rfl ?_
    exact Keeps.refl _ _
  clear_value x3
  have k8 : Keeps [.freeIdx, .out, .regs, .jnl, .pln, .sess, .tim, .fab, .evt] s x4 := by
    unfold x4
    exact k7
  clear_value x4
  refine Answers.ite ?_ ?_
  · refine Answers.next ?_
    exact Keeps.refl _ _
  · refine Answers.next ?_
    split
    · rename_i y9 y10 y11
      refine Keeps.then (State.fabRefused_keeps ..) rfl ?_
      exact k8
    · rename_i y12 y13
      refine Keeps.then (State.assignAll_keeps ..) rfl ?_
      exact k8

theorem execAlign_keeps (p l block arrivalPs s) : Answers [.out, .regs, .ports, .ctxs, .jnl, .pln, .sess, .evt,
    .cal] s (execAlign p l block arrivalPs s) := by
  unfold execAlign
  extract_lets x1 x2
  have k3 : Keeps [.out, .regs, .ports, .ctxs, .jnl, .pln, .sess, .evt, .cal] s x2 := by
    unfold x2
    refine Keeps.then (State.takeMark_keeps ..) rfl ?_
    exact Keeps.refl _ _
  clear_value x2
  refine Answers.ite ?_ ?_
  · refine Answers.next ?_
    exact Keeps.refl _ _
  · refine Answers.ite ?_ ?_
    · refine Answers.next ?_
      refine Keeps.then (State.lockLost_keeps ..) rfl ?_
      exact k3
    · refine Answers.ite ?_ ?_
      · refine Answers.next ?_
        refine Keeps.then (State.linkUp_keeps ..) rfl ?_
        refine Keeps.then (State.modPort_keeps ..) rfl ?_
        exact k3
      · refine Answers.ite ?_ ?_
        · refine Answers.next ?_
          refine Keeps.ite ?_ ?_
          · refine Keeps.then (State.modPort_keeps ..) rfl ?_
            exact k3
          · exact k3
        · refine Answers.next ?_
          exact k3

theorem execAnnounce_keeps (e m s) : Answers [.freeIdx, .out, .regs, .jnl, .sess, .tim, .evt, .cal] s (execAnnounce e m s) := by
  unfold execAnnounce
  extract_lets x1 x2
  refine Answers.ite ?_ ?_
  · refine Answers.next ?_
    exact Keeps.refl _ _
  · refine Answers.next ?_
    refine Keeps.then (State.selectMaster_keeps ..) rfl ?_
    refine Keeps.set_tim rfl ?_
    exact Keeps.refl _ _

theorem execAnnounceInterval_keeps (e s) : Answers [.out, .tim] s (execAnnounceInterval e s) := by
  unfold execAnnounceInterval
  extract_lets x1 x2 x3
  refine Answers.ite ?_ ?_
  · refine Answers.next ?_
    exact Keeps.refl _ _
  · refine Answers.next ?_
    refine Keeps.then (State.emit_keeps ..) rfl ?_
    refine Keeps.then (State.setPtp_keeps ..) rfl ?_
    exact Keeps.refl _ _

theorem execAnnounceTimeout_keeps (s) : Answers [.freeIdx, .out, .regs, .jnl, .sess, .tim, .evt, .cal] s (execAnnounceTimeout s) := by
  unfold execAnnounceTimeout
  split
  · rename_i y1 y2
    refine Answers.ite ?_ ?_
    · refine Answers.next ?_
      refine Keeps.then (State.selectMaster_keeps ..) rfl ?_
      exact Keeps.refl _ _
    · refine Answers.next ?_
      exact Keeps.refl _ _
  · rename_i y3 y4 y5
    extract_lets x6 x7
    refine Answers.next ?_
    refine Keeps.then (State.selectMaster_keeps ..) rfl ?_
    refine Keeps.set_tim rfl ?_
    exact Keeps.refl _ _

theorem execAoTrimMeasure_keeps (trim s) : Answers [.regs, .tim, .pwr] s (execAoTrimMeasure trim s) := by
  unfold execAoTrimMeasure
  extract_lets x1 x2 x3
  refine Answers.ite ?_ ?_
  · refine Answers.next ?_
    refine Keeps.then (State.setFldInt_keeps ..) rfl ?_
    refine Keeps.set_tim_pwr rfl ?_
    exact Keeps.refl _ _
  · refine Answers.next ?_
    exact Keeps.refl _ _

theorem execApplyTimeout_keeps (p s) : Answers [.out, .regs, .ports, .jnl, .sess, .evt] s (execApplyTimeout p s) := by
  unfold execApplyTimeout
  split
  · rename_i y1 y2
    refine Answers.next ?_
    exact Keeps.refl _ _
  · rename_i y3 y4 y5
    extract_lets x6
    refine Answers.ite ?_ ?_
    · refine Answers.next ?_
      refine Keeps.then (State.sendPkt_keeps ..) rfl ?_
      refine Keeps.then (State.modPort_keeps ..) rfl ?_
      exact Keeps.refl _ _
    · refine Answers.next ?_
      refine Keeps.then (State.applyFail_keeps ..) rfl ?_
      refine Keeps.then (State.camNotice_keeps ..) rfl ?_
      exact Keeps.refl _ _

theorem execArpRequest_keeps (e target s) : Answers [.out] s (execArpRequest e target s) := by
  unfold execArpRequest
  extract_lets x1
  refine Answers.next ?_
  refine Keeps.ite ?_ ?_
  · refine Keeps.then (State.emit_keeps ..) rfl ?_
    exact Keeps.refl _ _
  · exact Keeps.refl _ _

theorem execAssign_keeps (_e h body s) : Answers [.out, .regs, .tim, .fab, .evt] s (execAssign _e h body s) := by
  unfold execAssign
  extract_lets x1 x2 x3 x4 x5 x6 x7
  have k8 : Keeps [.out, .regs, .tim, .fab, .evt] s x1 := by
    unfold x1
    refine Keeps.then (State.setFld_keeps ..) rfl ?_
    refine Keeps.then (State.takeAddress_keeps ..) rfl ?_
    refine Keeps.then (State.fabDiscover_keeps ..) rfl ?_
    exact Keeps.refl _ _
  have k9 : Keeps [.out, .regs, .tim, .fab, .evt] s x5 := by
    unfold x5
    refine Keeps.set_fab rfl ?_
    exact k8
  have k10 : Keeps [.out, .regs, .tim, .fab, .evt] s x6 := by
    unfold x6
    refine Keeps.then (State.mismatchCheck_keeps ..) rfl ?_
    refine Keeps.then (State.fabTook_keeps ..) rfl ?_
    exact k9
  have k11 : Keeps [.out, .regs, .tim, .fab, .evt] s x7 := by
    unfold x7
    refine Keeps.ite ?_ ?_
    · refine Keeps.then (State.setMismatch_keeps ..) rfl ?_
      exact k10
    · exact k10
  clear_value x7
  refine Answers.ite ?_ ?_
  · refine Answers.next ?_
    exact Keeps.refl _ _
  · refine Answers.ite ?_ ?_
    · refine Answers.next ?_
      refine Keeps.then (State.fabReply_keeps ..) rfl ?_
      exact Keeps.refl _ _
    · refine Answers.ite ?_ ?_
      · refine Answers.next ?_
        exact Keeps.refl _ _
      · refine Answers.next ?_
        refine Keeps.then (State.fabReply_keeps ..) rfl ?_
        exact k11

theorem execAssignAck_keeps (_e bytes s) : Answers [.regs, .seam, .fab, .evt] s (execAssignAck _e bytes s) := by
  unfold execAssignAck
  split
  · rename_i y1 y2
    refine Answers.next ?_
    exact Keeps.refl _ _
  · rename_i y3 y4 y5 y6
    split
    · rename_i y7 y8
      refine Answers.next ?_
      refine Keeps.then (State.fabStale_keeps ..) rfl ?_
      have k9 := State.fabFor_keeps _ _ _ _ y6
      refine Keeps.then k9 rfl ?_
      exact Keeps.refl _ _
    · rename_i y10 y11 y12
      extract_lets x13 x14 x15
      have k16 : Keeps [.regs, .seam, .fab, .evt] s x13 := by
        unfold x13
        refine Keeps.then (State.fabDone_keeps ..) rfl ?_
        have k17 := State.fabFor_keeps _ _ _ _ y6
        refine Keeps.then k17 rfl ?_
        exact Keeps.refl _ _
      clear_value x13
      refine Answers.next ?_
      refine Keeps.then (State.assignedCheck_keeps ..) rfl ?_
      refine Keeps.set_fab rfl ?_
      exact k16

theorem execAuthLockoutEnd_keeps (n s) : Answers [.regs, .sess] s (execAuthLockoutEnd n s) := by
  unfold execAuthLockoutEnd
  split
  · rename_i y1 y2
    refine Answers.next ?_
    exact Keeps.refl _ _
  · rename_i y3 y4 y5
    extract_lets x6
    refine Answers.ite ?_ ?_
    · refine Answers.next ?_
      exact Keeps.refl _ _
    · refine Answers.next ?_
      refine Keeps.then (State.setFld_keeps ..) rfl ?_
      refine Keeps.then (State.setSession_keeps ..) rfl ?_
      exact Keeps.refl _ _

theorem execAxisFault_keeps (x cause s) : Answers [.out, .regs, .jnl, .sess, .axes, .evt] s (execAxisFault x cause s) := by
  unfold execAxisFault
  refine Answers.ite ?_ ?_
  · refine Answers.next ?_
    exact Keeps.refl _ _
  · refine Answers.next ?_
    refine Keeps.then (State.axFault_keeps ..) rfl ?_
    exact Keeps.refl _ _

theorem execAxisLimits_keeps (n idx s) : Answers [.out, .regs, .jnl, .sess, .axes, .evt] s (execAxisLimits n idx s) := by
  unfold execAxisLimits
  refine Answers.next ?_
  refine State.runDesc_keeps rfl ?_ ?_
  · exact Keeps.refl _ _
  · intro a1 a2 a3
    refine Keeps.then (axisLimitsEffect_keeps ..) rfl ?_
    exact a3

theorem execAxisMove_keeps (n idx s) : Answers [.out, .regs, .jnl, .sess, .axes, .evt] s (execAxisMove n idx s) := by
  unfold execAxisMove
  refine Answers.next ?_
  refine State.runDesc_keeps rfl ?_ ?_
  · exact Keeps.refl _ _
  · intro a1 a2 a3
    refine Keeps.then (axisMoveEffect_keeps ..) rfl ?_
    exact a3

theorem execAxisStop_keeps (n idx s) : Answers [.out, .regs, .jnl, .sess, .axes, .evt] s (execAxisStop n idx s) := by
  unfold execAxisStop
  refine Answers.next ?_
  refine State.runDesc_keeps rfl ?_ ?_
  · exact Keeps.refl _ _
  · intro a1 a2 a3
    refine Keeps.then (axisStopEffect_keeps ..) rfl ?_
    exact a3

theorem execAxisTable_keeps (n idx s) : Answers [.out, .regs, .jnl, .sess, .evt] s (execAxisTable n idx s) := by
  unfold execAxisTable
  refine Answers.next ?_
  refine State.runDesc_keeps rfl ?_ ?_
  · exact Keeps.refl _ _
  · intro a1 a2 a3
    refine Keeps.then (axisTableEffect_keeps ..) rfl ?_
    exact a3

theorem execBandDeadline_keeps (c partner s) : Answers [.out, .regs, .ctxs, .ovw, .tim, .fab] s (execBandDeadline c partner s) := by
  unfold execBandDeadline
  split
  · rename_i y1 y2
    refine Answers.next ?_
    exact Keeps.refl _ _
  · rename_i y3 y4 y5
    extract_lets x6 x7 x8
    have k9 : Keeps [.out, .regs, .ctxs, .ovw, .tim, .fab] s x8 := by
      unfold x8
      refine Keeps.then (State.setCtx_keeps ..) rfl ?_
      exact Keeps.refl _ _
    clear_value x8
    refine Answers.ite ?_ ?_
    · refine Answers.next ?_
      exact Keeps.refl _ _
    · refine Answers.next ?_
      refine Keeps.then (State.flushWaiting_keeps ..) rfl ?_
      exact k9

theorem execBankCopyDone_keeps (c s) : Answers [.regs, .ctxs] s (execBankCopyDone c s) := by
  unfold execBankCopyDone
  extract_lets x1
  split
  · rename_i y2 y3
    refine Answers.next ?_
    exact Keeps.refl _ _
  · rename_i y4 y5 y6
    extract_lets x7 x8 x9 x10
    have k11 : Keeps [.regs, .ctxs] s x10 := by
      unfold x10
      refine Keeps.then (State.setNum_keeps ..) rfl ?_
      exact Keeps.refl _ _
    clear_value x10
    refine Answers.ite ?_ ?_
    · refine Answers.next ?_
      exact Keeps.refl _ _
    · refine Answers.next ?_
      refine Keeps.then (State.setFld_keeps ..) rfl ?_
      exact k11

theorem execBankUpdate_keeps (n idx set s) : Answers [.out, .regs, .jnl, .pln, .sess, .evt] s (execBankUpdate n idx set s) := by
  unfold execBankUpdate
  refine Answers.next ?_
  refine State.runDesc_keeps rfl ?_ ?_
  · exact Keeps.refl _ _
  · intro a1 a2 a3
    refine Keeps.then (bankEffect_keeps ..) rfl ?_
    exact a3

theorem execBlockLock_keeps (p l hs s) : Answers [.ports] s (execBlockLock p l hs s) := by
  unfold execBlockLock
  extract_lets x1
  refine Answers.next ?_
  refine Keeps.ite ?_ ?_
  · refine Keeps.then (State.setLane_keeps ..) rfl ?_
    exact Keeps.refl _ _
  · exact Keeps.refl _ _

theorem execBlockLockLost_keeps (p l hs s) : Answers [.out, .regs, .ports, .jnl, .pln, .sess, .evt,
    .cal] s (execBlockLockLost p l hs s) := by
  unfold execBlockLockLost
  extract_lets x1 x2
  refine Answers.next ?_
  refine Keeps.ite ?_ ?_
  · refine Keeps.then (State.lockLost_keeps ..) rfl ?_
    refine Keeps.then (State.setLane_keeps ..) rfl ?_
    exact Keeps.refl _ _
  · exact Keeps.refl _ _

theorem execBridgedFrame_keeps (e _pcp bytes s) : Answers [.out] s (execBridgedFrame e _pcp bytes s) := by
  unfold execBridgedFrame
  extract_lets x1
  refine Answers.next ?_
  refine Keeps.ite ?_ ?_
  · refine Keeps.then (State.emit_keeps ..) rfl ?_
    exact Keeps.refl _ _
  · exact Keeps.refl _ _

theorem execBringupTimeout_keeps (p s) : Answers [.out, .regs, .ports, .jnl, .sess, .evt, .cal] s (execBringupTimeout p s) := by
  unfold execBringupTimeout
  extract_lets x1 x2
  have k3 : Keeps [.out, .regs, .ports, .jnl, .sess, .evt, .cal] s x2 := by
    unfold x2
    refine Keeps.then (State.discover_keeps ..) rfl ?_
    refine Keeps.then (State.bump_keeps ..) rfl ?_
    exact Keeps.refl _ _
  clear_value x2
  refine Answers.ite ?_ ?_
  · refine Answers.next ?_
    refine Keeps.then (State.modPort_keeps ..) rfl ?_
    refine Keeps.then (State.setFld_keeps ..) rfl ?_
    exact k3
  · refine Answers.next ?_
    exact Keeps.refl _ _

theorem execBunting_keeps (_e bytes s) : Answers [.out, .regs, .seam, .tim, .fab, .evt] s (execBunting _e bytes s) := by
  unfold execBunting
  split
  · rename_i y1 y2
    refine Answers.next ?_
    exact Keeps.refl _ _
  · rename_i y3 y4 y5 y6
    extract_lets x7 x8 x9 x10 x11
    have k12 : Keeps [.out, .regs, .seam, .tim, .fab, .evt] s x10 := by
      unfold x10
      refine Keeps.then (State.fabReply_keeps ..) rfl ?_
      refine Keeps.then (State.fabPassed_keeps ..) rfl ?_
      have k13 := State.fabFor_keeps _ _ _ _ y6
      refine Keeps.then k13 rfl ?_
      exact Keeps.refl _ _
    clear_value x10
    refine Answers.ite ?_ ?_
    · refine Answers.next ?_
      have k14 := State.fabFor_keeps _ _ _ _ y6
      refine Keeps.then k14 rfl ?_
      exact Keeps.refl _ _
    · refine Answers.ite ?_ ?_
      · refine Answers.next ?_
        refine Keeps.set_seam rfl ?_
        exact k12
      · refine Answers.next ?_
        refine Keeps.ite ?_ ?_
        · have k15 := State.fabFor_keeps _ _ _ _ y6
          refine Keeps.then k15 rfl ?_
          exact Keeps.refl _ _
        · refine Keeps.then (State.fabReply_keeps ..) rfl ?_
          have k16 := State.fabFor_keeps _ _ _ _ y6
          refine Keeps.then k16 rfl ?_
          exact Keeps.refl _ _

theorem execBuntingAck_keeps (_e bytes s) : Answers [.regs, .seam, .fab, .evt] s (execBuntingAck _e bytes s) := by
  unfold execBuntingAck
  split
  · rename_i y1 y2
    refine Answers.next ?_
    exact Keeps.refl _ _
  · rename_i y3 y4 y5 y6
    extract_lets x7 x8
    refine Answers.ite ?_ ?_
    · refine Answers.next ?_
      refine Keeps.then (State.fabStale_keeps ..) rfl ?_
      have k9 := State.fabFor_keeps _ _ _ _ y6
      refine Keeps.then k9 rfl ?_
      exact Keeps.refl _ _
    · refine Answers.next ?_
      refine Keeps.set_fab rfl ?_
      have k10 := State.fabFor_keeps _ _ _ _ y6
      refine Keeps.then k10 rfl ?_
      exact Keeps.refl _ _

theorem execBuntingRecord_keeps (s) : Answers [.out, .regs, .jobs, .seam, .pen, .jnl, .tim, .fab, .axes, .evt,
    .pwr] s (execBuntingRecord s) := by
  unfold execBuntingRecord
  split
  · rename_i y1 y2
    refine Answers.next ?_
    exact Keeps.refl _ _
  · rename_i y3 y4 y5 y6
    extract_lets x7
    refine Answers.next ?_
    refine Keeps.then (State.buntTake_keeps ..) rfl ?_
    refine Keeps.set_seam rfl ?_
    exact Keeps.refl _ _

theorem execCalibrate_keeps (n idx s) : Answers [.freeIdx, .out, .regs, .ports, .jnl, .sess, .evt, .cal] s (execCalibrate n idx s) := by
  unfold execCalibrate
  refine Answers.next ?_
  refine State.runDesc_keeps rfl ?_ ?_
  · exact Keeps.refl _ _
  · intro a1 a2 a3
    refine Keeps.then (calEffect_keeps ..) rfl ?_
    exact a3

theorem execCameraCtrl_keeps (n idx s) : Answers [.out, .regs, .ports, .jnl, .sess, .evt] s (execCameraCtrl n idx s) := by
  unfold execCameraCtrl
  refine Answers.next ?_
  refine State.runDesc_keeps rfl ?_ ?_
  · exact Keeps.refl _ _
  · intro a1 a2 a3
    refine Keeps.then (cameraCtrlEffect_keeps ..) rfl ?_
    exact a3

theorem execCancel_keeps (s idx st) : Answers [.out, .regs, .jobs, .jnl, .sess, .evt] st (execCancel s idx st) := by
  unfold execCancel
  refine Answers.next ?_
  refine State.runDesc_keeps rfl ?_ ?_
  · exact Keeps.refl _ _
  · intro a1 a2 a3
    split
    · rename_i y4 y5
      refine Keeps.then (State.finishDesc_keeps ..) rfl ?_
      exact a3
    · rename_i y6 y7 y8
      extract_lets x9 x10 x11 x12 x13
      have k14 : Keeps [.out, .regs, .jobs, .jnl, .sess, .evt] st x11 := by
        unfold x11
        refine Keeps.ite ?_ ?_
        · refine Keeps.then (State.hostWrite_keeps ..) rfl ?_
          exact a3
        · exact a3
      clear_value x11
      have k15 : Keeps [.out, .regs, .jobs, .jnl, .sess, .evt] st x13 := by
        unfold x13
        refine Keeps.ite ?_ ?_
        · exact k14
        · refine Keeps.then (State.finishDesc_keeps ..) rfl ?_
          exact k14
      clear_value x13
      refine Keeps.then (State.doneDesc_keeps ..) rfl ?_
      refine Keeps.then (State.dropJob_keeps ..) rfl ?_
      exact k15

theorem execCapabilityRecord_keeps (p ty seq b s) : Answers [.out, .regs, .ports, .jnl, .sess, .evt,
    .cal] s (execCapabilityRecord p ty seq b s) := by
  unfold execCapabilityRecord
  extract_lets x1 x2 x3 x4 x5 x6 x7 x8
  have k9 : Keeps [.out, .regs, .ports, .jnl, .sess, .evt, .cal] s x3 := by
    unfold x3
    refine Keeps.then (State.emit_keeps ..) rfl ?_
    exact Keeps.refl _ _
  clear_value x3
  have k10 : Keeps [.out, .regs, .ports, .jnl, .sess, .evt, .cal] s x4 := by
    unfold x4
    refine Keeps.then (State.emit_keeps ..) rfl ?_
    exact Keeps.refl _ _
  clear_value x4
  have k11 : Keeps [.out, .regs, .ports, .jnl, .sess, .evt, .cal] s x5 := by
    unfold x5
    refine Keeps.foldl ?_ ?_
    · exact k10
    · intro u12 e13 k14
      refine Keeps.then (State.setFld_keeps ..) rfl ?_
      exact k14
  clear_value x5
  have k15 : Keeps [.out, .regs, .ports, .jnl, .sess, .evt, .cal] s x8 := by
    unfold x8
    refine Keeps.then (State.modPort_keeps ..) rfl ?_
    exact k11
  clear_value x8
  refine Answers.ite ?_ ?_
  · refine Answers.next ?_
    exact Keeps.refl _ _
  · refine Answers.ite ?_ ?_
    · refine Answers.next ?_
      refine Keeps.ite ?_ ?_
      · exact k9
      · refine Keeps.ite ?_ ?_
        · refine Keeps.then (State.discover_keeps ..) rfl ?_
          exact k9
        · refine Keeps.then (State.modPort_keeps ..) rfl ?_
          exact k9
    · refine Answers.ite ?_ ?_
      · refine Answers.next ?_
        exact k10
      · refine Answers.next ?_
        refine Keeps.then (State.sendSelect_keeps ..) rfl ?_
        refine Keeps.then (State.setFld_keeps ..) rfl ?_
        exact k15

theorem execCatchupReturn_keeps (c s) : Answers [.out, .regs, .ctxs, .jnl, .sess, .evt] s (execCatchupReturn c s) := by
  unfold execCatchupReturn
  split
  · rename_i y1 y2 y3 y4 y5 y6
    extract_lets x7 x8 x9 x10 x11 x12 x13 x14 x15
    have k16 : Keeps [.out, .regs, .ctxs, .jnl, .sess, .evt] s x12 := by
      unfold x12
      refine Keeps.then (State.setCtx_keeps ..) rfl ?_
      exact Keeps.refl _ _
    clear_value x12
    have k17 : Keeps [.out, .regs, .ctxs, .jnl, .sess, .evt] s x14 := by
      unfold x14
      refine Keeps.set_jnl rfl ?_
      exact k16
    clear_value x14
    have k18 : Keeps [.out, .regs, .ctxs, .jnl, .sess, .evt] s x15 := by
      unfold x15
      refine Keeps.then (State.setFld_keeps ..) rfl ?_
      exact k17
    clear_value x15
    refine Answers.ite ?_ ?_
    · refine Answers.next ?_
      exact Keeps.refl _ _
    · refine Answers.next ?_
      refine Keeps.ite ?_ ?_
      · refine Keeps.then (State.replayEnds_keeps ..) rfl ?_
        refine Keeps.then (State.setFld_keeps ..) rfl ?_
        exact k18
      · exact k18
  · rename_i y19 y20 y21
    refine Answers.next ?_
    exact Keeps.refl _ _

theorem execCeMarkedPacket_keeps (n s) : Answers [.out, .sess] s (execCeMarkedPacket n s) := by
  unfold execCeMarkedPacket
  extract_lets x1 x2 x3
  refine Answers.next ?_
  refine Keeps.ite ?_ ?_
  · refine Keeps.then (State.emit_keeps ..) rfl ?_
    refine Keeps.then (State.setSession_keeps ..) rfl ?_
    exact Keeps.refl _ _
  · exact Keeps.refl _ _

theorem execCevt_keeps (p k s) : Answers [.out, .regs, .ports, .jnl, .sess, .evt] s (execCevt p k s) := by
  unfold execCevt
  extract_lets x1 x2 x3 x4
  refine Answers.ite ?_ ?_
  · refine Answers.next ?_
    exact Keeps.refl _ _
  · refine Answers.ite ?_ ?_
    · refine Answers.next ?_
      refine Keeps.then (State.bump_keeps ..) rfl ?_
      exact Keeps.refl _ _
    · refine Answers.ite ?_ ?_
      · refine Answers.next ?_
        exact Keeps.refl _ _
      · refine Answers.next ?_
        clear_value x1
        split
        · rename_i y5
          clear_value x4
          split
          · rename_i y6 y7
            refine Keeps.then (State.applyOk_keeps ..) rfl ?_
            exact Keeps.refl _ _
          · rename_i y8
            exact Keeps.refl _ _
        · rename_i y9
          clear_value x4
          split
          · rename_i y10 y11
            refine Keeps.then (State.applyFail_keeps ..) rfl ?_
            refine Keeps.then (State.camNotice_keeps ..) rfl ?_
            exact Keeps.refl _ _
          · rename_i y12
            exact Keeps.refl _ _
        · rename_i y13
          refine Keeps.then (State.forwardCevt_keeps ..) rfl ?_
          refine Keeps.then (State.bump_keeps ..) rfl ?_
          exact Keeps.refl _ _
        · rename_i y14
          refine Keeps.then (State.forwardCevt_keeps ..) rfl ?_
          exact Keeps.refl _ _
        · rename_i y15
          refine Keeps.then (State.forwardCevt_keeps ..) rfl ?_
          exact Keeps.refl _ _
        · rename_i y16 y17 y18 y19 y20 y21
          refine Keeps.ite ?_ ?_
          · refine Keeps.then (State.forwardCevt_keeps ..) rfl ?_
            exact Keeps.refl _ _
          · exact Keeps.refl _ _

theorem execCheckRun_keeps (s idx st) : Answers [.out, .regs, .jobs, .jnl, .sess, .evt, .crcs] st (execCheckRun s idx st) := by
  unfold execCheckRun
  refine Answers.next ?_
  refine State.runDesc_keeps rfl ?_ ?_
  · exact Keeps.refl _ _
  · intro a1 a2 a3
    extract_lets x4 x5 x6 x7 x8 x9 x10 x11 x12 x13
    have k14 : Keeps [.out, .regs, .jobs, .jnl, .sess, .evt, .crcs] st x9 := by
      unfold x9
      refine Keeps.then (State.setFld_keeps ..) rfl ?_
      refine Keeps.then (State.crcShow_keeps ..) rfl ?_
      exact a3
    clear_value x9
    have k15 : Keeps [.out, .regs, .jobs, .jnl, .sess, .evt, .crcs] st x11 := by
      unfold x11
      refine Keeps.then (State.setCrc_keeps ..) rfl ?_
      exact k14
    clear_value x11
    refine Keeps.ite ?_ ?_
    · refine Keeps.then (State.badParam_keeps ..) rfl ?_
      exact a3
    · refine Keeps.ite ?_ ?_
      · refine Keeps.then (State.badParam_keeps ..) rfl ?_
        exact a3
      · refine Keeps.ite ?_ ?_
        · refine Keeps.then (State.badParam_keeps ..) rfl ?_
          exact a3
        · refine Keeps.ite ?_ ?_
          · refine Keeps.then (State.wrongState_keeps ..) rfl ?_
            exact a3
          · refine Keeps.then (State.addJob_keeps ..) rfl ?_
            exact k15

theorem execChopperOffsetUpdate_keeps (x phaseB mean s) : Answers [.regs, .axes] s (execChopperOffsetUpdate x phaseB mean s) := by
  unfold execChopperOffsetUpdate
  extract_lets x1 x2 x3 x4 x5 x6
  have k7 : Keeps [.regs, .axes] s x5 := by
    unfold x5
    refine Keeps.then (State.setAx_keeps ..) rfl ?_
    exact Keeps.refl _ _
  clear_value x5
  have k8 : Keeps [.regs, .axes] s x6 := by
    unfold x6
    refine Keeps.then (State.setFld_keeps ..) rfl ?_
    exact k7
  clear_value x6
  refine Answers.ite ?_ ?_
  · refine Answers.next ?_
    refine Keeps.then (State.setFldInt_keeps ..) rfl ?_
    exact k8
  · refine Answers.next ?_
    refine Keeps.then (State.setFld_keeps ..) rfl ?_
    exact k8

theorem execCloseSession_keeps (f s) : Answers [.out, .regs, .ports, .jobs, .jnl, .pln, .sess, .tim, .fab, .axes, .evt, .crcs, .cal,
    .pwr] s (execCloseSession f s) := by
  unfold execCloseSession
  refine State.mgmtType_keeps rfl ?_ ?_
  · exact Keeps.refl _ _
  · intro a1 a2 a3 a4 a5
    refine Gives.ok ?_
    refine Keeps.then (State.sessClose_keeps ..) rfl ?_
    exact a5

theorem execCnp_keeps (n s) : Answers [.regs, .sess, .evt] s (execCnp n s) := by
  unfold execCnp
  extract_lets x1 x2
  refine Answers.ite ?_ ?_
  · refine Answers.next ?_
    exact Keeps.refl _ _
  · refine Answers.next ?_
    refine Keeps.then (State.fireIf_keeps ..) rfl ?_
    refine Keeps.then (State.bump_keeps ..) rfl ?_
    refine Keeps.then (State.setRoceRate_keeps ..) rfl ?_
    exact Keeps.refl _ _

theorem execCodewordRead_keeps (m k _burst word u s) : Answers [.out, .regs, .ctxs, .ring, .jobs, .pen, .jnl, .mem, .pln, .sess, .evt,
    .pwr] s (execCodewordRead m k _burst word u s) := by
  unfold execCodewordRead
  extract_lets x1
  refine Answers.next ?_
  split
  · rename_i y2 y3 y4
    exact Keeps.refl _ _
  · rename_i y5 y6 y7 y8
    refine Keeps.then (State.correctedWord_keeps ..) rfl ?_
    exact Keeps.refl _ _
  · rename_i y9 y10
    refine Keeps.then (State.poisonUse_keeps ..) rfl ?_
    refine Keeps.then (State.mcAlert_keeps ..) rfl ?_
    exact Keeps.refl _ _
  · rename_i y11 y12
    refine Keeps.then (State.rankOut_keeps ..) rfl ?_
    refine Keeps.then (State.poisonUse_keeps ..) rfl ?_
    refine Keeps.then (State.bump_keeps ..) rfl ?_
    exact Keeps.refl _ _

theorem execCommandAddressParity_keeps (m k s) : Answers [.out, .regs, .jobs, .pen, .jnl, .mem, .pln, .sess, .evt,
    .pwr] s (execCommandAddressParity m k s) := by
  unfold execCommandAddressParity
  refine Answers.next ?_
  refine Keeps.then (State.rankOut_keeps ..) rfl ?_
  refine Keeps.then (State.bump_keeps ..) rfl ?_
  exact Keeps.refl _ _

theorem execCommit_keeps (n idx s) : Answers [.out, .regs, .jnl, .pln, .sess, .tim, .fab, .evt] s (execCommit n idx s) := by
  unfold execCommit
  refine Answers.next ?_
  refine State.runDesc_keeps rfl ?_ ?_
  · exact Keeps.refl _ _
  · intro a1 a2 a3
    refine Keeps.then (commitEffect_keeps ..) rfl ?_
    exact a3

theorem execCompareArm_keeps (n idx s) : Answers [.freeIdx, .out, .regs, .pen, .jnl, .sess, .tim, .axes, .evt,
    .pwr] s (execCompareArm n idx s) := by
  unfold execCompareArm
  refine Answers.next ?_
  refine State.runDesc_keeps rfl ?_ ?_
  · exact Keeps.refl _ _
  · intro a1 a2 a3
    refine Keeps.then (compareArmEffect_keeps ..) rfl ?_
    exact a3

theorem execCompile_keeps (n idx s) : Answers [.out, .regs, .jnl, .pln, .sess, .evt] s (execCompile n idx s) := by
  unfold execCompile
  refine Answers.next ?_
  refine State.runDesc_keeps rfl ?_ ?_
  · exact Keeps.refl _ _
  · intro a1 a2 a3
    refine Keeps.then (compileEffect_keeps ..) rfl ?_
    exact a3

theorem execCompileDone_keeps (res s) : Answers [.out, .regs, .jnl, .pln, .sess, .fab, .evt] s (execCompileDone res s) := by
  unfold execCompileDone
  split
  · rename_i y1 y2
    refine Answers.next ?_
    exact Keeps.refl _ _
  · rename_i y3 y4 y5
    split
    · rename_i y6 y7
      refine Answers.next ?_
      exact Keeps.refl _ _
    · rename_i y8 y9 y10
      extract_lets x11 x12 x13 x14
      refine Answers.next ?_
      split
      · rename_i y15 y16 y17
        refine Keeps.then (State.compileRefused_keeps ..) rfl ?_
        exact Keeps.refl _ _
      · rename_i y18 y19
        refine Keeps.then (State.compileOk_keeps ..) rfl ?_
        exact Keeps.refl _ _

theorem execCoordinatorSettle_keeps (s) : Answers [.regs, .fab, .evt] s (execCoordinatorSettle s) := by
  unfold execCoordinatorSettle
  refine Answers.next ?_
  refine Keeps.ite ?_ ?_
  · refine Keeps.then (State.takeRole_keeps ..) rfl ?_
    exact Keeps.refl _ _
  · exact Keeps.refl _ _

theorem execCrcLoad_keeps (u v s) : Answers [.regs, .evt, .crcs] s (execCrcLoad u v s) := by
  unfold execCrcLoad
  refine Answers.next ?_
  refine Keeps.then (State.loadWrite_keeps ..) rfl ?_
  exact Keeps.refl _ _

theorem execCriticalCooldown_keeps (s) : Answers [.pwr] s (execCriticalCooldown s) := by
  unfold execCriticalCooldown
  extract_lets x1
  refine Answers.next ?_
  refine Keeps.set_pwr rfl ?_
  exact Keeps.refl _ _

theorem execCtrlAcknowledgement_keeps (p k s) : Answers [.out, .regs, .ports, .jnl, .sess, .evt] s (execCtrlAcknowledgement p k s) := by
  unfold execCtrlAcknowledgement
  refine Answers.ite ?_ ?_
  · refine Answers.next ?_
    exact Keeps.refl _ _
  · refine Answers.ite ?_ ?_
    · refine Answers.next ?_
      refine Keeps.then (State.bump_keeps ..) rfl ?_
      exact Keeps.refl _ _
    · split
      · rename_i y1 y2
        refine Answers.next ?_
        exact Keeps.refl _ _
      · rename_i y3 y4 y5
        extract_lets x6 x7 x8 x9
        have k10 : Keeps [.out, .regs, .ports, .jnl, .sess, .evt] s x8 := by
          unfold x8
          refine Keeps.then (State.modPort_keeps ..) rfl ?_
          exact Keeps.refl _ _
        clear_value x8
        have k11 : Keeps [.out, .regs, .ports, .jnl, .sess, .evt] s x9 := by
          unfold x9
          refine Keeps.ite ?_ ?_
          · exact k10
          · refine Keeps.then (State.camNotice_keeps ..) rfl ?_
            exact k10
        clear_value x9
        refine Answers.ite ?_ ?_
        · refine Answers.next ?_
          refine Keeps.then (State.ctrlNext_keeps ..) rfl ?_
          refine Keeps.then (State.ctrlDone_keeps ..) rfl ?_
          exact k11
        · refine Answers.next ?_
          exact Keeps.refl _ _

theorem execCtrlTimeout_keeps (p s) : Answers [.out, .regs, .ports, .jnl, .sess, .evt] s (execCtrlTimeout p s) := by
  unfold execCtrlTimeout
  split
  · rename_i y1 y2
    refine Answers.next ?_
    exact Keeps.refl _ _
  · rename_i y3 y4 y5
    extract_lets x6 x7
    have k8 : Keeps [.out, .regs, .ports, .jnl, .sess, .evt] s x6 := by
      unfold x6
      refine Keeps.then (State.camNotice_keeps ..) rfl ?_
      refine Keeps.then (State.modPort_keeps ..) rfl ?_
      exact Keeps.refl _ _
    clear_value x6
    have k9 : Keeps [.out, .regs, .ports, .jnl, .sess, .evt] s x7 := by
      unfold x7
      refine Keeps.ite ?_ ?_
      · refine Keeps.then (State.finishDesc_keeps ..) rfl ?_
        exact k8
      · exact k8
    clear_value x7
    refine Answers.ite ?_ ?_
    · refine Answers.next ?_
      refine Keeps.then (State.sendPkt_keeps ..) rfl ?_
      refine Keeps.then (State.modPort_keeps ..) rfl ?_
      exact Keeps.refl _ _
    · refine Answers.next ?_
      refine Keeps.then (State.ctrlNext_keeps ..) rfl ?_
      exact k9

theorem execCurrentLimit_keeps (current s) : Answers [.regs, .evt, .pwr] s (execCurrentLimit current s) := by
  unfold execCurrentLimit
  extract_lets x1 x2
  have k3 : Keeps [.regs, .evt, .pwr] s x1 := by
    unfold x1
    refine Keeps.then (State.setFld_keeps ..) rfl ?_
    refine Keeps.then (State.setFld_keeps ..) rfl ?_
    exact Keeps.refl _ _
  clear_value x1
  refine Answers.ite ?_ ?_
  · refine Answers.next ?_
    exact Keeps.refl _ _
  · refine Answers.next ?_
    refine Keeps.then (State.fire_keeps ..) rfl ?_
    refine Keeps.set_pwr rfl ?_
    exact k3

theorem execCurrentReduction_keeps (current s) : Answers [.out, .regs, .axes, .pwr] s (execCurrentReduction current s) := by
  unfold execCurrentReduction
  extract_lets x1 x2
  have k3 : Keeps [.out, .regs, .axes, .pwr] s x1 := by
    unfold x1
    refine Keeps.then (State.setFld_keeps ..) rfl ?_
    exact Keeps.refl _ _
  clear_value x1
  refine Answers.ite ?_ ?_
  · refine Answers.next ?_
    exact Keeps.refl _ _
  · refine Answers.next ?_
    refine Keeps.ite ?_ ?_
    · refine Keeps.set_pwr rfl ?_
      exact k3
    · refine Keeps.then (State.cutCurrents_keeps ..) rfl ?_
      exact k3

theorem execDawnStep_keeps (r s) : Answers allParts s (execDawnStep r s) := by
  unfold execDawnStep
  extract_lets x1 x2
  refine Answers.ite ?_ ?_
  · refine Answers.next ?_
    exact Keeps.refl _ _
  · refine Answers.ite ?_ ?_
    · refine Answers.next ?_
      refine Keeps.then (State.dawnFails_keeps ..) rfl ?_
      exact Keeps.refl _ _
    · refine Answers.next ?_
      refine Keeps.then (State.dawnEffect_keeps ..) rfl ?_
      refine Keeps.set_pwr rfl ?_
      exact Keeps.refl _ _

theorem execDelayReq_keeps (e m s) : Answers [.out] s (execDelayReq e m s) := by
  unfold execDelayReq
  refine Answers.ite ?_ ?_
  · refine Answers.next ?_
    exact Keeps.refl _ _
  · refine Answers.next ?_
    refine Keeps.then (State.emit_keeps ..) rfl ?_
    exact Keeps.refl _ _

theorem execDelayReqInterval_keeps (e s) : Answers [.out, .tim] s (execDelayReqInterval e s) := by
  unfold execDelayReqInterval
  extract_lets x1 x2 x3 x4
  refine Answers.ite ?_ ?_
  · refine Answers.next ?_
    exact Keeps.refl _ _
  · refine Answers.next ?_
    refine Keeps.then (State.emit_keeps ..) rfl ?_
    refine Keeps.then (State.setPtp_keeps ..) rfl ?_
    exact Keeps.refl _ _

theorem execDelayResp_keeps (e m s) : Answers [.tim] s (execDelayResp e m s) := by
  unfold execDelayResp
  extract_lets x1
  refine Answers.ite ?_ ?_
  · refine Answers.next ?_
    exact Keeps.refl _ _
  · split
    · rename_i y2 y3 y4 y5 y6 y7 y8
      refine Answers.next ?_
      refine Keeps.then (State.setPtp_keeps ..) rfl ?_
      exact Keeps.refl _ _
    · rename_i y9 y10 y11
      refine Answers.next ?_
      exact Keeps.refl _ _

theorem execDepthUpdate_keeps (s) : Answers [.regs, .evt] s (execDepthUpdate s) := by
  unfold execDepthUpdate
  split
  · rename_i y1 y2 y3 y4 y5 y6 y7
    extract_lets x8 x9 x10 x11
    have k12 : Keeps [.regs, .evt] s x11 := by
      unfold x11
      refine Keeps.then (State.setFlag_keeps ..) rfl ?_
      refine Keeps.then (State.setFld_keeps ..) rfl ?_
      exact Keeps.refl _ _
    clear_value x11
    refine Answers.next ?_
    refine Keeps.ite ?_ ?_
    · refine Keeps.then (State.cmpFire_keeps ..) rfl ?_
      exact k12
    · exact k12
  · rename_i y13 y14 y15
    refine Answers.next ?_
    exact Keeps.refl _ _

theorem execDeratingEvaluation_keeps (mv s) : Answers [.regs, .axes, .evt] s (execDeratingEvaluation mv s) := by
  unfold execDeratingEvaluation
  extract_lets x1 x2
  have k3 : Keeps [.regs, .axes, .evt] s x2 := by
    unfold x2
    refine Keeps.then (State.setFld_keeps ..) rfl ?_
    exact Keeps.refl _ _
  clear_value x2
  refine Answers.ite ?_ ?_
  · refine Answers.next ?_
    exact Keeps.refl _ _
  · refine Answers.ite ?_ ?_
    · refine Answers.next ?_
      refine Keeps.then (State.limitAxes_keeps ..) rfl ?_
      refine Keeps.then (State.fireIf_keeps ..) rfl ?_
      refine Keeps.then (State.setFld_keeps ..) rfl ?_
      exact k3
    · refine Answers.ite ?_ ?_
      · refine Answers.next ?_
        refine Keeps.then (State.limitAxes_keeps ..) rfl ?_
        refine Keeps.then (State.setFld_keeps ..) rfl ?_
        exact k3
      · refine Answers.next ?_
        exact k3

theorem execDescriptorFetch_keeps (n descs s) : Answers [.out, .regs, .jobs, .jnl, .sess, .evt] s (execDescriptorFetch n descs s) := by
  unfold execDescriptorFetch
  split
  · rename_i y1 y2
    refine Answers.next ?_
    exact Keeps.refl _ _
  · rename_i y3 y4 y5 y6
    extract_lets x7 x8 x9
    have k10 : Keeps [.out, .regs, .jobs, .jnl, .sess, .evt] s x7 := by
      unfold x7
      refine Keeps.then (State.setOps_keeps ..) rfl ?_
      exact Keeps.refl _ _
    clear_value x7
    have k11 : Keeps [.out, .regs, .jobs, .jnl, .sess, .evt] s x9 := by
      unfold x9
      refine Keeps.then (State.setSession_keeps ..) rfl ?_
      exact k10
    clear_value x9
    unfold outcomeOf
    split
    · rename_i y12 y13 y14
      refine Answers.next ?_
      beta_reduce
      refine Keeps.then (State.fetchEnd_keeps ..) rfl ?_
      have k15 := State.acceptAll_keeps _ _ _ _ y14
      refine Keeps.then k15 rfl ?_
      exact k11
    · rename_i y16 y17 y18
      exact Answers.fault

theorem execDescriptorRefetch_keeps (n desc s) : Answers [.out, .regs, .jobs, .jnl, .sess, .evt] s (execDescriptorRefetch n desc s) := by
  unfold execDescriptorRefetch
  split
  · rename_i y1 y2
    refine Answers.next ?_
    exact Keeps.refl _ _
  · rename_i y3 y4 y5
    extract_lets x6 x7 x8 x9 x10 x11 x12
    have k13 : Keeps [.out, .regs, .jobs, .jnl, .sess, .evt] s x7.1 := by
      unfold x7
      refine Keeps.then (State.hostRead_keeps ..) rfl ?_
      exact Keeps.refl _ _
    clear_value x7
    have k14 : Keeps [.out, .regs, .jobs, .jnl, .sess, .evt] s x8 := by
      unfold x8
      refine Keeps.then (State.setOps_keeps ..) rfl ?_
      exact k13
    clear_value x8
    have k15 : Keeps [.out, .regs, .jobs, .jnl, .sess, .evt] s x11 := by
      unfold x11
      refine Keeps.then (State.setSession_keeps ..) rfl ?_
      exact k14
    clear_value x11
    refine Answers.ite ?_ ?_
    · refine Answers.next ?_
      exact Keeps.refl _ _
    · split
      · rename_i y16 y17 y18
        refine Answers.next ?_
        refine Keeps.then (State.stopRings_keeps ..) rfl ?_
        exact k13
      · rename_i y19 y20
        refine Answers.ite ?_ ?_
        · unfold outcomeOf
          split
          · rename_i y21 y22 y23
            refine Answers.next ?_
            beta_reduce
            refine Keeps.then (State.fetchEnd_keeps ..) rfl ?_
            have k24 := State.acceptAll_keeps _ _ _ _ y23
            refine Keeps.then k24 rfl ?_
            exact k15
          · rename_i y25 y26 y27
            exact Answers.fault
        · refine Answers.ite ?_ ?_
          · refine Answers.next ?_
            refine Keeps.then (State.fetchEnd_keeps ..) rfl ?_
            refine Keeps.then (State.acceptDesc_keeps ..) rfl ?_
            exact k15
          · refine Answers.next ?_
            refine Keeps.then (State.setSession_keeps ..) rfl ?_
            exact k15

end Sys2Proof.Machine
end

