-- ==== Sys2Proof/Laws/KeepsOps4.lean ====
section
/-! SUPPORT. What each operation and each command's meaning may change, one lemma each, part 4 of 4: an operation
stands after the operations it uses. -/

namespace Sys2Proof.Machine

open Sys2Proof.Safety

set_option maxRecDepth 10000

theorem execDiscoverRetry_keeps (p s) : Answers [.out, .regs, .ports, .jnl, .sess, .evt, .cal] s (execDiscoverRetry p s) := by
  unfold execDiscoverRetry
  refine Answers.next ?_
  refine Keeps.ite ?_ ?_
  · refine Keeps.then (State.discover_keeps ..) rfl ?_
    exact Keeps.refl _ _
  · exact Keeps.refl _ _

theorem execDomainWake_keeps (d ns s) : Answers [.regs, .evt] s (execDomainWake d ns s) := by
  unfold execDomainWake
  extract_lets x1
  have k2 : Keeps [.regs, .evt] s x1 := by
    unfold x1
    refine Keeps.ite ?_ ?_
    · refine Keeps.then (State.setDomain_keeps ..) rfl ?_
      exact Keeps.refl _ _
    · exact Keeps.refl _ _
  clear_value x1
  refine Answers.ite ?_ ?_
  · refine Answers.next ?_
    exact Keeps.refl _ _
  · refine Answers.next ?_
    split
    · rename_i y3 y4
      exact k2
    · rename_i y5 y6 y7
      refine Keeps.ite ?_ ?_
      · refine Keeps.then (State.fire_keeps ..) rfl ?_
        refine Keeps.then (State.bump_keeps ..) rfl ?_
        exact k2
      · exact k2

theorem execDoorbell_keeps (f s) : Answers [.out, .regs, .jnl, .sess, .evt, .pwr, .statHeld] s (execDoorbell f s) := by
  unfold execDoorbell
  refine State.mgmtType_keeps rfl ?_ ?_
  · exact Keeps.refl _ _
  · intro a1 a2 a3 a4 a5
    refine Gives.ite ?_ ?_
    · refine Gives.ok ?_
      dsimp -zeta only
      exact a5
    · refine Gives.ok ?_
      dsimp -zeta only
      refine Keeps.then (State.doorbell_keeps ..) rfl ?_
      exact a5

theorem execDrainTimeout_keeps (s) : Answers [.freeIdx, .out, .regs, .ctxs, .jobs, .seam, .pen, .jnl, .ovw, .tim, .fab, .axes, .evt,
    .pwr] s (execDrainTimeout s) := by
  unfold execDrainTimeout
  extract_lets x1 x2
  have k3 : Keeps [.freeIdx, .out, .regs, .ctxs, .jobs, .seam, .pen, .jnl, .ovw, .tim, .fab, .axes, .evt, .pwr] s x1 := by
    unfold x1
    refine Keeps.ite ?_ ?_
    · refine Keeps.then (State.gateAll_keeps ..) rfl ?_
      exact Keeps.refl _ _
    · exact Keeps.refl _ _
  clear_value x1
  refine Answers.ite ?_ ?_
  · refine Answers.next ?_
    exact Keeps.refl _ _
  · refine Answers.next ?_
    refine Keeps.set_pwr rfl ?_
    exact k3

theorem execDramTemperatureRead_keeps (dies s) : Answers [.regs, .mem, .evt] s (execDramTemperatureRead dies s) := by
  unfold execDramTemperatureRead
  extract_lets x1 x2 x3 x4 x5 x6
  have k7 : Keeps [.regs, .mem, .evt] s x1 := by
    unfold x1
    refine Keeps.foldl ?_ ?_
    · exact Keeps.refl _ _
    · intro u8 e9 k10
      refine Keeps.then (State.mcTemp_keeps ..) rfl ?_
      exact k10
  clear_value x1
  have k11 : Keeps [.regs, .mem, .evt] s x4 := by
    unfold x4
    refine Keeps.ite ?_ ?_
    · refine Keeps.set_mem rfl ?_
      exact k7
    · exact k7
  clear_value x4
  refine Answers.next ?_
  refine Keeps.set_mem rfl ?_
  exact k11

theorem execDramTrainingDone_keeps (m width height vref s) : Answers [.out, .regs, .jnl, .mem, .sess, .evt,
    .cal] s (execDramTrainingDone m width height vref s) := by
  unfold execDramTrainingDone
  extract_lets x1
  have k2 : Keeps [.out, .regs, .jnl, .mem, .sess, .evt, .cal] s x1 := by
    unfold x1
    refine Keeps.then (State.setFldInt_keeps ..) rfl ?_
    refine Keeps.then (State.setFld_keeps ..) rfl ?_
    refine Keeps.then (State.setFld_keeps ..) rfl ?_
    exact Keeps.refl _ _
  clear_value x1
  refine Answers.ite ?_ ?_
  · refine Answers.next ?_
    exact Keeps.refl _ _
  · refine Answers.ite ?_ ?_
    · refine Answers.next ?_
      refine Keeps.then (State.calTrained_keeps ..) rfl ?_
      refine Keeps.then (State.mcService_keeps ..) rfl ?_
      refine Keeps.then (State.modMc_keeps ..) rfl ?_
      exact k2
    · refine Answers.ite ?_ ?_
      · refine Answers.next ?_
        refine Keeps.then (State.calTrained_keeps ..) rfl ?_
        refine Keeps.then (State.mcService_keeps ..) rfl ?_
        exact Keeps.refl _ _
      · refine Answers.next ?_
        refine Keeps.then (State.calTrained_keeps ..) rfl ?_
        refine Keeps.then (State.mcService_keeps ..) rfl ?_
        refine Keeps.then (State.modMc_keeps ..) rfl ?_
        exact Keeps.refl _ _

theorem execDsc_keeps (p role _seq s) : Answers [.regs, .ports] s (execDsc p role _seq s) := by
  unfold execDsc
  extract_lets x1 x2
  have k3 : Keeps [.regs, .ports] s x2 := by
    unfold x2
    refine Keeps.then (State.modPort_keeps ..) rfl ?_
    exact Keeps.refl _ _
  clear_value x2
  refine Answers.ite ?_ ?_
  · refine Answers.next ?_
    exact Keeps.refl _ _
  · refine Answers.ite ?_ ?_
    · refine Answers.next ?_
      refine Keeps.then (State.modPort_keeps ..) rfl ?_
      exact Keeps.refl _ _
    · refine Answers.next ?_
      refine Keeps.ite ?_ ?_
      · refine Keeps.then (State.setFld_keeps ..) rfl ?_
        exact k3
      · exact k3

theorem execDscInterval_keeps (p s) : Answers [.out, .ports] s (execDscInterval p s) := by
  unfold execDscInterval
  extract_lets x1
  refine Answers.ite ?_ ?_
  · refine Answers.next ?_
    refine Keeps.then (State.modPort_keeps ..) rfl ?_
    refine Keeps.then (State.emit_keeps ..) rfl ?_
    exact Keeps.refl _ _
  · refine Answers.next ?_
    exact Keeps.refl _ _

theorem execDuskDrainEnd_keeps (s) : Answers allParts s (execDuskDrainEnd s) := by
  unfold execDuskDrainEnd
  extract_lets x1 x2 x3
  have k4 : Keeps allParts s x1 := by
    unfold x1
    refine Keeps.ite ?_ ?_
    · refine Keeps.then (State.gateAll_keeps ..) rfl ?_
      exact Keeps.refl _ _
    · exact Keeps.refl _ _
  have k5 : Keeps allParts s x3 := by
    unfold x3
    refine Keeps.then (State.drainPennants_keeps ..) rfl ?_
    refine Keeps.set_pwr rfl ?_
    exact k4
  refine Answers.ite ?_ ?_
  · refine Answers.next ?_
    exact Keeps.refl _ _
  · refine Answers.ite ?_ ?_
    · refine Answers.next ?_
      refine Keeps.then (State.duskEnd_keeps ..) rfl ?_
      exact Keeps.refl _ _
    · refine Answers.ite ?_ ?_
      · refine Answers.next ?_
        exact Keeps.refl _ _
      · refine Answers.next ?_
        refine Keeps.ite ?_ ?_
        · refine Keeps.then (State.duskEnd_keeps ..) rfl ?_
          exact k5
        · exact k5

theorem execEinEdge_keeps (p level s) : Answers [.freeIdx, .out, .regs, .jnl, .sess, .evt, .cal, .pwr] s (execEinEdge p level s) := by
  unfold execEinEdge
  extract_lets x1 x2 x3
  have k4 : Keeps [.freeIdx, .out, .regs, .jnl, .sess, .evt, .cal, .pwr] s x3 := by
    unfold x3
    refine Keeps.set_evt rfl ?_
    exact Keeps.refl _ _
  clear_value x3
  refine Answers.next ?_
  refine Keeps.ite ?_ ?_
  · refine Keeps.then (State.asymEdge_keeps ..) rfl ?_
    refine Keeps.then (State.asymEdge_keeps ..) rfl ?_
    exact k4
  · exact k4

theorem execEncoderClear_keeps (n idx s) : Answers [.out, .regs, .jnl, .sess, .encs, .evt] s (execEncoderClear n idx s) := by
  unfold execEncoderClear
  refine Answers.next ?_
  refine State.runDesc_keeps rfl ?_ ?_
  · exact Keeps.refl _ _
  · intro a1 a2 a3
    refine Keeps.then (encoderClearEffect_keeps ..) rfl ?_
    exact a3

theorem execEncoderEdge_keeps (k a b z s) : Answers allParts s (execEncoderEdge k a b z s) := by
  unfold execEncoderEdge
  extract_lets x1 x2 x3 x4 x5
  have k6 : Keeps allParts s x3 := by
    unfold x3
    refine Keeps.then (State.setEnc_keeps ..) rfl ?_
    exact Keeps.refl _ _
  clear_value x3
  refine Answers.next ?_
  clear_value x2
  split
  · rename_i y7
    exact k6
  · rename_i y8 y9
    extract_lets x10 x11 x12
    have k13 : Keeps allParts s x11 := by
      unfold x11
      refine Keeps.then (State.encDirection_keeps ..) rfl ?_
      exact k6
    clear_value x11
    have k14 : Keeps allParts s x12 := by
      unfold x12
      refine Keeps.ite ?_ ?_
      · refine Keeps.then (State.encCount_keeps ..) rfl ?_
        exact k13
      · exact k13
    clear_value x12
    refine Keeps.ite ?_ ?_
    · refine Keeps.then (State.aoCount_keeps ..) rfl ?_
      exact k14
    · exact k14
  · rename_i y15 y16 y17
    extract_lets x18
    have k19 : Keeps allParts s x18 := by
      unfold x18
      refine Keeps.ite ?_ ?_
      · refine Keeps.then (State.encGuess_keeps ..) rfl ?_
        exact k6
      · refine Keeps.then (State.encIllegal_keeps ..) rfl ?_
        exact k6
    clear_value x18
    refine Keeps.ite ?_ ?_
    · refine Keeps.then (State.aoCount_keeps ..) rfl ?_
      exact k19
    · exact k19
  · rename_i y20
    refine Keeps.then (State.encInvalid_keeps ..) rfl ?_
    exact k6

theorem execEngineLoss_keeps (g s) : Answers [.out, .regs, .ctxs, .ring, .jnl, .pln, .sess, .evt, .pwr] s (execEngineLoss g s) := by
  unfold execEngineLoss
  extract_lets x1 x2 x3
  have k4 : Keeps [.out, .regs, .ctxs, .ring, .jnl, .pln, .sess, .evt, .pwr] s x2 := by
    unfold x2
    refine Keeps.then (State.setDomain_keeps ..) rfl ?_
    refine Keeps.set_pwr rfl ?_
    exact Keeps.refl _ _
  clear_value x2
  refine Answers.ite ?_ ?_
  · refine Answers.next ?_
    exact Keeps.refl _ _
  · refine Answers.next ?_
    refine Keeps.foldl ?_ ?_
    · refine Keeps.then (State.cmpFire_keeps ..) rfl ?_
      refine Keeps.then (State.catalogue_keeps ..) rfl ?_
      exact k4
    · intro u5 e6 k7
      refine Keeps.then (State.linesSkip_keeps ..) rfl ?_
      exact k7

theorem execEnsign_keeps (e bytes s) : Answers [.out, .regs, .seam, .fab, .evt] s (execEnsign e bytes s) := by
  unfold execEnsign
  refine Answers.ite ?_ ?_
  · refine Answers.next ?_
    exact Keeps.refl _ _
  · refine Answers.ite ?_ ?_
    · refine Answers.next ?_
      refine Keeps.then (State.ringFound_keeps ..) rfl ?_
      exact Keeps.refl _ _
    · refine Answers.ite ?_ ?_
      · refine Answers.next ?_
        exact Keeps.refl _ _
      · refine Answers.next ?_
        refine Keeps.then (State.ensignForward_keeps ..) rfl ?_
        refine Keeps.then (State.ensignHeard_keeps ..) rfl ?_
        exact Keeps.refl _ _

theorem execEnsignAbsence_keeps (serial s) : Answers [.regs, .fab, .evt] s (execEnsignAbsence serial s) := by
  unfold execEnsignAbsence
  extract_lets x1
  have k2 : Keeps [.regs, .fab, .evt] s x1 := by
    unfold x1
    refine Keeps.then (State.peerGone_keeps ..) rfl ?_
    exact Keeps.refl _ _
  clear_value x1
  refine Answers.ite ?_ ?_
  · refine Answers.next ?_
    exact Keeps.refl _ _
  · refine Answers.next ?_
    refine Keeps.ite ?_ ?_
    · refine Keeps.then (State.takeRole_keeps ..) rfl ?_
      exact k2
    · exact k2

theorem execEnsignInterval_keeps (s) : Answers [.out, .regs, .fab] s (execEnsignInterval s) := by
  unfold execEnsignInterval
  extract_lets x1 x2
  have k3 : Keeps [.out, .regs, .fab] s x2 := by
    unfold x2
    refine Keeps.then (State.countModules_keeps ..) rfl ?_
    refine Keeps.set_fab rfl ?_
    exact Keeps.refl _ _
  clear_value x2
  refine Answers.ite ?_ ?_
  · refine Answers.next ?_
    exact Keeps.refl _ _
  · refine Answers.next ?_
    refine Keeps.foldl ?_ ?_
    · exact k3
    · intro u4 e5 k6
      refine Keeps.ite ?_ ?_
      · refine Keeps.then (State.emit_keeps ..) rfl ?_
        exact k6
      · exact k6

theorem execEventDelivery_keeps (v s) : Answers [.out, .regs, .jnl, .sess, .tim, .axes, .evt] s (execEventDelivery v s) := by
  unfold execEventDelivery
  split
  · rename_i y1 y2
    refine Answers.next ?_
    exact Keeps.refl _ _
  · rename_i y3 y4 y5
    extract_lets x6 x7 x8 x9 x10 x11
    have k12 : Keeps [.out, .regs, .jnl, .sess, .tim, .axes, .evt] s x9 := by
      unfold x9
      refine Keeps.set_evt rfl ?_
      exact Keeps.refl _ _
    clear_value x9
    have k13 : Keeps [.out, .regs, .jnl, .sess, .tim, .axes, .evt] s x11 := by
      unfold x11
      refine Keeps.foldl ?_ ?_
      · exact k12
      · intro u14 e15 k16
        refine Keeps.then (State.loopDrop_keeps ..) rfl ?_
        exact k16
    clear_value x11
    split
    · rename_i y17 y18
      refine Answers.next ?_
      exact k13
    · rename_i y19 y20 y21 y22
      refine Answers.next ?_
      refine Keeps.then (State.deliver_keeps ..) rfl ?_
      exact k13

theorem execExportJob_keeps (s idx st) : Answers [.out, .regs, .jobs, .jnl, .sess, .evt] st (execExportJob s idx st) := by
  unfold execExportJob
  refine Answers.next ?_
  refine State.runDesc_keeps rfl ?_ ?_
  · exact Keeps.refl _ _
  · intro a1 a2 a3
    split
    · rename_i y4 y5 y6
      refine Keeps.then (State.badParam_keeps ..) rfl ?_
      exact a3
    · rename_i y7 y8
      extract_lets x9
      refine Keeps.ite ?_ ?_
      · refine Keeps.then (State.wrongState_keeps ..) rfl ?_
        exact a3
      · refine Keeps.then (State.addJob_keeps ..) rfl ?_
        exact a3

theorem execExtensionRead_keeps (k s) : Answers [.regs, .encs] s (execExtensionRead k s) := by
  unfold execExtensionRead
  extract_lets x1 x2
  refine Answers.ite ?_ ?_
  · refine Answers.next ?_
    exact Keeps.refl _ _
  · refine Answers.next ?_
    refine Keeps.then (State.setInt64_keeps ..) rfl ?_
    refine Keeps.then (State.setEnc_keeps ..) rfl ?_
    exact Keeps.refl _ _

theorem fabricEffect_keeps (n d s) : Keeps [.out, .regs, .jnl, .sess, .fab, .evt] s (fabricEffect n d s) := by
  unfold fabricEffect
  split
  · rename_i y1 y2
    extract_lets x3 x4 x5
    have k6 : Keeps [.out, .regs, .jnl, .sess, .fab, .evt] s x4 := by
      unfold x4
      refine Keeps.set_fab rfl ?_
      exact Keeps.refl _ _
    have k7 : Keeps [.out, .regs, .jnl, .sess, .fab, .evt] s x5 := by
      unfold x5
      refine Keeps.ite ?_ ?_
      · refine Keeps.then (State.setFld_keeps ..) rfl ?_
        exact k6
      · exact k6
    clear_value x5
    refine Keeps.then (State.doneDesc_keeps ..) rfl ?_
    exact k7
  · rename_i y8 y9
    extract_lets x10
    have k11 : Keeps [.out, .regs, .jnl, .sess, .fab, .evt] s x10 := by
      unfold x10
      refine Keeps.ite ?_ ?_
      · refine Keeps.then (State.fabDiscover_keeps ..) rfl ?_
        exact Keeps.refl _ _
      · exact Keeps.refl _ _
    clear_value x10
    refine Keeps.then (State.doneDesc_keeps ..) rfl ?_
    exact k11
  · rename_i y12 y13 y14
    refine Keeps.then (State.badParam_keeps ..) rfl ?_
    exact Keeps.refl _ _

theorem execFabric_keeps (n idx s) : Answers [.out, .regs, .jnl, .sess, .fab, .evt] s (execFabric n idx s) := by
  unfold execFabric
  extract_lets x1
  refine Answers.ite ?_ ?_
  · exact Answers.fault
  · refine Answers.next ?_
    refine State.runDesc_keeps rfl ?_ ?_
    · exact Keeps.refl _ _
    · intro a2 a3 a4
      refine Keeps.then (fabricEffect_keeps ..) rfl ?_
      exact a4

theorem execFabricMessageForward_keeps (e bytes s) : Answers [.out, .regs] s (execFabricMessageForward e bytes s) := by
  unfold execFabricMessageForward
  extract_lets x1 x2
  refine Answers.ite ?_ ?_
  · refine Answers.next ?_
    exact Keeps.refl _ _
  · refine Answers.next ?_
    refine Keeps.then (State.bump_keeps ..) rfl ?_
    refine Keeps.then (State.emit_keeps ..) rfl ?_
    exact Keeps.refl _ _

theorem execFabricRetransmit_keeps (dest type seq s) : Answers [.out, .regs, .tim] s (execFabricRetransmit dest type seq s) := by
  unfold execFabricRetransmit
  split
  · rename_i y1 y2
    refine Answers.next ?_
    exact Keeps.refl _ _
  · rename_i y3 y4 y5
    refine Answers.ite ?_ ?_
    · refine Answers.next ?_
      exact Keeps.refl _ _
    · refine Answers.next ?_
      refine Keeps.then (State.bump_keeps ..) rfl ?_
      refine Keeps.then (State.fabEmit_keeps ..) rfl ?_
      exact Keeps.refl _ _

theorem execFallbackCompiled_keeps (n plan tenMs s) : Answers [.out, .regs, .pln, .sess,
    .evt] s (execFallbackCompiled n plan tenMs s) := by
  unfold execFallbackCompiled
  refine Answers.ite ?_ ?_
  · refine Answers.next ?_
    exact Keeps.refl _ _
  · refine Answers.next ?_
    refine Keeps.then (State.setFld_keeps ..) rfl ?_
    refine Keeps.then (State.fallbackDone_keeps ..) rfl ?_
    exact Keeps.refl _ _

theorem execFallbackLoadDone_keeps (s) : Answers [.pln] s (execFallbackLoadDone s) := by
  unfold execFallbackLoadDone
  split
  · rename_i y1 y2
    refine Answers.next ?_
    exact Keeps.refl _ _
  · rename_i y3 y4 y5
    extract_lets x6
    refine Answers.next ?_
    refine Keeps.ite ?_ ?_
    · refine Keeps.set_pln rfl ?_
      exact Keeps.refl _ _
    · exact Keeps.refl _ _

theorem execFallbackSwitch_keeps (s) : Answers [.freeIdx, .out, .regs, .ports, .ctxs, .slices, .coders, .ring, .jobs, .seam, .pen,
    .jnl, .ovw, .mem, .pln, .sess, .tim, .fab, .encs, .dividers, .axes, .evt, .cal, .pwr] s (execFallbackSwitch s) := by
  unfold execFallbackSwitch
  split
  · rename_i y1 y2
    refine Answers.next ?_
    exact Keeps.refl _ _
  · rename_i y3 y4 y5
    refine Answers.ite ?_ ?_
    · refine Answers.next ?_
      exact Keeps.refl _ _
    · split
      · rename_i y6 y7
        refine Answers.next ?_
        exact Keeps.refl _ _
      · rename_i y8 y9 y10
        extract_lets x11 x12 x13 x14
        have k15 : Keeps [.freeIdx, .out, .regs, .ports, .ctxs, .slices, .coders, .ring, .jobs, .seam, .pen, .jnl, .ovw, .mem, .pln,
            .sess, .tim, .fab, .encs, .dividers, .axes, .evt, .cal, .pwr] s x11 := by
          unfold x11
          refine Keeps.then (State.fallbackLive_keeps ..) rfl ?_
          exact Keeps.refl _ _
        clear_value x11
        have k16 : Keeps [.freeIdx, .out, .regs, .ports, .ctxs, .slices, .coders, .ring, .jobs, .seam, .pen, .jnl, .ovw, .mem, .pln,
            .sess, .tim, .fab, .encs, .dividers, .axes, .evt, .cal, .pwr] s x14 := by
          unfold x14
          refine Keeps.set_pln rfl ?_
          exact k15
        clear_value x14
        refine Answers.next ?_
        clear_value x12
        split
        · rename_i y17
          exact k16
        · rename_i y18 y19 y20
          extract_lets x21 x22
          have k23 : Keeps [.freeIdx, .out, .regs, .ports, .ctxs, .slices, .coders, .ring, .jobs, .seam, .pen, .jnl, .ovw, .mem, .pln,
              .sess, .tim, .fab, .encs, .dividers, .axes, .evt, .cal, .pwr] s x21 := by
            unfold x21
            refine Keeps.then (State.planFault_keeps ..) rfl ?_
            exact k16
          clear_value x21
          refine Keeps.set_pln rfl ?_
          exact k23

theorem execFence_keeps (n idx s) : Answers [.out, .regs, .jnl, .sess, .evt] s (execFence n idx s) := by
  unfold execFence
  refine Answers.next ?_
  refine State.runDesc_keeps rfl ?_ ?_
  · exact Keeps.refl _ _
  · intro a1 a2 a3
    extract_lets x4
    refine Keeps.ite ?_ ?_
    · refine Keeps.then (State.badParam_keeps ..) rfl ?_
      exact a3
    · split
      · rename_i y5 y6
        refine Keeps.then (State.wrongState_keeps ..) rfl ?_
        exact a3
      · rename_i y7 y8 y9
        extract_lets x10 x11
        have k12 : Keeps [.out, .regs, .jnl, .sess, .evt] s x10 := by
          unfold x10
          refine Keeps.then (State.setWindow_keeps ..) rfl ?_
          exact a3
        clear_value x10
        refine Keeps.then (State.setSession_keeps ..) rfl ?_
        exact k12

theorem execFenceDone_keeps (n w s) : Answers [.out, .regs, .jnl, .sess, .evt] s (execFenceDone n w s) := by
  unfold execFenceDone
  extract_lets x1 x2 x3
  have k4 : Keeps [.out, .regs, .jnl, .sess, .evt] s x3 := by
    unfold x3
    refine Keeps.then (State.setSession_keeps ..) rfl ?_
    exact Keeps.refl _ _
  clear_value x3
  refine Answers.ite ?_ ?_
  · refine Answers.next ?_
    exact Keeps.refl _ _
  · refine Answers.next ?_
    refine Keeps.foldl ?_ ?_
    · exact k4
    · intro u5 e6 k7
      refine Keeps.then (State.fire_keeps ..) rfl ?_
      refine Keeps.then (State.finishDesc_keeps ..) rfl ?_
      exact k7

theorem execFifoPeakClear_keeps (c v s) : Answers [.regs] s (execFifoPeakClear c v s) := by
  unfold execFifoPeakClear
  refine Answers.next ?_
  refine Keeps.ite ?_ ?_
  · refine Keeps.then (State.setFld_keeps ..) rfl ?_
    exact Keeps.refl _ _
  · exact Keeps.refl _ _

theorem execFlatFieldDone_keeps (c s) : Answers [.freeIdx, .out, .regs, .jnl, .sess, .evt, .cal] s (execFlatFieldDone c s) := by
  unfold execFlatFieldDone
  split
  · rename_i y1 y2
    refine Answers.next ?_
    exact Keeps.refl _ _
  · rename_i y3 y4 y5
    refine Answers.next ?_
    refine Keeps.ite ?_ ?_
    · refine Keeps.then (State.flatResult_keeps ..) rfl ?_
      exact Keeps.refl _ _
    · exact Keeps.refl _ _

theorem execFlushTimer_keeps (c s) : Answers [.regs, .ctxs, .slices, .evt] s (execFlushTimer c s) := by
  unfold execFlushTimer
  extract_lets x1 x2 x3
  have k4 : Keeps [.regs, .ctxs, .slices, .evt] s x3 := by
    unfold x3
    refine Keeps.then (State.rebase_keeps ..) rfl ?_
    exact Keeps.refl _ _
  clear_value x3
  refine Answers.ite ?_ ?_
  · refine Answers.next ?_
    exact Keeps.refl _ _
  · refine Answers.next ?_
    split
    · rename_i y5 y6 y7
      refine Keeps.ite ?_ ?_
      · refine Keeps.then (State.wakeSlice_keeps ..) rfl ?_
        exact k4
      · exact k4
    · rename_i y8 y9
      exact k4

theorem execFollowUp_keeps (e m s) : Answers [.freeIdx, .out, .regs, .jnl, .sess, .tim, .evt, .cal] s (execFollowUp e m s) := by
  unfold execFollowUp
  refine Answers.ite ?_ ?_
  · refine Answers.next ?_
    exact Keeps.refl _ _
  · split
    · rename_i y1 y2
      refine Answers.next ?_
      exact Keeps.refl _ _
    · rename_i y3 y4 y5
      refine Answers.ite ?_ ?_
      · refine Answers.next ?_
        refine Keeps.then (State.syncDone_keeps ..) rfl ?_
        exact Keeps.refl _ _
      · refine Answers.next ?_
        exact Keeps.refl _ _

theorem execFomLow_keeps (p s) : Answers [.regs, .evt] s (execFomLow p s) := by
  unfold execFomLow
  extract_lets x1
  refine Answers.next ?_
  refine Keeps.then (State.fireIf_keeps ..) rfl ?_
  exact Keeps.refl _ _

theorem frameLaunchEffect_keeps (n d s) : Keeps [.out, .regs, .jnl, .sess, .evt] s (frameLaunchEffect n d s) := by
  unfold frameLaunchEffect
  extract_lets x1 x2 x3
  refine Keeps.ite ?_ ?_
  · refine Keeps.then (State.badParam_keeps ..) rfl ?_
    exact Keeps.refl _ _
  · refine Keeps.ite ?_ ?_
    · refine Keeps.then (State.badParam_keeps ..) rfl ?_
      exact Keeps.refl _ _
    · refine Keeps.ite ?_ ?_
      · refine Keeps.then (State.badParam_keeps ..) rfl ?_
        exact Keeps.refl _ _
      · split
        · rename_i y4 y5
          refine Keeps.then (State.claimFail_keeps ..) rfl ?_
          exact Keeps.refl _ _
        · rename_i y6 y7 y8
          split
          · rename_i y9 y10 y11
            refine Keeps.then (State.launchBad_keeps ..) rfl ?_
            have k12 := State.tryClaim_keeps _ _ _ _ _ y8
            refine Keeps.then k12 rfl ?_
            exact Keeps.refl _ _
          · rename_i y13 y14
            refine Keeps.then (State.loadRead_keeps ..) rfl ?_
            have k15 := State.tryClaim_keeps _ _ _ _ _ y8
            refine Keeps.then k15 rfl ?_
            exact Keeps.refl _ _

theorem execFrameLaunch_keeps (n idx s) : Answers [.out, .regs, .jnl, .sess, .evt] s (execFrameLaunch n idx s) := by
  unfold execFrameLaunch
  refine Answers.next ?_
  refine State.runDesc_keeps rfl ?_ ?_
  · exact Keeps.refl _ _
  · intro a1 a2 a3
    refine Keeps.then (frameLaunchEffect_keeps ..) rfl ?_
    exact a3

theorem execFrameLaunchTime_keeps (e q s) : Answers [.out, .regs, .jnl, .sess, .eths, .tim, .evt] s (execFrameLaunchTime e q s) := by
  unfold execFrameLaunchTime
  split
  · rename_i y1 y2
    refine Answers.next ?_
    exact Keeps.refl _ _
  · rename_i y3 y4 y5 y6
    extract_lets x7 x8 x9 x10 x11 x12 x13
    have k14 : Keeps [.out, .regs, .jnl, .sess, .eths, .tim, .evt] s x10 := by
      unfold x10
      refine Keeps.then (State.setEth_keeps ..) rfl ?_
      refine Keeps.then (State.setQueue_keeps ..) rfl ?_
      exact Keeps.refl _ _
    clear_value x10
    have k15 : Keeps [.out, .regs, .jnl, .sess, .eths, .tim, .evt] s x11 := by
      unfold x11
      refine Keeps.then (State.launchOut_keeps ..) rfl ?_
      exact k14
    clear_value x11
    have k16 : Keeps [.out, .regs, .jnl, .sess, .eths, .tim, .evt] s x12 := by
      unfold x12
      refine Keeps.ite ?_ ?_
      · refine Keeps.then (State.fire_keeps ..) rfl ?_
        refine Keeps.then (State.bump_keeps ..) rfl ?_
        exact k15
      · exact k15
    clear_value x12
    have k17 : Keeps [.out, .regs, .jnl, .sess, .eths, .tim, .evt] s x13 := by
      unfold x13
      refine Keeps.then (State.fire_keeps ..) rfl ?_
      exact k16
    clear_value x13
    refine Answers.ite ?_ ?_
    · refine Answers.next ?_
      exact Keeps.refl _ _
    · refine Answers.next ?_
      refine Keeps.ite ?_ ?_
      · refine Keeps.then (State.finishDesc_keeps ..) rfl ?_
        exact k17
      · exact k17

theorem execFresetHold_keeps (ms s) : Answers [.regs, .sess, .pwr] s (execFresetHold ms s) := by
  unfold execFresetHold
  extract_lets x1 x2 x3 x4
  have k5 : Keeps [.regs, .sess, .pwr] s x3 := by
    unfold x3
    refine Keeps.set_pwr rfl ?_
    exact Keeps.refl _ _
  clear_value x3
  have k6 : Keeps [.regs, .sess, .pwr] s x4 := by
    unfold x4
    refine Keeps.then (State.setFld_keeps ..) rfl ?_
    exact k5
  clear_value x4
  refine Answers.ite ?_ ?_
  · refine Answers.next ?_
    refine Keeps.foldl ?_ ?_
    · exact k6
    · intro u7 e8 k9
      extract_lets x10
      refine Keeps.then (State.setFld_keeps ..) rfl ?_
      refine Keeps.then (State.set64_keeps ..) rfl ?_
      refine Keeps.then (State.setSession_keeps ..) rfl ?_
      exact k9
  · refine Answers.next ?_
    exact Keeps.refl _ _

theorem execFrontEndLine_keeps (c s) : Answers [.out, .regs, .ctxs, .slices, .jnl, .sess, .evt, .cal,
    .statHeld] s (execFrontEndLine c s) := by
  unfold execFrontEndLine
  split
  · rename_i y1 y2 y3 y4 y5 y6
    refine Answers.ite ?_ ?_
    · refine Answers.next ?_
      exact Keeps.refl _ _
    · split
      · rename_i y7 y8
        refine Answers.next ?_
        exact Keeps.refl _ _
      · rename_i y9 y10 y11 y12
        extract_lets x13 x14
        have k15 : Keeps [.out, .regs, .ctxs, .slices, .jnl, .sess, .evt, .cal, .statHeld] s x14 := by
          unfold x14
          refine Keeps.then (State.setSlice_keeps ..) rfl ?_
          have k16 := State.feSource_keeps _ _ _ _ y12
          refine Keeps.then k16 rfl ?_
          exact Keeps.refl _ _
        clear_value x14
        refine Answers.ite ?_ ?_
        · refine Answers.next ?_
          refine Keeps.then (State.feMissing_keeps ..) rfl ?_
          exact k15
        · split
          · rename_i y17 y18 y19
            refine Answers.next ?_
            refine Keeps.then (State.feFlatRun_keeps ..) rfl ?_
            exact k15
          · rename_i y20 y21
            refine Answers.next ?_
            refine Keeps.then (State.feRun_keeps ..) rfl ?_
            exact k15
  · rename_i y22 y23 y24
    refine Answers.next ?_
    exact Keeps.refl _ _

theorem execGatherTimeout_keeps (s) : Answers [.out, .regs, .pen, .jnl, .sess, .tim, .evt] s (execGatherTimeout s) := by
  unfold execGatherTimeout
  refine Answers.next ?_
  refine Keeps.then (State.penDeliver_keeps ..) rfl ?_
  refine Keeps.then (State.penGather_keeps ..) rfl ?_
  exact Keeps.refl _ _

theorem execGlobalOperation_keeps (s) : Answers [.freeIdx, .out, .regs, .ports, .ctxs, .slices, .coders, .jobs, .seam, .pen, .jnl,
    .ovw, .pln, .sess, .tim, .fab, .encs, .dividers, .axes, .evt, .cal, .pwr, .zeroLatched] s (execGlobalOperation s) := by
  unfold execGlobalOperation
  split
  · rename_i y1 y2
    refine Answers.next ?_
    exact Keeps.refl _ _
  · rename_i y3 y4 y5
    refine Answers.next ?_
    refine Keeps.then (State.globalEffect_keeps ..) rfl ?_
    refine Keeps.then (State.dropDue_keeps ..) rfl ?_
    exact Keeps.refl _ _

theorem execGranuleBoundary_keeps (k s) : Answers [.ctxs, .slices] s (execGranuleBoundary k s) := by
  unfold execGranuleBoundary
  extract_lets x1 x2 x3 x4
  have k5 : Keeps [.ctxs, .slices] s x4 := by
    unfold x4
    refine Keeps.then (State.setSlice_keeps ..) rfl ?_
    exact Keeps.refl _ _
  clear_value x4
  refine Answers.ite ?_ ?_
  · refine Answers.next ?_
    exact Keeps.refl _ _
  · refine Answers.next ?_
    clear_value x3
    split
    · rename_i y6 y7
      refine Keeps.ite ?_ ?_
      · refine Keeps.then (State.takeStrip_keeps ..) rfl ?_
        exact k5
      · exact k5
    · rename_i y8
      exact k5

theorem execHandoverCompare_keeps (k s) : Answers [.regs, .encs, .evt] s (execHandoverCompare k s) := by
  unfold execHandoverCompare
  extract_lets x1 x2
  have k3 : Keeps [.regs, .encs, .evt] s x1 := by
    unfold x1
    refine Keeps.ite ?_ ?_
    · exact Keeps.refl _ _
    · refine Keeps.then (State.encSuspect_keeps ..) rfl ?_
      exact Keeps.refl _ _
  clear_value x1
  refine Answers.ite ?_ ?_
  · refine Answers.next ?_
    refine Keeps.then (State.setFld_keeps ..) rfl ?_
    refine Keeps.then (State.setEnc_keeps ..) rfl ?_
    exact k3
  · refine Answers.next ?_
    exact Keeps.refl _ _

theorem execHeartbeat_keeps (_e bytes s) : Answers [.regs, .seam, .fab, .evt] s (execHeartbeat _e bytes s) := by
  unfold execHeartbeat
  split
  · rename_i y1 y2
    refine Answers.next ?_
    exact Keeps.refl _ _
  · rename_i y3 y4 y5 y6
    refine Answers.next ?_
    refine Keeps.ite ?_ ?_
    · have k7 := State.fabFor_keeps _ _ _ _ y6
      refine Keeps.then k7 rfl ?_
      exact Keeps.refl _ _
    · refine Keeps.then (State.fabPassed_keeps ..) rfl ?_
      have k8 := State.fabFor_keeps _ _ _ _ y6
      refine Keeps.then k8 rfl ?_
      exact Keeps.refl _ _

theorem execHeartbeatInterval_keeps (dest s) : Answers [.out, .tim, .fab] s (execHeartbeatInterval dest s) := by
  unfold execHeartbeatInterval
  refine Answers.next ?_
  refine Keeps.ite ?_ ?_
  · refine Keeps.then (State.fabSend_keeps ..) rfl ?_
    exact Keeps.refl _ _
  · exact Keeps.refl _ _

theorem execHello_keeps (f s) : Answers [.out, .regs, .sess, .evt, .pwr] s (execHello f s) := by
  unfold execHello
  refine State.mgmtRun_keeps rfl ?_ ?_
  · exact Keeps.refl _ _
  · intro a1 a2 a3 a4 a5
    refine Gives.ite ?_ ?_
    · refine Gives.ok ?_
      dsimp -zeta only
      exact a5
    · refine Gives.ok ?_
      dsimp -zeta only
      exact a5

theorem execHoldCurrentTimer_keeps (x s) : Answers [.out, .regs] s (execHoldCurrentTimer x s) := by
  unfold execHoldCurrentTimer
  refine Answers.ite ?_ ?_
  · refine Answers.next ?_
    refine Keeps.then (State.axCoils_keeps ..) rfl ?_
    refine Keeps.then (State.setFld_keeps ..) rfl ?_
    exact Keeps.refl _ _
  · refine Answers.next ?_
    exact Keeps.refl _ _

theorem execHoldUp_keeps (undervoltage s) : Answers allParts s (execHoldUp undervoltage s) := by
  unfold execHoldUp
  extract_lets x1 x2 x3 x4
  have k5 : Keeps allParts s x1 := by
    unfold x1
    refine Keeps.then (State.setFld_keeps ..) rfl ?_
    refine Keeps.then (State.setFld_keeps ..) rfl ?_
    exact Keeps.refl _ _
  clear_value x1
  have k6 : Keeps allParts s x2 := by
    unfold x2
    refine Keeps.then (State.fire_keeps ..) rfl ?_
    exact k5
  clear_value x2
  have k7 : Keeps allParts s x4 := by
    unfold x4
    refine Keeps.set_pwr rfl ?_
    exact k6
  clear_value x4
  refine Answers.ite ?_ ?_
  · refine Answers.next ?_
    exact Keeps.refl _ _
  · refine Answers.next ?_
    split
    · rename_i y8 y9
      exact k7
    · rename_i y10 y11
      refine Keeps.then (State.holdUpStart_keeps ..) rfl ?_
      exact k7
    · rename_i y12 y13
      refine Keeps.then (State.holdUpStart_keeps ..) rfl ?_
      exact k7
    · rename_i y14 y15 y16 y17
      refine Keeps.then (State.holdUp_keeps ..) rfl ?_
      exact k7

theorem execHoldupExhausted_keeps (s) : Answers [.out, .regs, .tim, .encs, .pwr] s (execHoldupExhausted s) := by
  unfold execHoldupExhausted
  refine Answers.next ?_
  refine Keeps.ite ?_ ?_
  · refine Keeps.then (State.emit_keeps ..) rfl ?_
    refine Keeps.then (State.alwaysOnLost_keeps ..) rfl ?_
    exact Keeps.refl _ _
  · exact Keeps.refl _ _

theorem execHotExitTimer_keeps (s) : Answers [.mem] s (execHotExitTimer s) := by
  unfold execHotExitTimer
  split
  · rename_i y1 y2 y3
    extract_lets x4
    refine Answers.next ?_
    refine Keeps.ite ?_ ?_
    · refine Keeps.set_mem rfl ?_
      exact Keeps.refl _ _
    · exact Keeps.refl _ _
  · rename_i y5 y6
    refine Answers.next ?_
    exact Keeps.refl _ _

theorem execHstNetCommit_keeps (e v s) : Answers [.regs, .eths] s (execHstNetCommit e v s) := by
  unfold execHstNetCommit
  refine Answers.next ?_
  refine Keeps.ite ?_ ?_
  · refine Keeps.then (State.netCommit_keeps ..) rfl ?_
    exact Keeps.refl _ _
  · exact Keeps.refl _ _

theorem execImageARestored_keeps (s) : Answers [.regs, .pwr] s (execImageARestored s) := by
  unfold execImageARestored
  extract_lets x1 x2
  refine Answers.ite ?_ ?_
  · refine Answers.next ?_
    refine Keeps.then (State.setFld_keeps ..) rfl ?_
    refine Keeps.set_pwr rfl ?_
    exact Keeps.refl _ _
  · refine Answers.next ?_
    exact Keeps.refl _ _

theorem execIndexPulse_keeps (k s) : Answers [.out, .regs, .ports, .ctxs, .slices, .pen, .jnl, .ovw, .sess, .tim, .fab, .encs,
    .dividers, .axes, .evt, .pwr] s (execIndexPulse k s) := by
  unfold execIndexPulse
  extract_lets x1 x2 x3 x4 x5
  have k6 : Keeps [.out, .regs, .ports, .ctxs, .slices, .pen, .jnl, .ovw, .sess, .tim, .fab, .encs, .dividers, .axes, .evt,
      .pwr] s x1 := by
    unfold x1
    refine Keeps.then (State.fire_keeps ..) rfl ?_
    exact Keeps.refl _ _
  clear_value x1
  have k7 : Keeps [.out, .regs, .ports, .ctxs, .slices, .pen, .jnl, .ovw, .sess, .tim, .fab, .encs, .dividers, .axes, .evt,
      .pwr] s x2 := by
    unfold x2
    split
    · rename_i y8 y9
      exact k6
    · rename_i y10 y11 y12
      refine Keeps.then (State.indexCheck_keeps ..) rfl ?_
      exact k6
  clear_value x2
  have k13 : Keeps [.out, .regs, .ports, .ctxs, .slices, .pen, .jnl, .ovw, .sess, .tim, .fab, .encs, .dividers, .axes, .evt,
      .pwr] s x5 := by
    unfold x5
    refine Keeps.then (State.setFld_keeps ..) rfl ?_
    refine Keeps.then (State.setFld_keeps ..) rfl ?_
    refine Keeps.then (State.setEnc_keeps ..) rfl ?_
    exact k7
  clear_value x5
  refine Answers.ite ?_ ?_
  · refine Answers.next ?_
    exact Keeps.refl _ _
  · refine Answers.next ?_
    refine Keeps.then (State.redConfirm_keeps ..) rfl ?_
    exact k13

theorem execInputQualified_keeps (mv s) : Answers allParts s (execInputQualified mv s) := by
  unfold execInputQualified
  extract_lets x1 x2 x3 x4 x5
  have k6 : Keeps allParts s x1 := by
    unfold x1
    refine Keeps.then (State.setFld_keeps ..) rfl ?_
    refine Keeps.then (State.setFld_keeps ..) rfl ?_
    exact Keeps.refl _ _
  clear_value x1
  have k7 : Keeps allParts s x2 := by
    unfold x2
    refine Keeps.ite ?_ ?_
    · exact k6
    · refine Keeps.then (State.emit_keeps ..) rfl ?_
      exact k6
  clear_value x2
  have k8 : Keeps allParts s x4 := by
    unfold x4
    refine Keeps.then (State.startDawn_keeps ..) rfl ?_
    refine Keeps.set_pwr rfl ?_
    exact k7
  clear_value x4
  refine Answers.ite ?_ ?_
  · refine Answers.next ?_
    refine Keeps.set_pwr rfl ?_
    exact k8
  · refine Answers.next ?_
    exact Keeps.refl _ _

theorem execInputReturn_keeps (s) : Answers allParts s (execInputReturn s) := by
  unfold execInputReturn
  extract_lets x1 x2
  have k3 : Keeps allParts s x2 := by
    unfold x2
    refine Keeps.set_pwr rfl ?_
    exact Keeps.refl _ _
  refine Answers.ite ?_ ?_
  · refine Answers.next ?_
    exact Keeps.refl _ _
  · refine Answers.next ?_
    refine Keeps.ite ?_ ?_
    · refine Keeps.then (State.startSunrise_keeps ..) rfl ?_
      exact k3
    · refine Keeps.ite ?_ ?_
      · exact k3
      · refine Keeps.then (State.startDawn_keeps ..) rfl ?_
        exact k3

theorem execInspectionStart_keeps (s) : Answers [.out, .regs, .ctxs, .jnl, .ovw, .pln, .sess, .fab, .dividers, .axes, .evt, .pwr,
    .zeroLatched] s (execInspectionStart s) := by
  unfold execInspectionStart
  split
  · rename_i y1 y2 y3
    refine Answers.next ?_
    refine Keeps.then (State.startEffect_keeps ..) rfl ?_
    refine Keeps.then (State.dropDue_keeps ..) rfl ?_
    exact Keeps.refl _ _
  · rename_i y4 y5
    refine Answers.ite ?_ ?_
    · refine Answers.next ?_
      exact Keeps.refl _ _
    · refine Answers.ite ?_ ?_
      · refine Answers.next ?_
        refine Keeps.then (State.startInspection_keeps ..) rfl ?_
        exact Keeps.refl _ _
      · refine Answers.next ?_
        exact Keeps.refl _ _

theorem execInvalidRequestNak_keeps (n s) : Answers [.out, .regs, .sess, .evt] s (execInvalidRequestNak n s) := by
  unfold execInvalidRequestNak
  refine Answers.next ?_
  refine Keeps.then (State.sessLost_keeps ..) rfl ?_
  exact Keeps.refl _ _

theorem execJobPreempt_keeps (job s) : Answers [.freeIdx, .regs, .jobs, .jnl, .evt] s (execJobPreempt job s) := by
  unfold execJobPreempt
  split
  · rename_i y1 y2
    refine Answers.next ?_
    exact Keeps.refl _ _
  · rename_i y3 y4 y5
    extract_lets x6 x7
    have k8 : Keeps [.freeIdx, .regs, .jobs, .jnl, .evt] s x7 := by
      unfold x7
      refine Keeps.set_jobs rfl ?_
      exact Keeps.refl _ _
    clear_value x7
    refine Answers.ite ?_ ?_
    · refine Answers.next ?_
      exact Keeps.refl _ _
    · refine Answers.next ?_
      refine Keeps.then (State.fire_keeps ..) rfl ?_
      refine Keeps.then (State.bump_keeps ..) rfl ?_
      refine Keeps.then (State.checkpoint_keeps ..) rfl ?_
      exact k8

theorem execJobUnit_keeps (job s) : Answers [.freeIdx, .out, .regs, .jobs, .pen, .jnl, .sess, .evt, .crcs,
    .pwr] s (execJobUnit job s) := by
  unfold execJobUnit
  split
  · rename_i y1 y2
    refine Answers.next ?_
    exact Keeps.refl _ _
  · rename_i y3 y4 y5
    refine Answers.ite ?_ ?_
    · refine Answers.next ?_
      exact Keeps.refl _ _
    · split
      · rename_i y6 y7
        refine Answers.next ?_
        refine Keeps.ite ?_ ?_
        · refine Keeps.then (State.setJob_keeps ..) rfl ?_
          exact Keeps.refl _ _
        · exact Keeps.refl _ _
      · rename_i y8 y9 y10 y11
        refine Answers.ite ?_ ?_
        · exact Answers.fault
        · refine Answers.next ?_
          split
          · rename_i y12 y13
            refine Keeps.then (State.checkUnit_keeps ..) rfl ?_
            have k14 := State.jobStart_keeps _ _ _ y11
            refine Keeps.then k14 rfl ?_
            exact Keeps.refl _ _
          · rename_i y15 y16
            refine Keeps.then (State.reproUnit_keeps ..) rfl ?_
            have k17 := State.jobStart_keeps _ _ _ y11
            refine Keeps.then k17 rfl ?_
            exact Keeps.refl _ _
          · rename_i y18 y19 y20
            refine Keeps.then (State.cropUnit_keeps ..) rfl ?_
            have k21 := State.jobStart_keeps _ _ _ y11
            refine Keeps.then k21 rfl ?_
            exact Keeps.refl _ _

theorem execJournalDurable_keeps (n s) : Answers [.out, .regs, .jnl, .sess, .evt] s (execJournalDurable n s) := by
  unfold execJournalDurable
  refine Answers.next ?_
  refine Keeps.then (State.jnlDurable_keeps ..) rfl ?_
  exact Keeps.refl _ _

theorem execJournalRebuildDone_keeps (s) : Answers [.regs] s (execJournalRebuildDone s) := by
  unfold execJournalRebuildDone
  refine Answers.next ?_
  refine Keeps.then (State.setFld_keeps ..) rfl ?_
  exact Keeps.refl _ _

theorem execKeyClear_keeps (f s) : Answers [.out, .regs, .sess, .evt, .pwr] s (execKeyClear f s) := by
  unfold execKeyClear
  refine State.mgmtType_keeps rfl ?_ ?_
  · exact Keeps.refl _ _
  · intro a1 a2 a3 a4 a5
    extract_lets x6
    refine Gives.ite ?_ ?_
    · refine Gives.ok ?_
      dsimp -zeta only
      exact a5
    · refine Gives.ite ?_ ?_
      · refine Gives.ok ?_
        dsimp -zeta only
        exact a5
      · refine Gives.ite ?_ ?_
        · refine Gives.ok ?_
          dsimp -zeta only
          exact a5
        · refine Gives.ok ?_
          dsimp -zeta only
          refine Keeps.foldl ?_ ?_
          · exact a5
          · intro u7 e8 k9
            refine Keeps.ite ?_ ?_
            · refine Keeps.then (State.clearKey_keeps ..) rfl ?_
              exact k9
            · exact k9

theorem execKeySet_keeps (f s) : Answers [.out, .regs, .sess, .evt, .pwr] s (execKeySet f s) := by
  unfold execKeySet
  refine State.mgmtType_keeps rfl ?_ ?_
  · exact Keeps.refl _ _
  · intro a1 a2 a3 a4 a5
    refine Gives.ite ?_ ?_
    · refine Gives.ok ?_
      dsimp -zeta only
      exact a5
    · refine Gives.ite ?_ ?_
      · refine Gives.ok ?_
        dsimp -zeta only
        exact a5
      · split
        · rename_i y6 y7
          refine Gives.ok ?_
          dsimp -zeta only
          exact a5
        · rename_i y8 y9 y10
          refine Gives.ok ?_
          dsimp -zeta only
          refine Keeps.then (State.setKey_keeps ..) rfl ?_
          exact a5

theorem execLabelLine_keeps (c s) : Answers [.freeIdx, .out, .regs, .ctxs, .jobs, .seam, .pen, .jnl, .tim, .fab, .axes, .evt,
    .pwr] s (execLabelLine c s) := by
  unfold execLabelLine
  split
  · rename_i y1 y2
    refine Answers.next ?_
    exact Keeps.refl _ _
  · rename_i y3 y4 y5
    extract_lets x6
    split
    · rename_i y7 y8
      refine Answers.next ?_
      exact Keeps.refl _ _
    · rename_i y9 y10 y11 y12
      refine Answers.ite ?_ ?_
      · refine Answers.next ?_
        exact Keeps.refl _ _
      · refine Answers.next ?_
        refine Keeps.then (State.labelOne_keeps ..) rfl ?_
        refine Keeps.then (State.setCtx_keeps ..) rfl ?_
        exact Keeps.refl _ _

theorem execLaneRateSwitch_keeps (p l s) : Answers [.out, .ports] s (execLaneRateSwitch p l s) := by
  unfold execLaneRateSwitch
  extract_lets x1
  refine Answers.next ?_
  refine Keeps.ite ?_ ?_
  · refine Keeps.then (State.emit_keeps ..) rfl ?_
    refine Keeps.then (State.setLane_keeps ..) rfl ?_
    exact Keeps.refl _ _
  · exact Keeps.refl _ _

theorem execLatchingLoRead_keeps (reader addr s) : Answers [.latches] s (execLatchingLoRead reader addr s) := by
  unfold execLatchingLoRead
  refine Answers.next ?_
  refine Keeps.ite ?_ ?_
  · refine Keeps.then (State.regRead_keeps ..) rfl ?_
    exact Keeps.refl _ _
  · exact Keeps.refl _ _

theorem execLimitSwitch_keeps (x high s) : Answers [.out, .regs, .jnl, .sess, .axes, .evt] s (execLimitSwitch x high s) := by
  unfold execLimitSwitch
  extract_lets x1 x2 x3 x4 x5 x6 x7 x8
  have k9 : Keeps [.out, .regs, .jnl, .sess, .axes, .evt] s x2 := by
    unfold x2
    refine Keeps.then (State.fire_keeps ..) rfl ?_
    refine Keeps.then (State.setFld_keeps ..) rfl ?_
    exact Keeps.refl _ _
  clear_value x2
  have k10 : Keeps [.out, .regs, .jnl, .sess, .axes, .evt] s x7 := by
    unfold x7
    refine Keeps.then (State.setFld_keeps ..) rfl ?_
    refine Keeps.then (State.setAx_keeps ..) rfl ?_
    exact k9
  clear_value x7
  have k11 : Keeps [.out, .regs, .jnl, .sess, .axes, .evt] s x8 := by
    unfold x8
    refine Keeps.then (State.axStop_keeps ..) rfl ?_
    refine Keeps.then (State.axRegs_keeps ..) rfl ?_
    exact k10
  clear_value x8
  refine Answers.ite ?_ ?_
  · refine Answers.next ?_
    exact k9
  · refine Answers.ite ?_ ?_
    · refine Answers.next ?_
      refine Keeps.then (State.axStop_keeps ..) rfl ?_
      exact k9
    · refine Answers.next ?_
      refine Keeps.then (State.setFld_keeps ..) rfl ?_
      exact k11

theorem execLimitSwitchRelease_keeps (x high s) : Answers [.regs] s (execLimitSwitchRelease x high s) := by
  unfold execLimitSwitchRelease
  refine Answers.next ?_
  refine Keeps.then (State.setFld_keeps ..) rfl ?_
  exact Keeps.refl _ _

theorem execLine_keeps (p k s) : Answers [.regs, .ports, .ctxs, .slices, .ring, .evt, .cal] s (execLine p k s) := by
  unfold execLine
  refine Answers.ite ?_ ?_
  · refine Answers.next ?_
    exact Keeps.refl _ _
  · refine Answers.ite ?_ ?_
    · refine Answers.next ?_
      refine Keeps.then (State.bump_keeps ..) rfl ?_
      exact Keeps.refl _ _
    · refine Answers.ite ?_ ?_
      · refine Answers.next ?_
        exact Keeps.refl _ _
      · split
        · rename_i y1 y2
          refine Answers.next ?_
          exact Keeps.refl _ _
        · rename_i y3 y4 y5
          split
          · rename_i y6 y7
            exact Answers.fault
          · rename_i y8 y9
            refine Answers.next ?_
            refine Keeps.then (State.goodLine_keeps ..) rfl ?_
            exact Keeps.refl _ _
          · rename_i y10 y11 y12
            refine Answers.next ?_
            refine Keeps.then (State.badLine_keeps ..) rfl ?_
            exact Keeps.refl _ _

theorem execLineCodeSwitch_keeps (p s) : Answers [.regs, .ports] s (execLineCodeSwitch p s) := by
  unfold execLineCodeSwitch
  extract_lets x1
  have k2 : Keeps [.regs, .ports] s x1 := by
    unfold x1
    refine Keeps.foldl ?_ ?_
    · exact Keeps.refl _ _
    · intro u3 e4 k5
      extract_lets x6
      refine Keeps.then (State.setLane_keeps ..) rfl ?_
      exact k5
  clear_value x1
  refine Answers.ite ?_ ?_
  · refine Answers.next ?_
    refine Keeps.then (State.setDegraded_keeps ..) rfl ?_
    refine Keeps.then (State.modPort_keeps ..) rfl ?_
    exact k2
  · refine Answers.next ?_
    exact Keeps.refl _ _

theorem execLineCompress_keeps (c carried s) : Answers [.regs, .ctxs, .coders, .ring, .evt] s (execLineCompress c carried s) := by
  unfold execLineCompress
  split
  · rename_i y1 y2
    refine Answers.next ?_
    exact Keeps.refl _ _
  · rename_i y3 y4 y5
    extract_lets x6
    split
    · rename_i y7 y8
      refine Answers.next ?_
      exact Keeps.refl _ _
    · rename_i y9 y10 y11
      extract_lets x12 x13 x14
      have k15 : Keeps [.regs, .ctxs, .coders, .ring, .evt] s x13 := by
        unfold x13
        refine Keeps.then (State.setCtx_keeps ..) rfl ?_
        exact Keeps.refl _ _
      clear_value x13
      have k16 : Keeps [.regs, .ctxs, .coders, .ring, .evt] s x14 := by
        unfold x14
        refine Keeps.ite ?_ ?_
        · refine Keeps.then (State.ringAppend_keeps ..) rfl ?_
          exact k15
        · refine Keeps.then (State.ringSkip_keeps ..) rfl ?_
          exact k15
      clear_value x14
      refine Answers.ite ?_ ?_
      · refine Answers.next ?_
        exact Keeps.refl _ _
      · refine Answers.next ?_
        refine Keeps.then (State.fifoDrain_keeps ..) rfl ?_
        exact k16

theorem execLinkDown_keeps (e s) : Answers [.freeIdx, .out, .regs, .jobs, .seam, .pen, .jnl, .eths, .tim, .fab, .axes, .evt,
    .pwr] s (execLinkDown e s) := by
  unfold execLinkDown
  refine Answers.next ?_
  refine Keeps.then (State.linkFalls_keeps ..) rfl ?_
  exact Keeps.refl _ _

theorem execLinkUp_keeps (e s) : Answers [.out, .regs, .sess, .eths, .evt] s (execLinkUp e s) := by
  unfold execLinkUp
  extract_lets x1 x2
  have k3 : Keeps [.out, .regs, .sess, .eths, .evt] s x2 := by
    unfold x2
    refine Keeps.then (State.fire_keeps ..) rfl ?_
    refine Keeps.then (State.setEth_keeps ..) rfl ?_
    refine Keeps.then (State.setFld_keeps ..) rfl ?_
    exact Keeps.refl _ _
  clear_value x2
  refine Answers.ite ?_ ?_
  · refine Answers.next ?_
    exact Keeps.refl _ _
  · refine Answers.next ?_
    refine Keeps.foldl ?_ ?_
    · exact k3
    · intro u4 e5 k6
      refine Keeps.then (State.kickFetch_keeps ..) rfl ?_
      exact k6

theorem execLockTimeout_keeps (p s) : Answers [.out, .regs, .ports, .jnl, .sess, .evt, .cal] s (execLockTimeout p s) := by
  unfold execLockTimeout
  refine Answers.next ?_
  refine Keeps.ite ?_ ?_
  · refine Keeps.then (State.discover_keeps ..) rfl ?_
    exact Keeps.refl _ _
  · exact Keeps.refl _ _

theorem execLogicCellFire_keeps (l s) : Answers [.regs, .evt] s (execLogicCellFire l s) := by
  unfold execLogicCellFire
  extract_lets x1 x2
  have k3 : Keeps [.regs, .evt] s x2 := by
    unfold x2
    refine Keeps.then (State.setCell_keeps ..) rfl ?_
    refine Keeps.then (State.setFld_keeps ..) rfl ?_
    refine Keeps.then (State.setFld_keeps ..) rfl ?_
    exact Keeps.refl _ _
  clear_value x2
  refine Answers.ite ?_ ?_
  · refine Answers.next ?_
    refine Keeps.then (State.fireAt_keeps ..) rfl ?_
    exact k3
  · refine Answers.next ?_
    exact Keeps.refl _ _

theorem execMapInline_keeps (n idx s) : Answers [.out, .regs, .jnl, .sess, .evt, .statHeld] s (execMapInline n idx s) := by
  unfold execMapInline
  extract_lets x1 x2 x3
  refine Answers.ite ?_ ?_
  · exact Answers.fault
  · refine Answers.next ?_
    refine State.runDesc_keeps rfl ?_ ?_
    · exact Keeps.refl _ _
    · intro a4 a5 a6
      split
      · rename_i y7 y8 y9
        refine Keeps.then (State.mapBad_keeps ..) rfl ?_
        exact a6
      · rename_i y10 y11
        refine Keeps.then (State.doneDesc_keeps ..) rfl ?_
        refine Keeps.then (State.mapPages_keeps ..) rfl ?_
        exact a6

theorem execMapTable_keeps (n idx s) : Answers [.out, .regs, .jnl, .sess, .evt] s (execMapTable n idx s) := by
  unfold execMapTable
  refine Answers.next ?_
  refine State.runDesc_keeps rfl ?_ ?_
  · exact Keeps.refl _ _
  · intro a1 a2 a3
    split
    · rename_i y4 y5 y6
      refine Keeps.then (State.mapBad_keeps ..) rfl ?_
      exact a3
    · rename_i y7 y8
      refine Keeps.then (State.loadRead_keeps ..) rfl ?_
      exact a3

theorem execMarkerOverload_keeps (x s) : Answers [.out, .tim] s (execMarkerOverload x s) := by
  unfold execMarkerOverload
  extract_lets x1 x2
  refine Answers.ite ?_ ?_
  · refine Answers.next ?_
    refine Keeps.then (State.emit_keeps ..) rfl ?_
    refine Keeps.then (State.setTout_keeps ..) rfl ?_
    exact Keeps.refl _ _
  · refine Answers.next ?_
    exact Keeps.refl _ _

theorem execMgmtUnusedType_keeps (f s) : Answers [.out, .regs, .sess, .evt, .pwr] s (execMgmtUnusedType f s) := by
  unfold execMgmtUnusedType
  refine State.mgmtRun_keeps rfl ?_ ?_
  · exact Keeps.refl _ _
  · intro a1 a2 a3 a4 a5
    refine Gives.ok ?_
    dsimp -zeta only
    exact a5

theorem execMigrationBurst_keeps (m word s) : Answers [.freeIdx, .out, .regs, .jobs, .pen, .jnl, .mem, .pln, .sess, .evt,
    .pwr] s (execMigrationBurst m word s) := by
  unfold execMigrationBurst
  split
  · rename_i y1 y2
    refine Answers.next ?_
    exact Keeps.refl _ _
  · rename_i y3 y4 y5
    extract_lets x6 x7 x8 x9 x10 x11 x12 x13
    have k14 : Keeps [.freeIdx, .out, .regs, .jobs, .pen, .jnl, .mem, .pln, .sess, .evt, .pwr] s x6.2 := by
      unfold x6
      refine Keeps.then (State.takeFree_keeps ..) rfl ?_
      exact Keeps.refl _ _
    clear_value x6
    have k15 : Keeps [.freeIdx, .out, .regs, .jobs, .pen, .jnl, .mem, .pln, .sess, .evt, .pwr] s x7 := by
      unfold x7
      exact k14
    clear_value x7
    have k16 : Keeps [.freeIdx, .out, .regs, .jobs, .pen, .jnl, .mem, .pln, .sess, .evt, .pwr] s x10.1 := by
      unfold x10
      split
      · rename_i y17 y18 y19
        dsimp -zeta only
        exact k15
      · rename_i y20 y21 y22 y23
        dsimp -zeta only
        refine Keeps.then (State.correctedWord_keeps ..) rfl ?_
        exact k15
      · rename_i y24 y25
        dsimp -zeta only
        refine Keeps.then (State.bump_keeps ..) rfl ?_
        exact k15
      · rename_i y26 y27
        dsimp -zeta only
        refine Keeps.then (State.bump_keeps ..) rfl ?_
        refine Keeps.then (State.bump_keeps ..) rfl ?_
        exact k15
    clear_value x10
    have k28 : Keeps [.freeIdx, .out, .regs, .jobs, .pen, .jnl, .mem, .pln, .sess, .evt, .pwr] s x11 := by
      unfold x11
      exact k16
    clear_value x11
    have k29 : Keeps [.freeIdx, .out, .regs, .jobs, .pen, .jnl, .mem, .pln, .sess, .evt, .pwr] s x13 := by
      unfold x13
      refine Keeps.set_mem rfl ?_
      exact k28
    clear_value x13
    refine Answers.ite ?_ ?_
    · refine Answers.next ?_
      refine Keeps.then (State.migrateOn_keeps ..) rfl ?_
      exact k15
    · refine Answers.next ?_
      refine Keeps.then (State.migrateOn_keeps ..) rfl ?_
      exact k29

theorem modeEffect_keeps (n d s) : Keeps [.freeIdx, .out, .regs, .ports, .ctxs, .slices, .jobs, .seam, .pen, .jnl, .ovw, .pln, .sess,
    .tim, .fab, .axes, .evt, .cal, .pwr] s (modeEffect n d s) := by
  unfold modeEffect
  extract_lets x1
  refine Keeps.ite ?_ ?_
  · refine Keeps.then (State.badParam_keeps ..) rfl ?_
    exact Keeps.refl _ _
  · refine Keeps.ite ?_ ?_
    · refine Keeps.then (State.wrongState_keeps ..) rfl ?_
      exact Keeps.refl _ _
    · refine Keeps.ite ?_ ?_
      · refine Keeps.then (State.issueOrder_keeps ..) rfl ?_
        exact Keeps.refl _ _
      · refine Keeps.then (State.modeOrder_keeps ..) rfl ?_
        exact Keeps.refl _ _

theorem execMode_keeps (n idx s) : Answers [.freeIdx, .out, .regs, .ports, .ctxs, .slices, .jobs, .seam, .pen, .jnl, .ovw, .pln, .sess,
    .tim, .fab, .axes, .evt, .cal, .pwr] s (execMode n idx s) := by
  unfold execMode
  refine Answers.next ?_
  refine State.runDesc_keeps rfl ?_ ?_
  · exact Keeps.refl _ _
  · intro a1 a2 a3
    refine Keeps.then (modeEffect_keeps ..) rfl ?_
    exact a3

theorem execMotionTick_keeps (x s) : Answers [.out, .regs, .pen, .jnl, .sess, .tim, .axes, .evt, .pwr] s (execMotionTick x s) := by
  unfold execMotionTick
  dsimp only
  refine Answers.next ?_
  refine Keeps.then (State.serveMarks_keeps ..) rfl ?_
  split
  · rename_i y1 y2 y3
    refine Keeps.ite ?_ ?_
    · refine Keeps.foldl ?_ ?_
      · refine Keeps.then (State.beginSegs_keeps ..) rfl ?_
        refine Keeps.then (State.setAx_keeps ..) rfl ?_
        split
        · rename_i y4 y5 y6 y7 y8 y9
          refine Keeps.ite ?_ ?_
          · refine Keeps.then (State.replan_keeps ..) rfl ?_
            refine Keeps.then (State.setAx_keeps ..) rfl ?_
            split
            · rename_i y10 y11 y12
              refine Keeps.then (State.replan_keeps ..) rfl ?_
              refine Keeps.then (State.setAx_keeps ..) rfl ?_
              split
              · rename_i y13 y14 y15
                refine Keeps.then (State.axCoils_keeps ..) rfl ?_
                refine Keeps.then (State.setAx_keeps ..) rfl ?_
                split
                · rename_i y16 y17 y18
                  refine Keeps.then (State.axCoils_keeps ..) rfl ?_
                  refine Keeps.then (State.setAx_keeps ..) rfl ?_
                  exact Keeps.refl _ _
                · rename_i y19 y20
                  exact Keeps.refl _ _
              · rename_i y21 y22
                split
                · rename_i y23 y24 y25
                  refine Keeps.then (State.axCoils_keeps ..) rfl ?_
                  refine Keeps.then (State.setAx_keeps ..) rfl ?_
                  exact Keeps.refl _ _
                · rename_i y26 y27
                  exact Keeps.refl _ _
            · rename_i y28 y29
              split
              · rename_i y30 y31 y32
                refine Keeps.then (State.axCoils_keeps ..) rfl ?_
                refine Keeps.then (State.setAx_keeps ..) rfl ?_
                split
                · rename_i y33 y34 y35
                  refine Keeps.then (State.axCoils_keeps ..) rfl ?_
                  refine Keeps.then (State.setAx_keeps ..) rfl ?_
                  exact Keeps.refl _ _
                · rename_i y36 y37
                  exact Keeps.refl _ _
              · rename_i y38 y39
                split
                · rename_i y40 y41 y42
                  refine Keeps.then (State.axCoils_keeps ..) rfl ?_
                  refine Keeps.then (State.setAx_keeps ..) rfl ?_
                  exact Keeps.refl _ _
                · rename_i y43 y44
                  exact Keeps.refl _ _
          · refine Keeps.then (State.setAx_keeps ..) rfl ?_
            split
            · rename_i y45 y46 y47
              refine Keeps.then (State.replan_keeps ..) rfl ?_
              refine Keeps.then (State.setAx_keeps ..) rfl ?_
              split
              · rename_i y48 y49 y50
                refine Keeps.then (State.axCoils_keeps ..) rfl ?_
                refine Keeps.then (State.setAx_keeps ..) rfl ?_
                split
                · rename_i y51 y52 y53
                  refine Keeps.then (State.axCoils_keeps ..) rfl ?_
                  refine Keeps.then (State.setAx_keeps ..) rfl ?_
                  exact Keeps.refl _ _
                · rename_i y54 y55
                  exact Keeps.refl _ _
              · rename_i y56 y57
                split
                · rename_i y58 y59 y60
                  refine Keeps.then (State.axCoils_keeps ..) rfl ?_
                  refine Keeps.then (State.setAx_keeps ..) rfl ?_
                  exact Keeps.refl _ _
                · rename_i y61 y62
                  exact Keeps.refl _ _
            · rename_i y63 y64
              split
              · rename_i y65 y66 y67
                refine Keeps.then (State.axCoils_keeps ..) rfl ?_
                refine Keeps.then (State.setAx_keeps ..) rfl ?_
                split
                · rename_i y68 y69 y70
                  refine Keeps.then (State.axCoils_keeps ..) rfl ?_
                  refine Keeps.then (State.setAx_keeps ..) rfl ?_
                  exact Keeps.refl _ _
                · rename_i y71 y72
                  exact Keeps.refl _ _
              · rename_i y73 y74
                split
                · rename_i y75 y76 y77
                  refine Keeps.then (State.axCoils_keeps ..) rfl ?_
                  refine Keeps.then (State.setAx_keeps ..) rfl ?_
                  exact Keeps.refl _ _
                · rename_i y78 y79
                  exact Keeps.refl _ _
        · rename_i y80 y81 y82 y83 y84
          refine Keeps.then (State.setAx_keeps ..) rfl ?_
          split
          · rename_i y85 y86 y87
            refine Keeps.then (State.replan_keeps ..) rfl ?_
            refine Keeps.then (State.setAx_keeps ..) rfl ?_
            split
            · rename_i y88 y89 y90
              refine Keeps.then (State.axCoils_keeps ..) rfl ?_
              refine Keeps.then (State.setAx_keeps ..) rfl ?_
              split
              · rename_i y91 y92 y93
                refine Keeps.then (State.axCoils_keeps ..) rfl ?_
                refine Keeps.then (State.setAx_keeps ..) rfl ?_
                exact Keeps.refl _ _
              · rename_i y94 y95
                exact Keeps.refl _ _
            · rename_i y96 y97
              split
              · rename_i y98 y99 y100
                refine Keeps.then (State.axCoils_keeps ..) rfl ?_
                refine Keeps.then (State.setAx_keeps ..) rfl ?_
                exact Keeps.refl _ _
              · rename_i y101 y102
                exact Keeps.refl _ _
          · rename_i y103 y104
            split
            · rename_i y105 y106 y107
              refine Keeps.then (State.axCoils_keeps ..) rfl ?_
              refine Keeps.then (State.setAx_keeps ..) rfl ?_
              split
              · rename_i y108 y109 y110
                refine Keeps.then (State.axCoils_keeps ..) rfl ?_
                refine Keeps.then (State.setAx_keeps ..) rfl ?_
                exact Keeps.refl _ _
              · rename_i y111 y112
                exact Keeps.refl _ _
            · rename_i y113 y114
              split
              · rename_i y115 y116 y117
                refine Keeps.then (State.axCoils_keeps ..) rfl ?_
                refine Keeps.then (State.setAx_keeps ..) rfl ?_
                exact Keeps.refl _ _
              · rename_i y118 y119
                exact Keeps.refl _ _
        · rename_i y120 y121 y122
          split
          · rename_i y123 y124 y125
            refine Keeps.then (State.replan_keeps ..) rfl ?_
            refine Keeps.then (State.setAx_keeps ..) rfl ?_
            split
            · rename_i y126 y127 y128
              refine Keeps.then (State.axCoils_keeps ..) rfl ?_
              refine Keeps.then (State.setAx_keeps ..) rfl ?_
              split
              · rename_i y129 y130 y131
                refine Keeps.then (State.axCoils_keeps ..) rfl ?_
                refine Keeps.then (State.setAx_keeps ..) rfl ?_
                exact Keeps.refl _ _
              · rename_i y132 y133
                exact Keeps.refl _ _
            · rename_i y134 y135
              split
              · rename_i y136 y137 y138
                refine Keeps.then (State.axCoils_keeps ..) rfl ?_
                refine Keeps.then (State.setAx_keeps ..) rfl ?_
                exact Keeps.refl _ _
              · rename_i y139 y140
                exact Keeps.refl _ _
          · rename_i y141 y142
            split
            · rename_i y143 y144 y145
              refine Keeps.then (State.axCoils_keeps ..) rfl ?_
              refine Keeps.then (State.setAx_keeps ..) rfl ?_
              split
              · rename_i y146 y147 y148
                refine Keeps.then (State.axCoils_keeps ..) rfl ?_
                refine Keeps.then (State.setAx_keeps ..) rfl ?_
                exact Keeps.refl _ _
              · rename_i y149 y150
                exact Keeps.refl _ _
            · rename_i y151 y152
              split
              · rename_i y153 y154 y155
                refine Keeps.then (State.axCoils_keeps ..) rfl ?_
                refine Keeps.then (State.setAx_keeps ..) rfl ?_
                exact Keeps.refl _ _
              · rename_i y156 y157
                exact Keeps.refl _ _
      · intro u158 e159 k160
        refine Keeps.then (State.axFinish_keeps ..) rfl ?_
        exact k160
    · split
      · rename_i y161 y162 y163 y164 y165 y166
        refine Keeps.ite ?_ ?_
        · refine Keeps.then (State.replan_keeps ..) rfl ?_
          refine Keeps.then (State.setAx_keeps ..) rfl ?_
          split
          · rename_i y167 y168 y169
            refine Keeps.then (State.replan_keeps ..) rfl ?_
            refine Keeps.then (State.setAx_keeps ..) rfl ?_
            split
            · rename_i y170 y171 y172
              refine Keeps.then (State.axCoils_keeps ..) rfl ?_
              refine Keeps.then (State.setAx_keeps ..) rfl ?_
              split
              · rename_i y173 y174 y175
                refine Keeps.then (State.axCoils_keeps ..) rfl ?_
                refine Keeps.then (State.setAx_keeps ..) rfl ?_
                exact Keeps.refl _ _
              · rename_i y176 y177
                exact Keeps.refl _ _
            · rename_i y178 y179
              split
              · rename_i y180 y181 y182
                refine Keeps.then (State.axCoils_keeps ..) rfl ?_
                refine Keeps.then (State.setAx_keeps ..) rfl ?_
                exact Keeps.refl _ _
              · rename_i y183 y184
                exact Keeps.refl _ _
          · rename_i y185 y186
            split
            · rename_i y187 y188 y189
              refine Keeps.then (State.axCoils_keeps ..) rfl ?_
              refine Keeps.then (State.setAx_keeps ..) rfl ?_
              split
              · rename_i y190 y191 y192
                refine Keeps.then (State.axCoils_keeps ..) rfl ?_
                refine Keeps.then (State.setAx_keeps ..) rfl ?_
                exact Keeps.refl _ _
              · rename_i y193 y194
                exact Keeps.refl _ _
            · rename_i y195 y196
              split
              · rename_i y197 y198 y199
                refine Keeps.then (State.axCoils_keeps ..) rfl ?_
                refine Keeps.then (State.setAx_keeps ..) rfl ?_
                exact Keeps.refl _ _
              · rename_i y200 y201
                exact Keeps.refl _ _
        · refine Keeps.then (State.setAx_keeps ..) rfl ?_
          split
          · rename_i y202 y203 y204
            refine Keeps.then (State.replan_keeps ..) rfl ?_
            refine Keeps.then (State.setAx_keeps ..) rfl ?_
            split
            · rename_i y205 y206 y207
              refine Keeps.then (State.axCoils_keeps ..) rfl ?_
              refine Keeps.then (State.setAx_keeps ..) rfl ?_
              split
              · rename_i y208 y209 y210
                refine Keeps.then (State.axCoils_keeps ..) rfl ?_
                refine Keeps.then (State.setAx_keeps ..) rfl ?_
                exact Keeps.refl _ _
              · rename_i y211 y212
                exact Keeps.refl _ _
            · rename_i y213 y214
              split
              · rename_i y215 y216 y217
                refine Keeps.then (State.axCoils_keeps ..) rfl ?_
                refine Keeps.then (State.setAx_keeps ..) rfl ?_
                exact Keeps.refl _ _
              · rename_i y218 y219
                exact Keeps.refl _ _
          · rename_i y220 y221
            split
            · rename_i y222 y223 y224
              refine Keeps.then (State.axCoils_keeps ..) rfl ?_
              refine Keeps.then (State.setAx_keeps ..) rfl ?_
              split
              · rename_i y225 y226 y227
                refine Keeps.then (State.axCoils_keeps ..) rfl ?_
                refine Keeps.then (State.setAx_keeps ..) rfl ?_
                exact Keeps.refl _ _
              · rename_i y228 y229
                exact Keeps.refl _ _
            · rename_i y230 y231
              split
              · rename_i y232 y233 y234
                refine Keeps.then (State.axCoils_keeps ..) rfl ?_
                refine Keeps.then (State.setAx_keeps ..) rfl ?_
                exact Keeps.refl _ _
              · rename_i y235 y236
                exact Keeps.refl _ _
      · rename_i y237 y238 y239 y240 y241
        refine Keeps.then (State.setAx_keeps ..) rfl ?_
        split
        · rename_i y242 y243 y244
          refine Keeps.then (State.replan_keeps ..) rfl ?_
          refine Keeps.then (State.setAx_keeps ..) rfl ?_
          split
          · rename_i y245 y246 y247
            refine Keeps.then (State.axCoils_keeps ..) rfl ?_
            refine Keeps.then (State.setAx_keeps ..) rfl ?_
            split
            · rename_i y248 y249 y250
              refine Keeps.then (State.axCoils_keeps ..) rfl ?_
              refine Keeps.then (State.setAx_keeps ..) rfl ?_
              exact Keeps.refl _ _
            · rename_i y251 y252
              exact Keeps.refl _ _
          · rename_i y253 y254
            split
            · rename_i y255 y256 y257
              refine Keeps.then (State.axCoils_keeps ..) rfl ?_
              refine Keeps.then (State.setAx_keeps ..) rfl ?_
              exact Keeps.refl _ _
            · rename_i y258 y259
              exact Keeps.refl _ _
        · rename_i y260 y261
          split
          · rename_i y262 y263 y264
            refine Keeps.then (State.axCoils_keeps ..) rfl ?_
            refine Keeps.then (State.setAx_keeps ..) rfl ?_
            split
            · rename_i y265 y266 y267
              refine Keeps.then (State.axCoils_keeps ..) rfl ?_
              refine Keeps.then (State.setAx_keeps ..) rfl ?_
              exact Keeps.refl _ _
            · rename_i y268 y269
              exact Keeps.refl _ _
          · rename_i y270 y271
            split
            · rename_i y272 y273 y274
              refine Keeps.then (State.axCoils_keeps ..) rfl ?_
              refine Keeps.then (State.setAx_keeps ..) rfl ?_
              exact Keeps.refl _ _
            · rename_i y275 y276
              exact Keeps.refl _ _
      · rename_i y277 y278 y279
        split
        · rename_i y280 y281 y282
          refine Keeps.then (State.replan_keeps ..) rfl ?_
          refine Keeps.then (State.setAx_keeps ..) rfl ?_
          split
          · rename_i y283 y284 y285
            refine Keeps.then (State.axCoils_keeps ..) rfl ?_
            refine Keeps.then (State.setAx_keeps ..) rfl ?_
            split
            · rename_i y286 y287 y288
              refine Keeps.then (State.axCoils_keeps ..) rfl ?_
              refine Keeps.then (State.setAx_keeps ..) rfl ?_
              exact Keeps.refl _ _
            · rename_i y289 y290
              exact Keeps.refl _ _
          · rename_i y291 y292
            split
            · rename_i y293 y294 y295
              refine Keeps.then (State.axCoils_keeps ..) rfl ?_
              refine Keeps.then (State.setAx_keeps ..) rfl ?_
              exact Keeps.refl _ _
            · rename_i y296 y297
              exact Keeps.refl _ _
        · rename_i y298 y299
          split
          · rename_i y300 y301 y302
            refine Keeps.then (State.axCoils_keeps ..) rfl ?_
            refine Keeps.then (State.setAx_keeps ..) rfl ?_
            split
            · rename_i y303 y304 y305
              refine Keeps.then (State.axCoils_keeps ..) rfl ?_
              refine Keeps.then (State.setAx_keeps ..) rfl ?_
              exact Keeps.refl _ _
            · rename_i y306 y307
              exact Keeps.refl _ _
          · rename_i y308 y309
            split
            · rename_i y310 y311 y312
              refine Keeps.then (State.axCoils_keeps ..) rfl ?_
              refine Keeps.then (State.setAx_keeps ..) rfl ?_
              exact Keeps.refl _ _
            · rename_i y313 y314
              exact Keeps.refl _ _
  · rename_i y315 y316
    split
    · rename_i y317 y318 y319 y320 y321 y322
      refine Keeps.ite ?_ ?_
      · refine Keeps.then (State.replan_keeps ..) rfl ?_
        refine Keeps.then (State.setAx_keeps ..) rfl ?_
        split
        · rename_i y323 y324 y325
          refine Keeps.then (State.replan_keeps ..) rfl ?_
          refine Keeps.then (State.setAx_keeps ..) rfl ?_
          split
          · rename_i y326 y327 y328
            refine Keeps.then (State.axCoils_keeps ..) rfl ?_
            refine Keeps.then (State.setAx_keeps ..) rfl ?_
            split
            · rename_i y329 y330 y331
              refine Keeps.then (State.axCoils_keeps ..) rfl ?_
              refine Keeps.then (State.setAx_keeps ..) rfl ?_
              exact Keeps.refl _ _
            · rename_i y332 y333
              exact Keeps.refl _ _
          · rename_i y334 y335
            split
            · rename_i y336 y337 y338
              refine Keeps.then (State.axCoils_keeps ..) rfl ?_
              refine Keeps.then (State.setAx_keeps ..) rfl ?_
              exact Keeps.refl _ _
            · rename_i y339 y340
              exact Keeps.refl _ _
        · rename_i y341 y342
          split
          · rename_i y343 y344 y345
            refine Keeps.then (State.axCoils_keeps ..) rfl ?_
            refine Keeps.then (State.setAx_keeps ..) rfl ?_
            split
            · rename_i y346 y347 y348
              refine Keeps.then (State.axCoils_keeps ..) rfl ?_
              refine Keeps.then (State.setAx_keeps ..) rfl ?_
              exact Keeps.refl _ _
            · rename_i y349 y350
              exact Keeps.refl _ _
          · rename_i y351 y352
            split
            · rename_i y353 y354 y355
              refine Keeps.then (State.axCoils_keeps ..) rfl ?_
              refine Keeps.then (State.setAx_keeps ..) rfl ?_
              exact Keeps.refl _ _
            · rename_i y356 y357
              exact Keeps.refl _ _
      · refine Keeps.then (State.setAx_keeps ..) rfl ?_
        split
        · rename_i y358 y359 y360
          refine Keeps.then (State.replan_keeps ..) rfl ?_
          refine Keeps.then (State.setAx_keeps ..) rfl ?_
          split
          · rename_i y361 y362 y363
            refine Keeps.then (State.axCoils_keeps ..) rfl ?_
            refine Keeps.then (State.setAx_keeps ..) rfl ?_
            split
            · rename_i y364 y365 y366
              refine Keeps.then (State.axCoils_keeps ..) rfl ?_
              refine Keeps.then (State.setAx_keeps ..) rfl ?_
              exact Keeps.refl _ _
            · rename_i y367 y368
              exact Keeps.refl _ _
          · rename_i y369 y370
            split
            · rename_i y371 y372 y373
              refine Keeps.then (State.axCoils_keeps ..) rfl ?_
              refine Keeps.then (State.setAx_keeps ..) rfl ?_
              exact Keeps.refl _ _
            · rename_i y374 y375
              exact Keeps.refl _ _
        · rename_i y376 y377
          split
          · rename_i y378 y379 y380
            refine Keeps.then (State.axCoils_keeps ..) rfl ?_
            refine Keeps.then (State.setAx_keeps ..) rfl ?_
            split
            · rename_i y381 y382 y383
              refine Keeps.then (State.axCoils_keeps ..) rfl ?_
              refine Keeps.then (State.setAx_keeps ..) rfl ?_
              exact Keeps.refl _ _
            · rename_i y384 y385
              exact Keeps.refl _ _
          · rename_i y386 y387
            split
            · rename_i y388 y389 y390
              refine Keeps.then (State.axCoils_keeps ..) rfl ?_
              refine Keeps.then (State.setAx_keeps ..) rfl ?_
              exact Keeps.refl _ _
            · rename_i y391 y392
              exact Keeps.refl _ _
    · rename_i y393 y394 y395 y396 y397
      refine Keeps.then (State.setAx_keeps ..) rfl ?_
      split
      · rename_i y398 y399 y400
        refine Keeps.then (State.replan_keeps ..) rfl ?_
        refine Keeps.then (State.setAx_keeps ..) rfl ?_
        split
        · rename_i y401 y402 y403
          refine Keeps.then (State.axCoils_keeps ..) rfl ?_
          refine Keeps.then (State.setAx_keeps ..) rfl ?_
          split
          · rename_i y404 y405 y406
            refine Keeps.then (State.axCoils_keeps ..) rfl ?_
            refine Keeps.then (State.setAx_keeps ..) rfl ?_
            exact Keeps.refl _ _
          · rename_i y407 y408
            exact Keeps.refl _ _
        · rename_i y409 y410
          split
          · rename_i y411 y412 y413
            refine Keeps.then (State.axCoils_keeps ..) rfl ?_
            refine Keeps.then (State.setAx_keeps ..) rfl ?_
            exact Keeps.refl _ _
          · rename_i y414 y415
            exact Keeps.refl _ _
      · rename_i y416 y417
        split
        · rename_i y418 y419 y420
          refine Keeps.then (State.axCoils_keeps ..) rfl ?_
          refine Keeps.then (State.setAx_keeps ..) rfl ?_
          split
          · rename_i y421 y422 y423
            refine Keeps.then (State.axCoils_keeps ..) rfl ?_
            refine Keeps.then (State.setAx_keeps ..) rfl ?_
            exact Keeps.refl _ _
          · rename_i y424 y425
            exact Keeps.refl _ _
        · rename_i y426 y427
          split
          · rename_i y428 y429 y430
            refine Keeps.then (State.axCoils_keeps ..) rfl ?_
            refine Keeps.then (State.setAx_keeps ..) rfl ?_
            exact Keeps.refl _ _
          · rename_i y431 y432
            exact Keeps.refl _ _
    · rename_i y433 y434 y435
      split
      · rename_i y436 y437 y438
        refine Keeps.then (State.replan_keeps ..) rfl ?_
        refine Keeps.then (State.setAx_keeps ..) rfl ?_
        split
        · rename_i y439 y440 y441
          refine Keeps.then (State.axCoils_keeps ..) rfl ?_
          refine Keeps.then (State.setAx_keeps ..) rfl ?_
          split
          · rename_i y442 y443 y444
            refine Keeps.then (State.axCoils_keeps ..) rfl ?_
            refine Keeps.then (State.setAx_keeps ..) rfl ?_
            exact Keeps.refl _ _
          · rename_i y445 y446
            exact Keeps.refl _ _
        · rename_i y447 y448
          split
          · rename_i y449 y450 y451
            refine Keeps.then (State.axCoils_keeps ..) rfl ?_
            refine Keeps.then (State.setAx_keeps ..) rfl ?_
            exact Keeps.refl _ _
          · rename_i y452 y453
            exact Keeps.refl _ _
      · rename_i y454 y455
        split
        · rename_i y456 y457 y458
          refine Keeps.then (State.axCoils_keeps ..) rfl ?_
          refine Keeps.then (State.setAx_keeps ..) rfl ?_
          split
          · rename_i y459 y460 y461
            refine Keeps.then (State.axCoils_keeps ..) rfl ?_
            refine Keeps.then (State.setAx_keeps ..) rfl ?_
            exact Keeps.refl _ _
          · rename_i y462 y463
            exact Keeps.refl _ _
        · rename_i y464 y465
          split
          · rename_i y466 y467 y468
            refine Keeps.then (State.axCoils_keeps ..) rfl ?_
            refine Keeps.then (State.setAx_keeps ..) rfl ?_
            exact Keeps.refl _ _
          · rename_i y469 y470
            exact Keeps.refl _ _

theorem execNak_keeps (p ty seq s) : Answers [.out, .regs, .ports, .jnl, .sess, .evt, .cal] s (execNak p ty seq s) := by
  unfold execNak
  refine Answers.next ?_
  refine Keeps.ite ?_ ?_
  · refine Keeps.then (State.resendSelect_keeps ..) rfl ?_
    exact Keeps.refl _ _
  · exact Keeps.refl _ _

theorem execNeighbourLost_keeps (addr s) : Answers [.freeIdx, .out, .regs, .jobs, .seam, .pen, .jnl, .tim, .fab, .axes, .evt,
    .pwr] s (execNeighbourLost addr s) := by
  unfold execNeighbourLost
  refine Answers.next ?_
  refine Keeps.ite ?_ ?_
  · refine Keeps.then (State.neighbourGone_keeps ..) rfl ?_
    exact Keeps.refl _ _
  · exact Keeps.refl _ _

theorem execNeighbourSolicitation_keeps (e target s) : Answers [.out] s (execNeighbourSolicitation e target s) := by
  unfold execNeighbourSolicitation
  extract_lets x1
  refine Answers.next ?_
  refine Keeps.ite ?_ ?_
  · refine Keeps.then (State.emit_keeps ..) rfl ?_
    exact Keeps.refl _ _
  · exact Keeps.refl _ _

theorem execNightSignalDetect_keeps (s) : Answers allParts s (execNightSignalDetect s) := by
  unfold execNightSignalDetect
  extract_lets x1
  refine Answers.next ?_
  refine Keeps.ite ?_ ?_
  · refine Keeps.then (State.wakeSource_keeps ..) rfl ?_
    exact Keeps.refl _ _
  · exact Keeps.refl _ _

theorem execNop_keeps (n idx s) : Answers [.out, .regs, .jnl, .sess, .evt] s (execNop n idx s) := by
  unfold execNop
  refine Answers.next ?_
  refine State.runDesc_keeps rfl ?_ ?_
  · exact Keeps.refl _ _
  · intro a1 a2 a3
    refine Keeps.then (State.doneDesc_keeps ..) rfl ?_
    exact a3

theorem execOpenSession_keeps (f s) : Answers [.freeIdx, .out, .regs, .ports, .jobs, .pen, .jnl, .ovw, .pln, .sess, .tim, .fab, .axes,
    .evt, .crcs, .cal, .pwr] s (execOpenSession f s) := by
  unfold execOpenSession
  refine State.mgmtType_keeps rfl ?_ ?_
  · exact Keeps.refl _ _
  · intro a1 a2 a3 a4 a5
    refine Gives.ok ?_
    refine Keeps.then (State.sessOpen_keeps ..) rfl ?_
    exact a5

theorem execOrder_keeps (_e bytes s) : Answers [.freeIdx, .out, .regs, .ports, .ctxs, .slices, .coders, .jobs, .seam, .pen, .jnl, .ovw,
    .pln, .sess, .tim, .fab, .encs, .dividers, .axes, .evt, .cal, .pwr, .zeroLatched] s (execOrder _e bytes s) := by
  unfold execOrder
  split
  · rename_i y1 y2
    refine Answers.next ?_
    exact Keeps.refl _ _
  · rename_i y3 y4 y5 y6
    extract_lets x7 x8 x9 x10 x11 x12
    have k13 : Keeps [.freeIdx, .out, .regs, .ports, .ctxs, .slices, .coders, .jobs, .seam, .pen, .jnl, .ovw, .pln, .sess, .tim, .fab,
        .encs, .dividers, .axes, .evt, .cal, .pwr, .zeroLatched] s x10 := by
      unfold x10
      refine Keeps.then (State.fabTook_keeps ..) rfl ?_
      have k14 := State.fabFor_keeps _ _ _ _ y6
      refine Keeps.then k14 rfl ?_
      exact Keeps.refl _ _
    clear_value x10
    have k15 : Keeps [.freeIdx, .out, .regs, .ports, .ctxs, .slices, .coders, .jobs, .seam, .pen, .jnl, .ovw, .pln, .sess, .tim, .fab,
        .encs, .dividers, .axes, .evt, .cal, .pwr, .zeroLatched] s x12 := by
      unfold x12
      refine Keeps.then (State.orderAnswer_keeps ..) rfl ?_
      refine Keeps.then (State.bump_keeps ..) rfl ?_
      exact k13
    clear_value x12
    refine Answers.ite ?_ ?_
    · refine Answers.next ?_
      refine Keeps.then (State.orderAnswer_keeps ..) rfl ?_
      have k16 := State.fabFor_keeps _ _ _ _ y6
      refine Keeps.then k16 rfl ?_
      exact Keeps.refl _ _
    · refine Answers.ite ?_ ?_
      · refine Answers.next ?_
        refine Keeps.then (State.orderAnswer_keeps ..) rfl ?_
        refine Keeps.then (State.setMismatch_keeps ..) rfl ?_
        exact k13
      · refine Answers.ite ?_ ?_
        · refine Answers.next ?_
          refine Keeps.ite ?_ ?_
          · refine Keeps.then (State.queueDue_keeps ..) rfl ?_
            exact k15
          · refine Keeps.then (State.globalEffect_keeps ..) rfl ?_
            exact k15
        · refine Answers.next ?_
          refine Keeps.then (State.orderAnswer_keeps ..) rfl ?_
          refine Keeps.then (State.queueDue_keeps ..) rfl ?_
          exact k13

theorem execOrderAck_keeps (_e bytes s) : Answers [.out, .regs, .seam, .jnl, .sess, .fab, .evt] s (execOrderAck _e bytes s) := by
  unfold execOrderAck
  split
  · rename_i y1 y2
    refine Answers.next ?_
    exact Keeps.refl _ _
  · rename_i y3 y4 y5 y6
    split
    · rename_i y7 y8
      refine Answers.next ?_
      refine Keeps.then (State.fabStale_keeps ..) rfl ?_
      have k9 := State.fabFor_keeps _ _ _ _ y6
      refine Keeps.then k9 rfl ?_
      exact Keeps.refl _ _
    · rename_i y10 y11 y12
      extract_lets x13
      refine Answers.next ?_
      refine Keeps.then (State.fireIf_keeps ..) rfl ?_
      refine Keeps.then (State.fireIf_keeps ..) rfl ?_
      refine Keeps.then (State.orderAcked_keeps ..) rfl ?_
      have k14 := State.fabFor_keeps _ _ _ _ y6
      refine Keeps.then k14 rfl ?_
      exact Keeps.refl _ _

theorem execOrderAckDeadline_keeps (s) : Answers [.out, .regs, .jnl, .sess, .fab, .evt] s (execOrderAckDeadline s) := by
  unfold execOrderAckDeadline
  split
  · rename_i y1 y2
    refine Answers.next ?_
    exact Keeps.refl _ _
  · rename_i y3 y4 y5
    extract_lets x6 x7 x8
    have k9 : Keeps [.out, .regs, .jnl, .sess, .fab, .evt] s x7 := by
      unfold x7
      refine Keeps.set_fab rfl ?_
      exact Keeps.refl _ _
    clear_value x7
    have k10 : Keeps [.out, .regs, .jnl, .sess, .fab, .evt] s x8 := by
      unfold x8
      refine Keeps.then (State.fire_keeps ..) rfl ?_
      exact k9
    clear_value x8
    refine Answers.next ?_
    refine Keeps.ite ?_ ?_
    · refine Keeps.then (State.finishDesc_keeps ..) rfl ?_
      exact k10
    · exact k10

theorem execOutputLine_keeps (c s) : Answers [.out, .regs, .ctxs, .ovw, .tim, .fab] s (execOutputLine c s) := by
  unfold execOutputLine
  split
  · rename_i y1 y2
    refine Answers.next ?_
    exact Keeps.refl _ _
  · rename_i y3 y4 y5
    extract_lets x6
    refine Answers.ite ?_ ?_
    · refine Answers.next ?_
      exact Keeps.refl _ _
    · split
      · rename_i y7 y8
        refine Answers.next ?_
        exact Keeps.refl _ _
      · rename_i y9 y10 y11 y12 y13
        refine Answers.next ?_
        refine Keeps.then (State.putLine_keeps ..) rfl ?_
        refine Keeps.then (State.setCtx_keeps ..) rfl ?_
        exact Keeps.refl _ _

theorem execOverviewLine_keeps (s) : Answers [.out, .regs, .ovw, .sess, .evt] s (execOverviewLine s) := by
  unfold execOverviewLine
  split
  · rename_i y1 y2 y3 y4 y5 y6 y7
    extract_lets x8 x9 x10
    have k11 : Keeps [.out, .regs, .ovw, .sess, .evt] s x10 := by
      unfold x10
      refine Keeps.ite ?_ ?_
      · refine Keeps.set_ovw rfl ?_
        exact Keeps.refl _ _
      · exact Keeps.refl _ _
    clear_value x10
    refine Answers.ite ?_ ?_
    · refine Answers.next ?_
      refine Keeps.then (State.ovwDrop_keeps ..) rfl ?_
      exact Keeps.refl _ _
    · split
      · rename_i y12 y13
        refine Answers.next ?_
        refine Keeps.then (State.fire_keeps ..) rfl ?_
        refine Keeps.then (State.ovwDrop_keeps ..) rfl ?_
        refine Keeps.then (State.bump_keeps ..) rfl ?_
        exact k11
      · rename_i y14 y15 y16
        extract_lets x17 x18
        have k19 : Keeps [.out, .regs, .ovw, .sess, .evt] s x18.1 := by
          unfold x18
          refine Keeps.then (State.ringPut_keeps ..) rfl ?_
          exact k11
        clear_value x18
        refine Answers.ite ?_ ?_
        · refine Answers.next ?_
          refine Keeps.then (State.fire_keeps ..) rfl ?_
          refine Keeps.then (State.ovwDrop_keeps ..) rfl ?_
          refine Keeps.then (State.bump_keeps ..) rfl ?_
          exact k11
        · split
          · rename_i y20 y21
            refine Answers.next ?_
            refine Keeps.then (State.ovwWritten_keeps ..) rfl ?_
            exact k19
          · rename_i y22 y23 y24
            refine Answers.next ?_
            refine Keeps.then (State.fire_keeps ..) rfl ?_
            refine Keeps.then (State.ovwDrop_keeps ..) rfl ?_
            refine Keeps.then (State.bump_keeps ..) rfl ?_
            exact k19
  · rename_i y25 y26 y27
    refine Answers.next ?_
    exact Keeps.refl _ _

theorem execOvervoltage_keeps (s) : Answers allParts s (execOvervoltage s) := by
  unfold execOvervoltage
  extract_lets x1 x2 x3 x4 x5
  have k6 : Keeps allParts s x1 := by
    unfold x1
    refine Keeps.then (State.setFld_keeps ..) rfl ?_
    refine Keeps.then (State.setFld_keeps ..) rfl ?_
    refine Keeps.then (State.fire_keeps ..) rfl ?_
    exact Keeps.refl _ _
  clear_value x1
  have k7 : Keeps allParts s x3 := by
    unfold x3
    refine Keeps.set_pwr rfl ?_
    exact k6
  clear_value x3
  have k8 : Keeps allParts s x4 := by
    unfold x4
    refine Keeps.then (State.alwaysOnLost_keeps ..) rfl ?_
    refine Keeps.ite ?_ ?_
    · exact k7
    · refine Keeps.then (State.toNight_keeps ..) rfl ?_
      refine Keeps.then (State.bridgesOff_keeps ..) rfl ?_
      exact k7
  clear_value x4
  refine Answers.ite ?_ ?_
  · refine Answers.next ?_
    exact Keeps.refl _ _
  · refine Answers.next ?_
    refine Keeps.then (State.emit_keeps ..) rfl ?_
    refine Keeps.set_pwr rfl ?_
    exact k8

theorem execOvwRateLimit_keeps (s) : Answers [.regs, .ovw, .evt] s (execOvwRateLimit s) := by
  unfold execOvwRateLimit
  extract_lets x1
  refine Answers.next ?_
  refine Keeps.ite ?_ ?_
  · refine Keeps.then (State.fire_keeps ..) rfl ?_
    refine Keeps.set_ovw rfl ?_
    exact Keeps.refl _ _
  · exact Keeps.refl _ _

theorem execPartsPeakClear_keeps (v s) : Answers [.regs] s (execPartsPeakClear v s) := by
  unfold execPartsPeakClear
  refine Answers.next ?_
  refine Keeps.ite ?_ ?_
  · refine Keeps.then (State.setFld_keeps ..) rfl ?_
    exact Keeps.refl _ _
  · exact Keeps.refl _ _

theorem execPdelay_keeps (e kind m s) : Answers [.out, .tim] s (execPdelay e kind m s) := by
  unfold execPdelay
  extract_lets x1 x2 x3 x4
  refine Answers.ite ?_ ?_
  · refine Answers.next ?_
    exact Keeps.refl _ _
  · split
    · rename_i y5
      refine Answers.next ?_
      refine Keeps.then (State.emits_keeps ..) rfl ?_
      exact Keeps.refl _ _
    · rename_i y6
      split
      · rename_i y7 y8 y9
        refine Answers.ite ?_ ?_
        · refine Answers.next ?_
          exact Keeps.refl _ _
        · refine Answers.ite ?_ ?_
          · refine Answers.next ?_
            refine Keeps.then (State.setPtp_keeps ..) rfl ?_
            exact Keeps.refl _ _
          · refine Answers.next ?_
            refine Keeps.then (State.setPtp_keeps ..) rfl ?_
            exact Keeps.refl _ _
      · rename_i y10 y11
        refine Answers.next ?_
        exact Keeps.refl _ _
    · rename_i y12
      split
      · rename_i y13 y14 y15 y16 y17 y18 y19 y20
        refine Answers.ite ?_ ?_
        · refine Answers.next ?_
          exact Keeps.refl _ _
        · refine Answers.next ?_
          refine Keeps.then (State.setPtp_keeps ..) rfl ?_
          exact Keeps.refl _ _
      · rename_i y21 y22 y23
        refine Answers.next ?_
        exact Keeps.refl _ _

theorem execPendingEvent_keeps (v s) : Answers [.out, .regs, .jnl, .sess, .tim, .axes, .evt] s (execPendingEvent v s) := by
  unfold execPendingEvent
  refine Answers.next ?_
  refine Keeps.then (State.pendingRun_keeps ..) rfl ?_
  exact Keeps.refl _ _

theorem execPennantWrite_keeps (s) : Answers [.out, .regs, .pen, .jnl, .sess, .tim, .evt] s (execPennantWrite s) := by
  unfold execPennantWrite
  refine Answers.next ?_
  refine Keeps.ite ?_ ?_
  · refine Keeps.then (State.penDeliver_keeps ..) rfl ?_
    refine Keeps.then (State.penGather_keeps ..) rfl ?_
    exact Keeps.refl _ _
  · refine Keeps.then (State.penDeliver_keeps ..) rfl ?_
    exact Keeps.refl _ _

theorem execPfcLong_keeps (e s) : Answers [.regs, .evt] s (execPfcLong e s) := by
  unfold execPfcLong
  refine Answers.next ?_
  split
  · rename_i y1 y2 y3
    refine Keeps.ite ?_ ?_
    · refine Keeps.then (State.fire_keeps ..) rfl ?_
      exact Keeps.refl _ _
    · exact Keeps.refl _ _
  · rename_i y4 y5
    exact Keeps.refl _ _

theorem execPfcPause_keeps (e paused s) : Answers [.regs, .eths] s (execPfcPause e paused s) := by
  unfold execPfcPause
  extract_lets x1 x2
  have k3 : Keeps [.regs, .eths] s x2 := by
    unfold x2
    refine Keeps.ite ?_ ?_
    · refine Keeps.then (State.bump_keeps ..) rfl ?_
      exact Keeps.refl _ _
    · exact Keeps.refl _ _
  clear_value x2
  refine Answers.ite ?_ ?_
  · refine Answers.next ?_
    exact Keeps.refl _ _
  · refine Answers.next ?_
    refine Keeps.then (State.setEth_keeps ..) rfl ?_
    exact k3

theorem execPhyIdleTimeout_keeps (p s) : Answers [.out, .regs, .ports] s (execPhyIdleTimeout p s) := by
  unfold execPhyIdleTimeout
  split
  · rename_i y1 y2 y3
    refine Answers.next ?_
    refine Keeps.ite ?_ ?_
    · refine Keeps.then (State.phySleep_keeps ..) rfl ?_
      exact Keeps.refl _ _
    · exact Keeps.refl _ _
  · rename_i y4 y5
    refine Answers.next ?_
    exact Keeps.refl _ _

theorem execPhyWake_keeps (p s) : Answers [.out, .regs, .ports] s (execPhyWake p s) := by
  unfold execPhyWake
  refine Answers.next ?_
  refine Keeps.ite ?_ ?_
  · refine Keeps.then (State.phyResume_keeps ..) rfl ?_
    exact Keeps.refl _ _
  · exact Keeps.refl _ _

theorem execPhyWakeTimeout_keeps (p s) : Answers [.out, .regs, .ports, .jnl, .sess, .evt, .cal] s (execPhyWakeTimeout p s) := by
  unfold execPhyWakeTimeout
  refine Answers.next ?_
  refine Keeps.ite ?_ ?_
  · refine Keeps.then (State.discover_keeps ..) rfl ?_
    exact Keeps.refl _ _
  · exact Keeps.refl _ _

theorem execPlanGoLive_keeps (s) : Answers [.freeIdx, .out, .regs, .ports, .ctxs, .coders, .jobs, .seam, .pen, .jnl, .ovw, .pln, .sess,
    .tim, .fab, .encs, .dividers, .axes, .evt, .cal, .pwr] s (execPlanGoLive s) := by
  unfold execPlanGoLive
  extract_lets x1 x2 x3
  refine Answers.ite ?_ ?_
  · refine Answers.next ?_
    refine Keeps.ite ?_ ?_
    · refine Keeps.then (State.fire_keeps ..) rfl ?_
      refine Keeps.then (State.commitLive_keeps ..) rfl ?_
      refine Keeps.set_pln rfl ?_
      exact Keeps.refl _ _
    · exact Keeps.refl _ _
  · refine Answers.next ?_
    refine Keeps.then (State.commitLive_keeps ..) rfl ?_
    exact Keeps.refl _ _

theorem execPlanReady_keeps (_e bytes s) : Answers [.out, .regs, .seam, .pln, .tim, .fab, .evt] s (execPlanReady _e bytes s) := by
  unfold execPlanReady
  split
  · rename_i y1 y2
    refine Answers.next ?_
    exact Keeps.refl _ _
  · rename_i y3 y4 y5 y6
    extract_lets x7 x8
    have k9 : Keeps [.out, .regs, .seam, .pln, .tim, .fab, .evt] s x7 := by
      unfold x7
      refine Keeps.then (State.fabPassed_keeps ..) rfl ?_
      have k10 := State.fabFor_keeps _ _ _ _ y6
      refine Keeps.then k10 rfl ?_
      exact Keeps.refl _ _
    clear_value x7
    refine Answers.ite ?_ ?_
    · refine Answers.next ?_
      have k11 := State.fabFor_keeps _ _ _ _ y6
      refine Keeps.then k11 rfl ?_
      exact Keeps.refl _ _
    · refine Answers.next ?_
      refine Keeps.then (State.readyCheck_keeps ..) rfl ?_
      refine Keeps.set_fab rfl ?_
      exact k9

theorem execPllLockLoss_keeps (pll s) : Answers allParts s (execPllLockLoss pll s) := by
  unfold execPllLockLoss
  refine Answers.next ?_
  split
  · rename_i y1 y2
    exact Keeps.refl _ _
  · rename_i y3 y4
    refine Keeps.ite ?_ ?_
    · refine Keeps.then (State.dawnFails_keeps ..) rfl ?_
      exact Keeps.refl _ _
    · exact Keeps.refl _ _
  · rename_i y5 y6
    refine Keeps.ite ?_ ?_
    · refine Keeps.then (State.warmFailed_keeps ..) rfl ?_
      exact Keeps.refl _ _
    · exact Keeps.refl _ _
  · rename_i y7 y8 y9 y10
    refine Keeps.then (State.pllLost_keeps ..) rfl ?_
    exact Keeps.refl _ _

theorem execPresentAsserted_keeps (s) : Answers [.out, .pwr] s (execPresentAsserted s) := by
  unfold execPresentAsserted
  extract_lets x1
  refine Answers.ite ?_ ?_
  · refine Answers.next ?_
    refine Keeps.set_pwr rfl ?_
    exact Keeps.refl _ _
  · refine Answers.ite ?_ ?_
    · refine Answers.next ?_
      exact Keeps.refl _ _
    · refine Answers.next ?_
      refine Keeps.then (State.emit_keeps ..) rfl ?_
      refine Keeps.set_pwr rfl ?_
      exact Keeps.refl _ _

theorem execProvision_keeps (f s) : Answers [.out, .regs, .sess, .evt, .pwr] s (execProvision f s) := by
  unfold execProvision
  refine State.mgmtRun_keeps rfl ?_ ?_
  · exact Keeps.refl _ _
  · intro a1 a2 a3 a4 a5
    refine Gives.ite ?_ ?_
    · refine Gives.ok ?_
      dsimp -zeta only
      exact a5
    · refine Gives.ite ?_ ?_
      · refine Gives.ok ?_
        dsimp -zeta only
        exact a5
      · refine Gives.ite ?_ ?_
        · refine Gives.ok ?_
          dsimp -zeta only
          exact a5
        · refine Gives.ite ?_ ?_
          · refine Gives.ok ?_
            dsimp -zeta only
            exact a5
          · refine Gives.ok ?_
            dsimp -zeta only
            refine Keeps.then (State.setKey_keeps ..) rfl ?_
            exact a5

theorem execPtpTransit_keeps (e m kind dwell s) : Answers [.out, .tim] s (execPtpTransit e m kind dwell s) := by
  unfold execPtpTransit
  extract_lets x1 x2 x3 x4 x5 x6
  refine Answers.ite ?_ ?_
  · exact Answers.fault
  · refine Answers.ite ?_ ?_
    · refine Answers.next ?_
      exact Keeps.refl _ _
    · split
      · rename_i y7
        refine Answers.ite ?_ ?_
        · refine Answers.next ?_
          refine Keeps.then (State.emit_keeps ..) rfl ?_
          refine Keeps.set_tim rfl ?_
          exact Keeps.refl _ _
        · refine Answers.next ?_
          refine Keeps.then (State.emit_keeps ..) rfl ?_
          exact Keeps.refl _ _
      · rename_i y8
        refine Answers.next ?_
        refine Keeps.then (State.emit_keeps ..) rfl ?_
        refine Keeps.set_tim rfl ?_
        exact Keeps.refl _ _
      · rename_i y9
        refine Answers.ite ?_ ?_
        · refine Answers.next ?_
          exact Keeps.refl _ _
        · refine Answers.next ?_
          refine Keeps.then (State.emit_keeps ..) rfl ?_
          exact Keeps.refl _ _
      · rename_i y10
        refine Answers.ite ?_ ?_
        · refine Answers.next ?_
          exact Keeps.refl _ _
        · refine Answers.next ?_
          refine Keeps.then (State.emit_keeps ..) rfl ?_
          exact Keeps.refl _ _

theorem execPwrRestart_keeps (v s) : Answers [.freeIdx, .out, .regs, .ports, .ctxs, .slices, .jobs, .seam, .pen, .jnl, .ovw, .pln,
    .sess, .tim, .fab, .axes, .evt, .cal, .pwr] s (execPwrRestart v s) := by
  unfold execPwrRestart
  refine Answers.next ?_
  refine Keeps.then (State.pwrRestart_keeps ..) rfl ?_
  exact Keeps.refl _ _

theorem execQsfpModuleInserted_keeps (cage powerMw media s) : Answers [.out, .regs] s (execQsfpModuleInserted cage powerMw media s) := by
  unfold execQsfpModuleInserted
  extract_lets x1 x2
  have k3 : Keeps [.out, .regs] s x2 := by
    unfold x2
    refine Keeps.then (State.emit_keeps ..) rfl ?_
    exact Keeps.refl _ _
  clear_value x2
  refine Answers.next ?_
  refine Keeps.ite ?_ ?_
  · refine Keeps.then (State.setFlag_keeps ..) rfl ?_
    exact k3
  · refine Keeps.then (State.setFld_keeps ..) rfl ?_
    refine Keeps.then (State.setFlag_keeps ..) rfl ?_
    exact k3

theorem execQsfpModuleRemoved_keeps (cage s) : Answers [.freeIdx, .out, .regs, .jobs, .seam, .pen, .jnl, .eths, .tim, .fab, .axes,
    .evt, .pwr] s (execQsfpModuleRemoved cage s) := by
  unfold execQsfpModuleRemoved
  extract_lets x1
  refine Answers.next ?_
  refine Keeps.ite ?_ ?_
  · refine Keeps.then (State.setFld_keeps ..) rfl ?_
    exact Keeps.refl _ _
  · refine Keeps.then (State.fire_keeps ..) rfl ?_
    refine Keeps.then (State.setFld_keeps ..) rfl ?_
    refine Keeps.then (State.setFld_keeps ..) rfl ?_
    refine Keeps.then (State.linkFalls_keeps ..) rfl ?_
    exact Keeps.refl _ _

theorem execQueuePeakClear_keeps (v s) : Answers [.regs] s (execQueuePeakClear v s) := by
  unfold execQueuePeakClear
  refine Answers.next ?_
  refine Keeps.ite ?_ ?_
  · refine Keeps.then (State.queuePeakClear_keeps ..) rfl ?_
    exact Keeps.refl _ _
  · exact Keeps.refl _ _

theorem execRateRecovery_keeps (n s) : Answers [.regs, .sess] s (execRateRecovery n s) := by
  unfold execRateRecovery
  extract_lets x1
  refine Answers.next ?_
  refine Keeps.ite ?_ ?_
  · refine Keeps.then (State.setRoceRate_keeps ..) rfl ?_
    exact Keeps.refl _ _
  · exact Keeps.refl _ _

theorem execRatioUpdate_keeps (s) : Answers [.freeIdx, .regs, .ring, .evt] s (execRatioUpdate s) := by
  unfold execRatioUpdate
  split
  · rename_i y1 y2
    refine Answers.next ?_
    exact Keeps.refl _ _
  · rename_i y3 y4 y5
    extract_lets x6 x7 x8 x9
    have k10 : Keeps [.freeIdx, .regs, .ring, .evt] s x7.2 := by
      unfold x7
      refine Keeps.ite_map Prod.snd ?_ ?_
      · refine Keeps.then (State.takeFree_keeps ..) rfl ?_
        exact Keeps.refl _ _
      · dsimp -zeta only
        exact Keeps.refl _ _
    clear_value x7
    have k11 : Keeps [.freeIdx, .regs, .ring, .evt] s x8 := by
      unfold x8
      exact k10
    clear_value x8
    have k12 : Keeps [.freeIdx, .regs, .ring, .evt] s x9 := by
      unfold x9
      refine Keeps.then (State.setFld_keeps ..) rfl ?_
      refine Keeps.set_ring rfl ?_
      exact k11
    clear_value x9
    refine Answers.next ?_
    refine Keeps.ite ?_ ?_
    · refine Keeps.then (State.cmpFire_keeps ..) rfl ?_
      refine Keeps.then (State.setFld_keeps ..) rfl ?_
      exact k12
    · exact k12

theorem execRdmaAcknowledgement_keeps (n psn s) : Answers [.sess] s (execRdmaAcknowledgement n psn s) := by
  unfold execRdmaAcknowledgement
  extract_lets x1 x2
  refine Answers.next ?_
  refine Keeps.ite ?_ ?_
  · refine Keeps.then (State.setOps_keeps ..) rfl ?_
    exact Keeps.refl _ _
  · exact Keeps.refl _ _

theorem execRdmaDoorbell_keeps (n key addr bytes s) : Answers [.out, .regs, .jnl, .sess, .evt,
    .statHeld] s (execRdmaDoorbell n key addr bytes s) := by
  unfold execRdmaDoorbell
  extract_lets x1 x2 x3
  have k4 : Keeps [.out, .regs, .jnl, .sess, .evt, .statHeld] s x3 := by
    unfold x3
    refine Keeps.then (State.emit_keeps ..) rfl ?_
    exact Keeps.refl _ _
  clear_value x3
  refine Answers.ite ?_ ?_
  · refine Answers.next ?_
    exact Keeps.refl _ _
  · refine Answers.ite ?_ ?_
    · refine Answers.next ?_
      refine Keeps.then (State.sessLost_keeps ..) rfl ?_
      refine Keeps.then (State.emit_keeps ..) rfl ?_
      exact Keeps.refl _ _
    · refine Answers.ite ?_ ?_
      · refine Answers.next ?_
        refine Keeps.then (State.badBell_keeps ..) rfl ?_
        exact k4
      · refine Answers.next ?_
        refine Keeps.then (State.doorbell_keeps ..) rfl ?_
        exact k4

theorem execRdmaReadResponse_keeps (n bytes s) : Answers [.out, .regs, .ports, .ctxs, .jobs, .jnl, .pln, .sess, .tim, .fab, .axes,
    .evt, .crcs, .statHeld] s (execRdmaReadResponse n bytes s) := by
  unfold execRdmaReadResponse
  split
  · rename_i y1 y2
    refine Answers.next ?_
    exact Keeps.refl _ _
  · rename_i y3 y4 y5 y6
    split
    · rename_i y7 y8
      refine Answers.next ?_
      exact Keeps.refl _ _
    · rename_i y9 y10 y11
      refine Answers.ite ?_ ?_
      · refine Answers.next ?_
        exact Keeps.refl _ _
      · unfold outcomeOf
        split
        · rename_i y12 y13 y14
          refine Answers.next ?_
          unfold id
          have k15 := State.readCame_keeps _ _ _ _ _ y14
          refine Keeps.then k15 rfl ?_
          refine Keeps.then (State.setOps_keeps ..) rfl ?_
          exact Keeps.refl _ _
        · rename_i y16 y17 y18
          exact Answers.fault

theorem execRead_keeps (f s) : Answers [.out, .regs, .latches, .sess, .evt, .pwr] s (execRead f s) := by
  unfold execRead
  refine State.mgmtType_keeps rfl ?_ ?_
  · exact Keeps.refl _ _
  · intro a1 a2 a3 a4 a5
    extract_lets x6
    have k7 : Keeps [.out, .regs, .latches, .sess, .evt, .pwr] s x6.2 := by
      unfold x6
      refine Keeps.then (State.regReads_keeps ..) rfl ?_
      exact a5
    clear_value x6
    refine Gives.ite ?_ ?_
    · refine Gives.ok ?_
      dsimp -zeta only
      exact a5
    · refine Gives.ite ?_ ?_
      · refine Gives.ok ?_
        dsimp -zeta only
        exact a5
      · refine Gives.ok ?_
        dsimp -zeta only
        exact k7

theorem execRecordTimeout_keeps (p s) : Answers [.out, .regs, .ports, .jnl, .sess, .evt, .cal] s (execRecordTimeout p s) := by
  unfold execRecordTimeout
  refine Answers.next ?_
  refine Keeps.ite ?_ ?_
  · refine Keeps.then (State.resendSelect_keeps ..) rfl ?_
    exact Keeps.refl _ _
  · exact Keeps.refl _ _

theorem execRediscover_keeps (p s) : Answers [.out, .regs, .ports, .jnl, .pln, .sess, .evt, .cal] s (execRediscover p s) := by
  unfold execRediscover
  refine Answers.next ?_
  refine Keeps.then (State.rediscover_keeps ..) rfl ?_
  exact Keeps.refl _ _

theorem execRefresh_keeps (m s) : Answers [.mem] s (execRefresh m s) := by
  unfold execRefresh
  refine Answers.next ?_
  refine Keeps.ite ?_ ?_
  · refine Keeps.then (State.modMc_keeps ..) rfl ?_
    exact Keeps.refl _ _
  · exact Keeps.refl _ _

theorem execRefreshVariantSwitch_keeps (s) : Answers [.regs, .mem] s (execRefreshVariantSwitch s) := by
  unfold execRefreshVariantSwitch
  split
  · rename_i y1 y2
    refine Answers.next ?_
    exact Keeps.refl _ _
  · rename_i y3 y4 y5
    extract_lets x6
    refine Answers.next ?_
    refine Keeps.then (State.setFlag_keeps ..) rfl ?_
    refine Keeps.then (State.setFlag_keeps ..) rfl ?_
    refine Keeps.set_mem rfl ?_
    exact Keeps.refl _ _

theorem execRelease_keeps (n idx s) : Answers [.out, .regs, .jnl, .sess, .evt] s (execRelease n idx s) := by
  unfold execRelease
  refine Answers.next ?_
  refine State.runDesc_keeps rfl ?_ ?_
  · exact Keeps.refl _ _
  · intro a1 a2 a3
    extract_lets x4
    refine Keeps.ite ?_ ?_
    · refine Keeps.then (State.badParam_keeps ..) rfl ?_
      exact a3
    · split
      · rename_i y5 y6
        refine Keeps.then (State.wrongState_keeps ..) rfl ?_
        exact a3
      · rename_i y7 y8 y9
        refine Keeps.ite ?_ ?_
        · refine Keeps.then (State.doneDesc_keeps ..) rfl ?_
          refine Keeps.then (State.setWindow_keeps ..) rfl ?_
          exact a3
        · refine Keeps.then (State.wrongState_keeps ..) rfl ?_
          exact a3

theorem execRemoteAccessError_keeps (n s) : Answers [.freeIdx, .out, .regs, .jobs, .jnl, .pln, .sess, .evt,
    .crcs] s (execRemoteAccessError n s) := by
  unfold execRemoteAccessError
  split
  · rename_i y1 y2
    refine Answers.next ?_
    exact Keeps.refl _ _
  · rename_i y3 y4 y5 y6
    extract_lets x7
    have k8 : Keeps [.freeIdx, .out, .regs, .jobs, .jnl, .pln, .sess, .evt, .crcs] s x7 := by
      unfold x7
      refine Keeps.then (State.xfault_keeps ..) rfl ?_
      refine Keeps.then (State.setOps_keeps ..) rfl ?_
      exact Keeps.refl _ _
    clear_value x7
    refine Answers.next ?_
    refine Keeps.then (State.opRefused_keeps ..) rfl ?_
    exact k8

theorem execReplayDone_keeps (s) : Answers [.out, .regs, .sess, .evt] s (execReplayDone s) := by
  unfold execReplayDone
  refine Answers.ite ?_ ?_
  · refine Answers.next ?_
    exact Keeps.refl _ _
  · refine Answers.next ?_
    refine Keeps.then (State.replayEnds_keeps ..) rfl ?_
    refine Keeps.then (State.setFld_keeps ..) rfl ?_
    exact Keeps.refl _ _

theorem execReprocess_keeps (s idx st) : Answers [.out, .regs, .jobs, .jnl, .sess, .evt] st (execReprocess s idx st) := by
  unfold execReprocess
  refine Answers.next ?_
  refine State.runDesc_keeps rfl ?_ ?_
  · exact Keeps.refl _ _
  · intro a1 a2 a3
    split
    · rename_i y4 y5 y6
      refine Keeps.then (State.badParam_keeps ..) rfl ?_
      exact a3
    · rename_i y7 y8
      extract_lets x9 x10 x11 x12
      have k13 : Keeps [.out, .regs, .jobs, .jnl, .sess, .evt] st x11 := by
        unfold x11
        refine Keeps.then (State.setHring_keeps ..) rfl ?_
        exact a3
      clear_value x11
      refine Keeps.ite ?_ ?_
      · refine Keeps.then (State.wrongState_keeps ..) rfl ?_
        exact a3
      · refine Keeps.then (State.addJob_keeps ..) rfl ?_
        exact k13

theorem execRequalificationEnd_keeps (k s) : Answers [.regs] s (execRequalificationEnd k s) := by
  unfold execRequalificationEnd
  refine Answers.ite ?_ ?_
  · refine Answers.next ?_
    refine Keeps.then (State.setFld_keeps ..) rfl ?_
    exact Keeps.refl _ _
  · refine Answers.next ?_
    exact Keeps.refl _ _

theorem execRestartRings_keeps (f s) : Answers [.out, .regs, .sess, .evt, .pwr] s (execRestartRings f s) := by
  unfold execRestartRings
  refine State.mgmtType_keeps rfl ?_ ?_
  · exact Keeps.refl _ _
  · intro a1 a2 a3 a4 a5
    refine Gives.ok ?_
    refine Keeps.then (State.sessRestart_keeps ..) rfl ?_
    exact a5

theorem execResult_keeps (p fom lane s) : Answers [.freeIdx, .out, .regs, .ports, .jnl, .sess, .evt,
    .cal] s (execResult p fom lane s) := by
  unfold execResult
  extract_lets x1 x2
  refine Answers.ite ?_ ?_
  · refine Answers.next ?_
    refine Keeps.then (State.judgeStep_keeps ..) rfl ?_
    refine Keeps.then (State.setLane_keeps ..) rfl ?_
    exact Keeps.refl _ _
  · refine Answers.next ?_
    exact Keeps.refl _ _

theorem execResultTimeout_keeps (p l s) : Answers [.freeIdx, .out, .regs, .ports, .jnl, .sess, .evt,
    .cal] s (execResultTimeout p l s) := by
  unfold execResultTimeout
  extract_lets x1
  refine Answers.next ?_
  refine Keeps.ite ?_ ?_
  · refine Keeps.then (State.stepFails_keeps ..) rfl ?_
    exact Keeps.refl _ _
  · exact Keeps.refl _ _

theorem execResume_keeps (s idx st) : Answers [.out, .regs, .jobs, .jnl, .sess, .evt] st (execResume s idx st) := by
  unfold execResume
  refine Answers.next ?_
  refine State.runDesc_keeps rfl ?_ ?_
  · exact Keeps.refl _ _
  · intro a1 a2 a3
    extract_lets x4 x5
    split
    · rename_i y6 y7
      refine Keeps.then (State.finishDesc_keeps ..) rfl ?_
      exact a3
    · rename_i y8 y9 y10
      extract_lets x11 x12
      refine Keeps.ite ?_ ?_
      · refine Keeps.then (State.wrongState_keeps ..) rfl ?_
        exact a3
      · refine Keeps.ite ?_ ?_
        · refine Keeps.then (State.setJob_keeps ..) rfl ?_
          exact a3
        · refine Keeps.ite ?_ ?_
          · refine Keeps.then (State.badParam_keeps ..) rfl ?_
            exact a3
          · refine Keeps.ite ?_ ?_
            · refine Keeps.then (State.badParam_keeps ..) rfl ?_
              exact a3
            · refine Keeps.then (State.setJob_keeps ..) rfl ?_
              exact a3

theorem execRetiredClear_keeps (m v s) : Answers [.regs, .pwr] s (execRetiredClear m v s) := by
  unfold execRetiredClear
  refine Answers.next ?_
  refine Keeps.ite ?_ ?_
  · refine Keeps.then (State.retiredClear_keeps ..) rfl ?_
    exact Keeps.refl _ _
  · exact Keeps.refl _ _

theorem execRetrain_keeps (m corrections errors s) : Answers [.regs, .mem, .evt] s (execRetrain m corrections errors s) := by
  unfold execRetrain
  refine Answers.ite ?_ ?_
  · refine Answers.next ?_
    exact Keeps.refl _ _
  · refine Answers.ite ?_ ?_
    · refine Answers.next ?_
      refine Keeps.then (State.modMc_keeps ..) rfl ?_
      exact Keeps.refl _ _
    · refine Answers.next ?_
      refine Keeps.then (State.mcAlert_keeps ..) rfl ?_
      refine Keeps.then (State.bump_keeps ..) rfl ?_
      refine Keeps.then (State.modMc_keeps ..) rfl ?_
      exact Keeps.refl _ _

theorem execRingClear_keeps (s) : Answers [.regs] s (execRingClear s) := by
  unfold execRingClear
  refine Answers.next ?_
  refine Keeps.then (State.setFld_keeps ..) rfl ?_
  exact Keeps.refl _ _

theorem execSeamCorrectionSave_keeps (s) : Answers [.pwr] s (execSeamCorrectionSave s) := by
  unfold execSeamCorrectionSave
  refine Answers.next ?_
  refine Keeps.ite ?_ ?_
  · refine Keeps.then (State.saveSeams_keeps ..) rfl ?_
    exact Keeps.refl _ _
  · exact Keeps.refl _ _

theorem execSeamEstimate_keeps (c fabricSeam peak shift s) : Answers [.freeIdx, .regs,
    .cal] s (execSeamEstimate c fabricSeam peak shift s) := by
  unfold execSeamEstimate
  refine Answers.ite ?_ ?_
  · refine Answers.next ?_
    exact Keeps.refl _ _
  · split
    · rename_i y1 y2
      refine Answers.next ?_
      exact Keeps.refl _ _
    · rename_i y3 y4 y5
      extract_lets x6
      have k7 : Keeps [.freeIdx, .regs, .cal] s x6 := by
        unfold x6
        refine Keeps.then (State.seamResidual_keeps ..) rfl ?_
        exact Keeps.refl _ _
      clear_value x6
      refine Answers.ite ?_ ?_
      · refine Answers.next ?_
        refine Keeps.ite ?_ ?_
        · exact k7
        · refine Keeps.then (State.seamAsk_keeps ..) rfl ?_
          exact k7
      · refine Answers.next ?_
        refine Keeps.then (State.bump_keeps ..) rfl ?_
        exact Keeps.refl _ _

theorem execSeamStrip_keeps (_e bytes s) : Answers [.regs, .seam, .fab, .evt] s (execSeamStrip _e bytes s) := by
  unfold execSeamStrip
  split
  · rename_i y1 y2
    refine Answers.next ?_
    exact Keeps.refl _ _
  · rename_i y3 y4 y5 y6
    extract_lets x7 x8 x9 x10 x11 x12 x13
    have k14 : Keeps [.regs, .seam, .fab, .evt] s x9 := by
      unfold x9
      refine Keeps.then (State.bump_keeps ..) rfl ?_
      have k15 := State.fabFor_keeps _ _ _ _ y6
      refine Keeps.then k15 rfl ?_
      exact Keeps.refl _ _
    clear_value x9
    have k16 : Keeps [.regs, .seam, .fab, .evt] s x10 := by
      unfold x10
      refine Keeps.then (State.fabPassed_keeps ..) rfl ?_
      exact k14
    clear_value x10
    refine Answers.ite ?_ ?_
    · refine Answers.next ?_
      have k17 := State.fabFor_keeps _ _ _ _ y6
      refine Keeps.then k17 rfl ?_
      exact Keeps.refl _ _
    · refine Answers.next ?_
      refine Keeps.set_fab rfl ?_
      exact k16

theorem execSessionNoLink_keeps (n s) : Answers [.out, .regs, .sess, .evt] s (execSessionNoLink n s) := by
  unfold execSessionNoLink
  split
  · rename_i y1 y2
    refine Answers.next ?_
    exact Keeps.refl _ _
  · rename_i y3 y4 y5
    refine Answers.next ?_
    refine Keeps.ite ?_ ?_
    · refine Keeps.then (State.sessLost_keeps ..) rfl ?_
      exact Keeps.refl _ _
    · exact Keeps.refl _ _

theorem orderEffect_keeps (kind forms n d s) : Keeps [.out, .regs, .jnl, .pln, .sess, .tim, .fab,
    .evt] s (orderEffect kind forms n d s) := by
  unfold orderEffect
  extract_lets x1
  refine Keeps.ite ?_ ?_
  · refine Keeps.then (State.badParam_keeps ..) rfl ?_
    exact Keeps.refl _ _
  · refine Keeps.ite ?_ ?_
    · refine Keeps.ite ?_ ?_
      · refine Keeps.then (State.issueOrder_keeps ..) rfl ?_
        exact Keeps.refl _ _
      · refine Keeps.then (State.wrongState_keeps ..) rfl ?_
        exact Keeps.refl _ _
    · refine Keeps.then (State.queueDue_keeps ..) rfl ?_
      exact Keeps.refl _ _

theorem execSetZero_keeps (n idx s) : Answers [.out, .regs, .jnl, .pln, .sess, .tim, .fab, .evt] s (execSetZero n idx s) := by
  unfold execSetZero
  refine Answers.next ?_
  refine State.runDesc_keeps rfl ?_ ?_
  · exact Keeps.refl _ _
  · intro a1 a2 a3
    refine Keeps.then (orderEffect_keeps ..) rfl ?_
    exact a3

theorem settingsEffect_keeps (n d s) : Keeps [.out, .regs, .ports, .jnl, .sess, .evt] s (settingsEffect n d s) := by
  unfold settingsEffect
  extract_lets x1 x2 x3 x4
  have k5 : Keeps [.out, .regs, .ports, .jnl, .sess, .evt] s x4.1 := by
    unfold x4
    refine Keeps.then (State.hostRead_keeps ..) rfl ?_
    exact Keeps.refl _ _
  clear_value x4
  refine Keeps.ite ?_ ?_
  · refine Keeps.then (State.badParam_keeps ..) rfl ?_
    exact Keeps.refl _ _
  · refine Keeps.ite ?_ ?_
    · refine Keeps.then (State.badParam_keeps ..) rfl ?_
      exact Keeps.refl _ _
    · refine Keeps.ite ?_ ?_
      · refine Keeps.then (State.badParam_keeps ..) rfl ?_
        exact Keeps.refl _ _
      · split
        · rename_i y6 y7
          refine Keeps.then (State.wrongState_keeps ..) rfl ?_
          exact Keeps.refl _ _
        · rename_i y8 y9 y10
          refine Keeps.ite ?_ ?_
          · refine Keeps.then (State.badParam_keeps ..) rfl ?_
            exact Keeps.refl _ _
          · refine Keeps.ite ?_ ?_
            · refine Keeps.then (State.wrongState_keeps ..) rfl ?_
              exact Keeps.refl _ _
            · refine Keeps.ite ?_ ?_
              · refine Keeps.then (settingsApply_keeps ..) rfl ?_
                exact Keeps.refl _ _
              · split
                · rename_i y11 y12
                  exact k5
                · rename_i y13 y14 y15
                  refine Keeps.then (State.finishDesc_keeps ..) rfl ?_
                  exact k5

theorem execSettings_keeps (n idx s) : Answers [.out, .regs, .ports, .jnl, .sess, .evt] s (execSettings n idx s) := by
  unfold execSettings
  refine Answers.next ?_
  refine State.runDesc_keeps rfl ?_ ?_
  · exact Keeps.refl _ _
  · intro a1 a2 a3
    refine Keeps.then (settingsEffect_keeps ..) rfl ?_
    exact a3

theorem execSignalDetect_keeps (p s) : Answers [.out, .regs, .ports, .jnl, .sess, .evt, .cal] s (execSignalDetect p s) := by
  unfold execSignalDetect
  refine Answers.ite ?_ ?_
  · refine Answers.next ?_
    refine Keeps.then (State.discover_keeps ..) rfl ?_
    exact Keeps.refl _ _
  · refine Answers.next ?_
    exact Keeps.refl _ _

theorem sineLoadEffect_keeps (n d s) : Keeps [.out, .regs, .jnl, .sess, .evt] s (sineLoadEffect n d s) := by
  unfold sineLoadEffect
  refine Keeps.ite ?_ ?_
  · refine Keeps.then (State.badParam_keeps ..) rfl ?_
    exact Keeps.refl _ _
  · refine Keeps.then (State.loadRead_keeps ..) rfl ?_
    exact Keeps.refl _ _

theorem execSineLoad_keeps (n idx s) : Answers [.out, .regs, .jnl, .sess, .evt] s (execSineLoad n idx s) := by
  unfold execSineLoad
  split
  · rename_i y1 y2 y3
    refine Answers.ite ?_ ?_
    · exact Answers.fault
    · refine Answers.next ?_
      refine State.runDesc_keeps rfl ?_ ?_
      · exact Keeps.refl _ _
      · intro a4 a5 a6
        refine Keeps.then (sineLoadEffect_keeps ..) rfl ?_
        exact a6
  · rename_i y7 y8
    refine Answers.next ?_
    exact Keeps.refl _ _

theorem execSliceIdleTimeout_keeps (k s) : Answers [.regs, .slices] s (execSliceIdleTimeout k s) := by
  unfold execSliceIdleTimeout
  extract_lets x1
  refine Answers.ite ?_ ?_
  · refine Answers.next ?_
    exact Keeps.refl _ _
  · refine Answers.next ?_
    refine Keeps.then (State.setDomain_keeps ..) rfl ?_
    refine Keeps.then (State.setDomain_keeps ..) rfl ?_
    refine Keeps.then (State.setSlice_keeps ..) rfl ?_
    exact Keeps.refl _ _

theorem execSliceLoss_keeps (k s) : Answers [.out, .regs, .ctxs, .slices, .jnl, .pln, .sess, .evt] s (execSliceLoss k s) := by
  unfold execSliceLoss
  extract_lets x1 x2 x3 x4
  have k5 : Keeps [.out, .regs, .ctxs, .slices, .jnl, .pln, .sess, .evt] s x2 := by
    unfold x2
    refine Keeps.then (State.setSlice_keeps ..) rfl ?_
    exact Keeps.refl _ _
  clear_value x2
  have k6 : Keeps [.out, .regs, .ctxs, .slices, .jnl, .pln, .sess, .evt] s x3 := by
    unfold x3
    refine Keeps.then (State.setDomain_keeps ..) rfl ?_
    refine Keeps.then (State.setDomain_keeps ..) rfl ?_
    exact k5
  clear_value x3
  refine Answers.ite ?_ ?_
  · refine Answers.next ?_
    exact Keeps.refl _ _
  · refine Answers.next ?_
    refine Keeps.then (State.catalogue_keeps ..) rfl ?_
    refine Keeps.foldl ?_ ?_
    · exact k6
    · intro u7 e8 k9
      refine Keeps.then (State.ctxLost_keeps ..) rfl ?_
      exact k9

theorem execSliceWake_keeps (k s) : Answers [.regs, .slices] s (execSliceWake k s) := by
  unfold execSliceWake
  extract_lets x1
  refine Answers.next ?_
  refine Keeps.ite ?_ ?_
  · refine Keeps.then (State.sliceUp_keeps ..) rfl ?_
    exact Keeps.refl _ _
  · exact Keeps.refl _ _

theorem execSlotLoad_keeps (n idx set s) : Answers [.out, .regs, .jnl, .pln, .sess, .evt] s (execSlotLoad n idx set s) := by
  unfold execSlotLoad
  refine Answers.next ?_
  refine State.runDesc_keeps rfl ?_ ?_
  · exact Keeps.refl _ _
  · intro a1 a2 a3
    refine Keeps.then (bankEffect_keeps ..) rfl ?_
    exact a3

theorem execSnapshot_keeps (n idx s) : Answers [.out, .regs, .jnl, .pln, .sess, .tim, .fab, .evt] s (execSnapshot n idx s) := by
  unfold execSnapshot
  refine Answers.next ?_
  refine State.runDesc_keeps rfl ?_ ?_
  · exact Keeps.refl _ _
  · intro a1 a2 a3
    refine Keeps.ite ?_ ?_
    · refine Keeps.then (State.badParam_keeps ..) rfl ?_
      exact a3
    · refine Keeps.then (orderEffect_keeps ..) rfl ?_
      exact a3

theorem execSnapshotData_keeps (_e bytes s) : Answers [.out, .regs, .seam, .jnl, .sess, .tim, .fab,
    .evt] s (execSnapshotData _e bytes s) := by
  unfold execSnapshotData
  split
  · rename_i y1 y2
    refine Answers.next ?_
    exact Keeps.refl _ _
  · rename_i y3 y4 y5 y6
    extract_lets x7 x8 x9
    have k10 : Keeps [.out, .regs, .seam, .jnl, .sess, .tim, .fab, .evt] s x8 := by
      unfold x8
      refine Keeps.then (State.fabReply_keeps ..) rfl ?_
      refine Keeps.then (State.fabTook_keeps ..) rfl ?_
      have k11 := State.fabFor_keeps _ _ _ _ y6
      refine Keeps.then k11 rfl ?_
      exact Keeps.refl _ _
    clear_value x8
    refine Answers.ite ?_ ?_
    · split
      · rename_i y12 y13
        refine Answers.next ?_
        refine Keeps.then (State.fabStale_keeps ..) rfl ?_
        have k14 := State.fabFor_keeps _ _ _ _ y6
        refine Keeps.then k14 rfl ?_
        exact Keeps.refl _ _
      · rename_i y15 y16 y17
        refine Answers.next ?_
        refine Keeps.then (State.fabDone_keeps ..) rfl ?_
        have k18 := State.fabFor_keeps _ _ _ _ y6
        refine Keeps.then k18 rfl ?_
        exact Keeps.refl _ _
    · refine Answers.ite ?_ ?_
      · refine Answers.next ?_
        refine Keeps.then (State.fabReply_keeps ..) rfl ?_
        have k19 := State.fabFor_keeps _ _ _ _ y6
        refine Keeps.then k19 rfl ?_
        exact Keeps.refl _ _
      · refine Answers.next ?_
        refine Keeps.ite ?_ ?_
        · refine Keeps.then (State.snapGathered_keeps ..) rfl ?_
          refine Keeps.set_fab rfl ?_
          exact k10
        · exact k10

theorem execSnapshotLatch_keeps (s) : Answers [.out, .regs, .jnl, .pln, .sess, .tim, .fab, .evt] s (execSnapshotLatch s) := by
  unfold execSnapshotLatch
  split
  · rename_i y1 y2 y3
    refine Answers.next ?_
    refine Keeps.then (State.snapEffect_keeps ..) rfl ?_
    refine Keeps.then (State.dropDue_keeps ..) rfl ?_
    exact Keeps.refl _ _
  · rename_i y4 y5
    refine Answers.next ?_
    exact Keeps.refl _ _

theorem execSpeedWindow_keeps (k s) : Answers [.regs, .encs] s (execSpeedWindow k s) := by
  unfold execSpeedWindow
  extract_lets x1 x2 x3
  refine Answers.ite ?_ ?_
  · refine Answers.next ?_
    exact Keeps.refl _ _
  · refine Answers.next ?_
    refine Keeps.then (State.setEnc_keeps ..) rfl ?_
    refine Keeps.then (State.setFldInt_keeps ..) rfl ?_
    exact Keeps.refl _ _

theorem execStart_keeps (n idx s) : Answers [.out, .regs, .jnl, .pln, .sess, .tim, .fab, .evt] s (execStart n idx s) := by
  unfold execStart
  refine Answers.next ?_
  refine State.runDesc_keeps rfl ?_ ?_
  · exact Keeps.refl _ _
  · intro a1 a2 a3
    refine Keeps.ite ?_ ?_
    · refine Keeps.then (State.wrongState_keeps ..) rfl ?_
      exact a3
    · refine Keeps.then (orderEffect_keeps ..) rfl ?_
      exact a3

theorem execStartFailClear_keeps (v s) : Answers [.regs] s (execStartFailClear v s) := by
  unfold execStartFailClear
  refine Answers.next ?_
  refine Keeps.ite ?_ ?_
  · refine Keeps.then (State.startFailClear_keeps ..) rfl ?_
    exact Keeps.refl _ _
  · exact Keeps.refl _ _

theorem execStatus_keeps (p l b s) : Answers [.out, .regs, .ports, .ctxs, .jnl, .pln, .sess, .evt, .cal] s (execStatus p l b s) := by
  unfold execStatus
  extract_lets x1 x2
  refine Answers.ite ?_ ?_
  · refine Answers.next ?_
    refine Keeps.then (State.resumeJudge_keeps ..) rfl ?_
    refine Keeps.then (State.setLane_keeps ..) rfl ?_
    refine Keeps.then (State.setFld_keeps ..) rfl ?_
    exact Keeps.refl _ _
  · refine Answers.next ?_
    exact Keeps.refl _ _

theorem execStepAck_keeps (p rate lane s) : Answers [.ports] s (execStepAck p rate lane s) := by
  unfold execStepAck
  extract_lets x1
  refine Answers.next ?_
  refine Keeps.ite ?_ ?_
  · refine Keeps.then (State.setLane_keeps ..) rfl ?_
    exact Keeps.refl _ _
  · exact Keeps.refl _ _

theorem execStepEvaluation_keeps (x s) : Answers [.out, .regs, .pen, .jnl, .sess, .tim, .axes, .evt,
    .pwr] s (execStepEvaluation x s) := by
  unfold execStepEvaluation
  refine Answers.ite ?_ ?_
  · refine Answers.next ?_
    exact Keeps.refl _ _
  · refine Answers.next ?_
    refine Keeps.then (State.axCoils_keeps ..) rfl ?_
    refine Keeps.then (State.stepAxis_keeps ..) rfl ?_
    exact Keeps.refl _ _

theorem execStop_keeps (n idx s) : Answers [.out, .regs, .jnl, .pln, .sess, .tim, .fab, .evt] s (execStop n idx s) := by
  unfold execStop
  refine Answers.next ?_
  refine State.runDesc_keeps rfl ?_ ?_
  · exact Keeps.refl _ _
  · intro a1 a2 a3
    refine Keeps.then (orderEffect_keeps ..) rfl ?_
    exact a3

theorem execStopEffect_keeps (s) : Answers [.freeIdx, .out, .regs, .ports, .ctxs, .slices, .jobs, .seam, .pen, .jnl, .ovw, .pln, .sess,
    .tim, .fab, .axes, .evt, .cal, .pwr] s (execStopEffect s) := by
  unfold execStopEffect
  refine Answers.ite ?_ ?_
  · refine Answers.next ?_
    exact Keeps.refl _ _
  · split
    · rename_i y1 y2 y3
      refine Answers.next ?_
      refine Keeps.then (State.stopEffect_keeps ..) rfl ?_
      refine Keeps.then (State.dropDue_keeps ..) rfl ?_
      exact Keeps.refl _ _
    · rename_i y4 y5
      split
      · rename_i y6 y7
        refine Answers.next ?_
        exact Keeps.refl _ _
      · rename_i y8 y9 y10
        extract_lets x11
        refine Answers.next ?_
        refine Keeps.ite ?_ ?_
        · refine Keeps.then (State.stopThenMode_keeps ..) rfl ?_
          exact Keeps.refl _ _
        · refine Keeps.set_pwr rfl ?_
          exact Keeps.refl _ _

theorem execSunriseStep_keeps (n r s) : Answers [.frameTick, .out, .regs, .ports, .ctxs, .pen, .jnl, .mem, .pln, .sess, .eths, .tim,
    .encs, .dividers, .axes, .evt, .cal, .pwr] s (execSunriseStep n r s) := by
  unfold execSunriseStep
  extract_lets x1 x2
  have k3 : Keeps [.frameTick, .out, .regs, .ports, .ctxs, .pen, .jnl, .mem, .pln, .sess, .eths, .tim, .encs, .dividers, .axes, .evt,
      .cal, .pwr] s x2 := by
    unfold x2
    refine Keeps.set_pwr rfl ?_
    exact Keeps.refl _ _
  clear_value x2
  refine Answers.ite ?_ ?_
  · refine Answers.next ?_
    exact Keeps.refl _ _
  · refine Answers.ite ?_ ?_
    · refine Answers.next ?_
      refine Keeps.then (State.warmFailed_keeps ..) rfl ?_
      exact Keeps.refl _ _
    · refine Answers.next ?_
      refine Keeps.then (State.sunriseEffect_keeps ..) rfl ?_
      exact k3

theorem execSwitch_keeps (p rate lanes s) : Answers [.ports] s (execSwitch p rate lanes s) := by
  unfold execSwitch
  refine Answers.next ?_
  refine Keeps.ite ?_ ?_
  · refine Keeps.then (State.modPort_keeps ..) rfl ?_
    exact Keeps.refl _ _
  · exact Keeps.refl _ _

theorem execSync_keeps (e m s) : Answers [.freeIdx, .out, .regs, .jnl, .sess, .tim, .evt, .cal] s (execSync e m s) := by
  unfold execSync
  extract_lets x1 x2 x3
  refine Answers.ite ?_ ?_
  · refine Answers.next ?_
    exact Keeps.refl _ _
  · refine Answers.ite ?_ ?_
    · refine Answers.next ?_
      refine Keeps.then (State.setPtp_keeps ..) rfl ?_
      exact Keeps.refl _ _
    · refine Answers.next ?_
      refine Keeps.then (State.syncDone_keeps ..) rfl ?_
      exact Keeps.refl _ _

theorem execSyncInterval_keeps (e s) : Answers [.out, .tim] s (execSyncInterval e s) := by
  unfold execSyncInterval
  extract_lets x1 x2 x3 x4
  have k5 : Keeps [.out, .tim] s x4 := by
    unfold x4
    refine Keeps.then (State.setPtp_keeps ..) rfl ?_
    exact Keeps.refl _ _
  clear_value x4
  refine Answers.ite ?_ ?_
  · exact Answers.fault
  · refine Answers.ite ?_ ?_
    · refine Answers.next ?_
      exact Keeps.refl _ _
    · refine Answers.ite ?_ ?_
      · refine Answers.next ?_
        refine Keeps.then (State.emit_keeps ..) rfl ?_
        exact k5
      · refine Answers.next ?_
        refine Keeps.then (State.emits_keeps ..) rfl ?_
        exact k5

theorem execSyncTimeout_keeps (s) : Answers [.freeIdx, .out, .regs, .jnl, .sess, .tim, .evt, .cal] s (execSyncTimeout s) := by
  unfold execSyncTimeout
  refine Answers.next ?_
  refine Keeps.then (State.syncTimeout_keeps ..) rfl ?_
  exact Keeps.refl _ _

theorem execTableDelivery_keeps (c strip lens s) : Answers [.regs, .coders, .evt] s (execTableDelivery c strip lens s) := by
  unfold execTableDelivery
  split
  · rename_i y1 y2
    refine Answers.next ?_
    exact Keeps.refl _ _
  · rename_i y3 y4 y5
    extract_lets x6 x7
    refine Answers.ite ?_ ?_
    · refine Answers.next ?_
      exact Keeps.refl _ _
    · refine Answers.ite ?_ ?_
      · refine Answers.next ?_
        refine Keeps.then (State.cmpFire_keeps ..) rfl ?_
        refine Keeps.then (State.bump_keeps ..) rfl ?_
        exact Keeps.refl _ _
      · refine Answers.next ?_
        refine Keeps.then (State.setCoder_keeps ..) rfl ?_
        exact Keeps.refl _ _

theorem execTaiSecond_keeps (s) : Answers [.regs, .tim, .evt] s (execTaiSecond s) := by
  unfold execTaiSecond
  extract_lets x1 x2
  refine Answers.ite ?_ ?_
  · refine Answers.next ?_
    refine Keeps.then (State.fire_keeps ..) rfl ?_
    refine Keeps.set_tim rfl ?_
    exact Keeps.refl _ _
  · refine Answers.next ?_
    exact Keeps.refl _ _

theorem execTemperatureRead_keeps (die dram stage bridge s) : Answers [.freeIdx, .out, .regs, .ctxs, .jobs, .seam, .pen, .jnl, .ovw,
    .pln, .sess, .tim, .fab, .axes, .evt, .pwr] s (execTemperatureRead die dram stage bridge s) := by
  unfold execTemperatureRead
  extract_lets x1 x2 x3 x4 x5 x6
  have k7 : Keeps [.freeIdx, .out, .regs, .ctxs, .jobs, .seam, .pen, .jnl, .ovw, .pln, .sess, .tim, .fab, .axes, .evt, .pwr] s x2 := by
    unfold x2
    refine Keeps.then (State.setFldInt_keeps ..) rfl ?_
    refine Keeps.then (State.setFldInt_keeps ..) rfl ?_
    refine Keeps.then (State.setFldInt_keeps ..) rfl ?_
    exact Keeps.refl _ _
  clear_value x2
  have k8 : Keeps [.freeIdx, .out, .regs, .ctxs, .jobs, .seam, .pen, .jnl, .ovw, .pln, .sess, .tim, .fab, .axes, .evt, .pwr] s x3 := by
    unfold x3
    refine Keeps.then (State.tempCheck_keeps ..) rfl ?_
    refine Keeps.then (State.tempCheck_keeps ..) rfl ?_
    refine Keeps.then (State.tempCheck_keeps ..) rfl ?_
    refine Keeps.then (State.setFldInt_keeps ..) rfl ?_
    exact k7
  clear_value x3
  have k9 : Keeps [.freeIdx, .out, .regs, .ctxs, .jobs, .seam, .pen, .jnl, .ovw, .pln, .sess, .tim, .fab, .axes, .evt, .pwr] s x4 := by
    unfold x4
    refine Keeps.then (State.tempCheck_keeps ..) rfl ?_
    exact k8
  clear_value x4
  refine Answers.ite ?_ ?_
  · refine Answers.next ?_
    exact Keeps.refl _ _
  · refine Answers.next ?_
    clear_value x5
    split
    · rename_i y10
      refine Keeps.ite ?_ ?_
      · refine Keeps.set_pwr rfl ?_
        exact k9
      · exact k9
    · rename_i y11 y12 y13
      refine Keeps.ite ?_ ?_
      · exact k9
      · refine Keeps.then (State.tooHot_keeps ..) rfl ?_
        exact k9

theorem execTimeTrigger_keeps (p s) : Answers [.out, .regs, .ports, .tim, .evt] s (execTimeTrigger p s) := by
  unfold execTimeTrigger
  split
  · rename_i y1 y2 y3
    refine Answers.next ?_
    refine Keeps.ite ?_ ?_
    · refine Keeps.then (State.lineTrigger_keeps ..) rfl ?_
      exact Keeps.refl _ _
    · exact Keeps.refl _ _
  · rename_i y4 y5
    refine Answers.next ?_
    exact Keeps.refl _ _

theorem toutArmEffect_keeps (n d s) : Keeps [.out, .regs, .jnl, .sess, .tim, .evt] s (toutArmEffect n d s) := by
  unfold toutArmEffect
  extract_lets x1 x2 x3 x4
  refine Keeps.ite ?_ ?_
  · refine Keeps.then (State.badParam_keeps ..) rfl ?_
    exact Keeps.refl _ _
  · refine Keeps.ite ?_ ?_
    · refine Keeps.then (State.badParam_keeps ..) rfl ?_
      exact Keeps.refl _ _
    · refine Keeps.ite ?_ ?_
      · refine Keeps.then (State.badParam_keeps ..) rfl ?_
        exact Keeps.refl _ _
      · refine Keeps.ite ?_ ?_
        · refine Keeps.then (State.badParam_keeps ..) rfl ?_
          exact Keeps.refl _ _
        · split
          · rename_i y5 y6
            refine Keeps.then (State.claimFail_keeps ..) rfl ?_
            exact Keeps.refl _ _
          · rename_i y7 y8 y9
            extract_lets x10 x11 x12
            have k13 : Keeps [.out, .regs, .jnl, .sess, .tim, .evt] s x12 := by
              unfold x12
              refine Keeps.then (State.setTout_keeps ..) rfl ?_
              have k14 := State.tryClaim_keeps _ _ _ _ _ y9
              refine Keeps.then k14 rfl ?_
              exact Keeps.refl _ _
            clear_value x12
            refine Keeps.then (State.doneDesc_keeps ..) rfl ?_
            refine Keeps.then (State.toutActive_keeps ..) rfl ?_
            exact k13

theorem execToutArm_keeps (n idx s) : Answers [.out, .regs, .jnl, .sess, .tim, .evt] s (execToutArm n idx s) := by
  unfold execToutArm
  refine Answers.next ?_
  refine State.runDesc_keeps rfl ?_ ?_
  · exact Keeps.refl _ _
  · intro a1 a2 a3
    refine Keeps.then (toutArmEffect_keeps ..) rfl ?_
    exact a3

theorem execToutEdge_keeps (t s) : Answers [.out, .regs, .tim, .evt] s (execToutEdge t s) := by
  unfold execToutEdge
  extract_lets x1 x2 x3 x4
  refine Answers.ite ?_ ?_
  · refine Answers.next ?_
    refine Keeps.then (State.toutRise_keeps ..) rfl ?_
    refine Keeps.then (State.setTout_keeps ..) rfl ?_
    exact Keeps.refl _ _
  · split
    · rename_i y5 y6 y7 y8
      refine Answers.ite ?_ ?_
      · refine Answers.next ?_
        refine Keeps.then (State.toutRise_keeps ..) rfl ?_
        refine Keeps.then (State.setTout_keeps ..) rfl ?_
        exact Keeps.refl _ _
      · refine Answers.next ?_
        exact Keeps.refl _ _
    · rename_i y9 y10
      refine Answers.next ?_
      exact Keeps.refl _ _

theorem execToutPulseEnd_keeps (t s) : Answers [.out, .regs, .tim] s (execToutPulseEnd t s) := by
  unfold execToutPulseEnd
  extract_lets x1 x2
  split
  · rename_i y3 y4
    refine Answers.next ?_
    exact Keeps.refl _ _
  · rename_i y5 y6 y7
    extract_lets x8 x9
    have k10 : Keeps [.out, .regs, .tim] s x8 := by
      unfold x8
      refine Keeps.then (State.emit_keeps ..) rfl ?_
      refine Keeps.then (State.setTout_keeps ..) rfl ?_
      exact Keeps.refl _ _
    clear_value x8
    have k11 : Keeps [.out, .regs, .tim] s x9 := by
      unfold x9
      refine Keeps.ite ?_ ?_
      · exact k10
      · refine Keeps.then (State.emits_keeps ..) rfl ?_
        exact k10
    clear_value x9
    refine Answers.ite ?_ ?_
    · refine Answers.next ?_
      exact Keeps.refl _ _
    · refine Answers.next ?_
      refine Keeps.then (State.toutActive_keeps ..) rfl ?_
      exact k11

theorem execUnusedOpcode_keeps (n idx s) : Answers [.out, .regs, .jnl, .sess, .evt] s (execUnusedOpcode n idx s) := by
  unfold execUnusedOpcode
  split
  · rename_i y1 y2
    refine Answers.next ?_
    exact Keeps.refl _ _
  · rename_i y3 y4 y5
    refine Answers.next ?_
    refine Keeps.ite ?_ ?_
    · exact Keeps.refl _ _
    · refine Keeps.then (State.finishDesc_keeps ..) rfl ?_
      refine Keeps.then (State.startDesc_keeps ..) rfl ?_
      exact Keeps.refl _ _

theorem execWakeInput_keeps (s) : Answers allParts s (execWakeInput s) := by
  unfold execWakeInput
  refine Answers.next ?_
  refine Keeps.then (State.wakeSource_keeps ..) rfl ?_
  exact Keeps.refl _ _

theorem execWakeTimer_keeps (s) : Answers allParts s (execWakeTimer s) := by
  unfold execWakeTimer
  refine Answers.next ?_
  refine Keeps.ite ?_ ?_
  · refine Keeps.then (State.wakeSource_keeps ..) rfl ?_
    refine Keeps.then (State.setFld_keeps ..) rfl ?_
    exact Keeps.refl _ _
  · exact Keeps.refl _ _

theorem execWarmFailRetry_keeps (s) : Answers allParts s (execWarmFailRetry s) := by
  unfold execWarmFailRetry
  extract_lets x1 x2
  refine Answers.ite ?_ ?_
  · refine Answers.next ?_
    exact Keeps.refl _ _
  · refine Answers.ite ?_ ?_
    · refine Answers.next ?_
      refine Keeps.then (State.startDawn_keeps ..) rfl ?_
      refine Keeps.then (State.setFld_keeps ..) rfl ?_
      exact Keeps.refl _ _
    · refine Answers.next ?_
      refine Keeps.set_pwr rfl ?_
      exact Keeps.refl _ _

theorem execWarmResumeAdaptDone_keeps (p eyes s) : Answers [.out, .regs, .ports, .ctxs, .jnl, .pln, .sess, .evt,
    .cal] s (execWarmResumeAdaptDone p eyes s) := by
  unfold execWarmResumeAdaptDone
  extract_lets x1
  have k2 : Keeps [.out, .regs, .ports, .ctxs, .jnl, .pln, .sess, .evt, .cal] s x1 := by
    unfold x1
    refine Keeps.foldl ?_ ?_
    · exact Keeps.refl _ _
    · intro u3 e4 k5
      refine Keeps.then (State.setFld_keeps ..) rfl ?_
      exact k5
  clear_value x1
  refine Answers.ite ?_ ?_
  · refine Answers.next ?_
    refine Keeps.then (State.resumeJudge_keeps ..) rfl ?_
    refine Keeps.then (State.modPort_keeps ..) rfl ?_
    exact k2
  · refine Answers.next ?_
    exact Keeps.refl _ _

theorem execWarmStatusTimeout_keeps (p s) : Answers [.out, .regs, .ports, .jnl, .sess, .evt, .cal] s (execWarmStatusTimeout p s) := by
  unfold execWarmStatusTimeout
  refine Answers.next ?_
  refine Keeps.ite ?_ ?_
  · refine Keeps.then (State.discover_keeps ..) rfl ?_
    exact Keeps.refl _ _
  · exact Keeps.refl _ _

theorem execWatchdogExpiry_keeps (core s) : Answers [.out, .regs, .latches, .ports, .ctxs, .slices, .coders, .ring, .jobs, .seam, .pen,
    .jnl, .ovw, .mem, .pln, .sess, .eths, .tim, .fab, .encs, .axes, .evt, .crcs, .cal, .pwr,
    .statHeld] s (execWatchdogExpiry core s) := by
  unfold execWatchdogExpiry
  refine Answers.next ?_
  refine Keeps.ite ?_ ?_
  · exact Keeps.refl _ _
  · refine Keeps.then (State.warmFault_keeps ..) rfl ?_
    refine Keeps.then (State.catalogue_keeps ..) rfl ?_
    exact Keeps.refl _ _

theorem execWatchdogService_keeps (core s) : Answers [.pwr] s (execWatchdogService core s) := by
  unfold execWatchdogService
  extract_lets x1
  refine Answers.next ?_
  refine Keeps.set_pwr rfl ?_
  exact Keeps.refl _ _

theorem windowEffect_keeps (n d s) : Keeps [.out, .regs, .jnl, .sess, .evt] s (windowEffect n d s) := by
  unfold windowEffect
  extract_lets x1 x2 x3 x4
  refine Keeps.ite ?_ ?_
  · refine Keeps.then (State.badParam_keeps ..) rfl ?_
    exact Keeps.refl _ _
  · refine Keeps.ite ?_ ?_
    · refine Keeps.then (State.badParam_keeps ..) rfl ?_
      exact Keeps.refl _ _
    · refine Keeps.ite ?_ ?_
      · refine Keeps.then (State.badParam_keeps ..) rfl ?_
        exact Keeps.refl _ _
      · refine Keeps.ite ?_ ?_
        · refine Keeps.then (State.wrongState_keeps ..) rfl ?_
          exact Keeps.refl _ _
        · refine Keeps.then (State.doneDesc_keeps ..) rfl ?_
          refine Keeps.then (State.setWindow_keeps ..) rfl ?_
          exact Keeps.refl _ _

theorem execWindowDefine_keeps (n idx s) : Answers [.out, .regs, .jnl, .sess, .evt] s (execWindowDefine n idx s) := by
  unfold execWindowDefine
  refine Answers.next ?_
  refine State.runDesc_keeps rfl ?_ ?_
  · exact Keeps.refl _ _
  · intro a1 a2 a3
    refine Keeps.then (windowEffect_keeps ..) rfl ?_
    exact a3

theorem execWrite_keeps (f s) : Answers [.freeIdx, .out, .regs, .ports, .ctxs, .slices, .coders, .jobs, .seam, .pen, .jnl, .ovw, .pln,
    .sess, .eths, .tim, .fab, .encs, .axes, .evt, .crcs, .cal, .pwr] s (execWrite f s) := by
  unfold execWrite
  refine State.mgmtType_keeps rfl ?_ ?_
  · exact Keeps.refl _ _
  · intro a1 a2 a3 a4 a5
    extract_lets x6 x7 x8
    refine Gives.ite ?_ ?_
    · refine Gives.ok ?_
      dsimp -zeta only
      exact a5
    · refine Gives.ite ?_ ?_
      · refine Gives.ok ?_
        dsimp -zeta only
        exact a5
      · refine Gives.ite ?_ ?_
        · refine Gives.ok ?_
          dsimp -zeta only
          exact a5
        · refine Gives.ite ?_ ?_
          · refine Gives.ok ?_
            dsimp -zeta only
            exact a5
          · split
            · rename_i y9 y10 y11
              exact Gives.error
            · rename_i y12 y13 y14
              refine Gives.ok ?_
              dsimp -zeta only
              refine Keeps.then (State.writeEnds_keeps ..) rfl ?_
              have k15 := State.regWrites_keeps _ _ _ _ _ y14
              refine Keeps.then k15 rfl ?_
              exact a5

theorem execZeroLatch_keeps (s) : Answers [.freeIdx, .out, .regs, .ctxs, .jobs, .seam, .pen, .jnl, .ovw, .pln, .sess, .tim, .fab,
    .dividers, .axes, .evt, .pwr, .zeroLatched] s (execZeroLatch s) := by
  unfold execZeroLatch
  split
  · rename_i y1 y2 y3
    refine Answers.next ?_
    refine Keeps.then (State.zeroEffect_keeps ..) rfl ?_
    refine Keeps.then (State.dropDue_keeps ..) rfl ?_
    exact Keeps.refl _ _
  · rename_i y4 y5
    refine Answers.next ?_
    exact Keeps.refl _ _

theorem tick_keeps (s) : Keeps [.clock, .frameTick, .out, .regs, .pen, .jnl, .tim, .fab, .evt, .pwr] s (tick s) := by
  unfold tick
  refine Keeps.ite ?_ ?_
  · refine Keeps.then (State.nightTick_keeps ..) rfl ?_
    exact Keeps.refl _ _
  · refine Keeps.then (State.dayTick_keeps ..) rfl ?_
    exact Keeps.refl _ _

end Sys2Proof.Machine
end

