-- ==== Sys2Proof/Laws/Shared.lean ====
section
/-! SUPPORT. One lemma for each operation that many commands share: descriptors and management requests. -/

namespace Sys2Proof.Machine

open Sys2Proof.Safety

/-- Marking a descriptor as started leaves the registers alone. -/
@[simp] theorem regs_startDesc (s : State) (n idx : Nat) : (s.startDesc n idx).regs = s.regs := rfl

@[simp] theorem mode_startDesc (s : State) (n idx : Nat) : (s.startDesc n idx).mode = s.mode := rfl

/-- What a descriptor that is ready does: its effect, on the state in which it has started. -/
theorem runDesc_ready {s : State} {n idx op : Nat} {modes : ModeSet} {d : OutDesc} (f : OutDesc → State → State)
    (h : Ready s n idx op modes d) : s.runDesc n idx op modes f = f d (s.startDesc n idx) := by
  obtain ⟨h1, h2, h3⟩ := h
  simp only [State.runDesc, h1, h2, ne_eq, not_true, if_false, mode_startDesc, h3, if_true]

/-- What a descriptor does outside its modes: status 5. -/
theorem runDesc_wrongMode {s : State} {n idx op : Nat} {modes : ModeSet} {d : OutDesc} (f : OutDesc → State → State)
    (h1 : s.startable n idx = some d) (h2 : d.opcode = op) (h3 : modes.contains s.mode = false) :
    s.runDesc n idx op modes f = (s.startDesc n idx).finishDesc n idx 5 [] := by
  simp [State.runDesc, h1, h2, mode_startDesc, List.contains_iff_mem.not.mp (by rw [h3]; simp)]

/-- A descriptor that may not start changes nothing. -/
theorem runDesc_waits {s : State} {n idx op : Nat} {modes : ModeSet} (f : OutDesc → State → State)
    (h : s.startable n idx = none) : s.runDesc n idx op modes f = s := by
  simp [State.runDesc, h]

/-- Accepting a sequence leaves the mode alone. -/
theorem mode_seqAccept (s : State) (n q : Nat) (h : n ≤ 3) : (s.seqAccept n q).mode = s.mode := by
  have h1 : pwrMode ≠ hssSeqLo n := by simp [pwrMode, hssSeqLo]; omega
  have h2 : pwrMode ≠ hssSeqLo n + 4 := by simp [pwrMode, hssSeqLo]; omega
  simp only [State.seqAccept, State.mode, State.fld, State.set64, reg_setReg, h1, h2, if_false]
  rfl

/-- A request without a session: what its type does, answered without a key. -/
theorem mgmtRun_anonymous {s : State} {f : MgmtFrame} {m : Mgmt} {ty : Nat} (types anon named : Nat → Bool) (g : MgmtFn)
    (h : Anonymous s f m ty) (ht : types ty = true) (ha : anon ty = true) {st : Nat} {body : List Byte} {t : State}
    (hg : g 0xFF m f s = .ok (st, body, t)) :
    s.mgmtRun f types anon named g = .next (t.mgmtSend f (replyBytes m st body none)) := by
  obtain ⟨rfl, h1, h2, h3, h4, h5, h6, h7, h8⟩ := h
  have c1 : ¬ (f.bytes.length < 16 ∨ ¬ s.mgmtUp = true ∨ ¬ types (mgmtOf f.bytes).type = true ∨ bitAt (beAt f.bytes 3 1) 0 = true) := by
    simp [h1, h2, h5, ht, h3]
  have c2 : ¬ (1024 < (mgmtOf f.bytes).len) := by omega
  have c3 : ¬ (s.mode < 3 ∧ (mgmtOf f.bytes).type ≠ 1 ∧ (mgmtOf f.bytes).type ≠ 2) := by omega
  unfold State.mgmtRun
  simp only [if_neg c1, if_pos h4]
  have : mgmtChecks anon named g 0xFF (mgmtOf f.bytes) f s = .ok (st, body, t) := by
    unfold mgmtChecks
    rw [if_neg (by simp [h6]), if_neg c2, if_neg (by simp [h5, ha]), if_neg c3, hg]
  rw [this]

/-- A verified request with a new sequence: what its type does in the state that has accepted the sequence, answered
under the session's key. -/
theorem mgmtRun_authentic {s : State} {f : MgmtFrame} {m : Mgmt} {k : List Byte} {ty : Nat} (types anon named : Nat → Bool)
    (g : MgmtFn) (h : Authentic s f m k ty) (ht : types ty = true) (hn : named ty = true) {st : Nat} {body : List Byte} {t : State}
    (hg : g m.sess m f (s.seqAccept m.sess m.seq) = .ok (st, body, t)) :
    s.mgmtRun f types anon named g = .next (answered t f m k st body) := by
  obtain ⟨rfl, h1, h2, h3, h4, h5, h6, h7, h8, h9, h10, h11, h12⟩ := h
  have c1 : ¬ (f.bytes.length < 16 ∨ ¬ s.mgmtUp = true ∨ ¬ types (mgmtOf f.bytes).type = true ∨ bitAt (beAt f.bytes 3 1) 0 = true) := by
    simp [h1, h2, h5, ht, h3]
  have c0 : ¬ ((mgmtOf f.bytes).sess = 0xFF) := by omega
  have c2 : ¬ (1024 < (mgmtOf f.bytes).len) := by omega
  have c3 : ¬ ((s.seqAccept (mgmtOf f.bytes).sess (mgmtOf f.bytes).seq).mode < 3 ∧ (mgmtOf f.bytes).type ≠ 1 ∧ (mgmtOf f.bytes).type ≠ 2) := by
    rw [mode_seqAccept _ _ _ h4]; omega
  have c4 : ¬ (3 < (mgmtOf f.bytes).sess ∨ s.lockedOut (mgmtOf f.bytes).sess = true) := by simp [h4, h9]
  have c5 : ¬ ((mgmtOf f.bytes).seq = s.get64 (hssSeqLo (mgmtOf f.bytes).sess) ∧ (s.session (mgmtOf f.bytes).sess).reply ≠ []) := by omega
  have c6 : ¬ ((mgmtOf f.bytes).seq ≤ s.get64 (hssSeqLo (mgmtOf f.bytes).sess)) := by omega
  have : mgmtChecks anon named g (mgmtOf f.bytes).sess (mgmtOf f.bytes) f (s.seqAccept (mgmtOf f.bytes).sess (mgmtOf f.bytes).seq) =
      .ok (st, body, t) := by
    unfold mgmtChecks
    rw [if_neg (by simp [h6]), if_neg c2, if_neg (by simp [c0, h5, hn]), if_neg c3, hg]
  unfold State.mgmtRun
  simp only [if_neg c1, if_neg c0, if_neg c4, h10, if_neg c5, if_neg c6]
  rw [if_neg (by simp [h11]), this]
  rfl

/-- What a fabric port records is not touched when the module's own channels are taken. -/
theorem State.fabChans_fabRec (s : State) : s.fabChans.2.fabRec = s.fabRec := by
  unfold State.fabChans
  split <;> rfl

end Sys2Proof.Machine
end

