-- ==== Sys2Proof/WellFormed.lean ====
section
/-! DEFINITION. Which commands are well formed: operands of the size that the thing they stand for has on its
wire. A command that is not well formed stands for nothing that can arrive. -/

namespace Sys2Proof

/-- A ZLP packet's framing blocks are eight bytes each (R58, R59). -/
def Pkt.wf (p : Pkt) : Bool := decide (p.sop.length = 8 ∧ p.eop.length = 8 ∧ p.body.length % 8 = 0)

/-- A management frame fits its UDP datagram, and its addresses are 16 bytes (R516, R517). -/
def MgmtFrame.wf (f : MgmtFrame) : Bool :=
  decide (f.src.length = 16 ∧ f.dst.length = 16 ∧ f.srcPort < 65536 ∧ f.hop < 256 ∧ 16 ≤ f.bytes.length)

/-- The number of entries the operands of a command have on its wire is right. -/
def Instr.wf : Instr → Bool
  | .blockLock _ _ hs => decide (hs.length = 64)
  | .blockLockLost _ _ hs => decide (hs.length = 64)
  | .align _ _ (some b) _ => decide (b.length = 8)
  | .status _ _ b => decide (b.length = 8)
  | .line _ p => p.wf
  | .ctrlAcknowledgement _ p => p.wf
  | .cevt _ p => p.wf
  | .codewordRead _ _ b w _ => decide (w.length = 80 ∧ b < 201326592)
  | .migrationBurst _ w => decide (w.length = 80)
  | .dramTemperatureRead ds => decide (ds.length = 16) && ds.all (fun l => decide (l.length = 20))
  | .descriptorFetch _ ds => ds.all (fun d => decide (d.length = 128)) && decide (ds.length ≤ 32)
  | .descriptorRefetch _ d => decide (d.length = 128)
  | .neighbourSolicitation _ t => decide (t.length = 16)
  | .arpRequest _ t => decide (t.length = 4)
  | .hello f => f.wf
  | .read f => f.wf
  | .write f => f.wf
  | .openSession f => f.wf
  | .closeSession f => f.wf
  | .doorbell f => f.wf
  | .restartRings f => f.wf
  | .provision f => f.wf
  | .keySet f => f.wf
  | .keyClear f => f.wf
  | .mgmtUnusedType f => f.wf
  | .ensign _ b => decide (b.length = 152)
  | .bridgedFrame _ p b => decide (p < 8 ∧ 14 ≤ b.length)
  | _ => true

end Sys2Proof
end

