-- ==== Sys2Proof/Tests/Slice0.lean ====
section
/-! SUPPORT. Named tests: a witness for every statement with hypotheses (a state and operands that meet them, one for
each clause), ill-formed commands that the checks refuse, and small steps whose results the manual gives. -/



namespace Sys2Proof.Tests

set_option maxRecDepth 100000
set_option Elab.async false

open Sys2Proof.Machine Sys2Proof.Safety

/-! ### Small states -/

/-- The module after reset, put into mode `m`. -/
def st (m : Nat) : State := State.reset.setFld pwrModeMode m

/-- A context plan: 16 columns of 8 bits, one row, own slice 0, every granule. -/
def tCp : CtxPlan :=
  { service := 0, slice := 0, lines := 4, flushMs := 5, rows := 1, width := 16, depth := 8, encTrig := true, refRow := 0,
    look := 0, mount := 0, gLo := 0, gHi := 15, oLo := 0, oHi := 15, dwMode := 0, bands := [⟨12, 15, 2, true, true, 1000⟩],
    left := .none, right := .none, share := 1, engine := 0, maxLinePeriod := 1000, boundNs := 50000, granules := List.range 32 }

/-- A camera plan: triggered by the encoder where `src` is 0, by time where it is 1. -/
def tCam (src : Nat) : CamPlan :=
  { serial := 7, lanes := 4, trigSource := src, trigPath := 0, maxLineRate := 1000, divider := 1, writes := [], record := [],
    mosaic := [] }

/-- The overview of the test plan. -/
def tOvw : OvwPlan :=
  { hx := 1, hy := 1, width := 4, ratioX := 1, ratioY := 1, pitch := 1000, chans := [0], gains := [256], offs := [0], blockExp := 6 }

/-- The axis plan of the test plan. -/
def tAxis : AxisPlan :=
  { offset := 0, scale := 256, lo := -1000, hi := 1000, vel := 1000, acc := 500, dec := 500, run := 100, hold := 50, feedback := 0,
    lowRamped := false, highRamped := true, drop := false, tout := 0, width := 1000 }

/-- What the test plan lays down outside the pixel path. -/
def tOuts : PlanOuts :=
  { encs := [], axes := [(0, tAxis), (1, tAxis)], touts := [], chans := [], cells := [], fab := none, delivery := false, blockExp := 12,
    snapJ := [], bgCap := 100, fifoShort := [], tables := [], spares := [15], allocated := [], journal := [0, 4], latencyUs := 100,
    limitUs := 1000, store := false }

/-- A small plan with context 0 and its camera. -/
def tPlan (src : Nat) : Plan :=
  { id := 1, hash := List.replicate 32 1, recipeHash := List.replicate 32 2, pitchX := 1000, pitchY := 1000, originX := 0, columns := 16,
    scale := 65536, refEnc := 0, redEnc := none, startSpeed := 1000, minSpeed := 100, ctxs := [(0, tCp)], cams := [(0, tCam src)],
    banks := [], chunks := 64, statBuf := [], profiles := [], ovw := tOvw, penHost := [], penPort := 0, minDepth := 10, minRatio := 256,
    outs := tOuts }

/-- The state with a live plan. -/
def planned (s : State) (p : Plan) : State := { s with pln := { s.pln with plan := some p } }

/-- Mode `m` with the small plan live. -/
def stp (m : Nat) : State := planned ((st m).setFlag (ctxCtrlGated 0) false) (tPlan 0)

/-- Port `p` stands in `state`, at rate 3 with 4 lanes. -/
def portIn (s : State) (p state : Nat) : State :=
  (((s.setFld (zlpStatusState p) state).setFld (zlpStatusRate p) 3).setFld (zlpStatusLanes p) 4).setFld (zlpStatusPresent p) 1

/-- A capability record (R38, R39): 4 lanes, both rates, 8 bits, 16 pixels, one row. -/
def tCap : List Byte :=
  let b := [1#8, 4#8, 0#8, 3#8, 0#8, 1#8, 0#8, 16#8, 1#8, 1#8, 1#8] ++ List.replicate 49 0#8
  b ++ beBytes 4 (crc32c b).toNat

/-- A packet of type `ty` as a camera sends it (R58, R59). -/
def tPkt (ty : Nat) (body : List Byte) : Pkt :=
  let sop := [0xB4#8, BitVec.ofNat 8 ty, 0#8] ++ beBytes 3 (body.length / 8) ++ [0#8]
  { sop := sop ++ [crc8 (slice sop 1 6)], body := body, eop := [0xE1#8, 0#8] ++ beBytes 4 (crc32c body).toNat ++ [0#8, 0#8],
    badAt := none, cut := false }

/-- A LINE body of `w` pixels of 8 bits (R62). -/
def tLine (w : Nat) : List Byte :=
  beBytes 4 9 ++ [0#8, 1#8] ++ beBytes 2 w ++ [8#8, 0#8, 0#8, 0#8] ++ List.replicate 4 0#8 ++ List.replicate w 5#8

/-- A linked port 0 whose camera declared `tCap`. -/
def linkedCam (s : State) : State :=
  (List.range 16).foldl (fun s i => s.setFld (zlpCapabilityF 0 i) (leAt tCap (4 * i) 4)) (portIn s 0 6)

/-- An answer in hand of a computation that may stop. -/
def okVal {ε α : Type} (d : α) : Except ε α → α
  | .ok a => a
  | .error _ => d

theorem ok_okVal {ε α : Type} {d : α} (x : Except ε α) (h : x.isOk = true) : x = .ok (okVal d x) := by
  cases x with
  | ok a => rfl
  | error e => cases h

/-! ### Witnesses -/

/-- A camera line of 16 pixels. -/
def tCamLine (abs : Nat) : CamLine :=
  { idx := abs, abs := abs, tag := 0, time := 1000, pos := 0, replaced := false, triggered := false, strip := 0, off := 0, depth := 8,
    gaps := [], mismatch := false, suspect := false, illegal := false, lastOfStrip := false, poisoned := false,
    rows := [List.replicate 16 5] }

/-- A line mapped onto 16 columns. -/
def tGeoLine (abs : Nat) (y : Int) : GeoLine :=
  { abs := abs, pos := y, y := y, time := 1000, missing := 0, replaced := false, suspect := false, uncertain := false, strip := 0, gen := 1,
    vals := [List.replicate 16 (5, false)] }

/-- An output line of 16 columns. -/
def tOut (m : Int) : OutLine :=
  { m := m, time := 1000, missing := 0, strip := some 0, arrive := 1000, gen := 1, replaced := false, suspect := false, uncertain := false,
    colGaps := [], vals := [List.replicate 16 (5, false)] }

/-- An overview line. -/
def tOvwLine : OvwLine := ⟨0, 1000, false, false, false, [1, 2, 3, 4]⟩

/-- Session 0 open, with a linear window 0 of 1 MB that holds its rings, of 16 entries each. -/
def opened (s : State) : State :=
  let t := (((s.setFld (hssSessionState 0) 1).set64 (hrbWinBaseLo 0) 65536).set64 (hrbWinLenLo 0) 1048576).setFld (hssSessionOverview 0) 1
  t.setSession 0 { initSess with rings := [(0, { initHRing with addr := devAddr 0 0 0, entries := 16, unit := 128 }), (1, { initHRing with addr := devAddr 0 0 4096, entries := 16, unit := 128 }), (4, { initHRing with addr := devAddr 0 0 8192, entries := 16, unit := 64 })] }

/-- Slice 0 in service for context 0. -/
def sliced (s : State) : State := s.setSlice 0 { initSlice with owner := some 0 }

/-- A job of session `n`. -/
def tJob (n : Nat) (kind : JobKind) (phase : JobPhase) : Job :=
  { id := 3, sess := n, tag := 9, desc := 0, auto := false, pennant := 0,
    par := { kind := kind, format := 0, chans := 1, ctxMask := 1, defaultX := true, bankSel := 0, yLo := 0, yHi := 1000, xLo := 0, xHi := 1000, offs := 0, gain := 256, unit := 0, source := 2 ^ 47, srcLen := 64 },
    phase := phase, opened := true, fresh := false, out := 0, outLen := 0, outPos := 0, produced := 0, consumed := 0, exported := 0,
    gapLines := 0, todo := [.finish], runs := [], recs := [], logged := 0, carry := [], cur := ⟨[], 0, 0⟩, sect := [], tables := [],
    pipes := [], seam := initSeam, nextM := 0, hiM := 0, ring := 8, firstSeq := 0, lastSeq := 0, units := 0, fault := 0, faultWin := 0, faultOff := 0 }

/-- A record of a recipe (R388). -/
def tRec (ty inst : Nat) (body : List Byte) : List Byte :=
  leBytes 2 ty ++ leBytes 1 inst ++ [1] ++ leBytes 4 (16 + body.length) ++ leBytes 4 0 ++ leBytes 4 (crc32c body).toNat ++ body

/-- A recipe of the four records that none may lack, without a camera; `pitch` is its p_x. -/
def tRecipe (pitch : Nat) : List Byte :=
  tRec 0x01 0xFF (leBytes 2 0 ++ leBytes 2 0 ++ leBytes 4 4 ++ leBytes 8 144) ++
  tRec 0x02 0xFF (leBytes 4 pitch ++ leBytes 4 0 ++ leBytes 8 (10 ^ 13) ++ leBytes 1 0 ++ leBytes 1 255 ++ leBytes 2 0 ++ leBytes 4 3000 ++
    leBytes 4 30 ++ leBytes 4 0 ++ leBytes 8 0 ++ leBytes 8 1000000) ++
  tRec 0x60 0xFF (List.replicate 8 0) ++ tRec 0x70 0 (leBytes 8 1 ++ List.replicate 0 0)

/-- What the Planner hands over for it. -/
def tCompiled : Compiled := { ms := 5, plan := { tPlan 0 with ctxs := [], cams := [] }, image := [], report := [], refuse := none }

/-- The look-back tables of R343: every length 5 up to 31 words. -/
def tLens : List (List Nat) := List.replicate 5 (List.replicate 17 5)

/-- A codeword of zeros with its first symbols replaced. -/
def tWord (b : List Byte) : List Byte := b ++ List.replicate (80 - b.length) 0

/-- An RDMA operation: a write, or a read for `why`. -/
def tOp (len : Nat) (why : Option ReadFor) : RdmaOp := ⟨7, len, [], why, 0, 0, 0, 0⟩

/-- The session's operations under way. -/
def withOps (s : State) (ops : List RdmaOp) : State :=
  let v := s.session 0
  s.setSession 0 { v with qp := { v.qp with ops := ops, retries := 6 } }

/-- A linked Ethernet port A with its addresses. -/
def ethUp (s : State) : State :=
  let t := ((s.setFld (hspPortLink 0) 1).setFld (hspPortPresent 0) 1).setFld (hspPortMedia 0) 1
  t.setEth 0 { initEth with inForce := initEth.inForce.set 5 0xC0A80001#32 }

/-- The key of the test sessions. -/
def tKey : List Byte := List.replicate 32 0x0B

/-- The header and body of a management request of type `ty` with sequence 5 (R516). -/
def tHead (ty sess : Nat) (body : List Byte) : List Byte :=
  [1, BitVec.ofNat 8 ty, BitVec.ofNat 8 sess, 0] ++ beBytes 8 5 ++ [0, 0] ++ beBytes 2 body.length ++ body

/-- A request with the bytes `b`. -/
def tFrame (b : List Byte) : MgmtFrame :=
  { port := 0, hop := 255, src := [0xFE, 0x80] ++ List.replicate 14 1, srcPort := 4000, dst := List.replicate 16 2, bytes := b }

/-- A request of no session. -/
def tAnon (ty : Nat) (body : List Byte) : MgmtFrame := tFrame (tHead ty 255 body)

/-- A request under the test key (R517). -/
def tReq (ty sess : Nat) (body : List Byte) : MgmtFrame := tFrame (tHead ty sess body ++ hmac tKey (tHead ty sess body))

/-- Its message. -/
def tMsg (ty sess : Nat) (body : List Byte) : Mgmt :=
  { mgmtOf (tHead ty sess body) with mac := hmac tKey (tHead ty sess body) }

/-- Session `n` has the test key. -/
def keyed (s : State) (n : Nat) : State := s.setSession n { s.session n with key := some tKey }

theorem slice_append_left (h x : List Byte) (o n : Nat) (hn : o + n ≤ h.length) : slice (h ++ x) o n = slice h o n := by
  unfold slice
  have h1 : ((h ++ x).drop o).take n = (h.drop o).take n := by
    rw [List.drop_append_of_le_length (by omega), List.take_append_of_le_length (by rw [List.length_drop]; omega)]
  rw [h1]

/-- Reading a frame does not look at the bytes after its code but to take them as the code. -/
theorem mgmtOf_append (h x : List Byte) (hn : h.length = 16 + beAt h 14 2) : mgmtOf (h ++ x) = { mgmtOf h with mac := x } := by
  have hb (o n : Nat) (ho : o + n ≤ 16) : beAt (h ++ x) o n = beAt h o n := by
    unfold beAt; rw [slice_append_left h x o n (by omega)]
  unfold mgmtOf
  simp only [hb 0 1 (by omega), hb 1 1 (by omega), hb 2 1 (by omega), hb 4 8 (by omega), hb 14 2 (by omega),
    slice_append_left h x 16 _ (Nat.le_of_eq hn.symm)]
  rw [← hn]
  simp

/-- A request under the test key is authentic where its header, its session and the mode allow. -/
theorem tAuthentic {s : State} {ty sess : Nat} {body : List Byte}
    (h : (tHead ty sess body).length = 16 + beAt (tHead ty sess body) 14 2 ∧ s.mgmtUp = true ∧
      bitAt (beAt (tHead ty sess body) 3 1) 0 = false ∧ (mgmtOf (tHead ty sess body)).sess ≤ 3 ∧
      (mgmtOf (tHead ty sess body)).type = ty ∧ (mgmtOf (tHead ty sess body)).version = 1 ∧
      (mgmtOf (tHead ty sess body)).len ≤ 1024 ∧ 3 ≤ s.mode ∧ s.lockedOut (mgmtOf (tHead ty sess body)).sess = false ∧
      (s.session (mgmtOf (tHead ty sess body)).sess).key = some tKey ∧
      (mgmtOf (tHead ty sess body)).head = tHead ty sess body ∧
      s.get64 (hssSeqLo (mgmtOf (tHead ty sess body)).sess) < (mgmtOf (tHead ty sess body)).seq) :
    Authentic s (tReq ty sess body) (tMsg ty sess body) tKey ty := by
  obtain ⟨hl, hu, hb, hs, ht, hv, hn, hm, ho, hk, hh, hq⟩ := h
  have h16 : 16 ≤ (tHead ty sess body).length := by omega
  refine ⟨(mgmtOf_append _ _ hl).symm, ?_, hu, ?_, hs, ht, hv, hn, hm, ho, hk, ?_, hq⟩
  · show 16 ≤ (tHead ty sess body ++ hmac tKey (tHead ty sess body)).length
    rw [List.length_append]; omega
  · show bitAt (beAt (tHead ty sess body ++ hmac tKey (tHead ty sess body)) 3 1) 0 = false
    unfold beAt; rw [slice_append_left _ _ 3 1 (by omega)]; exact hb
  · show hmac tKey (mgmtOf (tHead ty sess body)).head = hmac tKey (tHead ty sess body)
    rw [hh]

/-- The 128 bytes of a descriptor: its opcode, and fields by offset, size and value (R555). -/
def tBytes (op : Nat) (fs : List (Nat × Nat × Nat)) : List Byte :=
  fs.foldl (fun (b : List Byte) (f : Nat × Nat × Nat) => b.take f.1 ++ leBytes f.2.1 f.2.2 ++ b.drop (f.1 + f.2.1)) (leBytes 128 op)

/-- A descriptor that is accepted, durable and not started. -/
def tDesc (op : Nat) (fs : List (Nat × Nat × Nat)) : OutDesc :=
  { idx := 5, bytes := tBytes op fs, bad := 0, durable := true, started := false, stale := false }

/-- Session 0, open, has that descriptor alone. -/
def desced (s : State) (op : Nat) (fs : List (Nat × Nat × Nat)) : State :=
  let t := opened s
  t.setSession 0 { t.session 0 with descs := [tDesc op fs], windows := [(2, { initWindow with base := 2 ^ 20, len := 131072, linear := true, flags := 3 })] }

/-- The coordinator of an assigned fabric of two modules: address 0, the other at address 1 linked on port A. -/
def fabbed (s : State) : State :=
  let t := ((((s.setFld fabCtrlEnable 1).setFld fabCtrlBridge 1).setFld fabStatusState 3).setFld fabStatusCoordinator 1).setFld fabStatusAddress 0
  let t := ((t.setFld (hspPortLink 0) 1).setFld (hspPortPresent 0) 1).set64 fabCoordLo t.serial
  { t with fab := { initFab with members := [⟨0, t.serial, 0, true⟩, ⟨1, 77, 1, true⟩] } }

/-- TAI stands at `ns` nanoseconds. -/
def timed (s : State) (ns : Nat) : State := { s with tim := { s.tim with tai := ns * taiUnit } }

/-- An Announce of source `src`. -/
def tAnn (src : Nat) : AnnMsg := ⟨src, 128, 6, 33, 100, 128, src, 0, true⟩

/-- A PTP message of source 9 with sequence 4 for the request of port identity `req`. -/
def tPtp (two : Bool) (req : Nat) : PtpMsg := ⟨9, 4, two, 1000, 0, req, 3⟩

/-- A PTP slave on port A whose master is source 9, with what its port holds. -/
def slaved (s : State) (p : PtpPort) : State :=
  let t := (s.setFld timCtrlPtpEn 1).setFld timStatusSlavePort 0
  ({ t with tim := { t.tim with master := some (tAnn 9) } }).setPtp 0 p

/-- A PTP master. -/
def mastered (s : State) : State :=
  let t := (s.setFld timCtrlPtpEn 1).setFld timCtrlMasterEn 1
  { t with tim := { t.tim with asMaster := true } }

/-- A transparent clock between both ports. -/
def bridged (s : State) : State :=
  (((s.setFld timCtrlPtpEn 1).setFld (timPortTcEn 0) 1).setFld (timPortTcEn 1) 1).setFld fabCtrlBridge 1

/-- Fields at offsets from the start of a record, over a body of `n` bytes behind its header. -/
def tFill (n : Nat) (fs : List (Nat × Nat × Nat)) : List Byte :=
  (fs.foldl (fun (b : List Byte) (f : Nat × Nat × Nat) => b.take f.1 ++ leBytes f.2.1 f.2.2 ++ b.drop (f.1 + f.2.1)) (List.replicate (16 + n) 0)).drop 16

/-- A recipe of a fabric whose own camera spans 0 to 1.5 mm in columns of 0.1 mm (R395, R606). -/
def tFabRecipe : List Byte :=
  tRec 0x01 0xFF (tFill 48 []) ++ tRec 0x02 0xFF (tFill 48 [(0x10, 4, 1000), (0x24, 4, 100), (0x38, 8, 3000000)]) ++
  tRec 0x10 0 (tFill 48 [(0x19, 1, 1), (0x1A, 2, 16)]) ++
  tRec 0x11 0 (tFill 64 [(0x19, 1, 1), (0x38, 8, 0x3FF0000000000000), (0x48, 8, 0x40F86A0000000000)]) ++
  tRec 0x90 0xFF (tFill 32 [(0x18, 8, 2), (0x28, 8, 64)])

/-- A module of serial number 77 heard on port A, whose span begins at `left`. -/
def tPeer (left : Int) : Peer :=
  { serial := 77, seq := 1, coord := 0, isCoord := false, named := false, spanKnown := true, left := left, right := left + 1500000,
    hops := 1, port := 0, addr := 1, hash := [], gone := false }

/-- A running fabric engine in state `st` with that peer and the fabric recipe at hand. -/
def fabRun (s : State) (state : Nat) (left : Int) : State :=
  let t := (((s.setFld fabCtrlEnable 1).setFld fabCtrlBridge 1).setFld fabStatusState state).setFld (hspPortLink 0) 1
  { t with fab := { initFab with peers := [tPeer left] }, pln := { t.pln with lastRecipe := tFabRecipe, compiled := some { tPlan 0 with outs := { tOuts with fab := some ⟨0, [], 1⟩ } } } }

/-- A member of an assigned fabric at address `a`, the peer at address 1. -/
def fabMem (s : State) (a : Nat) : State := (fabRun s 3 1400000).setFld fabStatusAddress a

/-- An ensign of the module with serial number `serial` (R604). -/
def tEnsign (serial : Nat) : List Byte :=
  let h := [1#8] ++ List.replicate 7 0 ++ beBytes 8 serial ++ List.replicate 128 0
  h ++ beBytes 4 (crc32c h).toNat ++ List.replicate 4 0

/-- A fabric message of type `ty` from address 1 to address 0 (R615). -/
def tFab (ty seq ref : Nat) (body : List Byte) : List Byte := fabBytes ty 1 0 31 0 seq ref body

/-- A NOP as the host writes it, with alive counter `alive` and its CRC (R552). -/
def tSent (alive : Nat) : List Byte :=
  let b := (tBytes 0x01 [(2, 2, 7), (4, 1, alive)]).take 124
  b ++ leBytes 4 (crc32c b).toNat

/-! ### The premises of the statements

One theorem per statement: for every clause with premises, a state and operands that meet all of them together. -/

theorem test_premises_stepRunsTheFrontCommand :
    ∃ (c : Instr) (rest : List Instr) (s : State), s.pending = c :: rest :=
    ⟨.nop 0 0, [], { st 3 with pending := [.nop 0 0] }, by decide +kernel⟩

theorem test_premises_emptyQueueTicks :
    (∃ (s : State), s.pending = []) ∧
    (∃ (s : State), s.mode ≠ 0 ∧ s.tim.step = none ∧ -(2 ^ 36) ≤ s.tim.r ∧ s.tim.r ≤ 2 ^ 36) := ⟨
    ⟨st 3, by decide +kernel⟩,
    ⟨st 3, by decide +kernel, by decide +kernel, by decide +kernel, by decide +kernel⟩⟩

theorem test_premises_stepKeepsRegistersCanonical :
    ∃ (s : State) (t : State), RegsCanonical s ∧ step s = .next t :=
    ⟨st 4, _, (show _ = true by decide +kernel), rfl⟩

theorem test_premises_queueAndOutputs :
    ∃ (c : Instr) (s : State) (t : State), exec c s = .next t :=
    ⟨.gatherTimeout, st 4, _, rfl⟩

theorem test_premises_frameOfCameraCommands :
    ∃ (c : Instr) (s : State) (t : State), family c ∈ [.camera, .context, .pixel, .pennant, .lookback] ∧ exec c s =
     .next t :=
    ⟨.gatherTimeout, st 4, _, by decide +kernel, rfl⟩

theorem test_premises_frameOfHostCommands :
    ∃ (c : Instr) (s : State) (t : State), family c ∈ [.plan, .memory, .journal, .ring, .management, .descriptor,
     .setup] ∧ exec c s = .next t :=
    ⟨.linkDown 0, st 4, _, by decide +kernel, rfl⟩

theorem test_premises_frameOfDeviceCommands :
    ∃ (c : Instr) (s : State) (t : State), family c ∈ [.time, .fabric, .encoder, .axis, .event, .calibration,
     .power] ∧ exec c s = .next t :=
    ⟨.wakeInput, st 0, _, by decide +kernel, rfl⟩

theorem test_premises_portDiscovery :
    (∃ (p : PortId) (s : State), s.portUsable p = true ∧ s.fld (zlpStatusState p) = 0 ∧ (s.port p).wait = .none ∧
     (s.port p).asleep = false) ∧
    (∃ (p : PortId) (s : State), s.fld (zlpStatusState p) = 1) ∧
    (∃ (p : PortId) (s : State), s.fld (zlpStatusState p) = 1 ∧ 2 ≤ (s.port p).dscSeen) ∧
    (∃ (p : PortId) (s : State), s.fld (zlpStatusState p) = 1 ∧ (s.port p).dscSeen < 2) ∧
    (∃ (p : PortId) (role : Byte) (s : State), s.fld (zlpStatusState p) = 1 ∧ role ≠ 1) ∧
    (∃ (p : PortId) (s : State), (s.port p).wait = .retry) ∧
    (∃ (p : PortId) (s : State), 1 ≤ s.fld (zlpStatusState p) ∧ s.fld (zlpStatusState p) ≤ 5) ∧
    (∃ (p : PortId) (s : State), 1 ≤ s.fld (zlpStatusState p) ∧ s.fld (zlpStatusState p) ≤ 5) := ⟨
    ⟨0, (st 3).setFld (zlpStatusPresent 0) 1, by decide +kernel, by decide +kernel, by decide +kernel, by
     decide +kernel⟩,
    ⟨11, portIn (st 3) 11 1, by decide +kernel⟩,
    ⟨0, (portIn (st 3) 0 1).setPort 0 { initPort with dscSeen := 2 }, by decide +kernel, by decide +kernel⟩,
    ⟨0, (portIn (st 3) 0 1).setPort 0 { initPort with dscSeen := 1 }, by decide +kernel, by decide +kernel⟩,
    ⟨0, 2, portIn (st 3) 0 1, by decide +kernel, by decide +kernel⟩,
    ⟨0, (st 3).setPort 0 { initPort with wait := .retry }, by decide +kernel⟩,
    ⟨0, portIn (st 3) 0 1, by decide +kernel, by decide +kernel⟩,
    ⟨0, portIn (st 3) 0 5, by decide +kernel, by decide +kernel⟩⟩

theorem test_premises_portRecords :
    (∃ (p : PortId) (b : List Byte) (s : State), s.fld (zlpStatusState p) = 2 ∧ capOk b = true) ∧
    (∃ (p : PortId) (b : List Byte) (s : State), s.fld (zlpStatusState p) = 2 ∧ capOk b = false ∧ (s.port
     p).recSends < 7) ∧
    (∃ (p : PortId) (seq : Byte) (s : State), s.fld (zlpStatusState p) = 3 ∧ seq.toNat = (s.port p).recSeq) ∧
    (∃ (p : PortId) (seq : Byte) (s : State), s.fld (zlpStatusState p) = 3 ∧ seq.toNat = (s.port p).recSeq ∧ (s.port
     p).recSends < 8) ∧
    (∃ (p : PortId) (s : State), s.fld (zlpStatusState p) = 3 ∧ (s.port p).recSends < 8) ∧
    (∃ (p : PortId) (s : State), s.fld (zlpStatusState p) = 3 ∧ 8 ≤ (s.port p).recSends) := ⟨
    ⟨0, tCap, portIn (st 3) 0 2, by decide +kernel, by decide +kernel⟩,
    ⟨0, tCap.set 1 5, (portIn (st 3) 0 2).setPort 0 { initPort with recSends := 6 }, by decide +kernel, by
     decide +kernel, by decide +kernel⟩,
    ⟨0, 4, (portIn (st 3) 0 3).setPort 0 { initPort with recSeq := 4 }, by decide +kernel, by decide +kernel⟩,
    ⟨0, 4, (portIn (st 3) 0 3).setPort 0 { initPort with recSeq := 4, recSends := 7 }, by decide +kernel, by
     decide +kernel, by decide +kernel⟩,
    ⟨0, (portIn (st 3) 0 3).setPort 0 { initPort with recSends := 7 }, by decide +kernel, by decide +kernel⟩,
    ⟨0, (portIn (st 3) 0 3).setPort 0 { initPort with recSends := 8 }, by decide +kernel, by decide +kernel⟩⟩

theorem test_premises_portStepUp :
    (∃ (p : PortId) (rate : Byte) (lane : Byte) (s : State), s.fld (zlpStatusState p) = 4 ∧ (s.lane p
     lane.toNat).phase = .stepSent ∧ rate.toNat = (s.lane p lane.toNat).target) ∧
    (∃ (p : PortId) (l : LaneId) (s : State), s.fld (zlpStatusState p) = 4 ∧ (s.lane p l).phase = .waitSwitch) ∧
    (∃ (p : PortId) (l : LaneId) (s : State), s.fld (zlpStatusState p) = 4 ∧ (s.lane p l).phase = .adapting) ∧
    (∃ (p : PortId) (lane : Byte) (s : State), s.fld (zlpStatusState p) = 4 ∧ (s.lane p lane.toNat).phase =
     .waitResult) ∧
    (∃ (p : PortId) (l : LaneId) (s : State), s.fld (zlpStatusState p) = 4 ∧ (s.lane p l).phase = .waitResult) := ⟨
    ⟨0, 1, 3, (portIn (st 3) 0 4).setLane 0 3 { initLane with phase := .stepSent }, by decide +kernel, by
     decide +kernel, by decide +kernel⟩,
    ⟨0, 3, (portIn (st 3) 0 4).setLane 0 3 { initLane with phase := .waitSwitch }, by decide +kernel, by
     decide +kernel⟩,
    ⟨0, 3, (portIn (st 3) 0 4).setLane 0 3 { initLane with phase := .adapting }, by decide +kernel, by
     decide +kernel⟩,
    ⟨0, 3, (portIn (st 3) 0 4).setLane 0 3 { initLane with phase := .waitResult }, by decide +kernel, by
     decide +kernel⟩,
    ⟨0, 3, (portIn (st 3) 0 4).setLane 0 3 { initLane with phase := .waitResult }, by decide +kernel, by
     decide +kernel⟩⟩

theorem test_premises_portLock :
    (∃ (p : PortId) (rate : Byte) (lanes : Byte) (s : State), s.fld (zlpStatusState p) = 5 ∧ (s.port p).wait =
     .switchEcho ∧ rate.toNat = s.fld (zlpStatusRate p) ∧ lanes.toNat = s.fld (zlpStatusLanes p)) ∧
    (∃ (p : PortId) (s : State), s.fld (zlpStatusState p) = 5 ∧ (s.port p).wait = .codeSwitch) ∧
    (∃ (p : PortId) (s : State), s.fld (zlpStatusState p) = 5 ∧ (s.port p).wait = .lock) ∧
    (∃ (p : PortId) (hs : List (BitVec 2)) (s : State), s.blocksRun p = true ∧ hs.length = 64 ∧ hs.all headerOk =
     true) ∧
    (∃ (p : PortId) (l : LaneId) (hs : List (BitVec 2)) (s : State), s.blocksRun p = true ∧ (s.lane p l).locked =
     true ∧ hs.length = 64 ∧ 16 ≤ (hs.filter (fun h => !headerOk h)).length) ∧
    (∃ (p : PortId) (l : LaneId) (block : Option (List Byte)) (at_ : Nat) (s : State) (t : State), s.blocksRun p =
     true ∧ l.val < s.fld (zlpStatusLanes p) ∧ s.fld (zlpStatusState p) = 5 ∧ t = s.takeMark p l block at_ ∧ (t.lane
     p l).badMarks < 4 ∧ t.aligned p 3 = true) ∧
    (∃ (p : PortId) (l : LaneId) (block : Option (List Byte)) (at_ : Nat) (s : State) (t : State), s.blocksRun p =
     true ∧ l.val < s.fld (zlpStatusLanes p) ∧ t = s.takeMark p l block at_ ∧ 4 ≤ (t.lane p l).badMarks) := ⟨
    ⟨0, 3, 4, (portIn (st 3) 0 5).setPort 0 { initPort with wait := .switchEcho }, by decide +kernel, by
     decide +kernel, by decide +kernel, by decide +kernel⟩,
    ⟨0, (portIn (st 3) 0 5).setPort 0 { initPort with wait := .codeSwitch }, by decide +kernel, by decide +kernel⟩,
    ⟨0, (portIn (st 3) 0 5).setPort 0 { initPort with wait := .lock }, by decide +kernel, by decide +kernel⟩,
    ⟨0, List.replicate 64 1, portIn (st 3) 0 6, by decide +kernel, by decide +kernel, by decide +kernel⟩,
    ⟨0, 0, List.replicate 48 1 ++ List.replicate 16 0, (portIn (st 3) 0 6).setLane 0 0
     { initLane with locked := true }, by decide +kernel, by decide +kernel, by decide +kernel, by decide +kernel⟩,
    ⟨0, 3, some [0xC3, 3, 0, 9, 0xFC, 0xFF, 0xF6, 0], 1000, ((List.range 4).foldl (fun s l => s.setLane 0 l
     { initLane with locked := true, goodMarks := if l = 3 then 2 else 3, mark := some (if l = 3 then 8 else 9, 1000) })
     ((portIn (st 3) 0 5).setPort 0 { initPort with wait := .lock })), _, by decide +kernel, by decide +kernel, by
     decide +kernel, rfl, by decide +kernel, by decide +kernel⟩,
    ⟨0, 3, none, 1000, (portIn (st 3) 0 6).setLane 0 3 { initLane with locked := true, badMarks := 3 }, _, by
     decide +kernel, by decide +kernel, rfl, by decide +kernel⟩⟩

theorem test_premises_portSleepResume :
    (∃ (p : PortId) (b : List Byte) (s : State), s.blocksRun p = true ∧ b.length = 8 ∧ leAt b 0 1 = 0x96 ∧ crc8
     (slice b 1 6) = b.getD 7 0) ∧
    (∃ (p : PortId) (cm : CamPlan) (s : State), s.camPlan p = some cm ∧ cm.trigSource = 0 ∧ s.linked p = true ∧
     s.mode = 4) ∧
    (∃ (p : PortId) (s : State), (s.port p).asleep = true ∧ s.mode ≠ 0) ∧
    (∃ (p : PortId) (s : State), s.fld (zlpStatusState p) = 8 ∧ (s.port p).wait = .wake) ∧
    (∃ (p : PortId) (s : State), s.fld (zlpStatusState p) = 8 ∧ (s.port p).wait = .warmAdapt) ∧
    (∃ (p : PortId) (s : State), s.fld (zlpStatusState p) = 8 ∧ (s.port p).wait = .warmStatus) ∧
    (∃ (p : PortId) (l : Nat) (s : State), s.linked p = true ∧ l ∈ s.activeLanes p ∧ (s.fld (fomFld p l) < 64 ∨
     s.fld (camFomFld p l) < 64)) ∧
    (∃ (p : PortId) (s : State), s.portUsable p = true ∧ s.linked p = true) ∧
    (∃ (p : PortId) (s : State), (s.mode = 3 ∨ s.mode = 7) ∧ s.linked p = true) := ⟨
    ⟨0, [0x96, 80, 0, 0, 0, 0, 0, crc8 [80, 0, 0, 0, 0, 0]], portIn (st 3) 0 6, by decide +kernel, by decide +kernel,
     by decide +kernel, by decide +kernel⟩,
    ⟨0, tCam 0, portIn (stp 4) 0 6, by decide +kernel, by decide +kernel, by decide +kernel, by decide +kernel⟩,
    ⟨0, (st 4).setPort 0 { initPort with asleep := true }, by decide +kernel, by decide +kernel⟩,
    ⟨0, (portIn (st 4) 0 8).setPort 0 { initPort with wait := .wake }, by decide +kernel, by decide +kernel⟩,
    ⟨0, (portIn (st 4) 0 8).setPort 0 { initPort with wait := .warmAdapt }, by decide +kernel, by decide +kernel⟩,
    ⟨0, (portIn (st 4) 0 8).setPort 0 { initPort with wait := .warmStatus }, by decide +kernel, by decide +kernel⟩,
    ⟨0, 3, ((portIn (st 4) 0 6).setFld (fomFld 0 3) 63).setFld (camFomFld 0 3) 64, by decide +kernel, by
     decide +kernel, by decide +kernel⟩,
    ⟨0, portIn (st 4) 0 6, by decide +kernel, by decide +kernel⟩,
    ⟨0, portIn (st 7) 0 6, by decide +kernel, by decide +kernel⟩⟩

theorem test_premises_cameraLines :
    (∃ (p : PortId) (k : Pkt) (cp : CtxPlan) (s : State), s.linked p = true ∧ sopOk k = true ∧ pktType k = 1 ∧
     s.flag (zlpStatusCameraChanged p) = false ∧ s.ctxPlan p = some cp ∧ checkLine (s.capRecord p) cp k = .good) ∧
    (∃ (p : PortId) (k : Pkt) (cp : CtxPlan) (h : Bool) (s : State), s.linked p = true ∧ sopOk k = true ∧ pktType k
     = 1 ∧ s.flag (zlpStatusCameraChanged p) = false ∧ s.ctxPlan p = some cp ∧ checkLine (s.capRecord p) cp k =
     .damaged h) ∧
    (∃ (p : PortId) (k : Pkt) (cp : CtxPlan) (s : State), s.linked p = true ∧ sopOk k = true ∧ pktType k = 1 ∧
     s.flag (zlpStatusCameraChanged p) = false ∧ s.ctxPlan p = some cp ∧ checkLine (s.capRecord p) cp k = .beyond) ∧
    (∃ (p : PortId) (k : Pkt) (s : State), s.linked p = true ∧ sopOk k = false) ∧
    (∃ (p : PortId) (k : Pkt) (r : CtrlReq) (s : State), s.linked p = true ∧ sopOk k = true ∧ (s.port p).ctrl = some
     r ∧ pktGood k 3 = true ∧ beAt k.body 0 1 = r.op + 128 ∧ beAt k.body 1 1 = r.tag ∧ beAt k.body 2 2 = r.words ∧
     beAt k.body 4 1 = 0) ∧
    (∃ (p : PortId) (k : Pkt) (s : State), s.linked p = true ∧ sopOk k = true ∧ pktGood k 7 = true ∧ beAt k.body 0 2
     = 3) ∧
    (∃ (p : PortId) (k : Pkt) (s : State), s.linked p = true ∧ sopOk k = true ∧ pktGood k 7 = true ∧ (beAt k.body 0
     2 = 4 ∨ beAt k.body 0 2 = 5)) ∧
    (∃ (p : PortId) (cm : CamPlan) (s : State), s.camPlan p = some cm ∧ cm.trigSource = 1) := ⟨
    ⟨0, tPkt 1 (tLine 16), tCp, linkedCam (stp 4), by decide +kernel, by decide +kernel, by decide +kernel, by
     decide +kernel, by decide +kernel, by decide +kernel⟩,
    ⟨0, tPkt 1 (tLine 8), tCp, true, linkedCam (stp 4), by decide +kernel, by decide +kernel, by decide +kernel, by
     decide +kernel, by decide +kernel, by decide +kernel⟩,
    ⟨0, tPkt 1 (tLine 24), tCp, linkedCam (stp 4), by decide +kernel, by decide +kernel, by decide +kernel, by
     decide +kernel, by decide +kernel, by decide +kernel⟩,
    ⟨0, { tPkt 1 (tLine 16) with sop := [] }, linkedCam (stp 4), by decide +kernel, by decide +kernel⟩,
    ⟨0, tPkt 3 ([0x81, 1, 0, 2, 0] ++ List.replicate 11 0), ⟨1, 1, 2, [], 1, 0, 0, 0⟩, (linkedCam (stp 4)).setPort 0
     { initPort with ctrl := some ⟨1, 1, 2, [], 1, 0, 0, 0⟩ }, by decide +kernel, by decide +kernel, by
     decide +kernel, by decide +kernel, by decide +kernel, by decide +kernel, by decide +kernel, by decide +kernel⟩,
    ⟨0, tPkt 7 [0, 3, 0, 0, 0, 0, 0, 0], linkedCam (stp 4), by decide +kernel, by decide +kernel, by decide +kernel,
     by decide +kernel⟩,
    ⟨0, tPkt 7 [0, 5, 0, 0, 0, 0, 0, 0], linkedCam (stp 4), by decide +kernel, by decide +kernel, by decide +kernel,
     by decide +kernel⟩,
    ⟨0, tCam 1, planned (st 4) (tPlan 1), by decide +kernel, by decide +kernel⟩⟩

theorem test_premises_cameraTimeouts :
    (∃ (p : PortId) (a : Apply) (s : State), (s.port p).applies.find? (fun a => !a.accepted) = some a ∧ a.sends ≤ 3) ∧
    (∃ (p : PortId) (a : Apply) (s : State), (s.port p).applies.find? (fun a => !a.accepted) = some a ∧ 3 < a.sends) ∧
    (∃ (p : PortId) (r : CtrlReq) (s : State), (s.port p).ctrl = some r ∧ r.sends ≤ 3) ∧
    (∃ (p : PortId) (r : CtrlReq) (s : State), (s.port p).ctrl = some r ∧ 3 < r.sends ∧ r.sess < 4) := ⟨
    ⟨0, ⟨0, 0, 1, [], 3, false, 0, 0⟩, (st 4).setPort 0 { initPort with applies := [⟨0, 0, 1, [], 3, false, 0, 0⟩] },
     by decide +kernel, by decide +kernel⟩,
    ⟨0, ⟨0, 0, 1, [], 4, false, 0, 0⟩, (st 4).setPort 0 { initPort with applies := [⟨0, 0, 1, [], 4, false, 0, 0⟩] },
     by decide +kernel, by decide +kernel⟩,
    ⟨0, ⟨1, 1, 2, [], 3, 0, 0, 0⟩, (st 4).setPort 0 { initPort with ctrl := some ⟨1, 1, 2, [], 3, 0, 0, 0⟩ }, by
     decide +kernel, by decide +kernel⟩,
    ⟨0, ⟨1, 1, 2, [], 4, 0, 3, 0⟩, (st 4).setPort 0 { initPort with ctrl := some ⟨1, 1, 2, [], 4, 0, 3, 0⟩ }, by
     decide +kernel, by decide +kernel, by decide +kernel⟩⟩

theorem test_premises_contextService :
    (∃ (c : CtxId) (s : State) (cp : CtxPlan), s.fld (ctxCtrlFlushMs c) ≠ 0 ∧ (s.ctx c).num.held ≠ 0 ∧ (s.ctx
     c).num.lastAccept + s.fld (ctxCtrlFlushMs c) * 625000 ≤ s.clock ∧ (s.rebase c).ctxPlan c = some cp ∧ cp.service
     ≠ 2) ∧
    (∃ (k : SliceId) (c : Nat) (s : State) (t : State), (s.slice k).asleep = false ∧ (s.slice k).lost = false ∧
     s.granuleOwner k (granuleAt s.frameTick) = some c ∧ t = s.setSlice k
     { s.slice k with granule := granuleAt s.frameTick, owner := some c } ∧ t.processing c = true) ∧
    (∃ (k : SliceId) (s : State), (s.slice k).asleep = false ∧ (s.slice k).lost = false ∧ s.granuleOwner k
     (granuleAt s.frameTick) = none) ∧
    (∃ (c : CtxId) (first : Nat) (s : State), (s.ctx c).num.retired = some first ∧ (s.ctx c).fifo = [] ∧ (s.ctx
     c).filling = [] ∧ (s.ctx c).complete = [] ∧ (s.ctx c).reading = [] ∧ s.inspected c = false) ∧
    (∃ (k : SliceId) (s : State), (s.slice k).asleep = false ∧ (s.slice k).lost = false ∧ (s.slice k).idleSince +
     625000 ≤ s.clock ∧ (∀ e ∈ s.sliceCtxs k, s.ctxIdle e.1 = true)) ∧
    (∃ (k : SliceId) (s : State), (s.slice k).asleep = true ∧ (s.slice k).lost = false) := ⟨
    ⟨0,
     { ((stp 4).setFld (ctxCtrlFlushMs 0) 5).setCtx 0 { initCtx with num := { initNum with held := 1, lastAccept := 100 } } with clock := 3125100 },
     _, by decide +kernel, by decide +kernel, by decide +kernel, (Option.some_get (by decide +kernel)).symm, by
     decide +kernel⟩,
    ⟨0, 0, stp 4, _, by decide +kernel, by decide +kernel, by decide +kernel, rfl, by decide +kernel⟩,
    ⟨1, stp 4, by decide +kernel, by decide +kernel, by decide +kernel⟩,
    ⟨0, 3, (st 3).setCtx 0 { initCtx with num := { initNum with retired := some 3 } }, by decide +kernel, by
     decide +kernel, by decide +kernel, by decide +kernel, by decide +kernel, by decide +kernel⟩,
    ⟨0, { stp 4 with clock := 625000 }, by decide +kernel, by decide +kernel, by decide +kernel, by decide +kernel⟩,
    ⟨0, (st 4).setSlice 0 { initSlice with asleep := true }, by decide +kernel, by decide +kernel⟩⟩

theorem test_premises_pixelLines :
    (∃ (c : CtxId) (cp : CtxPlan) (p : Plan) (ln : CamLine) (s : State) (t : State) (u : State), s.ctxPlan c = some
     cp ∧ s.pln.plan = some p ∧ s.processing c = true ∧ s.sliceRuns c cp.slice = true ∧ s.feSource c cp = some (ln,
     t) ∧ ln.poisoned = false ∧ u = t.setSlice cp.slice { t.slice cp.slice with idleSince := t.clock } ∧ u.flatRun c
     = none) ∧
    (∃ (c : CtxId) (cp : CtxPlan) (o : OutLine) (e : Bool) (g : GeoSt) (s : State), s.ctxPlan c = some cp ∧
     s.backRuns c cp = true ∧ geoEmit cp s.pitchY (s.ctx c).geo = some (o, e, g)) ∧
    (∃ (c : CtxId) (partner : CtxId) (cp : CtxPlan) (b : Band) (s : State) (t : State), s.ctxPlan c = some cp ∧
     (s.ctx c).geo.waiting ≠ [] ∧ b ∈ ownedBands cp ∧ b.partner = partner.val ∧ t = s.setCtx c
     { s.ctx c with geo := { (s.ctx c).geo with gave := partner.val :: (s.ctx c).geo.gave } }) ∧
    (∃ (c : CtxId) (cp : CtxPlan) (o : OutLine) (rest : List OutLine) (s : State), s.ctxPlan c = some cp ∧ (s.ctx
     c).segq = o :: rest ∧ s.inspected c = true ∧ (s.slice cp.slice).asleep = false) := ⟨
    ⟨0, tCp, _, _, sliced ((stp 4).setCtx 0 { initCtx with fifo := [⟨tCamLine 0, false, false, 1⟩] }), _, _, by
     decide +kernel, (Option.some_get (by decide +kernel)).symm, by decide +kernel, by decide +kernel,
     (Option.some_get (by decide +kernel)).symm, by decide +kernel, rfl, by decide +kernel⟩,
    ⟨0, tCp, _, _, _, sliced ((stp 4).setCtx 0
     { initCtx with geo := { initGeo with lines := [tGeoLine 0 0, tGeoLine 1 1000], nextM := some 0, linkStart := false } }),
     by decide +kernel, by decide +kernel, (Option.some_get (by decide +kernel)).symm⟩,
    ⟨0, 2, tCp, ⟨12, 15, 2, true, true, 1000⟩, (stp 4).setCtx 0
     { initCtx with geo := { initGeo with waiting := [tOut 3] } }, _, by decide +kernel, by decide +kernel, by
     decide +kernel, by decide +kernel, rfl⟩,
    ⟨0, tCp, tOut 0, [tOut 1], (stp 4).setCtx 0 { initCtx with segq := [tOut 0, tOut 1] }, by decide +kernel, by
     decide +kernel, by decide +kernel, by decide +kernel⟩⟩

theorem test_premises_pennantsAndOverview :
    (∃ (l : OvwLine) (rest : List OvwLine) (pl : Plan) (n : Nat) (s : State) (t : State), s.ovw.ready = l :: rest ∧
     s.pln.plan = some pl ∧ s.ovw.limited = false ∧ s.ovwSess = some n ∧ (s.hring n 4).free ≠ 0 ∧ s.ringPut n 4
     (ovwRecord pl.ovw s.ovw.number (aliveOf (s.hring n 4).prod (s.hring n 4).entries) s.ovw.dropped l) 4 0 = (t,
     none)) ∧
    (∃ (l : OvwLine) (rest : List OvwLine) (pl : Plan) (s : State), s.ovw.ready = l :: rest ∧ s.pln.plan = some pl ∧
     s.ovw.limited = false ∧ s.ovwSess = none) ∧
    (∃ (s : State), s.flag ovwStatusRunning = true) ∧
    (∃ (b : Bunt) (rest : List Bunt) (s : State), s.seam.inq = b :: rest) ∧
    (∃ (s : State), s.pen.gathered ≠ 0) ∧
    (∃ (s : State), s.pen.gathered = 0) := ⟨
    ⟨tOvwLine, [], tPlan 0, 0, { opened (stp 4) with ovw := { initOvw with ready := [tOvwLine] } }, _, by
     decide +kernel, by decide +kernel, by decide +kernel, by decide +kernel, by decide +kernel, Prod.ext rfl (by
     decide +kernel)⟩,
    ⟨tOvwLine, [], tPlan 0, { stp 4 with ovw := { initOvw with ready := [tOvwLine] } }, by decide +kernel, by
     decide +kernel, by decide +kernel, by decide +kernel⟩,
    ⟨(st 4).setFld ovwStatusRunning 1, by decide +kernel⟩,
    ⟨⟨0, 0, 0, 0, 0, 0, 0, 0, false, false, false, false, none⟩, [],
     { st 4 with seam := { initSeam with inq := [⟨0, 0, 0, 0, 0, 0, 0, 0, false, false, false, false, none⟩] } }, by
     decide +kernel⟩,
    ⟨{ st 4 with pen := { initPen with gathered := 1 } }, by decide +kernel⟩,
    ⟨st 4, by decide +kernel⟩⟩

theorem test_premises_lookbackRing :
    (∃ (c : CtxId) (cp : CtxPlan) (l : FifoLine) (s : State) (t : State), s.ctxPlan c = some cp ∧ (s.ctx
     c).fifo.find? (fun l => !l.engineTook) = some l ∧ s.engineUp cp.engine = true ∧ t = s.setCtx c
     { s.ctx c with fifo := (s.ctx c).fifo.map (fun q => if q.line.abs = l.line.abs then { q with engineTook := true } else q) }) ∧
    (∃ (c : CtxId) (cp : CtxPlan) (lens : List (List Nat)) (s : State), s.ctxPlan c = some cp ∧ s.flag
     (cmpTableDynamic c) = true ∧ tableOk lens = true ∧ (∀ t ∈ lens, 0 ∉ t) ∧ (s.coder c).prevIdx = none) ∧
    (∃ (c : CtxId) (cp : CtxPlan) (strip : Nat) (n : Nat) (i : Nat) (lens : List (List Nat)) (s : State), s.ctxPlan
     c = some cp ∧ s.flag (cmpTableDynamic c) = true ∧ tableOk lens = true ∧ (∀ t ∈ lens, 0 ∉ t) ∧ (s.coder
     c).prevIdx = some (n, i) ∧ strip + 2 ≤ n) ∧
    (∃ (p : Plan) (c : Nat) (s : State), s.pln.plan = some p ∧ s.liveCtxs = [c] ∧ p.minDepth ≤ s.ctxDepth c) ∧
    (∃ (p : Plan) (s : State), s.pln.plan = some p ∧ s.ring.codedBytes ≠ 0 ∧ p.minRatio ≤ min (s.ring.rawBytes * 256
     / s.ring.codedBytes) 65535) ∧
    (∃ (p : Plan) (s : State), s.pln.plan = some p ∧ s.ring.codedBytes ≠ 0 ∧ min (s.ring.rawBytes * 256 /
     s.ring.codedBytes) 65535 < p.minRatio) := ⟨
    ⟨0, tCp, _, (stp 4).setCtx 0 { initCtx with fifo := [⟨tCamLine 0, true, false, 1⟩] }, _, by decide +kernel,
     (Option.some_get (by decide +kernel)).symm, by decide +kernel, rfl⟩,
    ⟨0, tCp, tLens, (stp 4).setFlag (cmpTableDynamic 0) true, by decide +kernel, by decide +kernel, by
     decide +kernel, by decide +kernel, by decide +kernel⟩,
    ⟨0, tCp, 5, 7, 0, tLens, ((stp 4).setFlag (cmpTableDynamic 0) true).setCoder 0
     { initCoder with prevIdx := some (7, 0) }, by decide +kernel, by decide +kernel, by decide +kernel, by
     decide +kernel, by decide +kernel, by decide +kernel⟩,
    ⟨_, 0,
     { stp 4 with ring := { initRing with strips := [⟨0, 0, false, false, false, 64, 0, 0, 0, 0, 0, 1, 0, 0⟩] }, tim := { initTim with tai := 10000000 * taiUnit } },
     (Option.some_get (by decide +kernel)).symm, by decide +kernel, by decide +kernel⟩,
    ⟨_, { stp 4 with ring := { initRing with rawBytes := 100, codedBytes := 100 } }, (Option.some_get (by
     decide +kernel)).symm, by decide +kernel, by decide +kernel⟩,
    ⟨_, { stp 4 with ring := { initRing with rawBytes := 99, codedBytes := 100 } }, (Option.some_get (by
     decide +kernel)).symm, by decide +kernel, by decide +kernel⟩⟩

theorem test_premises_jobUnits :
    (∃ (i : Nat) (j : Job) (k : Job) (pl : Plan) (s : State) (t : State), s.job i = some j ∧ s.pln.plan = some pl ∧
     4 ≤ j.sess ∧ s.jobStart j = some (t, k) ∧ t.jobOverlaps k = false ∧ k.par.kind = .crop) ∧
    (∃ (i : Nat) (j : Job) (k : Job) (s : State) (t : State), s.job i = some j ∧ j.par.kind = .check ∧ s.flag
     (hssSessionResumable j.sess) = false ∧ s.jobStart j = some (t, k) ∧ t.jobOverlaps k = false ∧ k.par.kind =
     .check) ∧
    (∃ (i : Nat) (j : Job) (k : Job) (pl : Plan) (s : State) (t : State), s.job i = some j ∧ s.pln.plan = some pl ∧
     s.flag (hssSessionResumable j.sess) = false ∧ s.jobStart j = some (t, k) ∧ t.jobOverlaps k = false ∧ k.par.kind
     = .reprocess) ∧
    (∃ (i : Nat) (j : Job) (k : Job) (pl : Plan) (s : State) (t : State), s.job i = some j ∧ s.pln.plan = some pl ∧
     s.flag (hssSessionResumable j.sess) = false ∧ s.jobStart j = some (t, k) ∧ t.jobOverlaps k = true) ∧
    (∃ (i : Nat) (j : Job) (s : State) (t : State), s.job i = some j ∧ j.phase = .running ∧ t =
     { s with jobs := s.jobs.filter (fun x => decide (x.id ≠ i)) ++ [{ j with phase := .queued }] }) := ⟨
    ⟨3, _, _, _, { stp 4 with jobs := [tJob 4 .crop .queued] }, _, (Option.some_get (by decide +kernel)).symm,
     (Option.some_get (by decide +kernel)).symm, by decide +kernel, (Option.some_get (by decide +kernel)).symm, by
     decide +kernel, by decide +kernel⟩,
    ⟨3, _, _, { stp 4 with jobs := [tJob 0 .check .queued] }, _, (Option.some_get (by decide +kernel)).symm, by
     decide +kernel, by decide +kernel, (Option.some_get (by decide +kernel)).symm, by decide +kernel, by
     decide +kernel⟩,
    ⟨3, _, _, _, { stp 4 with jobs := [tJob 0 .reprocess .queued] }, _, (Option.some_get (by decide +kernel)).symm,
     (Option.some_get (by decide +kernel)).symm, by decide +kernel, (Option.some_get (by decide +kernel)).symm, by
     decide +kernel, by decide +kernel⟩,
    ⟨3, _, _, _,
     { stp 4 with jobs := [{ tJob 0 .crop .running with id := 4, outLen := 4096 }, { tJob 0 .crop .running with out := 4095, outLen := 4096 }] },
     _, (Option.some_get (by decide +kernel)).symm, (Option.some_get (by decide +kernel)).symm, by decide +kernel,
     (Option.some_get (by decide +kernel)).symm, by decide +kernel⟩,
    ⟨3, _, { stp 4 with jobs := [tJob 0 .reprocess .running] }, _, (Option.some_get (by decide +kernel)).symm, by
     decide +kernel, rfl⟩⟩

theorem test_premises_planAndFallbacks :
    (∃ (res : Compiled) (j : PlanJob) (b : List Byte) (s : State), s.pln.compiling = some j ∧ j.bytes = some b ∧ 4 ≤
     j.sess ∧ s.compileDefect b.length b res (planFromRecs (cutRecs (b.length / 16 + 1) b).1 s.camMosaic res.plan) =
     none) ∧
    (∃ (res : Compiled) (j : PlanJob) (b : List Byte) (st : PlanStatus) (s : State), s.pln.compiling = some j ∧
     j.bytes = some b ∧ 4 ≤ j.sess ∧ s.compileDefect b.length b res (planFromRecs (cutRecs (b.length / 16 + 1) b).1
     s.camMosaic res.plan) = some st) ∧
    (∃ (s : State), s.fabricMember = false) ∧
    (∃ (pl : Plan) (s : State), s.pln.plan = some pl) ∧
    (∃ (n : Nat) (s : State), s.pln.fault = some n ∧ s.fallbackReady n = true) ∧
    (∃ (n : Nat) (p : Plan) (s : State) (t : State), s.pln.fault = some n ∧ s.pln.loaded = true ∧ planEntry
     s.pln.fallbacks n = some p ∧ t = s.fallbackLive n p ∧ t.pln.queued = []) := ⟨
    ⟨tCompiled, ⟨4, 0, some (tRecipe 1000), none⟩, tRecipe 1000,
     { st 3 with pln := { initPln with compiling := some ⟨4, 0, some (tRecipe 1000), none⟩ } }, by decide +kernel,
     by decide +kernel, by decide +kernel, by decide +kernel⟩,
    ⟨tCompiled, ⟨4, 0, some (tRecipe 999), none⟩, tRecipe 999, ⟨3, 2, 0xFF, 0x10⟩,
     { st 3 with pln := { initPln with compiling := some ⟨4, 0, some (tRecipe 999), none⟩ } }, by decide +kernel, by
     decide +kernel, by decide +kernel, by decide +kernel⟩,
    ⟨st 4, by decide +kernel⟩,
    ⟨tPlan 0, stp 4, by decide +kernel⟩,
    ⟨64, ({ stp 4 with pln := { (stp 4).pln with fault := some 64 } }).setFld (plnFbReadyF 2) 1, by decide +kernel,
     by decide +kernel⟩,
    ⟨64, tPlan 0,
     { stp 4 with pln := { (stp 4).pln with fault := some 64, loaded := true, fallbacks := [(64, tPlan 0)] } }, _,
     by decide +kernel, by decide +kernel, by decide +kernel, rfl, by decide +kernel⟩⟩

theorem test_premises_memoryService :
    (∃ (m : ChanId) (s : State), s.mcUp m = true) ∧
    (∃ (m : ChanId) (cs : List Int) (s : State), s.inspecting = true ∧ s.mcUp m = true ∧ (∀ c ∈ cs, -2 ≤ c ∧ c ≤ 2)) ∧
    (∃ (m : ChanId) (s : State), s.inspecting = true ∧ s.mcUp m = true) ∧
    (∃ (b : Bool) (s : State), s.mem.hotDue = some b) ∧
    (∃ (m : ChanId) (k : Fin 4) (w : List Byte) (d : List Byte) (s : State), s.fld (retiredFld m k) = 0 ∧ rsDecode
     none w = .clean d) ∧
    (∃ (m : ChanId) (k : Fin 4) (n : List Nat) (w : List Byte) (d : List Byte) (s : State), s.fld (retiredFld m k) =
     0 ∧ rsDecode none w = .corrected d n) ∧
    (∃ (m : ChanId) (k : Fin 4) (w : List Byte) (s : State), s.fld (retiredFld m k) = 0 ∧ rsDecode none w =
     .poisoned) ∧
    (∃ (m : ChanId) (k : Fin 4) (w : List Byte) (s : State), s.fld (retiredFld m k) = 0 ∧ rsDecode none w =
     .uncorrectable) ∧
    (∃ (dies : List (List Int)) (s : State) (t : State), t = dies.zipIdx.foldl (fun s d => s.mcTemp d.2 d.1) s ∧ (∀
     x ∈ dies.flatten, x ≤ 78)) ∧
    (∃ (a : Nat) (s : State), s.mem.coolSince = some a ∧ s.flag mcgStatusHot = true ∧ a + 625000000 ≤ s.clock) := ⟨
    ⟨0, (st 4).setFld (mcStatusState 0) 2, by decide +kernel⟩,
    ⟨0, [-2, 2], (st 4).setFld (mcStatusState 0) 2, by decide +kernel, by decide +kernel, by decide +kernel⟩,
    ⟨0, (st 4).setFld (mcStatusState 0) 2, by decide +kernel, by decide +kernel⟩,
    ⟨true, { st 4 with mem := { initMem with hotDue := some true } }, by decide +kernel⟩,
    ⟨0, 0, tWord [], List.replicate 64 0, st 4, by decide +kernel, by decide +kernel⟩,
    ⟨0, 3, [10], tWord (List.replicate 10 0 ++ [7]), List.replicate 64 0, st 4, by decide +kernel, by decide +kernel⟩,
    ⟨15, 0, List.replicate 64 0 ++ List.replicate 16 0xA5, st 4, by decide +kernel, by decide +kernel⟩,
    ⟨0, 0, tWord [1, 2, 3, 4, 5, 6, 7, 8, 9, 10], st 4, by decide +kernel, by decide +kernel⟩,
    ⟨[[78, 20]], st 4, _, rfl, by decide +kernel⟩,
    ⟨5, { (st 4).setFlag mcgStatusHot true with mem := { initMem with coolSince := some 5 }, clock := 625000005 }, by
     decide +kernel, by decide +kernel, by decide +kernel⟩⟩

theorem test_premises_memoryRanks :
    (∃ (m : ChanId) (w : List Byte) (d : List Byte) (g : Migration) (s : State) (t : State) (u : State), (s.mc
     m).migration = some g ∧ t = (s.takeFree 2).2 ∧ t.fld (retiredFld m g.rank) = 0 ∧ rsDecode none w = .clean d ∧ u
     =
     { t with mem := { t.mem with bursts := tblSet t.mem.bursts [] (burstKey m (t.spareOf m) g.next) (rsEncode d) } }) ∧
    (∃ (m : ChanId) (width : Nat) (height : Nat) (vref : Int) (s : State) (t : State), s.fld (mcStatusState m) = 1 ∧
     trainingOk width vref = true ∧ t = ((s.setFld (mcEyeWidth m) width).setFld (mcEyeHeight m) height).setFldInt
     (mcEyeVrefDev m) vref) ∧
    (∃ (m : ChanId) (width : Nat) (vref : Int) (s : State), s.fld (mcStatusState m) = 1 ∧ trainingOk width vref =
     false ∧ s.mode = 1) ∧
    (∃ (v : Word), v.getLsbD 12 = true) := ⟨
    ⟨0, tWord [], List.replicate 64 0, ⟨1, 10, 3, 2, []⟩, (st 4).setMc 0
     { initMc with migration := some ⟨1, 10, 3, 2, []⟩ }, _, _, by decide +kernel, rfl, by decide +kernel, by
     decide +kernel, rfl⟩,
    ⟨0, 20, 200, -16, (st 1).setFld (mcStatusState 0) 1, _, by decide +kernel, by decide +kernel, rfl⟩,
    ⟨0, 19, 16, (st 1).setFld (mcStatusState 0) 1, by decide +kernel, by decide +kernel, by decide +kernel⟩,
    ⟨0x1000, by decide +kernel⟩⟩

theorem test_premises_journalCommands :
    (∃ (s : State), s.flag jnlStatusReplaying = true ∧ s.jnl.replayPen = []) ∧
    (∃ (c : CtxId) (pos : Nat) (cp : CtxPlan) (s : State) (t : State) (x : CtxSt), s.catchAt c = some pos ∧
     s.ctxPlan c = some cp ∧ cp.service ≠ 2 ∧ s.ring.lines = [] ∧ 0 < cp.lines ∧ (s.ctx c).num.held = 0 ∧ x = s.ctx
     c ∧ t =
     { s.setCtx c x with jnl := { s.jnl with catchPos := s.jnl.catchPos.filter (fun e => decide (e.1 ≠ c.val)), matchLeft := s.jnl.matchLeft.filter (fun e => decide (e.1 ≠ c.val)), matchParts := s.jnl.matchParts.filter (fun e => decide (e.1 ≠ c.val)) } }
     ∧ s.jnl.catchPos.filter (fun e => decide (e.1 ≠ c.val)) ≠ []) := ⟨
    ⟨(st 4).setFlag jnlStatusReplaying true, by decide +kernel, by decide +kernel⟩,
    ⟨0, 3, tCp, { stp 5 with jnl := { initJnl with catchPos := [(0, 3), (1, 2)] } }, _, _, by decide +kernel, by
     decide +kernel, by decide +kernel, by decide +kernel, by decide +kernel, by decide +kernel, rfl, rfl, by
     decide +kernel⟩⟩

theorem test_premises_ringTraffic :
    (∃ (n : SessId) (w : Nat) (d : Nat) (s : State), (s.session n).fences = [(w, d)] ∧ (∀ o ∈ (s.session n).qp.ops,
     o.win ≠ w)) ∧
    (∃ (n : SessId) (ds : List (List Byte)) (o : RdmaOp) (ops : List RdmaOp) (s : State) (t : State) (u : State),
     takeOp RdmaOp.fetches (s.session n).qp.ops = some (o, ops) ∧ t = (s.setOps n ops).setSession n
     { (s.setOps n ops).session n with fetching := false } ∧ t.acceptAll n (ds.take (o.len / 128)) = .ok u) ∧
    (∃ (n : SessId) (d : List Byte) (r : Refetch) (s : State) (t : State) (u : State) (w : State × Option (Nat ×
     Nat)), (s.session n).refetch = some r ∧ s.isOpen n = true ∧ w = s.hostRead ((s.hring n 0).addr + (s.hring n
     0).unit * slotOf (s.hring n 0).cons (s.hring n 0).entries) 128 (.descriptors (s.hring n 0).cons 1) 7 0 ∧ w.2 =
     none ∧ t = w.1.setOps n (w.1.session n).qp.ops.dropLast ∧ fetchStatus d (s.hring n 0).cons (s.hring n
     0).entries = 0 ∧ (t.setSession n { t.session n with refetch := none }).acceptAll n [d] = .ok u) ∧
    (∃ (n : SessId) (psn : Nat) (o : RdmaOp) (s : State), (s.session n).qp.ops = [o] ∧ o.read = none ∧ o.psn = psn) ∧
    (∃ (n : SessId) (s : State), s.isOpen n = true ∧ (s.session n).qp.ops ≠ [] ∧ 7 ≤ (s.session n).qp.retries) ∧
    (∃ (n : SessId) (s : State), s.isOpen n = true ∧ (s.session n).qp.ops ≠ [] ∧ (s.session n).qp.retries < 7) ∧
    (∃ (n : SessId) (a : Nat) (s : State), (s.eth (s.fld (hssSessionPort n))).downSince = some a ∧ a + 31250000 ≤
     s.clock) ∧
    (∃ (n : SessId) (o : RdmaOp) (rest : List RdmaOp) (s : State), (s.session n).qp.ops = o :: rest) ∧
    (∃ (n : SessId) (b : List Byte) (o : RdmaOp) (ops : List RdmaOp) (why : ReadFor) (s : State) (t : State), takeOp
     (fun o => o.read.isSome && !o.fetches) (s.session n).qp.ops = some (o, ops) ∧ o.read = some why ∧ b.length =
     o.len ∧ (s.setOps n ops).readCame n why b = .ok t) := ⟨
    ⟨0, 2, 5, (opened (st 4)).setSession 0 { initSess with fences := [(2, 5)] }, by decide +kernel, by
     decide +kernel⟩,
    ⟨0, [], tOp 128 (some (.descriptors 0 1)), [], withOps (opened (st 4)) [tOp 128 (some (.descriptors 0 1))], _, _,
     by decide +kernel, rfl, ok_okVal (d := State.reset) _ (by decide +kernel)⟩,
    ⟨0, tSent 1, ⟨0, 1⟩, (let t := opened (st 4); t.setSession 0 { t.session 0 with refetch := some ⟨0, 1⟩ }), _, _,
     _, by decide +kernel, by decide +kernel, rfl, by decide +kernel, rfl, by decide +kernel, ok_okVal (d :=
     State.reset) _ (by decide +kernel)⟩,
    ⟨0, 7, tOp 64 none, withOps (opened (st 4)) [tOp 64 none], by decide +kernel, by decide +kernel, by
     decide +kernel⟩,
    ⟨0, (opened (st 4)).setSession 0 { initSess with qp := { initQp with ops := [tOp 64 none], retries := 7 } }, by
     decide +kernel, by decide +kernel, by decide +kernel⟩,
    ⟨0, withOps (opened (st 4)) [tOp 64 none], by decide +kernel, by decide +kernel, by decide +kernel⟩,
    ⟨0, 5, { (opened (st 4)).setEth 0 { initEth with downSince := some 5 } with clock := 31250005 }, by
     decide +kernel, by decide +kernel⟩,
    ⟨0, tOp 64 none, [], withOps (opened (st 4)) [tOp 64 none], by decide +kernel⟩,
    ⟨0, List.replicate 8 0, tOp 8 (some (.recipe 0)), [], .recipe 0, withOps (opened (st 4)) [tOp 8 (some (.recipe
     0))], _, by decide +kernel, by decide +kernel, by decide +kernel, ok_okVal (d := State.reset) _ (by
     decide +kernel)⟩⟩

theorem test_premises_ethernetPorts :
    (∃ (e : EthId) (s : State), s.flag (hspPortLink e) = false ∧ s.flag (hspPortPresent e) = true ∧ s.fld
     (hspPortMedia e) ≠ 0 ∧ s.mgmtUp = true) ∧
    (∃ (n : SessId) (s : State), s.isOpen n = true ∧ (s.session n).qp.lastCnp = none) ∧
    (∃ (n : SessId) (s : State), s.isOpen n = true ∧ 400 < (s.session n).qp.rate) ∧
    (∃ (n : SessId) (s : State), s.isOpen n = true ∧ (s.session n).qp.rate < 2000) ∧
    (∃ (e : EthId) (s : State), s.flag (hspPortPfcEn e) = true ∧ s.flag (hspPortLink e) = true) ∧
    (∃ (e : EthId) (s : State), s.mgmtUp = true ∧ s.flag (hspPortLink e) = true) ∧
    (∃ (e : EthId) (s : State), s.mgmtUp = true ∧ s.flag (hspPortLink e) = true ∧ (s.eth e).inForce.getD 5 0 ≠ 0) ∧
    (∃ (e : EthId) (a : Nat) (s : State), (s.eth e).pausedAt = some a ∧ a + 6250000 < s.clock) ∧
    (∃ (e : EthId) (b : List Byte) (s : State), s.bridging = true ∧ b.take 6 ≠ s.macOf e ∧ s.flag (hspPortLink (1 -
     e)) = true ∧ vlanOf b = s.fld hstNetCtrlVlanId) ∧
    (∃ (c : Cage) (mw : Nat), c.val < 12 ∧ mw ≤ 3500) ∧
    (∃ (c : Cage) (mw : Nat), c.val < 12 ∧ 3500 < mw) ∧
    (∃ (c : Cage), c.val < 12) := ⟨
    ⟨0, ((st 4).setFld (hspPortPresent 0) 1).setFld (hspPortMedia 0) 1, by decide +kernel, by decide +kernel, by
     decide +kernel, by decide +kernel⟩,
    ⟨0, opened (st 4), by decide +kernel, by decide +kernel⟩,
    ⟨0, (opened (st 4)).setSession 0 { initSess with qp := { initQp with rate := 401 } }, by decide +kernel, by
     decide +kernel⟩,
    ⟨0, (opened (st 4)).setSession 0 { initSess with qp := { initQp with rate := 1999 } }, by decide +kernel, by
     decide +kernel⟩,
    ⟨0, (ethUp (st 4)).setFld (hspPortPfcEn 0) 1, by decide +kernel, by decide +kernel⟩,
    ⟨0, ethUp (st 4), by decide +kernel, by decide +kernel⟩,
    ⟨0, ethUp (st 4), by decide +kernel, by decide +kernel, by decide +kernel⟩,
    ⟨0, 5, { (st 4).setEth 0 { initEth with pausedAt := some 5 } with clock := 6250006 }, by decide +kernel, by
     decide +kernel⟩,
    ⟨0, List.replicate 64 1, (fabMem (st 4) 0).setFld (hspPortLink 1) 1, by decide +kernel, by decide +kernel, by
     decide +kernel, by decide +kernel⟩,
    ⟨11, 3500, by decide +kernel, by decide +kernel⟩,
    ⟨0, 3501, by decide +kernel, by decide +kernel⟩,
    ⟨11, by decide +kernel⟩⟩

theorem test_premises_managementSetup :
    (∃ (f : MgmtFrame) (m : Mgmt) (s : State), Anonymous s f m 1 ∧ m.len = 0) ∧
    (∃ (f : MgmtFrame) (m : Mgmt) (k : List Byte) (s : State), Authentic s f m k 1 ∧ m.len = 0) ∧
    (∃ (f : MgmtFrame) (m : Mgmt) (s : State), Anonymous s f m 11) ∧
    (∃ (f : MgmtFrame) (m : Mgmt) (k : List Byte) (s : State) (u : State) (r : List Byte × State), Authentic s f m k
     2 ∧ m.len = 8 ∧ regRangeOk m.body = true ∧ u = s.seqAccept m.sess m.seq ∧ r = u.regReads m.sess (beAt m.body 4
     2) (beAt m.body 0 4)) ∧
    (∃ (f : MgmtFrame) (m : Mgmt) (k : List Byte) (ws : List Word) (s : State) (t : State), Authentic s f m k 3 ∧
     m.len = 8 + 4 * beAt m.body 4 2 ∧ regRangeOk m.body = true ∧ writeAllowed m.sess (beAt m.body 0 4) (beAt m.body
     4 2) = true ∧ ws = (List.range (beAt m.body 4 2)).map (fun i => BitVec.ofNat 32 (beAt m.body (8 + 4 * i) 4)) ∧
     (s.seqAccept m.sess m.seq).regWrites m.sess (beAt m.body 0 4) ws = .ok t) := ⟨
    ⟨tAnon 1 [], mgmtOf (tAnon 1 []).bytes, st 3, ⟨rfl, by decide +kernel, by decide +kernel, by decide +kernel, by
     decide +kernel, by decide +kernel, by decide +kernel, by decide +kernel, by decide +kernel⟩, by decide +kernel⟩,
    ⟨tReq 1 0 [], tMsg 1 0 [], tKey, keyed (st 3) 0, (tAuthentic (by decide +kernel)), by decide +kernel⟩,
    ⟨tAnon 11 [], mgmtOf (tAnon 11 []).bytes, st 3, ⟨rfl, by decide +kernel, by decide +kernel, by decide +kernel, by
     decide +kernel, by decide +kernel, by decide +kernel, by decide +kernel, by decide +kernel⟩⟩,
    ⟨tReq 2 3 (beBytes 4 0 ++ beBytes 2 64 ++ [0, 0]), tMsg 2 3 (beBytes 4 0 ++ beBytes 2 64 ++ [0, 0]), tKey, keyed
     (st 3) 3, _, _, (tAuthentic (by decide +kernel)), by decide +kernel, by decide +kernel, rfl, rfl⟩,
    ⟨tReq 3 0 (beBytes 4 0x14FFC ++ beBytes 2 1 ++ [0, 0] ++ beBytes 4 0), tMsg 3 0 (beBytes 4 0x14FFC ++ beBytes 2 1
     ++ [0, 0] ++ beBytes 4 0), tKey, _, keyed (st 3) 0, _, (tAuthentic (by decide +kernel)), by decide +kernel, by
     decide +kernel, by decide +kernel, rfl, ok_okVal (d := State.reset) _ (by decide +kernel)⟩⟩

theorem test_premises_managementSessions :
    (∃ (f : MgmtFrame) (m : Mgmt) (k : List Byte) (s : State) (r : Nat × List Byte × State), Authentic s f m k 4 ∧
     (s.seqAccept m.sess m.seq).sessOpen m.sess m.body = r) ∧
    (∃ (f : MgmtFrame) (m : Mgmt) (k : List Byte) (s : State) (r : Nat × List Byte × State), Authentic s f m k 5 ∧
     (s.seqAccept m.sess m.seq).sessClose m.sess m.body = r) ∧
    (∃ (f : MgmtFrame) (m : Mgmt) (k : List Byte) (s : State) (r : Nat × List Byte × State), Authentic s f m k 7 ∧
     (s.seqAccept m.sess m.seq).sessRestart m.sess m.body = r) ∧
    (∃ (f : MgmtFrame) (m : Mgmt) (k : List Byte) (s : State), Authentic s f m k 6 ∧ m.len = 16) ∧
    (∃ (n : SessId) (off : Nat) (b : List Byte) (s : State), s.isOpen n = true ∧ off % 16 = 0 ∧ off ≤ 1008 ∧
     b.length = 16) ∧
    (∃ (n : SessId) (key : Nat) (s : State), s.isOpen n = true ∧ key ≠ s.fld (hrbDbKeyF n)) ∧
    (∃ (n : SessId) (a : Nat) (s : State), (s.session n).lockUntil = some a ∧ a ≤ s.clock) ∧
    (∃ (f : MgmtFrame) (m : Mgmt) (k : List Byte) (s : State), m = mgmtOf f.bytes ∧ 16 ≤ f.bytes.length ∧ s.mgmtUp =
     true ∧ bitAt (beAt f.bytes 3 1) 0 = false ∧ m.sess ≤ 3 ∧ m.type = 6 ∧ s.lockedOut m.sess = false ∧ (s.session
     m.sess).key = some k ∧ hmac k m.head ≠ m.mac) := ⟨
    ⟨tReq 4 1 [], tMsg 4 1 [], tKey, keyed (st 3) 1, _, (tAuthentic (by decide +kernel)), rfl⟩,
    ⟨tReq 5 1 [0, 0, 0, 0, 0, 0, 0, 0], tMsg 5 1 [0, 0, 0, 0, 0, 0, 0, 0], tKey, keyed (st 3) 1, _, (tAuthentic (by
     decide +kernel)), rfl⟩,
    ⟨tReq 7 1 [], tMsg 7 1 [], tKey, keyed (st 3) 1, _, (tAuthentic (by decide +kernel)), rfl⟩,
    ⟨tReq 6 1 (List.replicate 16 0), tMsg 6 1 (List.replicate 16 0), tKey, keyed (st 3) 1, (tAuthentic (by
     decide +kernel)), by decide +kernel⟩,
    ⟨0, 1008, List.replicate 16 0, opened (st 4), by decide +kernel, by decide +kernel, by decide +kernel, by
     decide +kernel⟩,
    ⟨0, 1, opened (st 4), by decide +kernel, by decide +kernel⟩,
    ⟨0, 5, { (st 4).setSession 0 { initSess with lockUntil := some 5 } with clock := 5 }, by decide +kernel, by
     decide +kernel⟩,
    ⟨tFrame (tHead 6 1 (List.replicate 16 0)), mgmtOf (tHead 6 1 (List.replicate 16 0)), tKey, keyed (st 3) 1, by
     decide +kernel, by decide +kernel, by decide +kernel, by decide +kernel, by decide +kernel, by decide +kernel,
     by decide +kernel, by decide +kernel, by decide +kernel⟩⟩

theorem test_premises_managementKeys :
    (∃ (f : MgmtFrame) (m : Mgmt) (s : State), Anonymous s f m 8 ∧ m.len = 32 ∧ (s.session 0).key = none ∧ s.mode =
     3 ∧ f.port = 0 ∧ f.hop = 255 ∧ isLinkLocal f.src) ∧
    (∃ (f : MgmtFrame) (m : Mgmt) (k : List Byte) (s : State), Authentic s f m k 9 ∧ m.sess = 0 ∧ m.len = 48 ∧ beAt
     m.body 0 1 ≤ 3) ∧
    (∃ (f : MgmtFrame) (m : Mgmt) (k : List Byte) (s : State), Authentic s f m k 10 ∧ m.sess = 0 ∧ m.len = 8 ∧
     s.mode = 7 ∧ beAt m.body 0 1 = 4) ∧
    (∃ (f : MgmtFrame) (m : Mgmt) (k : List Byte) (s : State), Authentic s f m k 10 ∧ m.sess = 0 ∧ m.len = 8 ∧
     s.mode = 7 ∧ beAt m.body 0 1 = 1) := ⟨
    ⟨tAnon 8 (List.replicate 32 7), mgmtOf (tAnon 8 (List.replicate 32 7)).bytes, st 3, ⟨rfl, by decide +kernel, by
     decide +kernel, by decide +kernel, by decide +kernel, by decide +kernel, by decide +kernel, by decide +kernel,
     by decide +kernel⟩, by decide +kernel, by decide +kernel, by decide +kernel, by decide +kernel, by
     decide +kernel, by decide +kernel⟩,
    ⟨tReq 9 0 ([3, 0, 0, 0, 0, 0, 0, 0] ++ List.replicate 40 0), tMsg 9 0 ([3, 0, 0, 0, 0, 0, 0, 0] ++ List.replicate
     40 0), tKey, keyed (st 3) 0, (tAuthentic (by decide +kernel)), by decide +kernel, by decide +kernel, by
     decide +kernel⟩,
    ⟨tReq 10 0 [4, 0, 0, 0, 0, 0, 0, 0], tMsg 10 0 [4, 0, 0, 0, 0, 0, 0, 0], tKey, keyed (st 7) 0, (tAuthentic (by
     decide +kernel)), by decide +kernel, by decide +kernel, by decide +kernel, by decide +kernel⟩,
    ⟨tReq 10 0 [1, 0, 0, 0, 0, 0, 0, 0], tMsg 10 0 [1, 0, 0, 0, 0, 0, 0, 0], tKey, keyed (st 7) 0, (tAuthentic (by
     decide +kernel)), by decide +kernel, by decide +kernel, by decide +kernel, by decide +kernel⟩⟩

theorem test_premises_windowDescriptors :
    (∃ (n : SessId) (idx : Nat) (d : OutDesc) (s : State), Ready s n idx 0x01 modesAll d) ∧
    (∃ (n : SessId) (idx : Nat) (d : OutDesc) (s : State) (t : State) (w : Nat) (base : Nat) (len : Nat) (f : Nat),
     Ready s n idx 0x02 modesMNAX d ∧ t = s.startDesc n idx ∧ w = d.par 0x10 1 ∧ base = d.par 0x18 8 ∧ len = d.par
     0x20 8 ∧ f = d.par 0x11 1 ∧ 1 ≤ w ∧ w ≤ 31 ∧ base % 65536 = 0 ∧ len % 65536 = 0 ∧ len ≠ 0 ∧ len ≤ 2 ^ 40 ∧
     t.window n w = none ∧ t.pagesUsed + len / 65536 ≤ 2 ^ 24) ∧
    (∃ (n : SessId) (idx : Nat) (d : OutDesc) (s : State) (t : State) (es : List Nat), Ready s n idx 0x03 modesMNAX
     d ∧ t = s.startDesc n idx ∧ es = pageEntries (d.par 0x11 1) (slice d.bytes 0x18 88) ∧ s.mapCheck n (d.par 0x10
     1) (d.par 0x14 4) (d.par 0x11 1) 0x11 11 = none ∧ t.mapCheck n (d.par 0x10 1) (d.par 0x14 4) (d.par 0x11 1)
     0x11 11 = none ∧ s.revokes n (d.par 0x10 1) (d.par 0x14 4) es = false) ∧
    (∃ (n : SessId) (idx : Nat) (d : OutDesc) (s : State), Ready s n idx 0x03 modesMNAX d ∧ s.mapCheck n (d.par 0x10
     1) (d.par 0x14 4) (d.par 0x11 1) 0x11 11 = none ∧ s.revokes n (d.par 0x10 1) (d.par 0x14 4) (pageEntries (d.par
     0x11 1) (slice d.bytes 0x18 88)) = true) ∧
    (∃ (n : SessId) (idx : Nat) (d : OutDesc) (s : State) (t : State), Ready s n idx 0x04 modesMNAX d ∧ t =
     s.startDesc n idx ∧ t.mapCheck n (d.par 0x10 1) (d.par 0x14 4) (d.par 0x18 4) 0x18 (2 ^ 24) = none) ∧
    (∃ (n : SessId) (idx : Nat) (d : OutDesc) (v : Window) (s : State) (t : State) (u : State), Ready s n idx 0x05
     modesAll d ∧ t = s.startDesc n idx ∧ 1 ≤ d.par 0x10 1 ∧ d.par 0x10 1 ≤ 31 ∧ t.window n (d.par 0x10 1) = some v
     ∧ u = t.setWindow n (d.par 0x10 1) { v with fenced := true }) ∧
    (∃ (n : SessId) (idx : Nat) (d : OutDesc) (v : Window) (s : State) (t : State), Ready s n idx 0x06 modesAll d ∧
     t = s.startDesc n idx ∧ 1 ≤ d.par 0x10 1 ∧ d.par 0x10 1 ≤ 31 ∧ t.window n (d.par 0x10 1) = some v ∧ v.fenced =
     true) ∧
    (∃ (n : SessId) (idx : Nat) (d : OutDesc) (s : State), s.startable n idx = some d ∧ d.opcode ∉ usedOpcodes) := ⟨
    ⟨0, 5, tDesc 0x01 [], desced (st 6) 0x01 [], ⟨by decide +kernel, by decide +kernel, by decide +kernel⟩⟩,
    ⟨0, 5, tDesc 0x02 [(0x10, 1, 31), (0x20, 8, 2 ^ 40 - 131072)], desced (st 3) 0x02 [(0x10, 1, 31), (0x20, 8, 2 ^
     40 - 131072)], _, 31, 0, 2 ^ 40 - 131072, 0, ⟨by decide +kernel, by decide +kernel, by decide +kernel⟩, rfl, by
     decide +kernel, by decide +kernel, by decide +kernel, by decide +kernel, by decide +kernel, by decide +kernel,
     by decide +kernel, by decide +kernel, by decide +kernel, by decide +kernel, by decide +kernel, by
     decide +kernel⟩,
    ⟨0, 5, tDesc 0x03 [(0x10, 1, 2), (0x11, 1, 2), (0x18, 8, 2 ^ 20 + 7), (0x20, 8, 2 ^ 20 + 65536 + 7)], desced (st
     3) 0x03 [(0x10, 1, 2), (0x11, 1, 2), (0x18, 8, 2 ^ 20 + 7), (0x20, 8, 2 ^ 20 + 65536 + 7)], _, _, ⟨by
     decide +kernel, by decide +kernel, by decide +kernel⟩, rfl, rfl, by decide +kernel, by decide +kernel, by
     decide +kernel⟩,
    ⟨0, 5, tDesc 0x03 [(0x10, 1, 2), (0x11, 1, 1), (0x14, 4, 1), (0x18, 8, 2 ^ 21 + 7)], desced (st 3) 0x03 [(0x10,
     1, 2), (0x11, 1, 1), (0x14, 4, 1), (0x18, 8, 2 ^ 21 + 7)], ⟨by decide +kernel, by decide +kernel, by
     decide +kernel⟩, by decide +kernel, by decide +kernel⟩,
    ⟨0, 5, tDesc 0x04 [(0x10, 1, 2), (0x18, 4, 2), (0x20, 8, 2 ^ 47)], desced (st 3) 0x04 [(0x10, 1, 2), (0x18, 4,
     2), (0x20, 8, 2 ^ 47)], _, ⟨by decide +kernel, by decide +kernel, by decide +kernel⟩, rfl, by decide +kernel⟩,
    ⟨0, 5, tDesc 0x05 [(0x10, 1, 2)], _, desced (st 6) 0x05 [(0x10, 1, 2)], _, _, ⟨by decide +kernel, by
     decide +kernel, by decide +kernel⟩, rfl, by decide +kernel, by decide +kernel, (Option.some_get (by
     decide +kernel)).symm, rfl⟩,
    ⟨0, 5, tDesc 0x06 [(0x10, 1, 2)], _, (desced (st 6) 0x06 [(0x10, 1, 2)]).setWindow 0 2
     { initWindow with len := 65536, fenced := true }, _, ⟨by decide +kernel, by decide +kernel, by decide +kernel⟩,
     rfl, by decide +kernel, by decide +kernel, (Option.some_get (by decide +kernel)).symm, by decide +kernel⟩,
    ⟨0, 5, tDesc 0x07 [], desced (st 3) 0x07 [], by decide +kernel, by decide +kernel⟩⟩

theorem test_premises_planDescriptors :
    (∃ (n : SessId) (idx : Nat) (d : OutDesc) (s : State) (t : State) (w : State), Ready s n idx 0x10 modesMNAX d ∧
     t = s.startDesc n idx ∧ devHost (d.par 0x10 8) = true ∧ d.par 0x18 4 ≠ 0 ∧ d.par 0x28 4 = 0 ∧ t.pln.compiling =
     none ∧ tooLong d = false ∧ w = t.loadRead n d 0x10 (d.par 0x18 4) (.recipe d.idx) ∧ (w.desc n d.idx).isSome =
     true) ∧
    (∃ (n : SessId) (idx : Nat) (d : OutDesc) (p : Plan) (s : State) (t : State) (u : State), Ready s n idx 0x11 [3,
     4] d ∧ t = s.startDesc n idx ∧ t.pln.compiled = some p ∧ slice d.bytes 0x10 32 = p.hash ∧ t.pln.commit = none ∧
     t.pln.fault = none ∧ u = { t with pln := { t.pln with commit := some ⟨n, d.idx⟩ } } ∧ u.fabricMember = false) ∧
    (∃ (n : SessId) (idx : Nat) (d : OutDesc) (s : State) (t : State) (w : State), Ready s n idx 0x12 modesMNA d ∧ t
     = s.startDesc n idx ∧ devHost (d.par 0x10 8) = true ∧ d.par 0x18 4 ≠ 0 ∧ tooLong d = false ∧ w = t.loadRead n d
     0x10 (d.par 0x18 4) (.recipe d.idx) ∧ (w.desc n d.idx).isSome = true) ∧
    (∃ (n : SessId) (idx : Nat) (d : OutDesc) (s : State) (t : State) (w : State), Ready s n idx 0x13 modesMNAX d ∧
     t = s.startDesc n idx ∧ devHost (d.par 0x10 8) = true ∧ d.par 0x18 4 ≠ 0 ∧ d.par 0x1C 1 ≠ 0 ∧ d.par 0x1C 1 ≤ 4
     ∧ tooLong d = false ∧ w = t.loadRead n d 0x10 (d.par 0x18 4) (.recipe d.idx) ∧ (w.desc n d.idx).isSome = true) := ⟨
    ⟨0, 5, tDesc 0x10 [(0x10, 8, 2 ^ 47), (0x18, 4, 67108864 / 512)], desced (st 3) 0x10 [(0x10, 8, 2 ^ 47), (0x18,
     4, 67108864 / 512)], _, _, ⟨by decide +kernel, by decide +kernel, by decide +kernel⟩, rfl, by decide +kernel,
     by decide +kernel, by decide +kernel, by decide +kernel, by decide +kernel, rfl, by decide +kernel⟩,
    ⟨0, 5, tDesc 0x11 [(0x10, 8, 0x0101010101010101), (0x18, 8, 0x0101010101010101), (0x20, 8, 0x0101010101010101),
     (0x28, 8, 0x0101010101010101)], tPlan 0, desced
     ({ st 3 with pln := { initPln with compiled := some (tPlan 0) } }) 0x11 [(0x10, 8, 0x0101010101010101), (0x18,
     8, 0x0101010101010101), (0x20, 8, 0x0101010101010101), (0x28, 8, 0x0101010101010101)], _, _, ⟨by
     decide +kernel, by decide +kernel, by decide +kernel⟩, rfl, by decide +kernel, by decide +kernel, by
     decide +kernel, by decide +kernel, rfl, by decide +kernel⟩,
    ⟨0, 5, tDesc 0x12 [(0x10, 8, 2 ^ 47), (0x18, 4, 16)], desced (stp 4) 0x12 [(0x10, 8, 2 ^ 47), (0x18, 4, 16)], _,
     _, ⟨by decide +kernel, by decide +kernel, by decide +kernel⟩, rfl, by decide +kernel, by decide +kernel, by
     decide +kernel, rfl, by decide +kernel⟩,
    ⟨0, 5, tDesc 0x13 [(0x10, 8, 2 ^ 47), (0x18, 4, 16), (0x1C, 1, 4)], desced (stp 4) 0x13 [(0x10, 8, 2 ^ 47),
     (0x18, 4, 16), (0x1C, 1, 4)], _, _, ⟨by decide +kernel, by decide +kernel, by decide +kernel⟩, rfl, by
     decide +kernel, by decide +kernel, by decide +kernel, by decide +kernel, by decide +kernel, rfl, by
     decide +kernel⟩⟩

theorem test_premises_inspectionDescriptors :
    (∃ (n : SessId) (idx : Nat) (d : OutDesc) (p : Plan) (s : State) (t : State), Ready s n idx 0x20 modesM d ∧ t =
     s.startDesc n idx ∧ t.pln.plan = some p ∧ d.par 0x10 1 < 2 ∧ bitAt (d.par 0x11 1) 0 = false) ∧
    (∃ (n : SessId) (idx : Nat) (d : OutDesc) (p : Plan) (s : State) (t : State), Ready s n idx 0x20 modesM d ∧ t =
     s.startDesc n idx ∧ t.pln.plan = some p ∧ d.par 0x10 1 = 2 ∧ bitAt (d.par 0x11 1) 0 = false) ∧
    (∃ (n : SessId) (idx : Nat) (d : OutDesc) (s : State) (t : State), Ready s n idx 0x21 modesNA d ∧ t =
     s.startDesc n idx ∧ d.par 0x10 1 < 2 ∧ bitAt (d.par 0x11 1) 0 = false) ∧
    (∃ (n : SessId) (idx : Nat) (d : OutDesc) (s : State) (t : State), Ready s n idx 0x22 modesMNA d ∧ t =
     s.startDesc n idx ∧ d.par 0x10 1 < 2 ∧ bitAt (d.par 0x11 1) 0 = false) ∧
    (∃ (n : SessId) (idx : Nat) (d : OutDesc) (s : State) (t : State), Ready s n idx 0x50 modesMNAX d ∧ t =
     s.startDesc n idx ∧ devHost (d.par 0x20 8) = true ∧ d.par 0x10 1 < 2 ∧ bitAt (d.par 0x11 1) 0 = false) ∧
    (∃ (o : DueOp) (s : State), s.dueLocal 1 = some o) ∧
    (∃ (o : DueOp) (s : State), s.dueLocal 2 = some o ∧ s.pln.fault = none) ∧
    (∃ (t : Nat) (s : State), s.dueLocal 2 = none ∧ s.pln.fault = none ∧ s.pwr.afterStop = some t ∧ s.inspecting =
     true) ∧
    (∃ (o : DueOp) (s : State), s.dueLocal 3 = some o) ∧
    (∃ (o : DueOp) (s : State), s.dueLocal 4 = some o) := ⟨
    ⟨0, 5, tDesc 0x20 [(0x10, 1, 1), (0x18, 8, 5000)], _, desced (stp 3) 0x20 [(0x10, 1, 1), (0x18, 8, 5000)], _, ⟨by
     decide +kernel, by decide +kernel, by decide +kernel⟩, rfl, (Option.some_get (by decide +kernel)).symm, by
     decide +kernel, by decide +kernel⟩,
    ⟨0, 5, tDesc 0x20 [(0x10, 1, 2), (0x18, 8, 2 ^ 64 - 1)], _, desced (stp 3) 0x20 [(0x10, 1, 2), (0x18, 8, 2 ^ 64 -
     1)], _, ⟨by decide +kernel, by decide +kernel, by decide +kernel⟩, rfl, (Option.some_get (by
     decide +kernel)).symm, by decide +kernel, by decide +kernel⟩,
    ⟨0, 5, tDesc 0x21 [(0x10, 1, 0)], desced (stp 4) 0x21 [(0x10, 1, 0)], _, ⟨by decide +kernel, by decide +kernel,
     by decide +kernel⟩, rfl, by decide +kernel, by decide +kernel⟩,
    ⟨0, 5, tDesc 0x22 [(0x10, 1, 1)], desced (stp 5) 0x22 [(0x10, 1, 1)], _, ⟨by decide +kernel, by decide +kernel,
     by decide +kernel⟩, rfl, by decide +kernel, by decide +kernel⟩,
    ⟨0, 5, tDesc 0x50 [(0x10, 1, 1), (0x20, 8, 2 ^ 47)], desced (stp 4) 0x50 [(0x10, 1, 1), (0x20, 8, 2 ^ 47)], _,
     ⟨by decide +kernel, by decide +kernel, by decide +kernel⟩, rfl, by decide +kernel, by decide +kernel, by
     decide +kernel⟩,
    ⟨_, { stp 3 with pln := { (stp 3).pln with due := [⟨1, 0, 0, 0, 0, 5, 0⟩] } }, (Option.some_get (by
     decide +kernel)).symm⟩,
    ⟨_, { stp 4 with pln := { (stp 4).pln with due := [⟨2, 0, 0, 0, 0, 5, 0⟩] } }, (Option.some_get (by
     decide +kernel)).symm, by decide +kernel⟩,
    ⟨6, { stp 4 with pwr := { initPwr with afterStop := some 6 } }, by decide +kernel, by decide +kernel, by
     decide +kernel, by decide +kernel⟩,
    ⟨_, { stp 4 with pln := { (stp 4).pln with due := [⟨3, 0, 0, 0, 0, 5, 0⟩] } }, (Option.some_get (by
     decide +kernel)).symm⟩,
    ⟨_, { stp 4 with pln := { (stp 4).pln with due := [⟨4, 0, 0, 0, 0, 5, 0⟩] } }, (Option.some_get (by
     decide +kernel)).symm⟩⟩

theorem test_premises_cameraDescriptors :
    (∃ (n : SessId) (idx : Nat) (d : OutDesc) (cp : CtxPlan) (s : State) (t : State), Ready s n idx 0x28 modesMNA d
     ∧ t = s.startDesc n idx ∧ d.par 0x10 1 < 12 ∧ d.par 0x11 1 = 0 ∧ d.par 0x12 1 = 0 ∧ t.ctxPlan (d.par 0x10 1) =
     some cp ∧ t.linked (d.par 0x10 1) = true ∧ (t.port (d.par 0x10 1)).applies.length < 2) ∧
    (∃ (n : SessId) (idx : Nat) (d : OutDesc) (cp : CtxPlan) (s : State) (t : State) (r : State × Option (Nat ×
     Nat)), Ready s n idx 0x28 modesMNA d ∧ t = s.startDesc n idx ∧ d.par 0x10 1 < 12 ∧ 1 ≤ d.par 0x11 1 ∧ d.par
     0x11 1 ≤ 32 ∧ d.par 0x12 1 = 0 ∧ t.ctxPlan (d.par 0x10 1) = some cp ∧ t.linked (d.par 0x10 1) = true ∧ (t.port
     (d.par 0x10 1)).applies.length < 2 ∧ r = t.hostRead (d.par 0x20 8) (8 * d.par 0x11 1) (.pairs d.idx) 6 0 ∧ r.2
     = none) ∧
    (∃ (n : SessId) (idx : Nat) (d : OutDesc) (s : State) (t : State) (p : Nat) (w : Nat), Ready s n idx 0x29
     modesMNAX d ∧ t = s.startDesc n idx ∧ p = d.par 0x10 1 ∧ w = d.par 0x12 2 ∧ p < 12 ∧ d.par 0x11 1 = 1 ∧ 1 ≤ w ∧
     w ≤ 64 ∧ t.linked p = true) ∧
    (∃ (n : SessId) (idx : Nat) (d : OutDesc) (s : State) (t : State) (p : Nat) (w : Nat) (r : State × Option (Nat ×
     Nat)), Ready s n idx 0x29 modesMNAX d ∧ t = s.startDesc n idx ∧ p = d.par 0x10 1 ∧ w = d.par 0x12 2 ∧ p < 12 ∧
     d.par 0x11 1 = 2 ∧ 1 ≤ w ∧ w ≤ 64 ∧ t.linked p = true ∧ r = t.hostRead (d.par 0x18 8) (4 * w) (.ctrlData d.idx)
     6 0 ∧ r.2 = none) := ⟨
    ⟨0, 5, tDesc 0x28 [(0x10, 1, 0)], _, desced (portIn (stp 4) 0 6) 0x28 [(0x10, 1, 0)], _, ⟨by decide +kernel, by
     decide +kernel, by decide +kernel⟩, rfl, by decide +kernel, by decide +kernel, by decide +kernel,
     (Option.some_get (by decide +kernel)).symm, by decide +kernel, by decide +kernel⟩,
    ⟨0, 5, tDesc 0x28 [(0x10, 1, 0), (0x11, 1, 32), (0x20, 8, 2 ^ 47)], _, desced (portIn (stp 4) 0 6) 0x28 [(0x10,
     1, 0), (0x11, 1, 32), (0x20, 8, 2 ^ 47)], _, _, ⟨by decide +kernel, by decide +kernel, by decide +kernel⟩, rfl,
     by decide +kernel, by decide +kernel, by decide +kernel, by decide +kernel, (Option.some_get (by
     decide +kernel)).symm, by decide +kernel, by decide +kernel, rfl, by decide +kernel⟩,
    ⟨0, 5, tDesc 0x29 [(0x10, 1, 11), (0x11, 1, 1), (0x12, 2, 64)], desced (portIn (st 3) 11 6) 0x29 [(0x10, 1, 11),
     (0x11, 1, 1), (0x12, 2, 64)], _, 11, 64, ⟨by decide +kernel, by decide +kernel, by decide +kernel⟩, rfl, by
     decide +kernel, by decide +kernel, by decide +kernel, by decide +kernel, by decide +kernel, by decide +kernel,
     by decide +kernel⟩,
    ⟨0, 5, tDesc 0x29 [(0x10, 1, 11), (0x11, 1, 2), (0x12, 2, 1), (0x18, 8, 2 ^ 47)], desced (portIn (st 3) 11 6)
     0x29 [(0x10, 1, 11), (0x11, 1, 2), (0x12, 2, 1), (0x18, 8, 2 ^ 47)], _, 11, 1, _, ⟨by decide +kernel, by
     decide +kernel, by decide +kernel⟩, rfl, by decide +kernel, by decide +kernel, by decide +kernel, by
     decide +kernel, by decide +kernel, by decide +kernel, by decide +kernel, rfl, by decide +kernel⟩⟩

theorem test_premises_jobDescriptors :
    (∃ (n : SessId) (idx : Nat) (d : OutDesc) (s : State) (t : State), Ready s n idx 0x30 modesMNA d ∧ t =
     s.startDesc n idx ∧ jobParamBad d false = none ∧ t.jobBlocked (d.par 0x14 1) = false) ∧
    (∃ (n : SessId) (idx : Nat) (d : OutDesc) (s : State) (t : State) (ring : Nat), Ready s n idx 0x31 modesMNA d ∧
     t = s.startDesc n idx ∧ jobParamBad d true = none ∧ t.jobBlocked (d.par 0x14 1) = false ∧ t.jobs = [] ∧ ring =
     8 + d.par 0x4C 1) ∧
    (∃ (n : SessId) (idx : Nat) (d : OutDesc) (j : Job) (s : State) (t : State), Ready s n idx 0x32 modesMNA d ∧ t =
     s.startDesc n idx ∧ t.jobOf n (d.par 0x10 2) = some j ∧ j.phase = .suspended ∧ j.par.kind ≠ .crop) ∧
    (∃ (n : SessId) (idx : Nat) (d : OutDesc) (j : Job) (s : State) (t : State), Ready s n idx 0x33 modesAll d ∧ t =
     s.startDesc n idx ∧ t.jobOf n (d.par 0x10 2) = some j ∧ (recBack j).phase = .suspended ∧ (recBack j).opened =
     false) ∧
    (∃ (n : SessId) (idx : Nat) (d : OutDesc) (s : State) (t : State) (v : State) (u : Nat), Ready s n idx 0x4A
     modesMNAX d ∧ t = s.startDesc n idx ∧ u = d.par 0x10 1 ∧ u ≤ 7 ∧ devHost (d.par 0x20 8) = true ∧ d.par 0x28 8 ≠
     0 ∧ d.par 0x28 8 ≤ 2 ^ 32 ∧ (t.crc u).job = none ∧ t.hostJobs < 256 ∧ bitAt (d.par 0x11 1) 0 = false ∧ v =
     (t.crcShow u (t.crcParams u).init).setFld (crcStatusBusy u) 1) := ⟨
    ⟨0, 5, tDesc 0x30 [(0x10, 1, 3), (0x11, 1, 15), (0x12, 2, 4095), (0x15, 1, 1), (0x28, 8, 1), (0x40, 8, 2 ^ 47),
     (0x48, 8, 4096)], desced (stp 4) 0x30 [(0x10, 1, 3), (0x11, 1, 15), (0x12, 2, 4095), (0x15, 1, 1), (0x28, 8,
     1), (0x40, 8, 2 ^ 47), (0x48, 8, 4096)], _, ⟨by decide +kernel, by decide +kernel, by decide +kernel⟩, rfl, by
     decide +kernel, by decide +kernel⟩,
    ⟨0, 5, tDesc 0x31 [(0x12, 2, 1), (0x28, 8, 1), (0x40, 8, 2 ^ 47), (0x48, 4, 2 ^ 10), (0x4C, 1, 7)], desced (stp
     4) 0x31 [(0x12, 2, 1), (0x28, 8, 1), (0x40, 8, 2 ^ 47), (0x48, 4, 2 ^ 10), (0x4C, 1, 7)], _, 15, ⟨by
     decide +kernel, by decide +kernel, by decide +kernel⟩, rfl, by decide +kernel, by decide +kernel, by
     decide +kernel, by decide +kernel⟩,
    ⟨0, 5, tDesc 0x32 [(0x10, 2, 9)], _, desced ({ stp 4 with jobs := [tJob 0 .reprocess .suspended] }) 0x32 [(0x10,
     2, 9)], _, ⟨by decide +kernel, by decide +kernel, by decide +kernel⟩, rfl, (Option.some_get (by
     decide +kernel)).symm, by decide +kernel, by decide +kernel⟩,
    ⟨0, 5, tDesc 0x33 [(0x10, 2, 9)], _, desced
     ({ stp 6 with jobs := [{ tJob 0 .crop .suspended with opened := false }] }) 0x33 [(0x10, 2, 9)], _, ⟨by
     decide +kernel, by decide +kernel, by decide +kernel⟩, rfl, (Option.some_get (by decide +kernel)).symm, by
     decide +kernel, by decide +kernel⟩,
    ⟨0, 5, tDesc 0x4A [(0x10, 1, 7), (0x20, 8, 2 ^ 47), (0x28, 8, 2 ^ 32)], desced (st 7) 0x4A [(0x10, 1, 7), (0x20,
     8, 2 ^ 47), (0x28, 8, 2 ^ 32)], _, _, 7, ⟨by decide +kernel, by decide +kernel, by decide +kernel⟩, rfl, by
     decide +kernel, by decide +kernel, by decide +kernel, by decide +kernel, by decide +kernel, by decide +kernel,
     by decide +kernel, by decide +kernel, rfl⟩⟩

theorem test_premises_axisDescriptors :
    (∃ (n : SessId) (idx : Nat) (d : OutDesc) (pl : AxisPlan) (s : State) (t : State) (x : Nat), Ready s n idx 0x40
     modesMNAX d ∧ t = s.startDesc n idx ∧ x = d.par 0x10 1 ∧ x < 2 ∧ d.parInt 0x18 = toSigned 40 (ofSigned 40
     (d.parInt 0x18)) ∧ d.par 0x20 4 ≤ 4000000 ∧ t.markOwned x = false ∧ t.axPlan x = some pl ∧ t.axIs x 1 = true ∧
     t.axIs x 0 = false ∧ t.axIs x 3 = false ∧ t.axIs x 4 = false ∧ t.axIs x 5 = false ∧ t.outside x (d.parInt 0x18)
     = false ∧ t.towardSwitch x (t.ax x).p (d.parInt 0x18) = false ∧ (t.ax x).newMove = none ∧ (t.ax x).move = none) ∧
    (∃ (n : SessId) (idx : Nat) (d : OutDesc) (s : State) (t : State) (x : Nat) (v : Nat) (a : Nat) (c : Nat), Ready
     s n idx 0x41 modesMNAX d ∧ t = s.startDesc n idx ∧ x = d.par 0x10 1 ∧ v = d.par 0x14 4 ∧ a = d.par 0x18 4 ∧ c =
     d.par 0x1C 4 ∧ x < 2 ∧ v ≠ 0 ∧ v ≤ 4000000 ∧ a ≠ 0 ∧ c ≠ 0 ∧ t.markOwned x = false) ∧
    (∃ (n : SessId) (idx : Nat) (d : OutDesc) (pl : AxisPlan) (s : State) (t : State) (x : Nat), Ready s n idx 0x42
     modesMNAX d ∧ t = s.startDesc n idx ∧ x = d.par 0x10 1 ∧ x < 2 ∧ d.par 0x11 1 < 2 ∧ d.par 0x12 2 ≠ 0 ∧ d.par
     0x12 2 ≤ 1024 ∧ t.markOwned x = false ∧ t.axPlan x = some pl ∧ t.axIs x 0 = false ∧ t.axIs x 4 = false ∧ t.axIs
     x 5 = false ∧ (t.ax x).nextRaw = none) ∧
    (∃ (n : SessId) (idx : Nat) (d : OutDesc) (s : State) (t : State) (x : Nat), Ready s n idx 0x43 modesAll d ∧ t =
     s.startDesc n idx ∧ x = d.par 0x10 1 ∧ x < 2 ∧ d.par 0x11 1 < 2 ∧ t.axIs x 5 = false) ∧
    (∃ (n : SessId) (idx : Nat) (d : OutDesc) (pl : AxisPlan) (s : State) (t : State) (x : Nat) (u : Nat), Ready s n
     idx 0x44 modesMNA d ∧ t = s.startDesc n idx ∧ x = d.par 0x10 1 ∧ x < 2 ∧ d.par 0x11 1 < 2 ∧ d.par 0x12 1 < 2 ∧
     d.par 0x13 1 < 2 ∧ t.freeUnit x = some u ∧ t.axPlan x = some pl) ∧
    (∃ (n : SessId) (idx : Nat) (d : OutDesc) (s : State) (t : State), Ready s n idx 0x45 modesMX d ∧ t =
     s.startDesc n idx ∧ d.par 0x10 1 < 2 ∧ s.axMoving (d.par 0x10 1) = false) := ⟨
    ⟨0, 5, tDesc 0x40 [(0x10, 1, 1), (0x18, 8, 1000), (0x20, 4, 4000000)], _, desced ((stp 3).setFld (axStatusState
     1) 1) 0x40 [(0x10, 1, 1), (0x18, 8, 1000), (0x20, 4, 4000000)], _, 1, ⟨by decide +kernel, by decide +kernel, by
     decide +kernel⟩, rfl, by decide +kernel, by decide +kernel, by decide +kernel, by decide +kernel, by
     decide +kernel, (Option.some_get (by decide +kernel)).symm, by decide +kernel, by decide +kernel, by
     decide +kernel, by decide +kernel, by decide +kernel, by decide +kernel, by decide +kernel, by decide +kernel,
     by decide +kernel⟩,
    ⟨0, 5, tDesc 0x41 [(0x10, 1, 1), (0x14, 4, 4000000), (0x18, 4, 1), (0x1C, 4, 1)], desced (stp 3) 0x41 [(0x10, 1,
     1), (0x14, 4, 4000000), (0x18, 4, 1), (0x1C, 4, 1)], _, 1, 4000000, 1, 1, ⟨by decide +kernel, by
     decide +kernel, by decide +kernel⟩, rfl, by decide +kernel, by decide +kernel, by decide +kernel, by
     decide +kernel, by decide +kernel, by decide +kernel, by decide +kernel, by decide +kernel, by decide +kernel,
     by decide +kernel⟩,
    ⟨0, 5, tDesc 0x42 [(0x10, 1, 1), (0x11, 1, 1), (0x12, 2, 1024), (0x20, 8, 2 ^ 47)], _, desced ((stp 3).setFld
     (axStatusState 1) 1) 0x42 [(0x10, 1, 1), (0x11, 1, 1), (0x12, 2, 1024), (0x20, 8, 2 ^ 47)], _, 1, ⟨by
     decide +kernel, by decide +kernel, by decide +kernel⟩, rfl, by decide +kernel, by decide +kernel, by
     decide +kernel, by decide +kernel, by decide +kernel, by decide +kernel, (Option.some_get (by
     decide +kernel)).symm, by decide +kernel, by decide +kernel, by decide +kernel, by decide +kernel⟩,
    ⟨0, 5, tDesc 0x43 [(0x10, 1, 1), (0x11, 1, 1)], desced ((st 6).setFld (axStatusState 1) 1) 0x43 [(0x10, 1, 1),
     (0x11, 1, 1)], _, 1, ⟨by decide +kernel, by decide +kernel, by decide +kernel⟩, rfl, by decide +kernel, by
     decide +kernel, by decide +kernel, by decide +kernel⟩,
    ⟨0, 5, tDesc 0x44 [(0x10, 1, 1), (0x11, 1, 1), (0x12, 1, 1), (0x13, 1, 1)], _, desced (stp 4) 0x44 [(0x10, 1, 1),
     (0x11, 1, 1), (0x12, 1, 1), (0x13, 1, 1)], _, 1, 4, ⟨by decide +kernel, by decide +kernel, by decide +kernel⟩,
     rfl, by decide +kernel, by decide +kernel, by decide +kernel, by decide +kernel, by decide +kernel, by
     decide +kernel, (Option.some_get (by decide +kernel)).symm⟩,
    ⟨0, 5, tDesc 0x45 [(0x10, 1, 1), (0x18, 8, 2 ^ 47)], desced (st 3) 0x45 [(0x10, 1, 1), (0x18, 8, 2 ^ 47)], _, ⟨by
     decide +kernel, by decide +kernel, by decide +kernel⟩, rfl, by decide +kernel, by decide +kernel⟩⟩

theorem test_premises_otherDescriptors :
    (∃ (n : SessId) (idx : Nat) (d : OutDesc) (s : State) (t : State) (u : State) (o : Nat) (e : Nat), Ready s n idx
     0x48 modesMNAX d ∧ t = s.startDesc n idx ∧ o = d.par 0x10 1 ∧ o < 16 ∧ d.par 0x11 1 = 0 ∧ 10 ≤ d.par 0x24 4 ∧
     t.tryClaim 0 o (ownerOf n) = some u ∧ e = firstEdge false (d.par 0x18 8) (d.par 0x20 4) u.taiNs) ∧
    (∃ (n : SessId) (idx : Nat) (d : OutDesc) (s : State) (t : State) (u : State), Ready s n idx 0x49 modesMNAX d ∧
     t = s.startDesc n idx ∧ d.par 0x10 1 < 2 ∧ d.par 0x11 1 < 8 ∧ 64 ≤ d.par 0x12 2 ∧ d.par 0x12 2 ≤ 1518 ∧
     t.tryClaim 3 (8 * d.par 0x10 1 + d.par 0x11 1) (ownerOf n) = some u ∧ u.launchFits d = none) ∧
    (∃ (n : SessId) (idx : Nat) (d : OutDesc) (s : State) (t : State) (k : Nat), Ready s n idx 0x4B modesMNA d ∧ t =
     s.startDesc n idx ∧ k = d.par 0x10 1 ∧ k < 4) ∧
    (∃ (n : SessId) (idx : Nat) (d : OutDesc) (s : State) (t : State), Ready s n idx 0x58 modesMNAX d ∧ t =
     s.startDesc n idx ∧ d.par 0x10 1 < 7 ∧ t.pwr.afterStop = none ∧ t.coordinates = false) ∧
    (∃ (n : SessId) (idx : Nat) (d : OutDesc) (s : State) (t : State), Ready s n idx 0x58 modesMNAX d ∧ t =
     s.startDesc n idx ∧ (d.par 0x10 1 = 5 ∨ d.par 0x10 1 = 6) ∧ t.pwr.afterStop = none ∧ t.coordinates = true ∧
     t.fabricMember = true) ∧
    (∃ (n : SessId) (idx : Nat) (d : OutDesc) (s : State) (t : State) (c : Nat), Ready s n idx 0x59 modesMNAX d ∧ t
     = s.startDesc n idx ∧ d.par 0x10 1 = 3 ∧ c = d.par 0x11 1 ∧ (calModes 3).contains t.mode = true ∧ t.calTarget 3
     c = true ∧ t.calRun 3 c = none ∧ t.calRun 4 c = none) ∧
    (∃ (n : SessId) (idx : Nat) (d : OutDesc) (s : State) (t : State) (u : State), Ready s n idx 0x60 modesMX d ∧ t
     = s.startDesc n idx ∧ d.par 0x10 1 = 0 ∧ s.orderStands = false ∧ u =
     { t with fab := { t.fab with named := some (d.par 0x18 8) } } ∧ u.coordinates = false) ∧
    (∃ (n : SessId) (idx : Nat) (d : OutDesc) (s : State) (t : State) (u : State), Ready s n idx 0x60 modesMX d ∧ t
     = s.startDesc n idx ∧ d.par 0x10 1 = 1 ∧ t.flag fabCtrlEnable = true ∧ u = t.fabDiscover) := ⟨
    ⟨0, 5, tDesc 0x48 [(0x10, 1, 15), (0x24, 4, 10)], desced (st 3) 0x48 [(0x10, 1, 15), (0x24, 4, 10)], _, _, 15, _,
     ⟨by decide +kernel, by decide +kernel, by decide +kernel⟩, rfl, by decide +kernel, by decide +kernel, by
     decide +kernel, by decide +kernel, (Option.some_get (by decide +kernel)).symm, rfl⟩,
    ⟨0, 5, tDesc 0x49 [(0x10, 1, 1), (0x11, 1, 7), (0x12, 2, 1518), (0x20, 8, 2 ^ 47)], desced (st 3) 0x49 [(0x10, 1,
     1), (0x11, 1, 7), (0x12, 2, 1518), (0x20, 8, 2 ^ 47)], _, _, ⟨by decide +kernel, by decide +kernel, by
     decide +kernel⟩, rfl, by decide +kernel, by decide +kernel, by decide +kernel, by decide +kernel,
     (Option.some_get (by decide +kernel)).symm, by decide +kernel⟩,
    ⟨0, 5, tDesc 0x4B [(0x10, 1, 3)], desced (st 4) 0x4B [(0x10, 1, 3)], _, 3, ⟨by decide +kernel, by decide +kernel,
     by decide +kernel⟩, rfl, by decide +kernel, by decide +kernel⟩,
    ⟨0, 5, tDesc 0x58 [(0x10, 1, 6)], desced (st 4) 0x58 [(0x10, 1, 6)], _, ⟨by decide +kernel, by decide +kernel, by
     decide +kernel⟩, rfl, by decide +kernel, by decide +kernel, by decide +kernel⟩,
    ⟨0, 5, tDesc 0x58 [(0x10, 1, 5)], desced (fabbed (st 4)) 0x58 [(0x10, 1, 5)], _, ⟨by decide +kernel, by
     decide +kernel, by decide +kernel⟩, rfl, by decide +kernel, by decide +kernel, by decide +kernel, by
     decide +kernel⟩,
    ⟨0, 5, tDesc 0x59 [(0x10, 1, 3), (0x11, 1, 0)], desced (stp 4) 0x59 [(0x10, 1, 3), (0x11, 1, 0)], _, 0, ⟨by
     decide +kernel, by decide +kernel, by decide +kernel⟩, rfl, by decide +kernel, by decide +kernel, by
     decide +kernel, by decide +kernel, by decide +kernel, by decide +kernel⟩,
    ⟨0, 5, tDesc 0x60 [(0x18, 8, 7)], desced (st 7) 0x60 [(0x18, 8, 7)], _, _, ⟨by decide +kernel, by decide +kernel,
     by decide +kernel⟩, rfl, by decide +kernel, by decide +kernel, rfl, by decide +kernel⟩,
    ⟨0, 5, tDesc 0x60 [(0x10, 1, 1)], desced ((st 7).setFld fabCtrlEnable 1) 0x60 [(0x10, 1, 1)], _, _, ⟨by
     decide +kernel, by decide +kernel, by decide +kernel⟩, rfl, by decide +kernel, by decide +kernel, rfl⟩⟩

theorem test_premises_ptpSlave :
    (∃ (e : EthId) (m : PtpMsg) (s : State), s.fromMaster e m.src = true ∧ m.twoStep = true) ∧
    (∃ (e : EthId) (m : PtpMsg) (s : State), s.fromMaster e m.src = true ∧ m.twoStep = false) ∧
    (∃ (e : EthId) (m : PtpMsg) (r : SyncRx) (s : State), s.fromMaster e m.src = true ∧ (s.ptp e).sync = some r ∧
     r.src = m.src ∧ r.seq = m.seq) ∧
    (∃ (e : EthId) (m : PtpMsg) (t3 : Int) (t1 : Int) (t2 : Int) (s : State), s.fromMaster e m.src = true ∧ s.flag
     timCtrlP2p = false ∧ m.seq = (s.ptp e).reqSeq ∧ m.req = s.portIdentity e ∧ (s.ptp e).reqTime = some t3 ∧ (s.ptp
     e).lastSync = some (t1, t2)) ∧
    (∃ (s : State), s.ptpOn = true ∧ s.flag timCtrlP2p = true) ∧
    (∃ (e : EthId) (m : PtpMsg) (t1 : Int) (s : State), s.ptpOn = true ∧ s.flag timCtrlP2p = true ∧ m.seq = (s.ptp
     e).reqSeq ∧ m.req = s.portIdentity e ∧ (s.ptp e).reqTime = some t1 ∧ m.twoStep = false) ∧
    (∃ (e : EthId) (m : PtpMsg) (t1 : Int) (t2 : Int) (t4 : Int) (c : Int) (s : State), s.ptpOn = true ∧ s.flag
     timCtrlP2p = true ∧ m.seq = (s.ptp e).reqSeq ∧ m.req = s.portIdentity e ∧ (s.ptp e).reqTime = some t1 ∧ (s.ptp
     e).respTime = some (t4, t2, c)) ∧
    (∃ (s : State), s.ptpOn = true) ∧
    (∃ (a : AnnMsg) (s : State), s.tim.master = some a) := ⟨
    ⟨0, tPtp true 0, slaved (st 4) initPtp, by decide +kernel, by decide +kernel⟩,
    ⟨0, tPtp false 0, slaved (st 4) initPtp, by decide +kernel, by decide +kernel⟩,
    ⟨0, tPtp false 0, ⟨9, 4, 500, 0⟩, slaved (st 4) { initPtp with sync := some ⟨9, 4, 500, 0⟩ }, by decide +kernel,
     by decide +kernel, by decide +kernel, by decide +kernel⟩,
    ⟨0, tPtp false ((st 4).portIdentity 0), 700, 500, 600, slaved (st 4)
     { initPtp with reqSeq := 4, reqTime := some 700, lastSync := some (500, 600) }, by decide +kernel, by
     decide +kernel, by decide +kernel, by decide +kernel, by decide +kernel, by decide +kernel⟩,
    ⟨((st 4).setFld timCtrlPtpEn 1).setFld timCtrlP2p 1, by decide +kernel, by decide +kernel⟩,
    ⟨0, tPtp false ((st 4).portIdentity 0), 700, (slaved (st 4)
     { initPtp with reqSeq := 4, reqTime := some 700 }).setFld timCtrlP2p 1, by decide +kernel, by decide +kernel,
     by decide +kernel, by decide +kernel, by decide +kernel, by decide +kernel⟩,
    ⟨0, tPtp false ((st 4).portIdentity 0), 700, 710, 800, 0, (slaved (st 4)
     { initPtp with reqSeq := 4, reqTime := some 700, respTime := some (800, 710, 0) }).setFld timCtrlP2p 1, by
     decide +kernel, by decide +kernel, by decide +kernel, by decide +kernel, by decide +kernel, by decide +kernel⟩,
    ⟨(st 4).setFld timCtrlPtpEn 1, by decide +kernel⟩,
    ⟨tAnn 9, slaved (st 4) initPtp, by decide +kernel⟩⟩

theorem test_premises_ptpMaster :
    (∃ (e : EthId) (s : State), s.flag (timPortOneStep e) = true ∧ s.flag (timPortTcEn e) = false ∧ s.isMaster =
     true) ∧
    (∃ (e : EthId) (s : State), s.flag (timPortOneStep e) = false ∧ s.isMaster = true) ∧
    (∃ (e : EthId) (s : State), s.flag (timPortOneStep e) = true ∧ s.flag (timPortTcEn e) = true) ∧
    (∃ (s : State), s.flag (timPortOneStep 0) = false ∧ s.flag (timPortOneStep 1) = false ∧ s.ptpOn = true ∧
     s.transitOn = true ∧ s.flag timCtrlP2p = false) ∧
    (∃ (m : PtpMsg) (s : State), s.flag (timPortOneStep 0) = false ∧ s.flag (timPortOneStep 1) = false ∧ s.ptpOn =
     true ∧ s.transitOn = true ∧ s.flag timCtrlP2p = false ∧ m.twoStep = false) ∧
    (∃ (s : State), s.isMaster = true ∧ s.flag timCtrlP2p = false) ∧
    (∃ (s : State), s.ptpOn = true ∧ s.flag timCtrlP2p = true) ∧
    (∃ (s : State), s.isMaster = true) := ⟨
    ⟨0, ((mastered (st 4)).setFld (timPortOneStep 0) 1).setFld (timPortTcEn 0) 0, by decide +kernel, by
     decide +kernel, by decide +kernel⟩,
    ⟨0, mastered (st 4), by decide +kernel, by decide +kernel⟩,
    ⟨1, ((st 4).setFld (timPortOneStep 1) 1).setFld (timPortTcEn 1) 1, by decide +kernel, by decide +kernel⟩,
    ⟨bridged (st 4), by decide +kernel, by decide +kernel, by decide +kernel, by decide +kernel, by decide +kernel⟩,
    ⟨tPtp false 0, bridged (st 4), by decide +kernel, by decide +kernel, by decide +kernel, by decide +kernel, by
     decide +kernel, by decide +kernel⟩,
    ⟨mastered (st 4), by decide +kernel, by decide +kernel⟩,
    ⟨((st 4).setFld timCtrlPtpEn 1).setFld timCtrlP2p 1, by decide +kernel, by decide +kernel⟩,
    ⟨mastered (st 4), by decide +kernel⟩⟩

theorem test_premises_timedActions :
    (∃ (t : ToutId) (n : Nat) (a : ToutArm) (s : State), (s.tout t).next = some n ∧ n ≤ s.taiNs ∧ (s.tout t).arm =
     some a ∧ a.periodic = true ∧ a.period ≠ 0) ∧
    (∃ (t : ToutId) (n : Nat) (a : ToutArm) (s : State), (s.tout t).next = some n ∧ n ≤ s.taiNs ∧ (s.tout t).arm =
     some a ∧ a.periodic = false) ∧
    (∃ (t : ToutId) (e : Nat) (s : State), (s.tout t).high = some e ∧ e ≤ s.taiNs ∧ (s.tout t).arm = none ∧ (s.tout
     t).overload = true) ∧
    (∃ (e : EthId) (q : Fin 8) (l : Launch) (rest : List Launch) (s : State) (t : State) (u : State), s.queue e q =
     l :: rest ∧ l.time ≤ s.taiNs ∧ (List.range q.val).any (fun k => s.queueDueAt e k) = false ∧ (max s.taiNs (s.eth
     e).wireUntil) ≤ l.time + 4 ∧ 4 ≤ l.sess ∧ t = (s.setQueue e q rest).setEth e
     { s.eth e with wireUntil := (max s.taiNs (s.eth e).wireUntil) + wireNs l.bytes.length } ∧ u = t.launchOut e l
     false) ∧
    (∃ (s : State), s.fld timStatusServo = 2) ∧
    (∃ (s : State), s.tim.second < s.taiNs / 1000000000) := ⟨
    ⟨15, 900, ⟨true, 100, 10, 0⟩, (timed (st 4) 900).setTout 15
     { initTout with next := some 900, arm := some ⟨true, 100, 10, 0⟩ }, by decide +kernel, by decide +kernel, by
     decide +kernel, by decide +kernel, by decide +kernel⟩,
    ⟨0, 900, ⟨false, 100, 10, 0⟩, (timed (st 4) 900).setTout 0
     { initTout with next := some 900, arm := some ⟨false, 100, 10, 0⟩ }, by decide +kernel, by decide +kernel, by
     decide +kernel, by decide +kernel⟩,
    ⟨0, 900, (timed (st 4) 900).setTout 0 { initTout with high := some 900, overload := true }, by decide +kernel, by
     decide +kernel, by decide +kernel, by decide +kernel⟩,
    ⟨0, 7, ⟨900, 4, 0, []⟩, [], (timed (st 4) 904).setQueue 0 7 [⟨900, 4, 0, []⟩], _, _, by decide +kernel, by
     decide +kernel, by decide +kernel, by decide +kernel, by decide +kernel, rfl, rfl⟩,
    ⟨(st 4).setFld timStatusServo 2, by decide +kernel⟩,
    ⟨timed (st 4) 1000000000, by decide +kernel⟩⟩

theorem test_premises_fabricDiscovery :
    (∃ (s : State) (t : State), s.fabOn = true ∧ t =
     ({ s with fab := { s.fab with ensignSeq := (s.fab.ensignSeq + 1) % 2 ^ 32 } }).countModules ∧ t.flag
     (hspPortLink 0) = true ∧ t.flag (hspPortLink 1) = false) ∧
    (∃ (b : List Byte) (s : State), s.fabOn = true ∧ ensignOk b = true ∧ beAt b 8 8 = s.serial) ∧
    (∃ (b : List Byte) (s : State), s.fabOn = true ∧ ensignOk b = true ∧ beAt b 8 8 ≠ s.serial ∧ s.fab.seen.contains
     (beAt b 8 8, beAt b 4 4) = false) ∧
    (∃ (s : State), s.fabOn = true ∧ s.candidate = s.serial ∧ s.coordinates = false) ∧
    (∃ (f : Rec) (s : State), s.fabOn = true ∧ s.coordinates = true ∧ s.fld fabStatusState = 1 ∧ s.fabSpans.length =
     s.livePeers.length + 1 ∧ fabDefect s.fabRecs s.fabSpans s.fabChans.1 = none ∧ s.fabRec = some f) ∧
    (∃ (st : PlanStatus) (s : State), s.fabOn = true ∧ s.coordinates = true ∧ s.fld fabStatusState = 1 ∧
     s.fabSpans.length = s.livePeers.length + 1 ∧ fabDefect s.fabRecs s.fabSpans s.fabChans.1 = some st) ∧
    (∃ (h : FabHead) (b : AssignBody) (s : State) (t : State) (u : State) (v : State), s.fabOn = true ∧ h.crcOk =
     true ∧ s.coordinates = false ∧ b.addr < 32 ∧ s.fld fabStatusState = 1 ∧ s.fld fabStatusAddress = 63 ∧ t =
     (s.fabDiscover.takeAddress b).setFld fabStatusState 2 ∧ u =
     { t with fab := { t.fab with members := [⟨h.src, t.get64 fabCoordLo, 0, true⟩, ⟨b.addr, t.serial, 0, true⟩], peers := t.fab.peers.map (fun (p : Peer) => if p.serial = t.get64 fabCoordLo then { p with addr := h.src } else p) } }
     ∧ v = (u.fabTook h.src 0x01 h.seq).mismatchCheck ∧ v.fab.hash = []) ∧
    (∃ (b : List Byte) (m : FabMsg) (o : FabOut) (s : State) (t : State) (u : State), s.fabFor b 0x02 = some (m, t)
     ∧ t.fabOutOf m.head.src 0x01 m.head.ref = some o ∧ u = t.fabDone o) ∧
    (∃ (s : State), s.fabOn = true ∧ s.fld fabStatusAddress < 32) ∧
    (∃ (serial : Nat) (s : State) (t : State), s.fabOn = true ∧ s.livePeers.any (fun p => decide (p.serial =
     serial)) = true ∧ t = s.peerGone serial ∧ t.get64 fabCoordLo ≠ serial) := ⟨
    ⟨fabRun (st 4) 1 1400000, _, by decide +kernel, rfl, by decide +kernel, by decide +kernel⟩,
    ⟨tEnsign (st 4).serial, fabRun (st 4) 1 1400000, by decide +kernel, by decide +kernel, by decide +kernel⟩,
    ⟨tEnsign 77, fabRun (st 4) 1 1400000, by decide +kernel, by decide +kernel, by decide +kernel, by decide +kernel⟩,
    ⟨(fabRun ((st 4).set64 sysSerialLo 5) 1 1400000), by decide +kernel, by decide +kernel, by decide +kernel⟩,
    ⟨_, (fabRun ((st 4).set64 sysSerialLo 5) 1 1400000).setFld fabStatusCoordinator 1, by decide +kernel, by
     decide +kernel, by decide +kernel, by decide +kernel, by decide +kernel, (Option.some_get (by
     decide +kernel)).symm⟩,
    ⟨_, (fabRun ((st 4).set64 sysSerialLo 5) 1 1500000).setFld fabStatusCoordinator 1, by decide +kernel, by
     decide +kernel, by decide +kernel, by decide +kernel, (Option.some_get (by decide +kernel)).symm⟩,
    ⟨⟨0, 1, 31, 0, 1, 0, true⟩, ⟨31, 1, [], 0, 100, 0, 0, 0⟩,
     { fabRun ((st 4).set64 sysSerialLo 5) 1 1400000 with pln := initPln }, _, _, _, by decide +kernel, by
     decide +kernel, by decide +kernel, by decide +kernel, by decide +kernel, by decide +kernel, rfl, rfl, rfl, by
     decide +kernel⟩,
    ⟨tFab 0x02 1 1 [], _, ⟨1, 1, 1, []⟩, (let t := fabMem (st 4) 0;
     { t with fab := { t.fab with outs := [⟨1, 1, 1, []⟩] } }), _, _, (Option.some_get (by decide +kernel)).symm, by
     decide +kernel, rfl⟩,
    ⟨fabMem (st 4) 0, by decide +kernel, by decide +kernel⟩,
    ⟨77, fabMem (st 4) 0, _, by decide +kernel, by decide +kernel, rfl, by decide +kernel⟩⟩

theorem test_premises_fabricMessages :
    (∃ (b : List Byte) (m : FabMsg) (s : State) (t : State) (u : State), s.fabFor b 0x20 = some (m, t) ∧ t.seamAway
     m.head.src = false ∧ m.head.seq = fabNext (tblGet t.fab.got 0 (fabKey m.head.src 0x20)) ∧ u = (t.fabPassed
     m.head.src 0x20 m.head.seq).fabReply m.head.src 0x21 m.head.seq []) ∧
    (∃ (b : List Byte) (m : FabMsg) (s : State) (t : State), s.fabFor b 0x21 = some (m, t) ∧ (t.fabOutOf m.head.src
     0x20 m.head.ref).isSome = true) ∧
    (∃ (b : List Byte) (m : FabMsg) (s : State) (t : State) (u : State) (d : SeamData), s.fabFor b 0x22 = some (m,
     t) ∧ t.seamAway m.head.src = false ∧ t.fabSeen m.head.src 0x22 m.head.seq = false ∧ u = (t.bump
     fabCntStripLostF ((m.head.seq + (2 ^ 32 - 1) - fabNext (tblGet t.fab.got 0 (fabKey m.head.src 0x22))) % (2 ^ 32
     - 1))).fabPassed m.head.src 0x22 m.head.seq ∧ u.fab.strips = [] ∧ d =
     { side := if m.head.src + 1 = u.selfAddr then 0 else 1, first := toSigned 64 (beAt m.body 0 8), lines := beAt m.body 0x12 1, bytes := m.body }) ∧
    (∃ (b : List Byte) (m : FabMsg) (s : State) (t : State) (u : State), s.fabFor b 0x30 = some (m, t) ∧ t.fabSeen
     m.head.src 0x30 m.head.seq = false ∧ t.coordinates = true ∧ u = t.fabPassed m.head.src 0x30 m.head.seq) ∧
    (∃ (b : List Byte) (m : FabMsg) (s : State) (t : State) (u : State), s.fabFor b 0x40 = some (m, t) ∧ m.body ≠ []
     ∧ t.fabSeen m.head.src 0x40 m.head.seq = false ∧ u = (t.fabTook m.head.src 0x40 m.head.seq).fabReply m.head.src
     0x40 m.head.seq [] ∧ u.coordinates = false) ∧
    (∃ (b : List Byte) (m : FabMsg) (s : State) (t : State), s.fabFor b 0x41 = some (m, t) ∧ t.fabSeen m.head.src
     0x41 m.head.seq = false) ∧
    (∃ (b : List Byte) (m : FabMsg) (s : State), m = fabOf b ∧ s.bridging = true ∧ m.head.crcOk = true ∧ m.head.dest
     ≠ s.selfAddr ∧ m.head.hops ≠ 0) ∧
    (∃ (dest : Fin 32) (ty : Nat) (seq : Nat) (o : FabOut) (s : State), s.fabOutOf dest ty seq = some o ∧ s.fabOn =
     true ∧ ty ≠ 0x10) ∧
    (∃ (dest : Fin 32) (s : State), s.fabOn = true ∧ s.fld fabStatusAddress < 32 ∧ s.isNeighbour dest = true) := ⟨
    ⟨tFab 0x20 1 0 [], _, fabMem (st 4) 0, _, _, (Option.some_get (by decide +kernel)).symm, by decide +kernel, by
     decide +kernel, rfl⟩,
    ⟨tFab 0x21 1 3 [], _, (let t := fabMem (st 4) 0; { t with fab := { t.fab with outs := [⟨1, 0x20, 3, []⟩] } }), _,
     (Option.some_get (by decide +kernel)).symm, by decide +kernel⟩,
    ⟨tFab 0x22 5 0 (List.replicate 24 0), _, fabMem (st 4) 0, _, _, _, (Option.some_get (by decide +kernel)).symm, by
     decide +kernel, by decide +kernel, rfl, by decide +kernel, rfl⟩,
    ⟨tFab 0x30 1 0 [], _, (fabMem (st 4) 0).setFld fabStatusCoordinator 1, _, _, (Option.some_get (by
     decide +kernel)).symm, by decide +kernel, by decide +kernel, rfl⟩,
    ⟨tFab 0x40 1 0 [1], _, fabMem (st 4) 0, _, _, (Option.some_get (by decide +kernel)).symm, by decide +kernel, by
     decide +kernel, rfl, by decide +kernel⟩,
    ⟨tFab 0x41 1 0 [], _, fabMem (st 4) 0, _, (Option.some_get (by decide +kernel)).symm, by decide +kernel⟩,
    ⟨fabBytes 0x41 1 5 1 0 1 0 [], _, fabMem (st 4) 0, rfl, by decide +kernel, by decide +kernel, by decide +kernel,
     by decide +kernel⟩,
    ⟨1, 0x20, 3, ⟨1, 0x20, 3, []⟩, (let t := fabMem (st 4) 0;
     { t with fab := { t.fab with outs := [⟨1, 0x20, 3, []⟩] } }), by decide +kernel, by decide +kernel, by
     decide +kernel⟩,
    ⟨1, fabMem (st 4) 0, by decide +kernel, by decide +kernel, by decide +kernel⟩⟩

theorem test_premises_fabricOrders :
    (∃ (b : List Byte) (m : FabMsg) (o : DueOp) (s : State) (t : State) (u : State), s.fabFor b 0x10 = some (m, t) ∧
     t.fabSeen m.head.src 0x10 m.head.seq = false ∧ u = t.fabTook m.head.src 0x10 m.head.seq ∧ o = orderOf
     m.head.seq u.zero m.body ∧ o.kind ≠ 5 ∧ t.taiNs ≤ beAt m.body 8 8) ∧
    (∃ (b : List Byte) (m : FabMsg) (o : DueOp) (s : State) (t : State) (u : State), s.fabFor b 0x10 = some (m, t) ∧
     t.fabSeen m.head.src 0x10 m.head.seq = false ∧ u = t.fabTook m.head.src 0x10 m.head.seq ∧ o = orderOf
     m.head.seq u.zero m.body ∧ o.kind ≠ 5 ∧ o.form ≠ 2 ∧ beAt m.body 8 8 < t.taiNs) ∧
    (∃ (b : List Byte) (m : FabMsg) (g : GlobalOp) (s : State) (t : State), s.fabFor b 0x11 = some (m, t) ∧
     t.fab.orders.find? (fun g => decide (g.seq = m.head.ref) && g.waiting.contains m.head.src) = some g ∧ beAt
     m.body 0 1 = 0) ∧
    (∃ (o : DueOp) (s : State), (s.pln.due.filter (fun o => decide (o.seq ≠ 0) && s.ripe o)).foldl firstOrder none =
     some o) ∧
    (∃ (g : GlobalOp) (s : State) (t : State), s.fab.orders.find? (fun g => decide (g.time + 1000000 ≤ s.taiNs) &&
     !g.waiting.isEmpty) = some g ∧ g.sess < 4 ∧ t =
     { s with fab := { s.fab with orders := s.fab.orders.filter (fun q => decide (q.seq ≠ g.seq)), outs := s.fab.outs.filter (fun o => !decide (o.type = 0x10 ∧ o.seq = g.seq)) } }) := ⟨
    ⟨tFab 0x10 1 0 ([2, 1] ++ List.replicate 6 0 ++ beBytes 8 900 ++ List.replicate 16 0), _, _, timed (fabMem (st 4)
     0) 900, _, _, (Option.some_get (by decide +kernel)).symm, by decide +kernel, rfl, rfl, by decide +kernel, by
     decide +kernel⟩,
    ⟨tFab 0x10 1 0 ([2, 1] ++ List.replicate 6 0 ++ beBytes 8 899 ++ List.replicate 16 0), _, _, timed (fabMem (st 4)
     0) 900, _, _, (Option.some_get (by decide +kernel)).symm, by decide +kernel, rfl, rfl, by decide +kernel, by
     decide +kernel, by decide +kernel⟩,
    ⟨tFab 0x11 1 3 (List.replicate 16 0), _, ⟨2, 1, 900, 3, 0, 5, [1], none⟩, (let t := fabMem (st 4) 0;
     { t with fab := { t.fab with orders := [⟨2, 1, 900, 3, 0, 5, [1], none⟩] } }), _, (Option.some_get (by
     decide +kernel)).symm, by decide +kernel, by decide +kernel⟩,
    ⟨_, timed ({ st 4 with pln := { initPln with due := [⟨2, 1, 900, 0, 255, 0, 3⟩] } }) 900, (Option.some_get (by
     decide +kernel)).symm⟩,
    ⟨⟨2, 1, 900, 3, 0, 5, [1], none⟩, (let t := timed (fabMem (st 4) 0) 1000900;
     { t with fab := { t.fab with orders := [⟨2, 1, 900, 3, 0, 5, [1], none⟩] } }), _, by decide +kernel, by
     decide +kernel, rfl⟩⟩

theorem test_premises_encoderCommands :
    (∃ (k : EncId) (a : Bool) (b : Bool) (z : Bool) (d : Int) (s : State) (t : State), encDecode (s.fld (encCtrlMode
     k)) (s.enc k) a b z = .step d ∧ t = s.setEnc k ((s.enc k).take a b z) ∧ t.mainCounts = true ∧ t.aoCounts k =
     false) ∧
    (∃ (k : EncId) (a : Bool) (b : Bool) (z : Bool) (s : State), encDecode (s.fld (encCtrlMode k)) (s.enc k) a b z =
     .none) ∧
    (∃ (k : EncId) (a : Bool) (b : Bool) (z : Bool) (s : State), encDecode (s.fld (encCtrlMode k)) (s.enc k) a b z =
     .invalid) ∧
    (∃ (k : EncId) (s : State) (t : State), s.fld (encCtrlMode k) = 1 ∧ s.mainCounts = true ∧ t = s.fire (296 + 6 *
     k) ∧ (t.enc k).index = none) ∧
    (∃ (k : EncId) (s : State), s.fld (encCtrlMode k) ≠ 0) ∧
    (∃ (k : EncId) (s : State), s.fld (encWindowF k) ≠ 0) ∧
    (∃ (k : EncId) (s : State), s.fld (encCtrlMode k) = 2) ∧
    (∃ (k : EncId) (s : State), (s.enc k).handover = true ∧ s.encPos k = (s.enc k).ao) ∧
    (∃ (k : EncId) (s : State) (t : State), (s.enc k).handover = true ∧ s.encPos k ≠ (s.enc k).ao ∧ t = s.encSuspect
     k) := ⟨
    ⟨0, false, true, false, 1, (st 4).setFld (encCtrlMode 0) 1, _, by decide +kernel, rfl, by decide +kernel, by
     decide +kernel⟩,
    ⟨3, false, false, true, (st 4).setFld (encCtrlMode 3) 1, by decide +kernel⟩,
    ⟨0, true, true, true, (st 4).setFld (encCtrlMode 0) 2, by decide +kernel⟩,
    ⟨0, (st 4).setFld (encCtrlMode 0) 1, _, by decide +kernel, by decide +kernel, rfl, by decide +kernel⟩,
    ⟨0, (st 4).setFld (encCtrlMode 0) 2, by decide +kernel⟩,
    ⟨0, (st 4).setFld (encWindowF 0) 10, by decide +kernel⟩,
    ⟨0, (st 4).setFld (encCtrlMode 0) 2, by decide +kernel⟩,
    ⟨0, (st 4).setEnc 0 { initEnc with handover := true }, by decide +kernel, by decide +kernel⟩,
    ⟨0, (st 4).setEnc 0 { initEnc with handover := true, ao := 1 }, _, by decide +kernel, by decide +kernel, rfl⟩⟩

theorem test_premises_axisCommands :
    (∃ (x : AxisId) (m : AxisMove) (s : State) (t : State), (s.ax x).newSine = none ∧ (s.ax x).limitDue = none ∧
     (s.ax x).newMove = some m ∧ (s.ax x).newLims = none ∧ t = (s.setAx x { s.ax x with newMove := none }).replan x
     m false ∧ (t.ax x).nextRaw = none) ∧
    (∃ (x : AxisId) (s : State), (s.ax x).newSine = none ∧ (s.ax x).limitDue = none ∧ (s.ax x).newMove = none ∧
     (s.ax x).newLims = none ∧ (s.ax x).nextRaw = none) ∧
    (∃ (x : AxisId) (s : State), (s.ax x).segs ≠ []) ∧
    (∃ (x : AxisId) (s : State), s.axIs x 1 = true ∧ s.flag (axStatusHold x) = false ∧ (s.ax x).endedAt + 100000000
     ≤ s.taiNs) ∧
    (∃ (x : AxisId) (mean : Int) (o : Int) (s : State) (t : State), o = s.fldInt (axChopOffsetOffsetA x) + rdiv
     (s.phaseRef x false - mean) 4 ∧ o.natAbs ≤ 50 ∧ t = (s.setAx x
     { s.ax x with residA := (s.phaseRef x false - mean).natAbs }).setFld (axChopOffsetResidual x) (satU 8
     (s.phaseRef x false - mean).natAbs)) ∧
    (∃ (x : AxisId) (s : State), (s.ax x).v ≤ 0) ∧
    (∃ (x : AxisId) (s : State) (t : State), 0 < (s.ax x).v ∧ t = (s.setFld (axStatusHighActive x) 1).fire (320 + 10
     * x + 6)) ∧
    (∃ (x : AxisId) (c : Fin 8) (s : State), c.val ≠ 0 ∧ c.val ≤ 5 ∧ s.axIs x 0 = false ∧ s.axIs x 5 = false) ∧
    (∃ (x : AxisId) (e : Nat) (s : State), s.flag (axCtrlEnable x) = true ∧ (s.tout (s.fld (axCtrlMarkTout x))).high
     = some e ∧ (s.tout (s.fld (axCtrlMarkTout x))).overload = false) := ⟨
    ⟨0, ⟨100, 1000, 500, 500, 0, 5, false⟩, (stp 4).setAx 0
     { initAx with newMove := some ⟨100, 1000, 500, 500, 0, 5, false⟩ }, _, by decide +kernel, by decide +kernel, by
     decide +kernel, by decide +kernel, rfl, by decide +kernel⟩,
    ⟨0, st 4, by decide +kernel, by decide +kernel, by decide +kernel, by decide +kernel, by decide +kernel⟩,
    ⟨0, (st 4).setAx 0 { initAx with segs := [⟨10, 5, 0⟩] }, by decide +kernel⟩,
    ⟨0, timed (((st 4).setFld (axStatusState 0) 1).setFld (axStatusHold 0) 0) 100000000, by decide +kernel, by
     decide +kernel, by decide +kernel⟩,
    ⟨0, 0, _, stp 4, _, rfl, by decide +kernel, rfl⟩,
    ⟨0, st 4, by decide +kernel⟩,
    ⟨0, (st 4).setAx 0 { initAx with v := 1 }, _, by decide +kernel, rfl⟩,
    ⟨0, 5, (st 4).setFld (axStatusState 0) 1, by decide +kernel, by decide +kernel, by decide +kernel, by
     decide +kernel⟩,
    ⟨0, 900, ((st 4).setFld (axCtrlEnable 0) 1).setTout ((st 4).fld (axCtrlMarkTout 0))
     { initTout with high := some 900 }, by decide +kernel, by decide +kernel, by decide +kernel⟩⟩

theorem test_premises_eventRouting :
    (∃ (v : EvcId) (f : Flight) (s : State) (t : State), s.evt.flights = [f] ∧ f.chan = v.val ∧ f.cycle + 2 ≤
     s.clock ∧ s.sameInput f.chan v = true ∧ f.hop < 15 ∧ t = { s with evt := { s.evt with flights := [] } } ∧
     t.flag (evcChanCfgEnable f.chan) = true ∧ t.secureOk f.chan = true) ∧
    (∃ (v : EvcId) (f : Flight) (s : State) (t : State), s.evt.flights = [f] ∧ f.chan = v.val ∧ f.cycle + 2 ≤
     s.clock ∧ s.sameInput f.chan v = true ∧ 15 ≤ f.hop ∧ t = { s with evt := { s.evt with flights := [] } } ∧
     t.flag (evcChanCfgEnable f.chan) = true ∧ t.secureOk f.chan = true) ∧
    (∃ (v : EvcId) (f : Flight) (s : State) (t : State), s.waitingAt v = some f ∧ s.consumerBusy v = false ∧ t =
     { s with evt := { s.evt with waiting := s.evt.waiting.erase f } }) ∧
    (∃ (p : Fin 4), p.val ≠ 3) ∧
    (∃ (l : CellId) (s : State) (t : State), s.flag (lcCfgEnable l) = true ∧ (s.cell l).level = true ∧ s.fld
     (lcCfgFilter l) ≤ (s.cell l).held ∧ s.flag (lcStatusOut l) = false ∧ t = ((s.setFld (lcStatusOut l) 1).setFld
     (lcStatusHop l) (s.cell l).hop).setCell l { s.cell l with hop := 0 }) ∧
    (∃ (v : Word), v.getLsbD 4 = false) ∧
    (∃ (u : UnitId) (v : Word) (s : State), v.getLsbD 4 = true ∧ (s.crc u).loads ≠ 0 ∧ s.fld (crcStatusLastAlive u)
     = v.toNat % 16) ∧
    (∃ (u : UnitId) (v : Word) (s : State), v.getLsbD 4 = true ∧ (s.crc u).loads = 0 ∧ (s.crc u).job = none) := ⟨
    ⟨3, ⟨3, 5, 0, 14, 0, false, false⟩,
     { (st 4).setFld (evcChanCfgEnable 3) 1 with evt := { initEvt with flights := [⟨3, 5, 0, 14, 0, false, false⟩] }, clock := 2 },
     _, by decide +kernel, by decide +kernel, by decide +kernel, by decide +kernel, by decide +kernel, rfl, by
     decide +kernel, by decide +kernel⟩,
    ⟨3, ⟨3, 5, 0, 15, 0, false, false⟩,
     { (st 4).setFld (evcChanCfgEnable 3) 1 with evt := { initEvt with flights := [⟨3, 5, 0, 15, 0, false, false⟩] }, clock := 2 },
     _, by decide +kernel, by decide +kernel, by decide +kernel, by decide +kernel, by decide +kernel, rfl, by
     decide +kernel, by decide +kernel⟩,
    ⟨3, _, { st 4 with evt := { initEvt with waiting := [⟨3, 5, 0, 0, 0, false, false⟩] } }, _, (Option.some_get (by
     decide +kernel)).symm, by decide +kernel, rfl⟩,
    ⟨2, by decide +kernel⟩,
    ⟨31, ((st 4).setFld (lcCfgEnable 31) 1).setCell 31 { initCell with level := true, held := 100 }, _, by
     decide +kernel, by decide +kernel, by decide +kernel, by decide +kernel, rfl⟩,
    ⟨0xF, by decide +kernel⟩,
    ⟨0, 0x13, ((st 4).setCrc 0 { initCrc with loads := 1 }).setFld (crcStatusLastAlive 0) 3, by decide +kernel, by
     decide +kernel, by decide +kernel⟩,
    ⟨0, 0x10, st 4, by decide +kernel, by decide +kernel, by decide +kernel⟩⟩

theorem test_premises_calibrationCommands :
    (∃ (c : CtxId) (fab : Bool) (peak : Nat) (sh : Int) (key : Nat) (s : State), s.inspecting = true ∧ s.flag
     calCtrlF = true ∧ s.seamKey c fab = some key ∧ key ≠ 13 ∧ 800 ≤ peak ∧ -32 ≤ sh ∧ sh ≤ 32) ∧
    (∃ (c : CtxId) (fab : Bool) (peak : Nat) (key : Nat) (s : State), s.inspecting = true ∧ s.flag calCtrlF = true ∧
     s.seamKey c fab = some key ∧ peak < 800) ∧
    (∃ (c : CtxId) (r : CalRun) (s : State), s.calRun 4 c = some r ∧ s.flatEnded r = true) ∧
    (∃ (p : Plan) (s : State), 3 ≤ s.mode ∧ s.pln.plan = some p) := ⟨
    ⟨0, false, 800, -32, 0, (stp 4).setFld calCtrlF 1, by decide +kernel, by decide +kernel, by decide +kernel, by
     decide +kernel, by decide +kernel, by decide +kernel, by decide +kernel⟩,
    ⟨0, false, 799, 0, (stp 4).setFld calCtrlF 1, by decide +kernel, by decide +kernel, by decide +kernel, by
     decide +kernel⟩,
    ⟨0, _,
     { (st 4).setCtx 0 { initCtx with num := { initNum with nextStrip := 4 } } with cal := { initCal with runs := [⟨4, 0, 0, 5, 3, 0, true, 1, 64, 0, [], [], [], 0, 0, 0⟩] } },
     (Option.some_get (by decide +kernel)).symm, by decide +kernel⟩,
    ⟨_, stp 3, by decide +kernel, (Option.some_get (by decide +kernel)).symm⟩⟩

theorem test_premises_powerWake :
    (∃ (s : State), s.mode = 0 ∧ s.duskToNight = false ∧ s.wakeHeeded 1 = true) ∧
    (∃ (s : State), s.duskToNight = true ∧ s.pwr.latched = []) ∧
    (∃ (s : State), s.duskToNight = true ∧ s.pwr.latched = []) ∧
    (∃ (s : State), s.mode = 0 ∧ s.fld pwrWakeTimerF ≠ 0) ∧
    (∃ (s : State), s.fld (hspPortMedia 0) = 3) ∧
    (∃ (s : State), s.pwr.holding = false ∧ s.pwr.supply = false) ∧
    (∃ (mv : Nat) (s : State) (t : State) (u : State), s.mode = 0 ∧ s.pwr.present = true ∧ s.pwr.inserted = true ∧
     8800 ≤ mv ∧ mv ≤ 62000 ∧ s.pwr.supply = true ∧ t = (s.setFld pwrInputVin mv).setFld pwrStatusHoldupCharged 1 ∧
     u = ({ t with pwr := { t.pwr with supply := true } }).startDawn) ∧
    (∃ (mv : Nat) (s : State) (t : State) (u : State), s.mode = 0 ∧ s.pwr.present = true ∧ s.pwr.inserted = true ∧
     8800 ≤ mv ∧ mv ≤ 62000 ∧ s.pwr.supply = true ∧ t = (s.setFld pwrInputVin mv).setFld pwrStatusHoldupCharged 1 ∧
     u = ({ t with pwr := { t.pwr with supply := true } }).startDawn) ∧
    (∃ (r : StepResult) (n : Nat) (s : State), s.mode = 1 ∧ n = s.pwr.step + 1 ∧ n ≠ 6 ∧ n ≠ 11 ∧ s.dawnBad n r =
     false) ∧
    (∃ (r : StepResult) (n : Nat) (s : State), s.mode = 1 ∧ n = s.pwr.step + 1 ∧ n ≠ 6 ∧ n ≠ 11 ∧ s.dawnBad n r =
     true) ∧
    (∃ (n : Fin 16) (r : StepResult) (s : State), s.mode = 2 ∧ s.pwr.retry = false ∧ sunriseRuns s.pwr.done n.val =
     true ∧ n.val ≠ 7 ∧ r.ok = true) ∧
    (∃ (s : State), s.mode = 2 ∧ s.pwr.retry = true ∧ (s.pwr.warmFails.filter (fun t => decide (s.clock < t +
     375000000000))).length < 3) ∧
    (∃ (s : State), s.mode = 2 ∧ s.pwr.retry = true ∧ 3 ≤ (s.pwr.warmFails.filter (fun t => decide (s.clock < t +
     375000000000))).length) ∧
    (∃ (ms : Nat) (s : State) (t : State), s.mode = 1 ∧ s.pwr.step = 1 ∧ s.pwr.freset = false ∧ 5000 ≤ ms ∧ t =
     ({ s with pwr := { s.pwr with freset := true, flash := { s.pwr.flash with seqMarks := [0, 0, 0, 0] } } }).setFld
     hstKeysProvisioned 0) := ⟨
    ⟨st 0, by decide +kernel, by decide +kernel, by decide +kernel⟩,
    ⟨(st 6).setFld pwrModeTarget 2, by decide +kernel, by decide +kernel⟩,
    ⟨(st 6).setFld pwrModeTarget 4, by decide +kernel, by decide +kernel⟩,
    ⟨(st 0).setFld pwrWakeTimerF 1, by decide +kernel, by decide +kernel⟩,
    ⟨(st 0).setFld (hspPortMedia 0) 3, by decide +kernel⟩,
    ⟨{ st 0 with pwr := { initPwr with supply := false } }, by decide +kernel, by decide +kernel⟩,
    ⟨8800, { st 0 with pwr := { initPwr with inserted := true } }, _, _, by decide +kernel, by decide +kernel, by
     decide +kernel, by decide +kernel, by decide +kernel, by decide +kernel, rfl, rfl⟩,
    ⟨62000, { st 0 with pwr := { initPwr with inserted := true } }, _, _, by decide +kernel, by decide +kernel, by
     decide +kernel, by decide +kernel, by decide +kernel, by decide +kernel, rfl, rfl⟩,
    ⟨⟨true, false, 0, [], [], []⟩, _, { st 1 with pwr := { initPwr with step := 0 } }, by decide +kernel, rfl, by
     decide +kernel, by decide +kernel, by decide +kernel⟩,
    ⟨⟨false, false, 0, [], [], []⟩, _, { st 1 with pwr := { initPwr with step := 0 } }, by decide +kernel, rfl, by
     decide +kernel, by decide +kernel, by decide +kernel⟩,
    ⟨1, ⟨true, false, 0, [], [], []⟩, st 2, by decide +kernel, by decide +kernel, by decide +kernel, by
     decide +kernel, by decide +kernel⟩,
    ⟨{ st 2 with pwr := { initPwr with retry := true, warmFails := [0, 0] } }, by decide +kernel, by decide +kernel,
     by decide +kernel⟩,
    ⟨{ st 2 with pwr := { initPwr with retry := true, warmFails := [0, 0, 0] } }, by decide +kernel, by
     decide +kernel, by decide +kernel⟩,
    ⟨5000, { st 1 with pwr := { initPwr with step := 1 } }, _, by decide +kernel, by decide +kernel, by
     decide +kernel, by decide +kernel, rfl⟩⟩

theorem test_premises_powerRunning :
    (∃ (d : Fin 48) (ns : Nat) (b : Nat) (s : State), s.mode = 4 ∧ s.domainDue d = true ∧ wakeBound d = some b ∧ ns
     ≤ b) ∧
    (∃ (d : Fin 48) (ns : Nat) (b : Nat) (s : State), s.mode = 4 ∧ s.domainDue d = true ∧ wakeBound d = some b ∧ b <
     ns) ∧
    (∃ (die : List Int) (dram : Int) (stage : Int) (bridge : Int) (s : State) (t : State) (u : State), s.mode ≠ 0 ∧
     t = (((s.setFldInt pwrTempDie (satS 8 (hottest die))).setFldInt pwrTempDram (satS 8 dram)).setFldInt
     pwrTempStage (satS 8 stage)).setFldInt pwrTempBridge (satS 8 bridge) ∧ u = (((t.tempCheck 0 (hottest die) 110
     125).tempCheck 1 dram 95 105).tempCheck 2 stage 120 135).tempCheck 3 bridge 140 150 ∧ u.pwr.warned.filter (fun
     j => decide (4 ≤ j)) = [] ∧ u.mode ≠ 6) ∧
    (∃ (die : List Int) (dram : Int) (stage : Int) (bridge : Int) (s : State) (t : State) (u : State), s.mode ≠ 0 ∧
     t = (((s.setFldInt pwrTempDie (satS 8 (hottest die))).setFldInt pwrTempDram (satS 8 dram)).setFldInt
     pwrTempStage (satS 8 stage)).setFldInt pwrTempBridge (satS 8 bridge) ∧ u = (((t.tempCheck 0 (hottest die) 110
     125).tempCheck 1 dram 95 105).tempCheck 2 stage 120 135).tempCheck 3 bridge 140 150 ∧ u.pwr.warned.filter (fun
     j => decide (4 ≤ j)) = [] ∧ u.mode ≠ 6) ∧
    (∃ (i : Nat) (s : State) (t : State), s.mode ≠ 0 ∧ 4000 ≤ i ∧ s.pwr.limiting = false ∧ t = (s.setFld pwrInputIin
     (min i 65535)).setFld pwrStatusCurrentLimit 1) ∧
    (∃ (i : Nat) (s : State) (t : State), s.pwr.limiting = true ∧ t = s.setFld pwrInputIin (min i 65535) ∧ i < 3800) ∧
    (∃ (i : Nat) (s : State), s.pwr.limiting = true ∧ 3800 ≤ i) ∧
    (∃ (mv : Nat) (s : State), s.mode ≠ 0 ∧ s.flag pwrStatusDerated = false ∧ mv < 24000) ∧
    (∃ (mv : Nat) (s : State), s.mode ≠ 0 ∧ s.flag pwrStatusDerated = true ∧ 24500 ≤ mv) ∧
    (∃ (c : Fin 4) (s : State), 3 ≤ s.mode ∧ natAt s.pwr.watchdog c + 62500000 ≤ s.clock) := ⟨
    ⟨13, 20000, 20000, st 4, by decide +kernel, by decide +kernel, by decide +kernel, by decide +kernel⟩,
    ⟨13, 20001, 20000, st 4, by decide +kernel, by decide +kernel, by decide +kernel, by decide +kernel⟩,
    ⟨[109], 94, 119, 139, st 4, _, _, by decide +kernel, rfl, rfl, by decide +kernel, by decide +kernel⟩,
    ⟨[124], 104, 134, 200, st 4, _, _, by decide +kernel, rfl, rfl, by decide +kernel, by decide +kernel⟩,
    ⟨4000, st 4, _, by decide +kernel, by decide +kernel, by decide +kernel, rfl⟩,
    ⟨3799, { st 4 with pwr := { initPwr with limiting := true } }, _, by decide +kernel, rfl, by decide +kernel⟩,
    ⟨3800, { st 4 with pwr := { initPwr with limiting := true } }, by decide +kernel, by decide +kernel⟩,
    ⟨23999, st 4, by decide +kernel, by decide +kernel, by decide +kernel⟩,
    ⟨24500, (st 4).setFld pwrStatusDerated 1, by decide +kernel, by decide +kernel, by decide +kernel⟩,
    ⟨3, { st 3 with clock := 62500000 }, by decide +kernel, by decide +kernel⟩⟩

theorem test_premises_powerLoss :
    (∃ (u : Bool) (s : State) (t : State), s.pwr.supply = true ∧ s.pwr.holding = false ∧ t = ((s.setFld
     pwrStartFailLastLoss (if u then 2 else 1)).setFld pwrStartFailHoldupDone 0).fire (if u then 385 else 386) ∧ 3 ≤
     t.mode) ∧
    (∃ (u : Bool) (s : State) (t : State), s.pwr.supply = true ∧ s.pwr.holding = false ∧ t = ((s.setFld
     pwrStartFailLastLoss (if u then 2 else 1)).setFld pwrStartFailHoldupDone 0).fire (if u then 385 else 386) ∧ 3 ≤
     t.mode) ∧
    (∃ (s : State) (t : State) (u : State), s.pwr.supply = true ∧ t = ((s.fire 387).setFld pwrStartFailLastLoss
     3).setFld pwrStartFailHoldupDone 0 ∧ t.mode = 0 ∧ u =
     ({ t with pwr := { t.pwr with holding := true } }).alwaysOnLost) ∧
    (∃ (s : State), s.pwr.holding = true ∧ s.mode = 0 ∧ s.pwr.dramKept = true ∧ s.pwr.recordValid = true) ∧
    (∃ (s : State), s.pwr.holding = true ∧ s.mode = 0 ∧ s.pwr.dramKept = false ∧ s.pwr.blocked = false) ∧
    (∃ (s : State), s.pwr.holding = true) ∧
    (∃ (s : State), 3 ≤ s.mode) ∧
    (∃ (s : State), s.mode = 6 ∧ s.pwr.duskStep = 4) ∧
    (∃ (s : State) (t : State), s.mode = 6 ∧ s.pwr.duskStep = 2 ∧ s.drained = true ∧ t =
     ({ s.gateAll with pwr := { s.gateAll.pwr with duskStep := 3 } }).drainPennants ∧ t.pen.queue = [] ∧
     t.pen.staging = []) ∧
    (∃ (s : State), s.mode = 6 ∧ s.pwr.duskStep = 3) ∧
    (∃ (k : SliceId) (s : State) (t : State), 3 ≤ s.mode ∧ (s.slice k).lost = false ∧ t = ((s.setSlice k
     { s.slice k with lost := true, asleep := false }).setDomain (13 + k) false).setDomain (17 + k) false) ∧
    (∃ (g : EngineId) (s : State) (t : State), 3 ≤ s.mode ∧ s.pwr.engineLost.contains g.val = false ∧ s.pln.plan =
     none ∧ t = ({ s with pwr := { s.pwr with engineLost := s.pwr.engineLost ++ [g.val] } }).setDomain (23 + g)
     false) := ⟨
    ⟨true, st 4, _, by decide +kernel, by decide +kernel, rfl, by decide +kernel⟩,
    ⟨false, st 3, _, by decide +kernel, by decide +kernel, rfl, by decide +kernel⟩,
    ⟨st 0, _, _, by decide +kernel, rfl, by decide +kernel, rfl⟩,
    ⟨{ st 0 with pwr := { initPwr with holding := true, dramKept := true } }, by decide +kernel, by decide +kernel,
     by decide +kernel, by decide +kernel⟩,
    ⟨{ st 0 with pwr := { initPwr with holding := true } }, by decide +kernel, by decide +kernel, by decide +kernel,
     by decide +kernel⟩,
    ⟨{ st 0 with pwr := { initPwr with holding := true } }, by decide +kernel⟩,
    ⟨st 3, by decide +kernel⟩,
    ⟨{ st 6 with pwr := { initPwr with duskStep := 4 } }, by decide +kernel, by decide +kernel⟩,
    ⟨{ st 6 with pwr := { initPwr with duskStep := 2 } }, _, by decide +kernel, by decide +kernel, by decide +kernel,
     rfl, by decide +kernel, by decide +kernel⟩,
    ⟨{ st 6 with pwr := { initPwr with duskStep := 3 } }, by decide +kernel, by decide +kernel⟩,
    ⟨3, st 3, _, by decide +kernel, by decide +kernel, rfl⟩,
    ⟨1, st 3, _, by decide +kernel, by decide +kernel, by decide +kernel, rfl⟩⟩

theorem test_premises_setupCommands :
    (∃ (v : Word) (s : State), getBits v 16 16 = 0x5A1C ∧ (getBits v 0 3 = 5 ∨ getBits v 0 3 = 6) ∧ 3 ≤ s.mode ∧
     s.mode ≠ 6 ∧ s.pwr.afterStop = none) ∧
    (∃ (v : Word) (s : State), getBits v 16 16 = 0x5A1C ∧ (getBits v 0 3 = 5 ∨ getBits v 0 3 = 6) ∧ 3 ≤ s.mode ∧
     s.mode ≠ 6 ∧ s.pwr.afterStop = none) ∧
    (∃ (v : Word), getBits v 16 16 ≠ 0x5A1C) ∧
    (∃ (v : Word), v.getLsbD 0 = true) ∧
    (∃ (v : Word), v.getLsbD 20 = true) ∧
    (∃ (a : Nat), latchLos.contains a = true ∧ (4 ≤ a → latchLos.contains (a - 4) = false)) ∧
    (∃ (v : Word), v.getLsbD 31 = true) ∧
    (∃ (v : Word), v.getLsbD 31 = true) ∧
    (∃ (v : Word), v.getLsbD 31 = true) ∧
    (∃ (s : State), s.flag pwrStatusImageB = true ∧ s.mode ≠ 0) := ⟨
    ⟨0x5A1C0006, st 7, by decide +kernel, by decide +kernel, by decide +kernel, by decide +kernel, by decide +kernel⟩,
    ⟨0x5A1C0005, st 4, by decide +kernel, by decide +kernel, by decide +kernel, by decide +kernel, by decide +kernel⟩,
    ⟨0x5A1D0006, by decide +kernel⟩,
    ⟨1, by decide +kernel⟩,
    ⟨0x00100000, by decide +kernel⟩,
    ⟨latchLos.headD 0, by decide +kernel, by decide +kernel⟩,
    ⟨0x80000000, by decide +kernel⟩,
    ⟨0x80000000, by decide +kernel⟩,
    ⟨0x80000000, by decide +kernel⟩,
    ⟨(st 3).setFld pwrStatusImageB 1, by decide +kernel, by decide +kernel⟩⟩

theorem test_premises_roundedDivision :
    ∃ (b : Int), 0 < b :=
    ⟨1, by decide +kernel⟩

theorem test_premises_laneChoice :
    (∃ (x : PortSt) (n : Nat) (r : Nat), chooseLanes x = some (n, r)) ∧
    (∃ (x : PortSt) (m : Nat), chooseLanes x = none ∧ m ∈ [1, 2, 4, 8] ∧ m ≤ x.declared) := ⟨
    ⟨{ initPort with declared := 4, lanes := (List.range 4).map (fun l => (l, { initLane with own := some 255, peer := some 255, rate := 1, phase := .settled })) },
     4, 1, by decide +kernel⟩,
    ⟨{ initPort with declared := 1, lanes := [(0, { initLane with phase := .unusable })] }, 1, by decide +kernel, by
     decide +kernel, by decide +kernel⟩⟩

theorem test_premises_blockLockRule :
    (∃ (p : PortId) (hs : List (BitVec 2)) (s : State), s.blocksRun p = true ∧ hs.length = 64 ∧ hs.all headerOk =
     true) ∧
    (∃ (p : PortId) (l : LaneId) (hs : List (BitVec 2)) (s : State), s.blocksRun p = true ∧ (s.lane p l).locked =
     true ∧ hs.length = 64 ∧ 16 ≤ (hs.filter (fun h => !headerOk h)).length) := ⟨
    ⟨0, List.replicate 64 1, portIn (st 3) 0 6, by decide +kernel, by decide +kernel, by decide +kernel⟩,
    ⟨0, 0, List.replicate 48 1 ++ List.replicate 16 0, (portIn (st 3) 0 6).setLane 0 0
     { initLane with locked := true }, by decide +kernel, by decide +kernel, by decide +kernel, by decide +kernel⟩⟩

theorem test_premises_flushTimerRule :
    (∃ (c : CtxId) (s : State), s.fld (ctxCtrlFlushMs c) ≠ 0 ∧ 1 ≤ (s.ctx c).num.held ∧ (s.ctx c).num.lastAccept +
     s.fld (ctxCtrlFlushMs c) * 625000 ≤ s.clock) ∧
    (∃ (c : CtxId) (s : State), s.fld (ctxCtrlFlushMs c) = 0) := ⟨
    ⟨0,
     { ((stp 4).setFld (ctxCtrlFlushMs 0) 5).setCtx 0 { initCtx with num := { initNum with held := 1, lastAccept := 100 } } with clock := 3125100 },
     by decide +kernel, by decide +kernel, by decide +kernel⟩,
    ⟨0, (stp 4).setFld (ctxCtrlFlushMs 0) 0, by decide +kernel⟩⟩

theorem test_premises_modeDescriptorInDusk :
    ∃ (n : SessId) (idx : Nat) (d : OutDesc) (s : State), s.startable n idx = some d ∧ d.opcode = 0x58 ∧ s.mode =
     6 :=
    ⟨0, 5, tDesc 0x58 [], desced (st 6) 0x58 [], by decide +kernel, by decide +kernel, by decide +kernel⟩

theorem test_premises_sineLoadWhileMoving :
    ∃ (n : SessId) (idx : Nat) (d : OutDesc) (s : State), Ready s n idx 0x45 modesMX d ∧ d.par 0x10 1 < 2 ∧
     s.axMoving (d.par 0x10 1) = true :=
    ⟨0, 5, tDesc 0x45 [(0x10, 1, 1)], desced ((st 3).setAx 1 { initAx with segs := [⟨10, 5, 0⟩] }) 0x45 [(0x10, 1,
     1)], ⟨by decide +kernel, by decide +kernel, by decide +kernel⟩, by decide +kernel, by decide +kernel⟩

theorem test_premises_descriptorModes :
    (∃ (n : SessId) (idx : Nat) (d : OutDesc) (s : State), s.startable n idx = some d ∧ d.opcode = 0x20 ∧ s.mode ≠
     3) ∧
    (∃ (n : SessId) (idx : Nat) (d : OutDesc) (s : State), s.startable n idx = some d ∧ d.opcode = 0x21 ∧ s.mode ≠ 4
     ∧ s.mode ≠ 5) ∧
    (∃ (n : SessId) (idx : Nat) (d : OutDesc) (s : State), s.startable n idx = some d ∧ d.opcode = 0x40 ∧ s.mode =
     6) ∧
    (∃ (n : SessId) (idx : Nat) (s : State), s.startable n idx = none) := ⟨
    ⟨0, 5, tDesc 0x20 [], desced (st 4) 0x20 [], by decide +kernel, by decide +kernel, by decide +kernel⟩,
    ⟨0, 5, tDesc 0x21 [], desced (st 3) 0x21 [], by decide +kernel, by decide +kernel, by decide +kernel, by
     decide +kernel⟩,
    ⟨0, 5, tDesc 0x40 [], desced (st 6) 0x40 [], by decide +kernel, by decide +kernel, by decide +kernel⟩,
    ⟨0, 5, st 3, by decide +kernel⟩⟩

/-! ### Values that the manual works out -/

/-- The bytes of "123456789". -/
def tDigits : List Byte := [0x31, 0x32, 0x33, 0x34, 0x35, 0x36, 0x37, 0x38, 0x39]

/-- The self-test values after R716. -/
theorem test_crc32c : crc32c tDigits = 0xE3069283 := by decide +kernel

theorem test_crc16 : crcFinal ⟨16, 0x1021, 0xFFFF, 0, false, false⟩ (crcRun ⟨16, 0x1021, 0xFFFF, 0, false, false⟩ 0xFFFF tDigits) = 0x29B1 := by
  decide +kernel

/-- The LINE body of the worked example after R63: 16 384 pixels of 12 bits are 24 592 bytes. -/
theorem test_line_bytes : lineBytes ⟨0, 0, 1, 16384, 12, 0, 0⟩ = 24592 := by decide +kernel

/-- The sub-table of the worked example after R348. -/
def tSub : List Nat := [3, 2, 2, 3, 3, 4, 5, 6, 7, 10, 10, 10, 10, 10, 10, 10, 10]

theorem test_code_words : (List.range 17).map (codeWord tSub) =
    [0b100, 0b00, 0b01, 0b101, 0b110, 0b1110, 0b11110, 0b111110, 0b1111110, 1016, 1017, 1018, 1019, 1020, 1021, 1022, 1023] := by
  decide +kernel

/-- Residues and classes of its columns 10 to 13. -/
theorem test_residues : (rowResidues 12 1 (some [996, 1000, 1004, 1010, 1012]) [998, 1003, 1006, 1013, 1012]).drop 1 = [6, 4, 6, 1] ∧
    [6, 4, 6, 1].map classOf = [3, 3, 3, 1] := by decide +kernel

/-- The minimum-phase kernel of the worked example after R229, at phase 64. -/
theorem test_kernel_m : kernelM 64 = [0, 0, 0, 0, -640, 4480, 13440, -896] ∧ rdiv (128 * 15000) 20000 = 96 := by decide +kernel

/-- The colour matrix of the worked example after R180. -/
theorem test_matrix : matrixOf { initBank.front with en := { initEnables with matrix := true }, channels := 4, matrix := [[16384, 0, 0, -4096, 0], [0, 16384, 0, -4915, 0], [0, 0, 16384, -3277, 0], [0, 0, 0, 16384, 0]] } 1
      [[(131648, false)], [(149504, false)], [(98304, false)], [(47104, false)]] =
    [[(119872, false)], [(135373, false)], [(88883, false)], [(47104, false)]] := by decide +kernel

/-- The merged scratch of the worked example after R290, from its two parts. -/
def tScratch : Acc :=
  let px (c : Int) : Det := ⟨true, true, false, 0, c, [c, 0, 0, 0], false⟩
  let row (a : Acc) (i : Nat) (keep : Int → Bool) : Acc :=
    [(4938 : Int) + i, 4939 + i].foldl (fun (a : Acc) (g : Int) => if keep g then accPixel a g (1000 + i) (px (if g = 4943 ∧ i = 5 then -6000 else -4000)) else a) a
  let p0 := (List.range 9).foldl (fun (a : Acc) i => row a i (fun g => decide (g ≤ 4942))) (accNew 4938 1000)
  let p1 := (List.range 9).foldl (fun (a : Acc) i => row a i (fun g => decide (4943 ≤ g))) (accNew 4943 1004)
  let a := accJoin p0 p1
  { a with runs := 5 + 5 - 1, crack := 20 + 20 - 2 }

theorem test_features : (features tScratch).take 10 = [18, 9, 10, 1265280, 257024, 1771, 1707, 1707, -6000, -4111] ∧
    (features tScratch).drop 14 = [9, 477] := by decide +kernel

/-- The decision table of the worked example after R293. -/
theorem test_classify : classify { initBank.seg with
      lists := [[], [4, 32, 4096]] ++ List.replicate 13 [] ++ [[160]],
      nodes := [BitVec.ofNat 64 (1 * 2 + 1 * 2 ^ 6 + 1 * 2 ^ 10 + 3 * 2 ^ 22), BitVec.ofNat 64 ((16 + 4) * 2 + 2 * 2 ^ 10 + 3 * 2 ^ 22), BitVec.ofNat 64 (1 + 12 * 2 ^ 34), 1] }
    (features tScratch) (2 ^ 4) = 12 := by decide +kernel

/-- A device that fails in beats 8 to 15 corrupts the symbols 32 to 39, which the decoder corrects (the example after R431). -/
theorem test_device_failure : deviceOf 37 = 0 ∧
    rsDecode none (List.replicate 32 0 ++ [1, 2, 3, 4, 5, 6, 7, 8] ++ List.replicate 40 0) =
      .corrected (List.replicate 64 0) [32, 33, 34, 35, 36, 37, 38, 39] := by decide +kernel

/-- The first update of the worked example after R578: F −844 422 000 and r −14 355 222 000. -/
theorem test_servo : (((st 3).servoTrack false true (6000 * 65536)).tim.f, ((st 3).servoTrack false true (6000 * 65536)).tim.r) =
    (-844422000, -14355222000) := by decide +kernel

/-- The carriage of the worked example after R693: target, and a triangular move of 149.555 ms. -/
theorem test_mark_move : axisTarget { tAxis with scale := 51200000 } 118620000 = 151834 ∧
    (segsNs (profile 40000 0 151834 2000000 20000000 20000000).1 + 500) / 1000 = 149555 := by decide +kernel

/-- The start record of the worked example after R822: a failed DAWN at step 6 with cause 5 after a supply dip. -/
theorem test_start_record :
    ((((((st 0).setFld pwrStartFailMode 1).setFld pwrStartFailStep 6).setFld pwrStartFailCause 5).setFld pwrStartFailLastLoss 2).setFld
      pwrStartFailHoldupDone 1).reg pwrStartFail = 0x000A02B1 := by decide +kernel

/-- The SYS_STATUS of the same example: MORNING, provisioned, a start record, time locked. -/
theorem test_sys_status :
    ((((st 3).setFld hstKeysProvisioned 1).setFld pwrStartFailMode 1).setFld timStatusServo 2).sysStatus = 0x00000463 := by decide +kernel

/-! ### Small steps -/

/-- After reset the module is in MORNING (R816), and an empty queue lets one cycle of 1.6 ns pass (R567). -/
theorem test_reset_mode : State.reset.mode = 3 := by decide +kernel

theorem test_tick : (tick State.reset).clock = 1 ∧ (tick State.reset).tim.tai * 5 = 8 * taiUnit := by decide +kernel

/-- 64 valid sync headers in a row give block lock; 63 and an invalid one do not (R53). -/
theorem test_block_lock :
    (match exec (.blockLock 0 2 (List.replicate 64 2)) (portIn (st 3) 0 6) with | .next t => (t.lane 0 2).locked | _ => false) = true ∧
    (match exec (.blockLock 0 2 (List.replicate 63 2 ++ [3])) (portIn (st 3) 0 6) with | .next t => (t.lane 0 2).locked | _ => true) = false := by
  decide +kernel

/-- The clear bit of the start record clears all three words, whatever they hold (R822). -/
theorem test_start_fail_clear :
    (match exec (.startFailClear 0x00100000) (((st 3).setReg pwrStartFail 0x000A02B1).setReg pwrStartFailTimeLo 7) with
      | .next t => (t.reg pwrStartFail, t.reg pwrStartFailTimeLo) | _ => (1, 1)) = (0, 0) := by decide +kernel

/-- An 8.33 W module stays in low power and is not present (R32). -/
theorem test_low_power :
    (match exec (.qsfpModuleInserted 4 8330 .sr4) (st 3) with | .next t => (t.out, t.fld (zlpStatusPresent 4)) | _ => ([], 9)) =
      ([.cageLow 4 true], 0) := by decide +kernel

/-- A doubled axis value keeps within its field: a bumped counter saturates (R815). -/
theorem test_counter_saturates :
    (((st 3).setReg (zlpCntBadpktF 0).addr 0xFFFFFFFF).bump (zlpCntBadpktF 0) 1).reg (zlpCntBadpktF 0).addr = 0xFFFFFFFF := by decide +kernel

/-! ### Commands that are not well formed -/

theorem test_wf_headers : (Instr.blockLock 0 0 []).wf = false ∧ (Instr.blockLockLost 0 0 [1]).wf = false ∧
    (Instr.blockLock 0 0 (List.replicate 64 1)).wf = true := by decide
theorem test_wf_align : (Instr.align 0 0 (some [1]) 0).wf = false ∧ (Instr.status 0 0 []).wf = false := by decide
theorem test_wf_packet : (Instr.line 0 ⟨[], [], [], none, false⟩).wf = false ∧ (Instr.ctrlAcknowledgement 0 ⟨[], [], [], none, false⟩).wf = false ∧
    (Instr.cevt 0 ⟨List.replicate 8 0, [1], List.replicate 8 0, none, false⟩).wf = false ∧ (Instr.cevt 0 (tPkt 7 (List.replicate 8 0))).wf = true := by
  decide +kernel
theorem test_wf_burst : (Instr.codewordRead 0 0 201326592 (List.replicate 80 0) .free).wf = false ∧ (Instr.codewordRead 0 0 0 [] .free).wf = false ∧
    (Instr.migrationBurst 0 []).wf = false := by decide
theorem test_wf_temperatures : (Instr.dramTemperatureRead []).wf = false ∧ (Instr.dramTemperatureRead (List.replicate 16 [])).wf = false := by decide
theorem test_wf_descriptors : (Instr.descriptorFetch 0 [[]]).wf = false ∧ (Instr.descriptorFetch 0 (List.replicate 33 (List.replicate 128 0))).wf = false ∧
    (Instr.descriptorRefetch 0 []).wf = false := by decide +kernel
theorem test_wf_neighbours : (Instr.neighbourSolicitation 0 []).wf = false ∧ (Instr.arpRequest 0 []).wf = false := by decide
theorem test_wf_management : [Instr.hello (tFrame []), .read (tFrame []), .write (tFrame []), .openSession (tFrame []), .closeSession (tFrame []),
    .doorbell (tFrame []), .restartRings (tFrame []), .provision (tFrame []), .keySet (tFrame []), .keyClear (tFrame []),
    .mgmtUnusedType (tFrame [])].all (fun c => !c.wf) = true ∧ (Instr.hello (tAnon 1 [])).wf = true := by decide +kernel
theorem test_wf_frames : (Instr.ensign 0 []).wf = false ∧ (Instr.bridgedFrame 0 8 (List.replicate 14 0)).wf = false ∧
    (Instr.bridgedFrame 0 0 []).wf = false := by decide

end Sys2Proof.Tests
end

/-! The module after reset (R17, R746): no register is listed, so each reads its cold word. -/

namespace Sys2Proof.Reset

open Sys2Proof.Machine Sys2Proof.Safety

@[simp] theorem reg_reset (a : Nat) : State.reset.reg a = coldWord a := rfl

/-- A field after reset is the slice of its register's cold word. -/
theorem fld_reset (f : Fld) : State.reset.fld f = getBits (coldWord f.addr) f.lo f.width := by
  rw [State.fld, reg_reset]

/-- PWR_MODE.MODE and PREVIOUS are MORNING and DAWN, TARGET is none (R816). -/
theorem coldWord_pwrMode : coldWord pwrMode = 0x1CB := by decide

/-- HSS_SESSION starts clear: the session is closed and not resumable (R561). -/
theorem coldWord_hssSession (n : SessId) : coldWord (hssSession n) = 0 := by
  revert n; decide

theorem mode_reset : State.reset.mode = 3 := by
  rw [State.mode, fld_reset, coldWord_pwrMode]; rfl

theorem isOpen_reset (n : SessId) : State.reset.isOpen n = false := by
  rw [State.isOpen, fld_reset, coldWord_hssSession]; rfl

theorem regsCanonical_reset : RegsCanonical State.reset :=
  (tblWf_iff coldWord []).2 ⟨.nil, by simp⟩

/-- Settles O3: the register table is empty, so mode and sessions are read off the cold words of PWR_MODE
and HSS_SESSION, and the table is canonical. -/
theorem resetState : Obligations.ResetState :=
  ⟨mode_reset, rfl, rfl, reg_reset, isOpen_reset, regsCanonical_reset⟩

end Sys2Proof.Reset

/-! Camera ports and their lanes (02_camera_lanes.md): the lane choice of R47, bring-up, block lock, sleep and resume,
the packets of a linked camera and the descriptors on cameras. One equation per command and case, from which the
statements are put together. -/

namespace Sys2Proof.CameraLanes

open Sys2Proof.Machine Sys2Proof.Safety

/-! ### Lanes and rate of a port (R47) -/

/-- The choice of R47 between the best count so far and the next count. -/
def pickLanes (x : PortSt) (best : Option (Nat × Nat)) (n : Nat) : Option (Nat × Nat) :=
  match best, rateOver x n with
  | some b, some r => if b.1 * baudOf b.2 ≤ n * baudOf r then some (n, r) else some b
  | none, some r => some (n, r)
  | b, none => b

/-- The lane counts that a port may choose from, in rising order. -/
def laneCounts (x : PortSt) : List Nat := [1, 2, 4, 8].filter (fun n => decide (n ≤ x.declared))

theorem chooseLanes_eq_foldl (x : PortSt) : chooseLanes x = (laneCounts x).foldl (pickLanes x) none := rfl

theorem mem_laneCounts {x : PortSt} {n : Nat} : n ∈ laneCounts x ↔ n ∈ [1, 2, 4, 8] ∧ n ≤ x.declared := by
  simp only [laneCounts, List.mem_filter, decide_eq_true_eq]

theorem laneCounts_rising (x : PortSt) : (laneCounts x).Pairwise (· ≤ ·) :=
  List.Pairwise.filter _ (by decide : [1, 2, 4, 8].Pairwise (· ≤ ·))

/-- `best` is the choice of R47 among the counts `ns`. -/
def IsBest (x : PortSt) (ns : List Nat) (best : Option (Nat × Nat)) : Prop :=
  (∀ n r, best = some (n, r) → n ∈ ns ∧ rateOver x n = some r ∧
    ∀ m q, m ∈ ns → rateOver x m = some q → m * baudOf q ≤ n * baudOf r ∧ (m * baudOf q = n * baudOf r → m ≤ n)) ∧
  (best = none → ∀ m ∈ ns, rateOver x m = none)

/-- A count with no rate over its lanes changes no choice. -/
theorem IsBest.append_noRate {x : PortSt} {ns : List Nat} {best : Option (Nat × Nat)} {k : Nat} (h : IsBest x ns best)
    (hk : rateOver x k = none) : IsBest x (ns ++ [k]) best := by
  obtain ⟨hsome, hnone⟩ := h
  refine ⟨fun n r hb => ?_, fun hb m hm => ?_⟩
  · obtain ⟨hn, hr, hbest⟩ := hsome n r hb
    refine ⟨List.mem_append_left _ hn, hr, fun m q hm hq => ?_⟩
    rcases List.mem_append.mp hm with hm | hm
    · exact hbest m q hm hq
    · rw [List.mem_singleton.mp hm, hk] at hq; cases hq
  · rcases List.mem_append.mp hm with hm | hm
    · exact hnone hb m hm
    · rw [List.mem_singleton.mp hm, hk]

/-- A count that is the largest so far and reaches the products of all before it is the choice. -/
theorem isBest_append_self {x : PortSt} {ns : List Nat} {k r : Nat} (hk : rateOver x k = some r) (hle : ∀ m ∈ ns, m ≤ k)
    (hbaud : ∀ m q, m ∈ ns → rateOver x m = some q → m * baudOf q ≤ k * baudOf r) : IsBest x (ns ++ [k]) (some (k, r)) := by
  refine ⟨?_, nofun⟩
  rintro _ _ ⟨⟩
  refine ⟨List.mem_append_right _ (List.mem_singleton.mpr rfl), hk, fun m q hm hq => ?_⟩
  rcases List.mem_append.mp hm with hm | hm
  · exact ⟨hbaud m q hm hq, fun _ => hle m hm⟩
  · obtain rfl := List.mem_singleton.mp hm
    rw [hk, Option.some.injEq] at hq
    subst hq
    exact ⟨Nat.le_refl _, fun _ => Nat.le_refl _⟩

/-- A choice whose product exceeds that of the next count stays. -/
theorem IsBest.append_smaller {x : PortSt} {ns : List Nat} {n r k q : Nat} (h : IsBest x ns (some (n, r)))
    (hk : rateOver x k = some q) (hlt : k * baudOf q < n * baudOf r) : IsBest x (ns ++ [k]) (some (n, r)) := by
  obtain ⟨hn, hr, hbest⟩ := h.1 n r rfl
  refine ⟨?_, nofun⟩
  rintro _ _ ⟨⟩
  refine ⟨List.mem_append_left _ hn, hr, fun m q' hm hq => ?_⟩
  rcases List.mem_append.mp hm with hm | hm
  · exact hbest m q' hm hq
  · obtain rfl := List.mem_singleton.mp hm
    rw [hk, Option.some.injEq] at hq
    subst hq
    exact ⟨Nat.le_of_lt hlt, fun heq => absurd heq (Nat.ne_of_lt hlt)⟩

/-- One choice of R47 keeps the best count over a rising list. -/
theorem isBest_pickLanes {x : PortSt} {ns : List Nat} {best : Option (Nat × Nat)} {k : Nat} (h : IsBest x ns best)
    (hle : ∀ m ∈ ns, m ≤ k) : IsBest x (ns ++ [k]) (pickLanes x best k) := by
  cases hk : rateOver x k with
  | none =>
    have hpick : pickLanes x best k = best := by cases best <;> simp only [pickLanes, hk]
    rw [hpick]
    exact h.append_noRate hk
  | some q =>
    rcases best with _ | ⟨n, r⟩
    · have hpick : pickLanes x none k = some (k, q) := by simp only [pickLanes, hk]
      rw [hpick]
      exact isBest_append_self hk hle (fun m q' hm hq => by rw [h.2 rfl m hm] at hq; cases hq)
    · have hpick : pickLanes x (some (n, r)) k = if n * baudOf r ≤ k * baudOf q then some (k, q) else some (n, r) := by
        simp only [pickLanes, hk]
      rw [hpick]
      split
      case isTrue hge =>
        exact isBest_append_self hk hle
          (fun m q' hm hq => Nat.le_trans ((h.1 n r rfl).2.2 m q' hm hq).1 hge)
      case isFalse hlt => exact h.append_smaller hk (Nat.lt_of_not_le hlt)

/-- Choosing through a rising list of counts ends with the best of them. -/
theorem isBest_foldl_pickLanes (x : PortSt) (ns : List Nat) (h : ns.Pairwise (· ≤ ·)) :
    IsBest x ns (ns.foldl (pickLanes x) none) := by
  induction ns using List.reverseRecOn with
  | nil => exact ⟨nofun, fun _ => nofun⟩
  | append_singleton ns k ih =>
    obtain ⟨hns, -, hle⟩ := List.pairwise_append.mp h
    rw [List.foldl_append]
    exact isBest_pickLanes (ih hns) (fun m hm => hle m hm k (List.mem_singleton.mpr rfl))

theorem isBest_chooseLanes (x : PortSt) : IsBest x (laneCounts x) (chooseLanes x) := by
  rw [chooseLanes_eq_foldl]
  exact isBest_foldl_pickLanes x _ (laneCounts_rising x)

/-- Settles O54: the fold of `chooseLanes` keeps the best of the counts it has seen. -/
theorem laneChoice : Obligations.LaneChoice := by
  refine ⟨fun x n r h => ?_, fun x m h hm hd => (isBest_chooseLanes x).2 h m (mem_laneCounts.mpr ⟨hm, hd⟩)⟩
  obtain ⟨hn, hr, hbest⟩ := (isBest_chooseLanes x).1 n r h
  obtain ⟨hin, hd⟩ := mem_laneCounts.mp hn
  exact ⟨hin, hd, hr, fun m q hm hmd => hbest m q (mem_laneCounts.mpr ⟨hm, hmd⟩)⟩

/-! ### Ports and lanes of a state -/

@[simp] theorem port_modPort_self (s : State) (p : Nat) (f : PortSt → PortSt) : (s.modPort p f).port p = f (s.port p) :=
  port_setPort_self s p _

@[simp] theorem lane_setLane_self (s : State) (p l : Nat) (v : LaneSt) : (s.setLane p l v).lane p l = v := by
  rw [State.lane, State.setLane, port_modPort_self, PortSt.lane, tblGet_tblSet_self]

/-- A port that enters DISCOVER has its lanes as at reset. -/
@[simp] theorem lane_discover (s : State) (p l : Nat) : (s.discover p).lane p l = initLane := by
  rw [State.lane, State.discover, port_modPort_self]
  rfl

@[simp] theorem lane_linkLost (s : State) (p l : Nat) : (s.linkLost p).lane p l = initLane := lane_discover _ p l

/-- What losing lock does: LINK_LOST from LINKED, DISCOVER from RESUME, nothing else in LOCK (R57, R94). -/
theorem lockLost_cases (s : State) (p : Nat) :
    s.lockLost p = s.linkLost p ∨ s.lockLost p = s.discover p ∨ s.lockLost p = s := by
  simp only [State.lockLost]
  split
  · exact .inl rfl
  · split
    · exact .inr (.inl rfl)
    · exact .inr (.inr rfl)

/-- Losing lock gives no lane block lock. -/
theorem locked_lockLost {s : State} {p l : Nat} (h : (s.lane p l).locked = false) : ((s.lockLost p).lane p l).locked = false := by
  rcases lockLost_cases s p with hs | hs | hs <;> rw [hs]
  · rw [lane_linkLost]; rfl
  · rw [lane_discover]; rfl
  · exact h

/-! ### DISCOVER (R36, R44, R50) -/

theorem execSignalDetect_down {p : PortId} {s : State} (hu : s.portUsable p = true) (hst : s.fld (zlpStatusState p) = 0)
    (hw : (s.port p).wait = .none) (ha : (s.port p).asleep = false) : execSignalDetect p s = .next (s.discover p) :=
  if_pos ⟨hu, hst, hw, ha⟩

theorem execDscInterval_discover {p : PortId} {s : State} (hst : s.fld (zlpStatusState p) = 1) :
    execDscInterval p s = .next ((s.emit (.orderedSet p 0 2 2 (s.port p).dscSeq)).modPort p
      (fun x => { x with dscSeq := ((s.port p).dscSeq + 1) % 256 })) :=
  if_pos hst

/-- A DSC of another role starts the count of consecutive DSC again. -/
theorem execDsc_otherRole {p : PortId} {role seq : Byte} {s : State} (hst : s.fld (zlpStatusState p) = 1) (hr : role ≠ 1) :
    execDsc p role seq s = .next (s.modPort p (fun x => { x with dscSeen := 0 })) := by
  rw [execDsc, if_neg (not_not_intro hst), if_pos hr]

/-- A DSC of the camera's role is counted, and the third in a row ends DISCOVER. -/
theorem execDsc_camera {p : PortId} {seq : Byte} {s : State} (hst : s.fld (zlpStatusState p) = 1) :
    execDsc p 1 seq s = .next (if 3 ≤ (s.port p).dscSeen + 1 then
      (s.modPort p (fun x => { x with dscSeen := (s.port p).dscSeen + 1 })).setFld (zlpStatusState p) 2
      else s.modPort p (fun x => { x with dscSeen := (s.port p).dscSeen + 1 })) := by
  rw [execDsc, if_neg (not_not_intro hst), if_neg (not_not_intro rfl)]

theorem execDiscoverRetry_waiting {p : PortId} {s : State} (hw : (s.port p).wait = .retry) :
    execDiscoverRetry p s = .next (s.discover p) := by
  rw [execDiscoverRetry, if_pos hw]

theorem execBringupTimeout_bringup {p : PortId} {s : State} (h1 : 1 ≤ s.fld (zlpStatusState p)) (h5 : s.fld (zlpStatusState p) ≤ 5) :
    execBringupTimeout p s = .next ((((s.bump (zlpCntBringupF p) 1).discover p).setFld (zlpStatusState p) 0).modPort p
      (fun x => { x with wait := .retry })) :=
  if_pos ⟨h1, h5⟩

/-- Settles O10, a clause per command; the third DSC is `execDsc_camera` at two seen before. -/
theorem portDiscovery : Obligations.PortDiscovery := by
  refine ⟨fun p s => execSignalDetect_down, fun p s => execDscInterval_discover, fun p seq s hst hn => ?_, fun p seq s hst hn => ?_,
    fun p role seq s => execDsc_otherRole (seq := seq), fun p s => execDiscoverRetry_waiting, fun p s => execBringupTimeout_bringup⟩
  · exact (execDsc_camera (seq := seq) hst).trans (by rw [if_pos (by omega)])
  · exact (execDsc_camera (seq := seq) hst).trans (by rw [if_neg (by omega)])

/-! ### Exchange of records (R37, R39, R41, R44) -/

/-- The state that has acknowledged a capability record and holds it in the capability registers (R102). -/
def capHeld (s : State) (p : PortId) (seq : Byte) (b : List Byte) : State :=
  (List.range 16).foldl (fun s i => s.setFld (zlpCapabilityF p i) (leAt b (4 * i) 4)) (s.emit (.orderedSet p 0 3 1 seq.toNat))

theorem execCapabilityRecord_accepted {p : PortId} {seq : Byte} {b : List Byte} {s : State} (hst : s.fld (zlpStatusState p) = 2)
    (hok : capOk b = true) :
    execCapabilityRecord p 1 seq b s = .next ((((capHeld s p seq b).modPort p (fun x =>
      { x with agreed := agreedRate (beAt b 2 2) ((capHeld s p seq b).fld (zlpCtrlMaxRate p)),
               declared := (capHeld s p seq b).selectLanes p b, recSeq := (x.recSeq + 1) % 256, recSends := 1 })).setFld
        (zlpStatusState p) 3).sendSelect p) := by
  simp [execCapabilityRecord, hst, hok, capHeld]

theorem execCapabilityRecord_refused {p : PortId} {seq : Byte} {b : List Byte} {s : State} (hst : s.fld (zlpStatusState p) = 2)
    (hok : capOk b = false) (hn : (s.port p).recSends < 7) :
    execCapabilityRecord p 1 seq b s = .next ((s.emit (.orderedSet p 0 4 1 seq.toNat)).modPort p
      (fun x => { x with recSends := (s.port p).recSends + 1 })) := by
  have hlast : ¬ 8 ≤ (s.port p).recSends + 1 := by omega
  simp [execCapabilityRecord, hst, hok, hlast]

theorem resendSelect_again {s : State} {p : Nat} (h : (s.port p).recSends < 8) :
    s.resendSelect p = (s.modPort p (fun x => { x with recSends := x.recSends + 1 })).sendSelect p :=
  if_neg (Nat.not_le.mpr h)

theorem resendSelect_last {s : State} {p : Nat} (h : 8 ≤ (s.port p).recSends) : s.resendSelect p = s.discover p := if_pos h

theorem execAck_select {p : PortId} {seq : Byte} {s : State} (hst : s.fld (zlpStatusState p) = 3)
    (hseq : seq.toNat = (s.port p).recSeq) : execAck p 2 seq s = .next (s.stepUp p) := by
  rw [execAck, if_pos ⟨hst, rfl, hseq⟩]

theorem execNak_select {p : PortId} {seq : Byte} {s : State} (hst : s.fld (zlpStatusState p) = 3)
    (hseq : seq.toNat = (s.port p).recSeq) : execNak p 2 seq s = .next (s.resendSelect p) := by
  rw [execNak, if_pos ⟨hst, rfl, hseq⟩]

theorem execRecordTimeout_select {p : PortId} {s : State} (hst : s.fld (zlpStatusState p) = 3) :
    execRecordTimeout p s = .next (s.resendSelect p) := by
  rw [execRecordTimeout, if_pos hst]

/-- Settles O11: NAK and the timeout both send SELECT again, by `resendSelect_again` and `resendSelect_last`. -/
theorem portRecords : Obligations.PortRecords := by
  refine ⟨fun p seq b s hst hok => ⟨capHeld s p seq b, _, _, _, rfl, rfl, rfl, rfl, execCapabilityRecord_accepted hst hok⟩,
    fun p seq b s => execCapabilityRecord_refused, fun p seq s => execAck_select, fun p seq s hst hseq hn => ?_,
    fun p s hst hn => ?_, fun p s hst hn => ?_⟩
  · exact (execNak_select hst hseq).trans (by rw [resendSelect_again hn])
  · exact (execRecordTimeout_select hst).trans (by rw [resendSelect_again hn])
  · exact (execRecordTimeout_select hst).trans (by rw [resendSelect_last hn])

/-! ### The rate step of a lane (R42, R43, R45, R46) -/

theorem execStepAck_stepSent {p : PortId} {rate lane : Byte} {s : State} (hst : s.fld (zlpStatusState p) = 4)
    (hph : (s.lane p lane.toNat).phase = .stepSent) (hr : rate.toNat = (s.lane p lane.toNat).target) :
    execStepAck p rate lane s = .next (s.setLane p lane.toNat { s.lane p lane.toNat with phase := .waitSwitch }) :=
  congrArg _ (if_pos ⟨hst, hph, hr⟩)

theorem execLaneRateSwitch_waitSwitch {p : PortId} {l : LaneId} {s : State} (hst : s.fld (zlpStatusState p) = 4)
    (hph : (s.lane p l).phase = .waitSwitch) :
    execLaneRateSwitch p l s = .next ((s.setLane p l { s.lane p l with phase := .adapting, rate := (s.lane p l).target }).emit
      (.train p l (s.lane p l).target)) :=
  congrArg _ (if_pos ⟨hst, hph⟩)

theorem execAdaptationDone_adapting {p : PortId} {l : LaneId} {eye : Eye} {s : State} (hst : s.fld (zlpStatusState p) = 4)
    (hph : (s.lane p l).phase = .adapting) :
    execAdaptationDone p l eye s = .next ((((s.setLane p l { s.lane p l with own := some (fomOf eye), phase := .waitResult }).setFld
      (fomFld p l) (fomOf eye)).emit (.orderedSet p l 7 (fomOf eye) l)).judgeStep p l) :=
  if_pos ⟨hst, hph⟩

theorem execResult_waitResult {p : PortId} {fom lane : Byte} {s : State} (hst : s.fld (zlpStatusState p) = 4)
    (hph : (s.lane p lane.toNat).phase = .waitResult) :
    execResult p fom lane s =
      .next ((s.setLane p lane.toNat { s.lane p lane.toNat with peer := some fom.toNat }).judgeStep p lane.toNat) :=
  if_pos ⟨hst, .inr hph⟩

theorem execResultTimeout_waitResult {p : PortId} {l : LaneId} {s : State} (hst : s.fld (zlpStatusState p) = 4)
    (hph : (s.lane p l).phase = .waitResult) : execResultTimeout p l s = .next (s.stepFails p l (s.lane p l)) :=
  congrArg _ (if_pos ⟨hst, .inr hph⟩)

/-- Settles O12, a clause per phase of the lane. -/
theorem portStepUp : Obligations.PortStepUp :=
  ⟨fun _ _ _ _ => execStepAck_stepSent, fun _ _ _ => execLaneRateSwitch_waitSwitch, fun _ _ _ _ => execAdaptationDone_adapting,
    fun _ _ _ _ => execResult_waitResult, fun _ _ _ => execResultTimeout_waitResult⟩

/-! ### Switch, block lock and alignment (R44, R52 to R57, R94) -/

theorem execSwitch_echo {p : PortId} {rate lanes : Byte} {s : State} (hst : s.fld (zlpStatusState p) = 5)
    (hw : (s.port p).wait = .switchEcho) (hr : rate.toNat = s.fld (zlpStatusRate p)) (hl : lanes.toNat = s.fld (zlpStatusLanes p)) :
    execSwitch p rate lanes s = .next (s.modPort p (fun x => { x with wait := .codeSwitch })) := by
  rw [execSwitch, if_pos ⟨hst, hw, hr, hl⟩]

/-- Every lane as it stands when the line code changes: without lock or marker (R44). -/
def lanesCleared (s : State) (p : PortId) : State :=
  (List.range 8).foldl (fun s l =>
    s.setLane p l { s.lane p l with locked := false, goodMarks := 0, badMarks := 0, mark := none }) s

theorem execLineCodeSwitch_codeSwitch {p : PortId} {s : State} (hst : s.fld (zlpStatusState p) = 5)
    (hw : (s.port p).wait = .codeSwitch) :
    execLineCodeSwitch p s = .next (((lanesCleared s p).modPort p (fun x => { x with wait := .lock })).setDegraded p) :=
  if_pos ⟨hst, hw⟩

theorem execLockTimeout_lock {p : PortId} {s : State} (hst : s.fld (zlpStatusState p) = 5) (hw : (s.port p).wait = .lock) :
    execLockTimeout p s = .next (s.discover p) := by
  rw [execLockTimeout, if_pos ⟨hst, hw⟩]

theorem execBlockLock_valid {p : PortId} {l : LaneId} {hs : List (BitVec 2)} {s : State} (hb : s.blocksRun p = true)
    (hlen : hs.length = 64) (hok : hs.all headerOk = true) :
    execBlockLock p l hs s = .next (s.setLane p l { s.lane p l with locked := true }) := by
  have hwindow : (hs.drop (hs.length - 64)).all headerOk = true := by rw [hlen]; exact hok
  rw [execBlockLock, if_pos (by rw [hb, hwindow, hlen]; rfl)]

theorem execBlockLockLost_invalid {p : PortId} {l : LaneId} {hs : List (BitVec 2)} {s : State} (hb : s.blocksRun p = true)
    (hlk : (s.lane p l).locked = true) (hlen : hs.length = 64) (hbad : 16 ≤ (hs.filter (fun h => !headerOk h)).length) :
    execBlockLockLost p l hs s = .next ((s.setLane p l { s.lane p l with locked := false }).lockLost p) := by
  have hwindow : hs.take 64 = hs := List.take_of_length_le (Nat.le_of_eq hlen)
  simp only [execBlockLockLost, hwindow, hb, hlk, hbad, decide_true, Bool.and_true, if_true]

/-- A marker that leaves fewer than four bad ones in a row and aligns the lanes in LOCK links the port. -/
theorem execAlign_links {p : PortId} {l : LaneId} {block : Option (List Byte)} {at_ : Nat} {s t : State} (hb : s.blocksRun p = true)
    (hl : l.val < s.fld (zlpStatusLanes p)) (hst : s.fld (zlpStatusState p) = 5) (ht : t = s.takeMark p l block at_)
    (hbad : (t.lane p l).badMarks < 4) (hal : t.aligned p 3 = true) :
    execAlign p l block at_ s = .next ((t.modPort p (fun x => { x with deskew := t.deskewNow p })).linkUp p) := by
  subst ht
  simp only [execAlign, hb, hl, hst, hal, Nat.not_le.mpr hbad, decide_true, Bool.not_true, Bool.or_self, Bool.false_eq_true,
    and_self, if_false, if_true]

theorem execAlign_fourBad {p : PortId} {l : LaneId} {block : Option (List Byte)} {at_ : Nat} {s t : State} (hb : s.blocksRun p = true)
    (hl : l.val < s.fld (zlpStatusLanes p)) (ht : t = s.takeMark p l block at_) (hbad : 4 ≤ (t.lane p l).badMarks) :
    execAlign p l block at_ s = .next (t.lockLost p) := by
  subst ht
  simp only [execAlign, hb, hl, hbad, decide_true, Bool.not_true, Bool.or_self, Bool.false_eq_true, if_false, if_true]

/-- Settles O13, a clause per command. -/
theorem portLock : Obligations.PortLock :=
  ⟨fun _ _ _ _ => execSwitch_echo, fun p s hst hw => ⟨lanesCleared s p, execLineCodeSwitch_codeSwitch hst hw, rfl⟩,
    fun _ _ => execLockTimeout_lock, fun _ _ _ _ => execBlockLock_valid, fun _ _ _ _ => execBlockLockLost_invalid,
    fun _ _ _ _ _ _ => execAlign_links, fun _ _ _ _ _ _ => execAlign_fourBad⟩

/-- Settles O55: the lane is set locked, or set unlocked before the loss of lock, which locks no lane. -/
theorem blockLockRule : Obligations.BlockLockRule := by
  refine ⟨fun p l hs s hb hlen hok => ⟨_, execBlockLock_valid hb hlen hok, ?_⟩,
    fun p l hs s hb hlk hlen hbad => ⟨_, execBlockLockLost_invalid hb hlk hlen hbad, locked_lockLost ?_⟩⟩
  all_goals rw [lane_setLane_self]

/-! ### STATUS, sleep, resume and maintenance (R90, R91, R93, R98, R100, R103) -/

theorem execStatus_valid {p : PortId} {l : LaneId} {b : List Byte} {s : State} (hb : s.blocksRun p = true) (hlen : b.length = 8)
    (hty : leAt b 0 1 = 0x96) (hcrc : crc8 (slice b 1 6) = b.getD 7 0) :
    execStatus p l b s = .next (((s.setFld (camFomFld p l) (leAt b 1 1)).setLane p l
      { s.lane p l with camFom := some (leAt b 1 1) }).resumeJudge p) :=
  if_pos (by rw [hb, decide_eq_true hlen, decide_eq_true hty, decide_eq_true hcrc]; rfl)

theorem execPhyIdleTimeout_noon {p : PortId} {cm : CamPlan} {s : State} (hcm : s.camPlan p = some cm) (htr : cm.trigSource = 0)
    (hl : s.linked p = true) (hm : s.mode = 4) : execPhyIdleTimeout p s = .next (s.phySleep p) := by
  simp only [execPhyIdleTimeout, hcm]
  rw [if_pos ⟨htr, hl, .inr hm⟩]

theorem execPhyWake_asleep {p : PortId} {s : State} (ha : (s.port p).asleep = true) (hm : s.mode ≠ 0) :
    execPhyWake p s = .next (s.phyResume p .wake) := by
  rw [execPhyWake, if_pos ⟨ha, hm⟩]

theorem execPhyWakeTimeout_wake {p : PortId} {s : State} (hst : s.fld (zlpStatusState p) = 8) (hw : (s.port p).wait = .wake) :
    execPhyWakeTimeout p s = .next (s.discover p) := by
  rw [execPhyWakeTimeout, if_pos ⟨hst, .inl hw⟩]

theorem execWarmResumeAdaptDone_warmAdapt {p : PortId} {eyes : List Eye} {s : State} (hst : s.fld (zlpStatusState p) = 8)
    (hw : (s.port p).wait = .warmAdapt) :
    execWarmResumeAdaptDone p eyes s = .next ((((s.activeLanes p).foldl (fun s l => s.setFld (fomFld p l)
      (fomOf (eyes.getD l ⟨0, 0⟩))) s).modPort p (fun x => { x with wait := .warmStatus })).resumeJudge p) :=
  if_pos ⟨hst, hw⟩

theorem execWarmStatusTimeout_warmStatus {p : PortId} {s : State} (hst : s.fld (zlpStatusState p) = 8)
    (hw : (s.port p).wait = .warmStatus) : execWarmStatusTimeout p s = .next (s.discover p) := by
  rw [execWarmStatusTimeout, if_pos ⟨hst, .inl hw⟩]

/-- One lane below 64, own or the camera's figure, is enough for FOM_LOW. -/
theorem execFomLow_lane {p : PortId} {l : Nat} {s : State} (hl : s.linked p = true) (hmem : l ∈ s.activeLanes p)
    (hlow : s.fld (fomFld p l) < 64 ∨ s.fld (camFomFld p l) < 64) : execFomLow p s = .next (s.fire (8 * p + 5)) := by
  have hany : (s.activeLanes p).any (fun l => decide (s.fld (fomFld p l) < 64 ∨ s.fld (camFomFld p l) < 64)) = true :=
    List.any_eq_true.mpr ⟨l, hmem, decide_eq_true hlow⟩
  simp only [execFomLow, hl, hany, Bool.and_self, State.fireIf, if_true]

theorem execRediscover_linked {p : PortId} {s : State} (hu : s.portUsable p = true) (hl : s.linked p = true) :
    execRediscover p s = .next (s.linkLost p) := by
  simp only [execRediscover, State.rediscover, hu, hl, Bool.not_true, Bool.false_eq_true, if_false, if_true]

/-- Leaving LINKED for STEP_UP keeps the active lanes: STATE and LANES are fields apart. -/
theorem activeLanes_setState (s : State) (p v : Nat) (f : PortSt → PortSt) :
    ((s.setFld (zlpStatusState p) v).modPort p f).activeLanes p = s.activeLanes p :=
  congrArg List.range (fld_setFld_bits s (zlpStatusState p) (zlpStatusLanes p) v
    (by decide : 0 + 4 ≤ 32) (.inr (by decide : 0 + 4 ≤ 8)))

theorem execAdapt_linked {p : PortId} {s : State} (hm : s.mode = 3 ∨ s.mode = 7) (hl : s.linked p = true) :
    execAdapt p s = .next ((s.activeLanes p).foldl (fun (s : State) (l : Nat) => s.adaptLane p l)
      ((s.setFld (zlpStatusState p) 4).modPort p (fun x => { x with agreed := (s.fld (zlpStatusRate p)) }))) := by
  rw [execAdapt, State.readapt, if_pos ⟨hm, hl⟩]
  simp only [activeLanes_setState]

/-- Settles O14, a clause per command. -/
theorem portSleepResume : Obligations.PortSleepResume :=
  ⟨fun _ _ _ _ => execStatus_valid, fun _ _ _ => execPhyIdleTimeout_noon, fun _ _ => execPhyWake_asleep,
    fun _ _ => execPhyWakeTimeout_wake, fun _ _ _ => execWarmResumeAdaptDone_warmAdapt, fun _ _ => execWarmStatusTimeout_warmStatus,
    fun _ _ _ => execFomLow_lane, fun _ _ => execRediscover_linked, fun _ _ => execAdapt_linked⟩

/-! ### Packets of a linked camera (R59 to R73, R84, R87, R89) -/

/-- What the checks of a LINE packet make of it (R64, R65). -/
def lineOutcome (p : PortId) (k : Pkt) (cp : CtxPlan) (s : State) : LineCheck → Host.Outcome State Fault Refusal
  | .beyond => .fault (.undefinedBehaviour .lineBeyondDeclared)
  | .good => .next (s.goodLine p p cp k)
  | .damaged h => .next (s.badLine p p cp k h)

/-- A LINE packet with a good start, at a linked port of the plan whose camera is the planned one, goes by its checks. -/
theorem execLine_checked {p : PortId} {k : Pkt} {cp : CtxPlan} {s : State} (hl : s.linked p = true) (hsop : sopOk k = true)
    (hty : pktType k = 1) (hch : s.flag (zlpStatusCameraChanged p) = false) (hcp : s.ctxPlan p = some cp) :
    execLine p k s = lineOutcome p k cp s (checkLine (s.capRecord p) cp k) := by
  simp only [execLine, hl, hsop, hty, hch, hcp, ne_eq, not_true, Bool.not_true, Bool.false_eq_true, or_self, if_false]
  cases checkLine (s.capRecord p) cp k <;> rfl

theorem execLine_badStart {p : PortId} {k : Pkt} {s : State} (hl : s.linked p = true) (hsop : sopOk k = false) :
    execLine p k s = .next (s.bump (zlpCntBadpktF p) 1) := by
  simp only [execLine, hl, hsop, Bool.not_true, Bool.not_false, Bool.false_eq_true, if_false, if_true]

theorem execCtrlAcknowledgement_badStart {p : PortId} {k : Pkt} {s : State} (hl : s.linked p = true) (hsop : sopOk k = false) :
    execCtrlAcknowledgement p k s = .next (s.bump (zlpCntBadpktF p) 1) := by
  simp only [execCtrlAcknowledgement, hl, hsop, Bool.not_true, Bool.not_false, Bool.false_eq_true, if_false, if_true]

theorem execCevt_badStart {p : PortId} {k : Pkt} {s : State} (hl : s.linked p = true) (hsop : sopOk k = false) :
    execCevt p k s = .next (s.bump (zlpCntBadpktF p) 1) := by
  simp only [execCevt, hl, hsop, Bool.not_true, Bool.not_false, Bool.false_eq_true, if_false, if_true]

/-- An acknowledgement that fits the outstanding request with status 0 raises no NOTICE, ends it and sends the next. -/
theorem execCtrlAcknowledgement_fits {p : PortId} {k : Pkt} {r : CtrlReq} {s : State} (hl : s.linked p = true)
    (hsop : sopOk k = true) (hr : (s.port p).ctrl = some r) (hgood : pktGood k 3 = true) (hop : beAt k.body 0 1 = r.op + 128)
    (htag : beAt k.body 1 1 = r.tag) (hwords : beAt k.body 2 2 = r.words) (hst : beAt k.body 4 1 = 0) :
    execCtrlAcknowledgement p k s = .next (((s.modPort p (fun x => { x with ctrl := none })).ctrlDone r 0
      (slice k.body 5 (4 * r.words))).ctrlNext p) := by
  simp only [execCtrlAcknowledgement, hl, hsop, hr, hgood, hop, htag, hwords, hst, Bool.not_true, Bool.false_eq_true, and_self,
    if_false, if_true]

section Cevt

variable {p : PortId} {k : Pkt} {s : State} (hl : s.linked p = true) (hsop : sopOk k = true) (hgood : pktGood k 7 = true)

include hl hsop hgood

theorem execCevt_trigOverrun (hcode : beAt k.body 0 2 = 3) :
    execCevt p k s = .next ((s.bump (zlpCntTrigOverrunF p) 1).forwardCevt p 3 (beAt k.body 2 2) (beAt k.body 4 4)) := by
  simp only [execCevt, hl, hsop, hgood, hcode, Bool.not_true, Bool.false_eq_true, if_false]

theorem execCevt_forwarded (hcode : beAt k.body 0 2 = 4 ∨ beAt k.body 0 2 = 5) :
    execCevt p k s = .next (s.forwardCevt p (beAt k.body 0 2) (beAt k.body 2 2) (beAt k.body 4 4)) := by
  rcases hcode with hcode | hcode <;>
    simp only [execCevt, hl, hsop, hgood, hcode, Bool.not_true, Bool.false_eq_true, if_false]

end Cevt

theorem execTimeTrigger_periodic {p : PortId} {cm : CamPlan} {s : State} (hcm : s.camPlan p = some cm) (htr : cm.trigSource = 1) :
    execTimeTrigger p s = .next (s.lineTrigger p) := by
  simp only [execTimeTrigger, hcm, htr, if_true]

/-- Settles O15: the three LINE clauses are the three checks of `execLine_checked`. -/
theorem cameraLines : Obligations.CameraLines := by
  refine ⟨fun p k cp s hl hsop hty hch hcp hck => ?good, fun p k cp h s hl hsop hty hch hcp hck => ?damaged,
    fun p k cp s hl hsop hty hch hcp hck => ?beyond,
    fun p k s hl hsop => ⟨execLine_badStart hl hsop, execCtrlAcknowledgement_badStart hl hsop, execCevt_badStart hl hsop⟩,
    fun p k r s => execCtrlAcknowledgement_fits, fun p k s => execCevt_trigOverrun, fun p k s => execCevt_forwarded,
    fun p cm s => execTimeTrigger_periodic⟩
  all_goals exact (execLine_checked hl hsop hty hch hcp).trans (by rw [hck]; rfl)

/-! ### Requests that a camera leaves unanswered (R83, R85, R129) -/

theorem execApplyTimeout_again {p : PortId} {a : Apply} {s : State}
    (ha : (s.port p).applies.find? (fun a => !a.accepted) = some a) (hn : a.sends ≤ 3) :
    execApplyTimeout p s = .next ((s.modPort p (fun x => { x with applies := x.applies.map (fun q => if q = a then
      { q with sends := q.sends + 1 } else q) })).sendPkt p 5 a.body) := by
  simp only [execApplyTimeout, ha, hn, if_true]

theorem execApplyTimeout_fails {p : PortId} {a : Apply} {s : State}
    (ha : (s.port p).applies.find? (fun a => !a.accepted) = some a) (hn : 3 < a.sends) :
    execApplyTimeout p s = .next ((s.camNotice p 5).applyFail p a) := by
  simp only [execApplyTimeout, ha, Nat.not_le.mpr hn, if_false]

theorem execCtrlTimeout_again {p : PortId} {r : CtrlReq} {s : State} (hr : (s.port p).ctrl = some r) (hn : r.sends ≤ 3) :
    execCtrlTimeout p s =
      .next ((s.modPort p (fun x => { x with ctrl := some { r with sends := r.sends + 1 } })).sendPkt p 2 r.body) := by
  simp only [execCtrlTimeout, hr, hn, if_true]

theorem execCtrlTimeout_fails {p : PortId} {r : CtrlReq} {s : State} (hr : (s.port p).ctrl = some r) (hn : 3 < r.sends)
    (hhost : r.sess < 4) :
    execCtrlTimeout p s = .next ((((s.modPort p (fun x => { x with ctrl := none })).camNotice p 2).finishDesc r.sess r.desc 13
      (leBytes 1 0)).ctrlNext p) := by
  simp only [execCtrlTimeout, hr, Nat.not_le.mpr hn, hhost, if_false, if_true]

/-- Settles O16, two clauses per timeout: sent again, or failed. -/
theorem cameraTimeouts : Obligations.CameraTimeouts :=
  ⟨fun _ _ _ => execApplyTimeout_again, fun _ _ _ => execApplyTimeout_fails, fun _ _ _ => execCtrlTimeout_again,
    fun _ _ _ => execCtrlTimeout_fails⟩

/-! ### Descriptors on cameras (R84, R127 to R129, R555) -/

/-- A SETTINGS descriptor of form 0 that the state `s` admits: its port is linked, in the plan as `cp`, and has room for an
APPLY. -/
structure SettingsFits (s : State) (d : OutDesc) (cp : CtxPlan) : Prop where
  port : d.par 0x10 1 < 12
  count : d.par 0x11 1 ≤ 32
  form : d.par 0x12 1 = 0
  plan : s.ctxPlan (d.par 0x10 1) = some cp
  linked : s.linked (d.par 0x10 1) = true
  room : (s.port (d.par 0x10 1)).applies.length < 2

theorem settingsEffect_noPairs {n : Nat} {d : OutDesc} {cp : CtxPlan} {s : State} (h : SettingsFits s d cp)
    (hc : d.par 0x11 1 = 0) : settingsEffect n d s = settingsApply n d [] s := by
  simp [settingsEffect, hc, Nat.not_le.mpr h.port, h.form, h.plan, h.linked, Nat.not_le.mpr h.room]

theorem settingsEffect_readsPairs {n : Nat} {d : OutDesc} {cp : CtxPlan} {s : State} (h : SettingsFits s d cp)
    (hc : d.par 0x11 1 ≠ 0) (hr : (s.hostRead (d.par 0x20 8) (8 * d.par 0x11 1) (.pairs d.idx) 6 0).2 = none) :
    settingsEffect n d s = (s.hostRead (d.par 0x20 8) (8 * d.par 0x11 1) (.pairs d.idx) 6 0).1 := by
  simp [settingsEffect, hc, hr, Nat.not_le.mpr h.port, Nat.not_lt.mpr h.count, h.form, h.plan, h.linked, Nat.not_le.mpr h.room]

section CameraCtrl

variable {n : Nat} {d : OutDesc} {s : State} {p w : Nat} (hp : p = d.par 0x10 1) (hw : w = d.par 0x12 2) (hp12 : p < 12)
  (hw1 : 1 ≤ w) (hw64 : w ≤ 64) (hl : s.linked p = true)

include hp hw hp12 hw1 hw64 hl

theorem cameraCtrlEffect_read (hop : d.par 0x11 1 = 1) :
    cameraCtrlEffect n d s = s.ctrlAdd p ⟨1, 0, w, ctrlBody 1 0 w (d.par 0x14 4) [], 0, d.par 0x18 8, n, d.idx⟩ := by
  subst hp hw
  simp [cameraCtrlEffect, hop, hl, Nat.not_le.mpr hp12, Nat.ne_of_gt hw1, Nat.not_lt.mpr hw64]

theorem cameraCtrlEffect_write (hop : d.par 0x11 1 = 2)
    (hr : (s.hostRead (d.par 0x18 8) (4 * w) (.ctrlData d.idx) 6 0).2 = none) :
    cameraCtrlEffect n d s = (s.hostRead (d.par 0x18 8) (4 * w) (.ctrlData d.idx) 6 0).1 := by
  subst hp hw
  simp [cameraCtrlEffect, hop, hl, hr, Nat.not_le.mpr hp12, Nat.ne_of_gt hw1, Nat.not_lt.mpr hw64]

end CameraCtrl

theorem execSettings_ready {n : SessId} {idx : Nat} {d : OutDesc} {s : State} (h : Ready s n idx 0x28 modesMNA d) :
    execSettings n idx s = .next (settingsEffect n d (s.startDesc n idx)) := by
  rw [execSettings, runDesc_ready _ h]

theorem execCameraCtrl_ready {n : SessId} {idx : Nat} {d : OutDesc} {s : State} (h : Ready s n idx 0x29 modesMNAX d) :
    execCameraCtrl n idx s = .next (cameraCtrlEffect n d (s.startDesc n idx)) := by
  rw [execCameraCtrl, runDesc_ready _ h]

/-- Settles O34: a ready descriptor has its effect in the state in which it has started. -/
theorem cameraDescriptors : Obligations.CameraDescriptors := by
  refine ⟨fun n idx d cp s t h ht hp hc hf hcp hl hroom => ?apply, fun n idx d cp s t r h ht hp hc1 hc32 hf hcp hl hroom hr hnone => ?pairs,
    fun n idx d s t p w h ht hp hw hp12 hop hw1 hw64 hl => ?read, fun n idx d s t p w r h ht hp hw hp12 hop hw1 hw64 hl hr hnone => ?write⟩
  all_goals subst ht
  case apply =>
    have hfits : SettingsFits (s.startDesc n idx) d cp := ⟨hp, by omega, hf, hcp, hl, hroom⟩
    exact (execSettings_ready h).trans (by rw [settingsEffect_noPairs hfits hc])
  case pairs =>
    have hfits : SettingsFits (s.startDesc n idx) d cp := ⟨hp, hc32, hf, hcp, hl, hroom⟩
    subst hr
    exact (execSettings_ready h).trans (by rw [settingsEffect_readsPairs hfits (by omega) hnone])
  case read => exact (execCameraCtrl_ready h).trans (by rw [cameraCtrlEffect_read hp hw hp12 hw1 hw64 hl hop])
  case write =>
    subst hr
    exact (execCameraCtrl_ready h).trans (by rw [cameraCtrlEffect_write hp hw hp12 hw1 hw64 hl hop hnone])

end Sys2Proof.CameraLanes

/-! Strips, banks and slices of contexts (03_strips_and_contexts.md): the flush timer, granules of a slice, the end of
a bank's copy, and sleep and wake of a slice. One equation per command and case, from which the statement is put
together. -/

namespace Sys2Proof.ContextStrips

open Sys2Proof.Machine

/-! ### The flush timer (R111) -/

/-- A context that is not memory-borne only rebases when its timer has run out on a held strip: its slice works on the
lines as they come, so none has to wake for a complete strip. -/
theorem execFlushTimer_ownSlice {c : CtxId} {s : State} {cp : CtxPlan} (hms : s.fld (ctxCtrlFlushMs c) ≠ 0)
    (hheld : (s.ctx c).num.held ≠ 0) (hdue : (s.ctx c).num.lastAccept + s.fld (ctxCtrlFlushMs c) * 625000 ≤ s.clock)
    (hcp : (s.rebase c).ctxPlan c = some cp) (hsvc : cp.service ≠ 2) :
    execFlushTimer c s = .next (s.rebase c) := by
  simp only [execFlushTimer, hms, hheld, Nat.not_lt.mpr hdue, or_self, if_false, hcp, hsvc, false_and]

/-! ### Granules of a slice (R118 to R120) -/

section Granules

variable {k : SliceId} {s : State} (ha : (s.slice k).asleep = false) (hl : (s.slice k).lost = false)

include ha hl

theorem execGranuleBoundary_owned {c : Nat} {t : State} (ho : s.granuleOwner k (granuleAt s.frameTick) = some c)
    (ht : t = s.setSlice k { s.slice k with granule := granuleAt s.frameTick, owner := some c }) (hp : t.processing c = true) :
    execGranuleBoundary k s = .next (t.takeStrip c) := by
  have hup : ((s.slice k).asleep || (s.slice k).lost) = false := by rw [ha, hl]; rfl
  simp only [execGranuleBoundary, hup, ho, ← ht, hp, Bool.false_eq_true, if_false, if_true]

theorem execGranuleBoundary_unowned (ho : s.granuleOwner k (granuleAt s.frameTick) = none) :
    execGranuleBoundary k s =
      .next (s.setSlice k { s.slice k with granule := granuleAt s.frameTick, owner := none }) := by
  simp only [execGranuleBoundary, ha, hl, ho, Bool.or_self, Bool.false_eq_true, if_false]

end Granules

/-! ### The copy of a retired bank (R126) -/

/-- With no line in the FIFO, the strip buffer or the slice, and no inspection whose back end could hold an older strip,
nothing waits for the retired bank. -/
theorem execBankCopyDone_drained {c : CtxId} {first : Nat} {s : State} (hret : (s.ctx c).num.retired = some first)
    (hfifo : (s.ctx c).fifo = []) (hfill : (s.ctx c).filling = []) (hcomp : (s.ctx c).complete = [])
    (hread : (s.ctx c).reading = []) (hins : s.inspected c = false) :
    execBankCopyDone c s = .next ((s.setNum c (fun n =>
      { n with retired := none, b0 := n.bank (n.bankNo first), b1 := n.bank (n.bankNo first) })).setFld
        (ctxStatusBankWritable c) 1) := by
  simp only [execBankCopyDone, hret, hfifo, hfill, hcomp, hread, hins, List.any_nil, Bool.or_self, Bool.false_and,
    Bool.false_eq_true, if_false]

/-! ### Sleep and wake of a slice (R135, R136) -/

theorem execSliceIdleTimeout_idle {k : SliceId} {s : State} (ha : (s.slice k).asleep = false) (hl : (s.slice k).lost = false)
    (hdue : (s.slice k).idleSince + 625000 ≤ s.clock) (hidle : ∀ e ∈ s.sliceCtxs k, s.ctxIdle e.1 = true) :
    execSliceIdleTimeout k s =
      .next (((s.setSlice k { s.slice k with asleep := true }).setDomain (13 + k) false).setDomain (17 + k) false) := by
  have hall : (s.sliceCtxs k).all (fun e => s.ctxIdle e.1) = true := List.all_eq_true.mpr hidle
  simp only [execSliceIdleTimeout, ha, hl, hdue, hall, decide_true, Bool.not_true, Bool.or_self, Bool.false_eq_true, if_false]

theorem execSliceWake_asleep {k : SliceId} {s : State} (ha : (s.slice k).asleep = true) (hl : (s.slice k).lost = false) :
    execSliceWake k s = .next (s.sliceUp k) := by
  simp only [execSliceWake, ha, hl, Bool.not_false, Bool.and_self, if_true]

/-- Settles O17, a clause per command and two for a granule, owned or not. -/
theorem contextService : Obligations.ContextService :=
  ⟨fun _ _ _ => execFlushTimer_ownSlice, fun _ _ _ _ ha hl => execGranuleBoundary_owned ha hl,
    fun _ _ => execGranuleBoundary_unowned, fun _ _ _ => execBankCopyDone_drained,
    fun _ _ => execSliceIdleTimeout_idle, fun _ _ => execSliceWake_asleep⟩

end Sys2Proof.ContextStrips

/-! Pixel corrections (04_pixel_corrections.md): the rounding of R144 and R268, which round alike, and the commands that
move a line through the front end, the geometry stage and the labelling. -/

namespace Sys2Proof.PixelPath

open Sys2Proof.Machine

/-! ### Rounding to nearest (R144, R268) -/

/-- The fraction `a / b` rounds up: it lies past the middle between two integers, or in the middle above an odd one. -/
def RoundsUp (a b : Int) : Prop := b < 2 * (a % b) ∨ (2 * (a % b) = b ∧ a / b % 2 = 1)

theorem rdiv_of_roundsUp {a b : Int} (h : RoundsUp a b) : rdiv a b = a / b + 1 := if_pos h

theorem rdiv_of_not_roundsUp {a b : Int} (h : ¬ RoundsUp a b) : rdiv a b = a / b := if_neg h

theorem rdiv_mul_sub_of_roundsUp {a b : Int} (h : RoundsUp a b) : rdiv a b * b - a = b - a % b := by
  rw [rdiv_of_roundsUp h, Int.add_mul, Int.one_mul]
  have hdiv : a / b * b + a % b = a := Int.ediv_mul_add_emod a b
  omega

theorem rdiv_mul_sub_of_not_roundsUp {a b : Int} (h : ¬ RoundsUp a b) : rdiv a b * b - a = -(a % b) := by
  rw [rdiv_of_not_roundsUp h]
  have hdiv : a / b * b + a % b = a := Int.ediv_mul_add_emod a b
  omega

/-- The rounded fraction lies within half of `b`. -/
theorem rdiv_nearest (a : Int) {b : Int} (hb : 0 < b) : 2 * (rdiv a b * b - a) ≤ b ∧ -b ≤ 2 * (rdiv a b * b - a) := by
  have hnonneg : 0 ≤ a % b := Int.emod_nonneg a hb.ne'
  have hlt : a % b < b := Int.emod_lt_of_pos a hb
  by_cases h : RoundsUp a b
  · rw [rdiv_mul_sub_of_roundsUp h]
    rcases h with h | ⟨h, -⟩ <;> omega
  · rw [rdiv_mul_sub_of_not_roundsUp h]
    have hle : 2 * (a % b) ≤ b := Int.not_lt.mp fun hgt => h (.inl hgt)
    omega

/-- In the middle between two integers, an odd quotient rounds up and an even one stays. -/
theorem rdiv_tie_even {a b : Int} (hb : 0 < b) (htie : 2 * (rdiv a b * b - a) = b ∨ 2 * (rdiv a b * b - a) = -b) :
    rdiv a b % 2 = 0 := by
  have hnonneg : 0 ≤ a % b := Int.emod_nonneg a hb.ne'
  have hlt : a % b < b := Int.emod_lt_of_pos a hb
  by_cases h : RoundsUp a b
  · rw [rdiv_mul_sub_of_roundsUp h] at htie
    rw [rdiv_of_roundsUp h]
    rcases h with h | ⟨-, hodd⟩ <;> omega
  · rw [rdiv_mul_sub_of_not_roundsUp h] at htie
    rw [rdiv_of_not_roundsUp h]
    have hmid : 2 * (a % b) = b := by omega
    have heven : ¬ a / b % 2 = 1 := fun hodd => h (.inr ⟨hmid, hodd⟩)
    omega

theorem rnd_zero (v : Int) : rnd v 0 = v := if_pos rfl

/-- The condition of `rnd` compares the remainder with half of the power of two, that of `rdiv` its double with the whole. -/
theorem roundsUp_two_pow_succ (v : Int) (n : Nat) : RoundsUp v (2 ^ (n + 1) : Nat) ↔
    ((2 ^ n : Nat) : Int) < v % (2 ^ (n + 1) : Nat) ∨
      (v % (2 ^ (n + 1) : Nat) = (2 ^ n : Nat) ∧ v / (2 ^ (n + 1) : Nat) % 2 = 1) := by
  have hhalf : ((2 ^ (n + 1) : Nat) : Int) = 2 * (2 ^ n : Nat) := by rw [Nat.pow_succ', Nat.cast_mul, Nat.cast_two]
  unfold RoundsUp
  omega

/-- The shift of R144 rounds as the division of R268 does. -/
theorem rnd_succ (v : Int) (n : Nat) : rnd v (n + 1) = rdiv v (2 ^ (n + 1) : Nat) := by
  have hup := roundsUp_two_pow_succ v n
  by_cases h : RoundsUp v (2 ^ (n + 1) : Nat)
  · rw [rdiv_of_roundsUp h]
    exact (if_neg n.succ_ne_zero).trans (if_pos (hup.mp h))
  · rw [rdiv_of_not_roundsUp h]
    exact (if_neg n.succ_ne_zero).trans (if_neg (mt hup.mpr h))

/-- Settles O53, by the rounded division of R268; a shift by 0 rounds nothing. -/
theorem roundedShift : Obligations.RoundedShift := by
  refine ⟨rnd_zero, fun v s => ?_⟩
  cases s with
  | zero => rw [rnd_zero]; omega
  | succ n =>
    have hpos : (0 : Int) < 2 ^ (n + 1) := Int.pow_pos (by decide)
    rw [rnd_succ, Nat.cast_pow, Nat.cast_two]
    obtain ⟨hle, hge⟩ := rdiv_nearest v hpos
    exact ⟨hle, hge, fun htie _ => rdiv_tie_even hpos htie⟩

/-! ### Lines through the front end, the geometry stage and the labelling -/

/-- The front end runs a sound line of a context in service, unless its flat field is taken (R148, R153). -/
theorem execFrontEndLine_runs {c : CtxId} {cp : CtxPlan} {p : Plan} {ln : CamLine} {s t u : State} (hcp : s.ctxPlan c = some cp)
    (hplan : s.pln.plan = some p) (hproc : s.processing c = true) (hruns : s.sliceRuns c cp.slice = true)
    (hsrc : s.feSource c cp = some (ln, t)) (hln : ln.poisoned = false)
    (hu : u = t.setSlice cp.slice { t.slice cp.slice with idleSince := t.clock }) (hflat : u.flatRun c = none) :
    execFrontEndLine c s = .next (u.feRun c cp p.scale ln) := by
  subst hu
  simp only [execFrontEndLine, hcp, hplan, hproc, hruns, hsrc, hln, hflat, Bool.not_true, Bool.or_self, Bool.false_eq_true,
    if_false]

theorem execOutputLine_emits {c : CtxId} {cp : CtxPlan} {o : OutLine} {e : Bool} {g : GeoSt} {s : State}
    (hcp : s.ctxPlan c = some cp) (hruns : s.backRuns c cp = true) (hemit : geoEmit cp s.pitchY (s.ctx c).geo = some (o, e, g)) :
    execOutputLine c s = .next ((s.setCtx c { s.ctx c with geo := g }).putLine c cp o e) := by
  simp only [execOutputLine, hcp, hruns, hemit, Bool.not_true, Bool.false_eq_true, if_false]

/-- The owner of a band gives its partner up while lines wait for it (R213, R214). -/
theorem execBandDeadline_givesUp {c partner : CtxId} {cp : CtxPlan} {b : Band} {s t : State} (hcp : s.ctxPlan c = some cp)
    (hwait : (s.ctx c).geo.waiting ≠ []) (hb : b ∈ ownedBands cp) (hpartner : b.partner = partner.val)
    (ht : t = s.setCtx c { s.ctx c with geo := { (s.ctx c).geo with gave := partner.val :: (s.ctx c).geo.gave } }) :
    execBandDeadline c partner s = .next (t.flushWaiting c cp ((s.ctx c).geo.waiting.length + 1)) := by
  have hempty : (s.ctx c).geo.waiting.isEmpty = false := List.isEmpty_eq_false_iff.mpr hwait
  have hany : (ownedBands cp).any (fun b => decide (b.partner = partner.val)) = true :=
    List.any_eq_true.mpr ⟨b, hb, decide_eq_true hpartner⟩
  simp only [execBandDeadline, hcp, hempty, hany, ← ht, Bool.not_true, Bool.or_self, Bool.false_eq_true, if_false]

theorem execLabelLine_takes {c : CtxId} {cp : CtxPlan} {o : OutLine} {rest : List OutLine} {s : State}
    (hcp : s.ctxPlan c = some cp) (hq : (s.ctx c).segq = o :: rest) (hins : s.inspected c = true)
    (hawake : (s.slice cp.slice).asleep = false) :
    execLabelLine c s = .next ((s.setCtx c { s.ctx c with segq := rest }).labelOne c cp o) := by
  simp only [execLabelLine, hcp, hq, hins, hawake, Bool.not_true, Bool.or_self, Bool.false_eq_true, if_false]

/-- Settles O18, a clause per command. -/
theorem pixelLines : Obligations.PixelLines :=
  ⟨fun _ _ _ _ _ _ _ => execFrontEndLine_runs, fun _ _ _ _ _ _ => execOutputLine_emits,
    fun _ _ _ _ _ _ => execBandDeadline_givesUp, fun _ _ _ _ _ => execLabelLine_takes⟩

end Sys2Proof.PixelPath

/-! Web geometry and what runs on its positions (05_web_geometry.md): the overview's lines, bunting and pennants, the
orders that wait for a time or a web position, and the corrections of seams and flat fields. One equation per command and
case, from which the statements are put together. -/

namespace Sys2Proof.WebGeometry

open Sys2Proof.Machine Sys2Proof.Safety

/-! ### The overview (R233, R234, R241, R242) -/

section OverviewLine

variable {l : OvwLine} {rest : List OvwLine} {pl : Plan} {s : State} (hready : s.ovw.ready = l :: rest)
  (hplan : s.pln.plan = some pl) (hrate : s.ovw.limited = false)

include hready hplan hrate

theorem execOverviewLine_written {n : Nat} {t : State} (hsess : s.ovwSess = some n) (hroom : (s.hring n 4).free ≠ 0)
    (hput : s.ringPut n 4 (ovwRecord pl.ovw s.ovw.number (aliveOf (s.hring n 4).prod (s.hring n 4).entries) s.ovw.dropped l)
      4 0 = (t, none)) :
    execOverviewLine s = .next (t.ovwWritten pl.ovw l rest) := by
  simp only [execOverviewLine, hready, hplan, hrate, hsess, hroom, hput, Bool.false_and, Bool.false_eq_true, if_false]

theorem execOverviewLine_noSession (hsess : s.ovwSess = none) :
    execOverviewLine s = .next (((s.bump ovwCntDroppedF 1).ovwDrop rest).fire 147) := by
  simp only [execOverviewLine, hready, hplan, hrate, hsess, Bool.false_and, Bool.false_eq_true, if_false]

end OverviewLine

theorem execOvwRateLimit_running {s : State} (hrun : s.flag ovwStatusRunning = true) :
    execOvwRateLimit s = .next (({ s with ovw := { s.ovw with limited := true } }).fire 149) := by
  rw [execOvwRateLimit, if_pos hrun]

/-! ### Bunting and pennants (R281, R323 to R326) -/

theorem execBuntingRecord_takes {b : Bunt} {rest : List Bunt} {s : State} (hq : s.seam.inq = b :: rest) :
    execBuntingRecord s = .next (({ s with seam := { s.seam with inq := rest } }).buntTake b) := by
  simp only [execBuntingRecord, hq]

theorem execPennantWrite_gathered {s : State} (hg : s.pen.gathered ≠ 0) : execPennantWrite s = .next s.penDeliver := by
  rw [execPennantWrite, if_neg hg]

theorem execPennantWrite_gathers {s : State} (hg : s.pen.gathered = 0) :
    execPennantWrite s = .next s.penGather.penDeliver := by
  rw [execPennantWrite, if_pos hg]

/-- Settles O19, a clause per command and case; the timeout of the gathering asks nothing. -/
theorem pennantsAndOverview : Obligations.PennantsAndOverview :=
  ⟨fun _ _ _ _ _ _ hready hplan hrate => execOverviewLine_written hready hplan hrate,
    fun _ _ _ _ => execOverviewLine_noSession, fun _ => execOvwRateLimit_running, fun _ _ _ => execBuntingRecord_takes,
    fun _ => execPennantWrite_gathered, fun _ => execPennantWrite_gathers, fun _ => rfl⟩

/-! ### Orders by descriptor (R555) -/

section LocalOrder

variable {kind forms n : Nat} {d : OutDesc} {s : State} (hlocal : bitAt (d.par 0x11 1) 0 = false)

include hlocal

/-- An order that is not global waits, with form 1 for its time and with form 0 for no more than the frame boundary. -/
theorem orderEffect_timed (hforms : 2 ≤ forms) (hf : d.par 0x10 1 < 2) :
    orderEffect kind forms n d s = s.queueDue ⟨kind, d.par 0x10 1, (d.par 0x18 8 : Int), s.zero, n, d.idx, 0⟩ := by
  have hknown : ¬ forms ≤ d.par 0x10 1 := by omega
  simp only [orderEffect, hknown, hlocal, Nat.ne_of_lt hf, Bool.false_eq_true, if_false]

/-- An order that is not global and has form 2 waits for its web position, counted from the present E_zero. -/
theorem orderEffect_positioned (hforms : 2 < forms) (hf : d.par 0x10 1 = 2) :
    orderEffect kind forms n d s = s.queueDue ⟨kind, 2, d.parInt 0x18, s.zero, n, d.idx, 0⟩ := by
  simp only [orderEffect, hf, hlocal, Nat.not_le.mpr hforms, Bool.false_eq_true, if_false, if_true]

end LocalOrder

section ReadyOrder

variable {n : SessId} {idx : Nat} {d : OutDesc} {s : State}

theorem execStart_ready {p : Plan} (h : Ready s n idx 0x20 modesM d) (hplan : (s.startDesc n idx).pln.plan = some p) :
    execStart n idx s = .next (orderEffect 1 3 n d (s.startDesc n idx)) := by
  rw [execStart, runDesc_ready _ h]
  simp only [hplan, Option.isNone_some, Bool.false_eq_true, if_false]

theorem execStop_ready (h : Ready s n idx 0x21 modesNA d) :
    execStop n idx s = .next (orderEffect 2 2 n d (s.startDesc n idx)) := by
  rw [execStop, runDesc_ready _ h]

theorem execSetZero_ready (h : Ready s n idx 0x22 modesMNA d) :
    execSetZero n idx s = .next (orderEffect 3 3 n d (s.startDesc n idx)) := by
  rw [execSetZero, runDesc_ready _ h]

theorem execSnapshot_ready (h : Ready s n idx 0x50 modesMNAX d) (hdev : devHost (d.par 0x20 8) = true) :
    execSnapshot n idx s = .next (orderEffect 4 3 n d (s.startDesc n idx)) := by
  rw [execSnapshot, runDesc_ready _ h]
  simp only [hdev, Bool.not_true, Bool.false_eq_true, if_false]

end ReadyOrder

/-! ### Orders that are due (R113, R627, R747, R749, R829) -/

section DueOrder

variable {o : DueOp} {s : State}

theorem execInspectionStart_due (hdue : s.dueLocal 1 = some o) :
    execInspectionStart s = .next ((s.dropDue o).startEffect o) := by
  simp only [execInspectionStart, hdue]

theorem execStopEffect_due (hdue : s.dueLocal 2 = some o) (hfault : s.pln.fault = none) :
    execStopEffect s = .next ((s.dropDue o).stopEffect o) := by
  simp only [execStopEffect, hdue, hfault, Option.isSome_none, Bool.false_and, Bool.false_eq_true, if_false]

/-- With no STOP due, a mode change that waits for the end of the inspection brings it about (R749). -/
theorem execStopEffect_modeWaits {t : Nat} (hdue : s.dueLocal 2 = none) (hfault : s.pln.fault = none)
    (hwait : s.pwr.afterStop = some t) (hins : s.inspecting = true) : execStopEffect s = .next (s.stopThenMode t) := by
  simp only [execStopEffect, hdue, hfault, hwait, hins, Option.isSome_none, Bool.false_and, Bool.false_eq_true, if_false,
    if_true]

theorem execZeroLatch_due (hdue : s.dueLocal 3 = some o) : execZeroLatch s = .next ((s.dropDue o).zeroEffect o) := by
  simp only [execZeroLatch, hdue]

theorem execSnapshotLatch_due (hdue : s.dueLocal 4 = some o) :
    execSnapshotLatch s = .next ((s.dropDue o).snapEffect o) := by
  simp only [execSnapshotLatch, hdue]

end DueOrder

/-- Settles O33: each order by descriptor is `orderEffect` in the state in which it has started. -/
theorem inspectionDescriptors : Obligations.InspectionDescriptors := by
  refine ⟨fun n idx d p s t h ht hplan hf hloc => ?startTimed, fun n idx d p s t h ht hplan hf hloc => ?startPositioned,
    fun n idx d s t h ht hf hloc => ?stop, fun n idx d s t h ht hf hloc => ?setZero,
    fun n idx d s t h ht hdev hf hloc => ?snapshot, fun _ _ => execInspectionStart_due, fun _ _ => execStopEffect_due,
    fun _ _ => execStopEffect_modeWaits, fun _ _ => execZeroLatch_due, fun _ _ => execSnapshotLatch_due⟩
  all_goals subst ht
  case startTimed => exact (execStart_ready h hplan).trans (by rw [orderEffect_timed hloc (by decide) hf])
  case startPositioned => exact (execStart_ready h hplan).trans (by rw [orderEffect_positioned hloc (by decide) hf])
  case stop => exact (execStop_ready h).trans (by rw [orderEffect_timed hloc (by decide) hf])
  case setZero => exact (execSetZero_ready h).trans (by rw [orderEffect_timed hloc (by decide) hf])
  case snapshot => exact (execSnapshot_ready h hdev).trans (by rw [orderEffect_timed hloc (by decide) hf])

/-! ### Seam estimates (R730 to R733, R739) -/

section SeamEstimate

variable {c : CtxId} {fab : Bool} {peak key : Nat} {sh : Int} {s : State} (hins : s.inspecting = true)
  (hcal : s.flag calCtrlF = true) (hkey : s.seamKey c fab = some key)

include hins hcal hkey

/-- A peak of 0.80 or more and a shift within half a column make an estimate plausible (R731); entry 13 is the seam that
the neighbour of higher address corrects. -/
theorem execSeamEstimate_plausible (hown : key ≠ 13) (hpeak : 800 ≤ peak) (hlow : -32 ≤ sh) (hhigh : sh ≤ 32) :
    execSeamEstimate c fab peak sh s = .next ((s.seamResidual key sh).seamAsk c sh) := by
  simp only [execSeamEstimate, hins, hcal, hkey, hown, hpeak, hlow, hhigh, Bool.not_true, Bool.or_self, Bool.false_eq_true,
    and_self, if_false, if_true]

theorem execSeamEstimate_implausible (hbad : ¬(800 ≤ peak ∧ -32 ≤ sh ∧ sh ≤ 32)) :
    execSeamEstimate c fab peak sh s = .next (s.bump calSeamSkipped 1) := by
  simp only [execSeamEstimate, hins, hcal, hkey, if_neg hbad, Bool.not_true, Bool.or_self, Bool.false_eq_true, if_false]

end SeamEstimate

/-- With a live plan the corrections go to flash under the plan's recipe (R739). -/
theorem execSeamCorrectionSave_saves {p : Plan} {s : State} (hmode : 3 ≤ s.mode) (hplan : s.pln.plan = some p) :
    execSeamCorrectionSave s =
      .next { s with pwr := { s.pwr with flash := { s.pwr.flash with seams := s.cal.totals, seamRecipe := p.recipeHash } } } := by
  simp only [execSeamCorrectionSave, State.saveSeams, hmode, hplan, decide_true, Option.isSome_some, Bool.and_self, if_true]

/-! ### Flat field (R734 to R737) -/

theorem execFlatFieldDone_ended {c : CtxId} {r : CalRun} {s : State} (hrun : s.calRun 4 c = some r)
    (hend : s.flatEnded r = true) : execFlatFieldDone c s = .next (s.flatResult r) := by
  simp only [execFlatFieldDone, hrun, hend, if_true]

/-- Settles O47, a clause per command and two for a seam estimate, plausible or not. -/
theorem calibrationCommands : Obligations.CalibrationCommands :=
  ⟨fun _ _ _ _ _ _ => execSeamEstimate_plausible,
    fun _ _ _ _ _ _ hins hcal hkey hpeak =>
      execSeamEstimate_implausible hins hcal hkey (fun ⟨hge, _⟩ => Nat.not_le.mpr hpeak hge),
    fun _ _ _ => execFlatFieldDone_ended, fun _ _ => execSeamCorrectionSave_saves⟩

end Sys2Proof.WebGeometry

/-! Segmentation (06_segmentation.md): the rounded division that the chapter's features and averages use (R268). -/

namespace Sys2Proof.Segmentation

open Sys2Proof.PixelPath

/-- Settles O52: `rdiv_nearest` bounds the error, and an error of half of `b` has one of the two signs of
`rdiv_tie_even`. -/
theorem roundedDivision : Obligations.RoundedDivision := by
  intro a b hb
  obtain ⟨hle, hge⟩ := rdiv_nearest a hb
  exact ⟨hle, hge, fun htie => rdiv_tie_even hb (Int.natAbs_eq_natAbs_iff.mp htie)⟩

end Sys2Proof.Segmentation

/-! Setup registers with an effect of their own (22_setup_registers.md, and the peaks of 03, 06 and 07): the restart by
register, the commit and clear bits, the latches of LO and HI pairs, and the copy of image B over image A. One equation
per command and case, from which the statement is put together. -/

namespace Sys2Proof.SetupRegisters

open Sys2Proof.Machine

/-! ### Restart by register (R821, R822) -/

theorem execPwrRestart_asksMode {v : Word} {s : State} (hkey : getBits v 16 16 = 0x5A1C)
    (htarget : getBits v 0 3 = 5 ∨ getBits v 0 3 = 6) (hmode : 3 ≤ s.mode) (hdusk : s.mode ≠ 6)
    (hwait : s.pwr.afterStop = none) : execPwrRestart v s = .next (s.modeOrder (getBits v 0 3) none) := by
  have haccepted : ¬(getBits v 16 16 ≠ 0x5A1C ∨ (getBits v 0 3 ≠ 5 ∧ getBits v 0 3 ≠ 6) ∨ s.mode < 3 ∨ s.mode = 6 ∨
      s.pwr.afterStop.isSome = true) := by
    rintro (hother | ⟨h5, h6⟩ | hearly | hdusk' | hwaits)
    · exact hother hkey
    · exact htarget.elim h5 h6
    · exact Nat.not_lt.mpr hmode hearly
    · exact hdusk hdusk'
    · simp [hwait] at hwaits
  exact congrArg Host.Outcome.next (if_neg haccepted)

theorem execPwrRestart_wrongKey {v : Word} {s : State} (hkey : getBits v 16 16 ≠ 0x5A1C) :
    execPwrRestart v s = .next s :=
  congrArg Host.Outcome.next (if_pos (Or.inl hkey))

/-! ### Commit and clear bits (R140, R300, R335, R819, R825) -/

theorem execHstNetCommit_commits {e : EthId} {v : Word} {s : State} (hbit : v.getLsbD 0 = true) :
    execHstNetCommit e v s = .next (s.netCommit e) :=
  congrArg Host.Outcome.next (if_pos hbit)

theorem execStartFailClear_clears {v : Word} {s : State} (hbit : v.getLsbD 20 = true) :
    execStartFailClear v s = .next s.startFailClear :=
  congrArg Host.Outcome.next (if_pos hbit)

theorem execFifoPeakClear_clears {c : CtxId} {v : Word} {s : State} (hbit : v.getLsbD 31 = true) :
    execFifoPeakClear c v s = .next (s.setFld (ctxFifoPeak c) (s.fld (ctxFifoLevel c))) :=
  congrArg Host.Outcome.next (if_pos hbit)

theorem execPartsPeakClear_clears {v : Word} {s : State} (hbit : v.getLsbD 31 = true) :
    execPartsPeakClear v s = .next (s.setFld semPartsPartsPeak (s.fld semPartsParts)) :=
  congrArg Host.Outcome.next (if_pos hbit)

theorem execQueuePeakClear_clears {v : Word} {s : State} (hbit : v.getLsbD 31 = true) :
    execQueuePeakClear v s = .next s.queuePeakClear :=
  congrArg Host.Outcome.next (if_pos hbit)

/-! ### Latches of LO and HI pairs (R810) -/

/-- A LO register that is not itself the HI register of another one answers at this instant, and its read loads the
reader's latch with the HI register. -/
theorem regRead_latchingLo {reader a : Nat} {s : State} (hlo : latchLos.contains a = true)
    (hnotHi : 4 ≤ a → latchLos.contains (a - 4) = false) :
    s.regRead reader a =
      (s.regLive a, { s with latches := tblSet s.latches 0 (reader * 2 ^ 17 + a) (s.regLive (a + 4)) }) := by
  have hanswersHere : ¬(4 ≤ a ∧ latchLos.contains (a - 4) = true) :=
    fun ⟨hge, hhi⟩ => Bool.false_ne_true ((hnotHi hge).symm.trans hhi)
  simp only [State.regRead, if_neg hanswersHere, if_pos hlo]

theorem execLatchingLoRead_session {n : SessId} {a : Nat} {s : State} (hlo : latchLos.contains a = true) :
    execLatchingLoRead (some n) a s = .next (s.regRead n.val a).2 :=
  congrArg Host.Outcome.next (if_pos hlo)

/-! ### Image A (R757) -/

theorem execImageARestored_restores {s : State} (himage : s.flag pwrStatusImageB = true) (hmode : s.mode ≠ 0) :
    execImageARestored s =
      .next (({ s with pwr := { s.pwr with flash := { s.pwr.flash with imageA := true } } }).setFld pwrStatusImageB 0) :=
  if_pos ⟨himage, hmode⟩

/-- Settles O51, a clause per command and two for PWR_RESTART, with its key or another; the latch of the reader is
`regRead_latchingLo`. -/
theorem setupCommands : Obligations.SetupCommands :=
  ⟨fun _ _ => execPwrRestart_asksMode, fun _ _ => execPwrRestart_wrongKey, fun _ _ _ => execHstNetCommit_commits,
    fun _ _ => execStartFailClear_clears,
    fun _ _ _ hlo hnotHi => (execLatchingLoRead_session hlo).trans (by rw [regRead_latchingLo hlo hnotHi]),
    fun _ _ _ => execFifoPeakClear_clears, fun _ _ => execPartsPeakClear_clears, fun _ _ => execQueuePeakClear_clears,
    fun _ => execImageARestored_restores⟩

end Sys2Proof.SetupRegisters

/-! Background jobs (08_lookback.md, and the check jobs of 17): their units, their pre-emption and the descriptors that
order them. One equation per command and case, from which the statements are put together. -/

namespace Sys2Proof.LookbackJobs

open Sys2Proof.Machine Sys2Proof.Safety

/-! ### Units of a job (R375, R376, R383, R476, R478) -/

/-- Job `j`, held as number `i`, may advance: there is a plan, which a check job does without, and the session of a job
of the host is not lost. -/
structure MayAdvance (s : State) (i : Nat) (j : Job) : Prop where
  held : s.job i = some j
  planned : s.pln.plan = none → j.par.kind = .check
  sessionUp : j.sess < 4 → s.flag (hssSessionResumable j.sess) = false

/-- What JOB_UNIT comes to once its job `k` has its place on the running set (R375, R383). -/
def startedUnit (k : Job) (s : State) : Host.Outcome State Fault Refusal :=
  if s.jobOverlaps k then .fault (.undefinedBehaviour .jobOverlap)
  else .next (match k.par.kind with
    | .check => s.checkUnit k
    | .reprocess => s.reproUnit k
    | _ => s.cropUnit k)

section Units

variable {i : Nat} {j k : Job} {s t : State}

/-- With a plan, a job of any kind may advance whose session is not lost. -/
theorem mayAdvance_of_plan {pl : Plan} (hheld : s.job i = some j) (hplan : s.pln.plan = some pl)
    (hup : j.sess < 4 → s.flag (hssSessionResumable j.sess) = false) : MayAdvance s i j :=
  ⟨hheld, fun hnone => absurd (hplan.symm.trans hnone) (Option.some_ne_none pl), hup⟩

theorem execJobUnit_started (h : MayAdvance s i j) (hstart : s.jobStart j = some (t, k)) :
    execJobUnit i s = startedUnit k t := by
  obtain ⟨hheld, hplan, hup⟩ := h
  have hgate : ¬ ((s.pln.plan.isNone ∧ j.par.kind ≠ .check) ∨ (j.sess < 4 ∧ s.flag (hssSessionResumable j.sess) = true)) := by
    rintro (⟨hnone, hkind⟩ | ⟨hhost, hlost⟩)
    · exact hkind (hplan (Option.isNone_iff_eq_none.mp hnone))
    · exact Bool.false_ne_true ((hup hhost).symm.trans hlost)
  simp only [execJobUnit, hheld, if_neg hgate, hstart]
  rfl

theorem startedUnit_overlaps (ho : t.jobOverlaps k = true) :
    startedUnit k t = .fault (.undefinedBehaviour .jobOverlap) :=
  if_pos ho

section Apart

variable (ho : t.jobOverlaps k = false)

include ho

theorem startedUnit_crop (hk : k.par.kind = .crop) : startedUnit k t = .next (t.cropUnit k) := by
  simp only [startedUnit, ho, hk, Bool.false_eq_true, if_false]

theorem startedUnit_check (hk : k.par.kind = .check) : startedUnit k t = .next (t.checkUnit k) := by
  simp only [startedUnit, ho, hk, Bool.false_eq_true, if_false]

theorem startedUnit_reprocess (hk : k.par.kind = .reprocess) : startedUnit k t = .next (t.reproUnit k) := by
  simp only [startedUnit, ho, hk, Bool.false_eq_true, if_false]

end Apart

theorem execJobPreempt_running (hheld : s.job i = some j) (hrun : j.phase = .running)
    (ht : t = { s with jobs := s.jobs.filter (fun x => decide (x.id ≠ i)) ++ [{ j with phase := .queued }] }) :
    execJobPreempt i s = .next (((t.checkpoint j).bump jnlCntPreemptF 1).fire 402) := by
  subst ht
  simp only [execJobPreempt, hheld, hrun, ne_eq, not_true, if_false]

end Units

/-- Settles O21: a job that may advance and gets its place runs the unit of its kind, unless it overlaps. The session of
a crop job beyond the host's four cannot be lost. -/
theorem jobUnits : Obligations.JobUnits := by
  refine ⟨fun i j k pl s t hj hplan hown hstart ho hk => ?crop, fun i j k s t hj hcheck hup hstart ho hk => ?check,
    fun i j k pl s t hj hplan hup hstart ho hk => ?reprocess, fun i j k pl s t hj hplan hup hstart ho => ?overlap,
    fun _ _ _ _ => execJobPreempt_running⟩
  case crop =>
    have hmay : MayAdvance s i j := mayAdvance_of_plan hj hplan fun hhost => absurd hhost (Nat.not_lt.mpr hown)
    exact (execJobUnit_started hmay hstart).trans (startedUnit_crop ho hk)
  case check =>
    have hmay : MayAdvance s i j := ⟨hj, fun _ => hcheck, fun _ => hup⟩
    exact (execJobUnit_started hmay hstart).trans (startedUnit_check ho hk)
  case reprocess =>
    have hmay : MayAdvance s i j := mayAdvance_of_plan hj hplan fun _ => hup
    exact (execJobUnit_started hmay hstart).trans (startedUnit_reprocess ho hk)
  case overlap =>
    have hmay : MayAdvance s i j := mayAdvance_of_plan hj hplan fun _ => hup
    exact (execJobUnit_started hmay hstart).trans (startedUnit_overlaps ho)

/-! ### Descriptors on jobs (R368, R373, R377, R378, R383, R555, R717) -/

/-- A CHECK_RUN descriptor that the state `s` admits: its input lies in host memory, is neither empty nor beyond 2^32
bytes, its unit `u` is free, and there is room for a job of the host. -/
structure CheckRunFits (s : State) (d : OutDesc) (u : Nat) : Prop where
  unit : d.par 0x10 1 = u
  known : u ≤ 7
  source : devHost (d.par 0x20 8) = true
  nonempty : d.par 0x28 8 ≠ 0
  bounded : d.par 0x28 8 ≤ 2 ^ 32
  free : (s.crc u).job = none
  room : s.hostJobs < 256

section Descriptors

variable {n : SessId} {idx : Nat} {d : OutDesc} {j : Job} {s t : State} (ht : t = s.startDesc n idx)

include ht

theorem execExportJob_adds (h : Ready s n idx 0x30 modesMNA d) (hsound : jobParamBad d false = none)
    (hfree : t.jobBlocked (d.par 0x14 1) = false) :
    execExportJob n idx s = .next (t.addJob { initJob with
      sess := n, tag := d.tagGen, desc := d.idx, par := jobParams d .crop, out := d.par 0x40 8, outLen := d.par 0x48 8,
      fresh := false }) := by
  subst ht
  rw [execExportJob, runDesc_ready _ h]
  simp only [hsound, hfree, Bool.false_eq_true, if_false]

/-- A reprocess job is taken on where no other one of its session has its ring. -/
theorem execReprocess_adds {ring : Nat} (h : Ready s n idx 0x31 modesMNA d) (hsound : jobParamBad d true = none)
    (hfree : t.jobBlocked (d.par 0x14 1) = false) (hring : ring = 8 + d.par 0x4C 1)
    (hown : t.jobs.any (fun j => decide (j.sess = n ∧ j.ring = ring ∧ j.par.kind = .reprocess)) = false) :
    execReprocess n idx s =
      .next ((t.setHring n ring { initHRing with addr := d.par 0x40 8, entries := d.par 0x48 4, unit := 64 }).addJob
        { initJob with sess := n, tag := d.tagGen, desc := d.idx, par := jobParams d .reprocess, ring := ring }) := by
  subst ht hring
  rw [execReprocess, runDesc_ready _ h]
  simp only [hsound, hfree, hown, Bool.false_eq_true, or_self, if_false]

/-- Only a crop job needs a place for its further output; any other one goes on as it is. -/
theorem execResume_requeues (h : Ready s n idx 0x32 modesMNA d) (hj : t.jobOf n (d.par 0x10 2) = some j)
    (hsusp : j.phase = .suspended) (hkind : j.par.kind ≠ .crop) :
    execResume n idx s =
      .next (t.setJob { j with desc := d.idx, phase := .queued, units := 0, fault := 0, faultWin := 0, faultOff := 0 }) := by
  subst ht
  rw [execResume, runDesc_ready _ h]
  simp only [hj, hsusp, hkind, ne_eq, not_true, not_false_eq_true, if_false, if_true]

/-- A job without an open record writes no END, and a suspended one has no descriptor outstanding. -/
theorem execCancel_drops (h : Ready s n idx 0x33 modesAll d) (hj : t.jobOf n (d.par 0x10 2) = some j)
    (hsusp : (recBack j).phase = .suspended) (hclosed : (recBack j).opened = false) :
    execCancel n idx s = .next ((t.dropJob (recBack j).id).doneDesc n d (jobResult (recBack j))) := by
  subst ht
  rw [execCancel, runDesc_ready _ h]
  simp only [hj, hsusp, hclosed, Bool.false_eq_true, false_and, and_false, decide_false, if_false, if_true]

theorem execCheckRun_starts {u : Nat} {v : State} (h : Ready s n idx 0x4A modesMNAX d) (hfits : CheckRunFits t d u)
    (hinit : bitAt (d.par 0x11 1) 0 = false) (hv : v = (t.crcShow u (t.crcParams u).init).setFld (crcStatusBusy u) 1) :
    execCheckRun n idx s = .next ((v.setCrc u { v.crc u with job := some (freeJobId t.jobs) }).addJob
      { initJob with
        sess := n, tag := d.tagGen, desc := d.idx,
        par := { initJob.par with kind := .check, unit := u, source := d.par 0x20 8, srcLen := d.par 0x28 8 } }) := by
  subst ht hv
  obtain ⟨rfl, hknown, hsource, hnonempty, hbounded, hfree, hroom⟩ := hfits
  have hlen : ¬ (d.par 0x28 8 = 0 ∨ 2 ^ 32 < d.par 0x28 8) := by omega
  rw [execCheckRun, runDesc_ready _ h]
  simp only [Nat.not_lt.mpr hknown, hsource, hlen, hfree, Nat.not_le.mpr hroom, hinit, Option.isSome_none,
    Bool.false_eq_true, not_true, or_self, if_false]

end Descriptors

/-- Settles O35, a clause per descriptor; with no job held, no other one has the reprocess ring. -/
theorem jobDescriptors : Obligations.JobDescriptors :=
  ⟨fun _ _ _ _ _ h ht => execExportJob_adds ht h,
    fun _ _ _ _ _ _ h ht hsound hfree hjobs hring => execReprocess_adds ht h hsound hfree hring (by rw [hjobs]; rfl),
    fun _ _ _ _ _ _ h ht => execResume_requeues ht h, fun _ _ _ _ _ _ h ht => execCancel_drops ht h,
    fun _ _ _ _ _ _ _ h ht hu hknown hsource hnonempty hbounded hfree hroom hinit hv =>
      execCheckRun_starts ht h ⟨hu.symm, hknown, hsource, hnonempty, hbounded, hfree, hroom⟩ hinit hv⟩

end Sys2Proof.LookbackJobs

/-! The Planner (09_planner.md): the end of a compile, plans and fallbacks that go live, and the descriptors on plans.
One equation per command and case, from which the statements are put together. -/

namespace Sys2Proof.Planner

open Sys2Proof.Machine Sys2Proof.Safety

/-! ### Plans and fallbacks (R397, R398, R402, R413, R417, R418, R421) -/

section CompileEnd

variable {res : Compiled} {j : PlanJob} {b : List Byte} {p : Plan} {s : State} (hcomp : s.pln.compiling = some j)
  (hbytes : j.bytes = some b) (hown : 4 ≤ j.sess)
  (hp : p = planFromRecs (cutRecs (b.length / 16 + 1) b).1 s.camMosaic res.plan)

include hcomp hbytes hown hp

/-- The Planner's own compile has no descriptor: the length of its recipe is that of the bytes (R397). -/
theorem execCompileDone_stores (hsound : s.compileDefect b.length b res p = none) :
    execCompileDone res s = .next (s.compileOk j b res p) := by
  subst hp
  simp only [execCompileDone, hcomp, hbytes, if_pos hown, hsound]

theorem execCompileDone_refuses {st : PlanStatus} (hdefect : s.compileDefect b.length b res p = some st) :
    execCompileDone res s = .next (s.compileRefused j.sess j.desc st) := by
  subst hp
  simp only [execCompileDone, hcomp, hbytes, if_pos hown, hdefect]

end CompileEnd

section GoLive

variable {n : Nat} {s : State}

theorem execPlanGoLive_alone (halone : s.fabricMember = false) : execPlanGoLive s = .next s.commitLive := by
  simp only [execPlanGoLive, halone, Bool.false_and, Bool.false_eq_true, if_false]

theorem execFallbackCompiled_ready {k : Fin 80} {plan pl : Plan} {tenMs : Nat} (hplan : s.pln.plan = some pl) :
    execFallbackCompiled k plan tenMs s = .next ((s.fallbackDone k plan).setFld plnCompileFallback10ms tenMs) := by
  simp only [execFallbackCompiled, hplan, Option.isNone_some, Bool.false_eq_true, if_false]

theorem execFallbackLoadDone_loads (hfault : s.pln.fault = some n) (hready : s.fallbackReady n = true) :
    execFallbackLoadDone s = .next { s with pln := { s.pln with loaded := true } } := by
  simp only [execFallbackLoadDone, hfault, hready, if_true]

/-- With no further fault waiting in the state `t` after the switch, the switch ends the fault (R421). -/
theorem execFallbackSwitch_last {p : Plan} {t : State} (hfault : s.pln.fault = some n) (hloaded : s.pln.loaded = true)
    (hentry : planEntry s.pln.fallbacks n = some p) (ht : t = s.fallbackLive n p) (hlast : t.pln.queued = []) :
    execFallbackSwitch s = .next { t with pln := { t.pln with fault := none, loaded := false, queued := [] } } := by
  subst ht
  simp only [execFallbackSwitch, hfault, hloaded, hentry, hlast, Bool.not_true, Bool.false_eq_true, if_false]

end GoLive

/-- Settles O22, a clause per command and two for the end of a compile, sound or not. -/
theorem planAndFallbacks : Obligations.PlanAndFallbacks :=
  ⟨fun _ _ _ _ hcomp hbytes hown => execCompileDone_stores hcomp hbytes hown rfl,
    fun _ _ _ _ _ hcomp hbytes hown => execCompileDone_refuses hcomp hbytes hown rfl, fun _ => execPlanGoLive_alone,
    fun _ _ _ _ _ => execFallbackCompiled_ready, fun _ _ => execFallbackLoadDone_loads,
    fun _ _ _ _ => execFallbackSwitch_last⟩

/-! ### Descriptors on plans (R397, R399, R400, R402, R413, R555) -/

section RecordReads

variable {n : Nat} {d : OutDesc} {t w : State} (hdev : devHost (d.par 0x10 8) = true) (hlen : d.par 0x18 4 ≠ 0)
  (hfits : tooLong d = false) (hw : w = t.loadRead n d 0x10 (d.par 0x18 4) (.recipe d.idx))
  (hkept : (w.desc n d.idx).isSome = true)

include hdev hlen hfits hw hkept

/-- COMPILE reads its recipe and takes the Planner, unless the read has ended the descriptor (R397); a report of length
0 has no address to check. -/
theorem compileEffect_reads (hreport : d.par 0x28 4 = 0) (hidle : t.pln.compiling = none) :
    compileEffect n d t =
      ({ w with pln := { w.pln with compiling := some ⟨n, d.idx, none, none⟩ } }).setFld plnStatusState 1 := by
  subst hw
  simp only [compileEffect, hdev, hlen, hreport, hidle, hfits, Option.isNone_eq_false_iff.mpr hkept, ne_eq, not_true,
    decide_false, Bool.not_true, Bool.and_false, Option.isSome_none, Bool.false_eq_true, if_false]

/-- BANK_UPDATE and SLOT_LOAD wait for their records alike; a slot has a number of 1 to 4 (R400). -/
theorem bankEffect_reads {set : BankSet} {slot : Bool} (hslot : slot = true → d.par 0x1C 1 ≠ 0 ∧ d.par 0x1C 1 ≤ 4) :
    bankEffect n set slot d t = { w with pln := { w.pln with sets := w.pln.sets ++ [⟨n, d.idx, none, some set⟩] } } := by
  subst hw
  have hnumber : (slot && (decide (d.par 0x1C 1 = 0) || decide (4 < d.par 0x1C 1))) = false := by
    cases slot with
    | false => rfl
    | true =>
      obtain ⟨hne, hle⟩ := hslot rfl
      simp only [hne, Nat.not_lt.mpr hle, decide_false, Bool.or_false, Bool.and_false]
  simp only [bankEffect, hdev, hlen, hnumber, hfits, Option.isNone_eq_false_iff.mpr hkept, Bool.not_true,
    Bool.false_eq_true, if_false]

end RecordReads

/-- Membership of a fabric is a matter of the fabric engine alone (R608). -/
@[simp] theorem fabricMember_withPln (t : State) (q : PlnSt) : State.fabricMember { t with pln := q } = t.fabricMember := rfl

/-- Outside a fabric the compiled plan of the descriptor's hash waits in the commit itself (R402). -/
theorem commitEffect_waits {n : Nat} {d : OutDesc} {p : Plan} {t : State} (hplan : t.pln.compiled = some p)
    (hhash : slice d.bytes 0x10 32 = p.hash) (hfree : t.pln.commit = none) (hfault : t.pln.fault = none)
    (halone : t.fabricMember = false) :
    commitEffect n d t = { t with pln := { t.pln with commit := some ⟨n, d.idx⟩ } } := by
  simp only [commitEffect, hplan, hhash, hfree, hfault, fabricMember_withPln, halone, ne_eq, not_true, Option.isSome_none,
    Bool.false_eq_true, if_false]

section ReadyPlan

variable {n : SessId} {idx : Nat} {set : BankSet} {d : OutDesc} {s : State}

theorem execCompile_ready (h : Ready s n idx 0x10 modesMNAX d) :
    execCompile n idx s = .next (compileEffect n d (s.startDesc n idx)) := by
  rw [execCompile, runDesc_ready _ h]

theorem execCommit_ready (h : Ready s n idx 0x11 [3, 4] d) :
    execCommit n idx s = .next (commitEffect n d (s.startDesc n idx)) := by
  rw [execCommit, runDesc_ready _ h]

theorem execBankUpdate_ready (h : Ready s n idx 0x12 modesMNA d) :
    execBankUpdate n idx set s = .next (bankEffect n set false d (s.startDesc n idx)) := by
  rw [execBankUpdate, runDesc_ready _ h]

theorem execSlotLoad_ready (h : Ready s n idx 0x13 modesMNAX d) :
    execSlotLoad n idx set s = .next (bankEffect n set true d (s.startDesc n idx)) := by
  rw [execSlotLoad, runDesc_ready _ h]

end ReadyPlan

/-- Settles O32: a ready descriptor has its effect in the state in which it has started. -/
theorem planDescriptors : Obligations.PlanDescriptors := by
  refine ⟨fun n idx d s t w h ht hdev hlen hreport hidle hfits hw hkept => ?compile,
    fun n idx d p s t u h ht hplan hhash hfree hfault hu halone => ?commit,
    fun n idx set d s t w h ht hdev hlen hfits hw hkept => ?bankUpdate,
    fun n idx set d s t w h ht hdev hlen hnonzero hmax hfits hw hkept => ?slotLoad⟩
  all_goals subst ht
  case compile =>
    exact (execCompile_ready h).trans (by rw [compileEffect_reads hdev hlen hfits hw hkept hreport hidle])
  case commit =>
    subst hu
    rw [fabricMember_withPln] at halone
    exact (execCommit_ready h).trans (by rw [commitEffect_waits hplan hhash hfree hfault halone])
  case bankUpdate =>
    exact (execBankUpdate_ready h).trans (by rw [bankEffect_reads (slot := false) hdev hlen hfits hw hkept nofun])
  case slotLoad =>
    exact (execSlotLoad_ready h).trans (by rw [bankEffect_reads hdev hlen hfits hw hkept fun _ => ⟨hnonzero, hmax⟩])

end Sys2Proof.Planner

/-! Module memory (10_module_memory.md): the bursts of a migration, the end of a training and the retired symbols. One
equation per command and case, from which the statements are put together. -/

namespace Sys2Proof.ModuleMemory

open Sys2Proof.Machine

/-! ### Migration (R450, R451) -/

section Bursts

variable {m : ChanId} {w : List Byte} {g : Migration} {s : State}

/-- A burst whose map bit a later write has set is left as it is; the bit is a free value. -/
theorem execMigrationBurst_written (hmig : (s.mc m).migration = some g) (hbit : (s.takeFree 2).1 = 1) :
    execMigrationBurst m w s =
      .next ((s.takeFree 2).2.migrateOn m { g with next := g.next + 1, written := g.next :: g.written }) := by
  simp only [execMigrationBurst, hmig, hbit, if_true]

/-- Any other burst without symbol errors, of a rank with no retired device, goes to the spare. -/
theorem execMigrationBurst_clean {d : List Byte} {t u : State} (hmig : (s.mc m).migration = some g)
    (hbit : (s.takeFree 2).1 ≠ 1) (ht : t = (s.takeFree 2).2) (hwhole : t.fld (retiredFld m g.rank) = 0)
    (hclean : rsDecode none w = .clean d)
    (hu : u = { t with mem :=
      { t.mem with bursts := tblSet t.mem.bursts [] (burstKey m (t.spareOf m) g.next) (rsEncode d) } }) :
    execMigrationBurst m w s = .next (u.migrateOn m { g with next := g.next + 1, copied := g.copied + 1 }) := by
  subst ht hu
  simp only [execMigrationBurst, hmig, if_neg hbit, hwhole, if_true, hclean]

end Bursts

/-! ### Training (R445, R446) -/

section Training

variable {m : ChanId} {width height : Nat} {vref : Int} {s t : State} (htraining : s.fld (mcStatusState m) = 1)

include htraining

/-- A plausible training is kept, in the state `t` that shows its eye. -/
theorem execDramTrainingDone_kept (hok : trainingOk width vref = true)
    (ht : t = ((s.setFld (mcEyeWidth m) width).setFld (mcEyeHeight m) height).setFldInt (mcEyeVrefDev m) vref) :
    execDramTrainingDone m width height vref s = .next (((t.modMc m (fun x =>
      { x with storedVref := x.storedVref + vref, trimmed := [], retrainDue := false, tested := true })).mcService m
        true).calTrained m width height vref) := by
  subst ht
  simp only [execDramTrainingDone, htraining, hok, ne_eq, not_true, if_false, if_true]

/-- Without old values to go back to, which DAWN does not use, a refused training disables the channel. -/
theorem execDramTrainingDone_disables (hbad : trainingOk width vref = false)
    (hnoOld : s.mode = 1 ∨ (s.mc m).tested = false) :
    execDramTrainingDone m width height vref s = .next ((s.mcService m false).calTrained m width height vref) := by
  simp only [execDramTrainingDone, htraining, hbad, ne_eq, not_true, Bool.false_eq_true, if_false, if_pos hnoOld]

end Training

/-! ### Retired symbols (R458) -/

theorem execRetiredClear_clears {m : ChanId} {v : Word} {s : State} (hclear : v.getLsbD 12 = true) :
    execRetiredClear m v s = .next (s.retiredClear m) := by
  simp only [execRetiredClear, hclear, if_true]

/-- Settles O24, the migration by the map bit of its burst, and a clause per outcome of the other two commands. -/
theorem memoryRanks : Obligations.MemoryRanks := by
  refine ⟨fun m w d g s t u hmig ht hwhole hclean hu => ?_, fun _ _ _ _ _ _ => execDramTrainingDone_kept,
    fun _ _ _ _ _ htraining hbad hdawn => execDramTrainingDone_disables htraining hbad (.inl hdawn),
    fun _ _ _ => execRetiredClear_clears⟩
  split
  case isTrue hbit =>
    subst ht
    exact execMigrationBurst_written hmig hbit
  case isFalse hbit => exact execMigrationBurst_clean hmig hbit ht hwhole hclean hu

end Sys2Proof.ModuleMemory

/-! Host memory (11_journal_and_replay.md, with the RDMA and the descriptors of 12): what the host's answers and their
absence do to a session, and the descriptors on windows. One equation per command and case, from which the statements
are put together. -/

namespace Sys2Proof.HostMemory

open Sys2Proof.Machine Sys2Proof.Safety

/-! ### Answers and losses of a session (R470, R471, R529, R533, R552) -/

/-- The acknowledgement of packet `psn` retires the operation: a WRITE whose packet is not ahead of it (R529). -/
def ackRetires (psn : Nat) (o : RdmaOp) : Bool :=
  o.read.isNone && decide ((psn + 1 + 2 ^ 24 - o.psn) % 2 ^ 24 < 2 ^ 23)

theorem ackRetires_self {o : RdmaOp} (hwrite : o.read = none) : ackRetires o.psn o = true := by
  have hnext : o.psn + 1 + 2 ^ 24 - o.psn = 2 ^ 24 + 1 := by omega
  rw [ackRetires, hwrite, hnext]
  rfl

section Traffic

variable {n : SessId} {s : State}

/-- With no operation left to the window, its fences leave the session and complete their descriptors (R470). -/
theorem execFenceDone_completes {w : Nat} {mine : List (Nat × Nat)}
    (hmine : mine = (s.session n).fences.filter (fun f => decide (f.1 = w))) (hsome : mine ≠ [])
    (hdone : ∀ o ∈ (s.session n).qp.ops, o.win ≠ w) :
    execFenceDone n w s = .next (mine.foldl (fun (s : State) (f : Nat × Nat) => (s.finishDesc n f.2 0 []).fire 401)
      (s.setSession n { s.session n with fences := (s.session n).fences.filter (fun f => decide (f.1 ≠ w)) })) := by
  subst hmine
  have hnone : (s.session n).qp.ops.any (fun o => decide (o.win = w)) = false :=
    List.any_eq_false.mpr fun o ho => by simp only [hdone o ho, decide_false, Bool.false_eq_true, not_false_eq_true]
  simp only [execFenceDone, List.isEmpty_iff, hsome, hnone, Bool.false_eq_true, or_self, if_false]

theorem execDescriptorFetch_accepts {ds : List (List Byte)} {o : RdmaOp} {ops : List RdmaOp} {t u : State}
    (hop : takeOp RdmaOp.fetches (s.session n).qp.ops = some (o, ops))
    (ht : t = (s.setOps n ops).setSession n { (s.setOps n ops).session n with fetching := false })
    (haccept : t.acceptAll n (ds.take (o.len / 128)) = .ok u) :
    execDescriptorFetch n ds s = .next (u.fetchEnd n) := by
  subst ht
  simp only [execDescriptorFetch, hop, haccept, outcomeOf]

/-- A descriptor that is good when read once more ends its refetch; `w` is the state that has sent the read (R552). -/
theorem execDescriptorRefetch_accepts {d : List Byte} {r : Refetch} {t u : State} {w : State × Option (Nat × Nat)}
    (hrefetch : (s.session n).refetch = some r) (hopen : s.isOpen n = true)
    (hw : w = s.hostRead ((s.hring n 0).addr + (s.hring n 0).unit * slotOf (s.hring n 0).cons (s.hring n 0).entries) 128
      (.descriptors (s.hring n 0).cons 1) 7 0) (hread : w.2 = none)
    (ht : t = w.1.setOps n (w.1.session n).qp.ops.dropLast)
    (hgood : fetchStatus d (s.hring n 0).cons (s.hring n 0).entries = 0)
    (haccept : (t.setSession n { t.session n with refetch := none }).acceptAll n [d] = .ok u) :
    execDescriptorRefetch n d s = .next (u.fetchEnd n) := by
  subst hw ht
  simp only [execDescriptorRefetch, hrefetch, hopen, not_true, hread, hgood, haccept, outcomeOf, if_false, if_true]

theorem execRdmaAcknowledgement_retires {psn : Nat} (hany : (s.session n).qp.ops.any (ackRetires psn) = true) :
    execRdmaAcknowledgement n psn s =
      .next (s.setOps n ((s.session n).qp.ops.filter (fun o => !ackRetires psn o))) :=
  congrArg Host.Outcome.next (if_pos hany)

section Timeout

variable (hopen : s.isOpen n = true) (hops : (s.session n).qp.ops ≠ [])

include hopen hops

/-- After seven retries the next time out loses the session (R533). -/
theorem execAckTimeout_loses (hretries : 7 ≤ (s.session n).qp.retries) : execAckTimeout n s = .next (s.sessLost n) := by
  simp only [execAckTimeout, hopen, hops, hretries, not_true, or_self, if_false, if_true]

theorem execAckTimeout_resends (hretries : (s.session n).qp.retries < 7) :
    execAckTimeout n s = .next ((s.session n).qp.ops.foldl (fun (s : State) (o : RdmaOp) => s.resendOp n o)
      (s.setSession n
        { s.session n with qp := { (s.session n).qp with retries := (s.session n).qp.retries + 1 } })) := by
  simp only [execAckTimeout, hopen, hops, Nat.not_le.mpr hretries, not_true, or_self, if_false]

end Timeout

/-- A port without link for 50 ms, 31250000 periods of 1.6 ns, loses its sessions (R533). -/
theorem execSessionNoLink_loses {a : Nat} (hdown : (s.eth (s.fld (hssSessionPort n))).downSince = some a)
    (hlong : a + 31250000 ≤ s.clock) : execSessionNoLink n s = .next (s.sessLost n) := by
  simp only [execSessionNoLink, hdown, hlong, if_true]

theorem execRemoteAccessError_oldest {o : RdmaOp} {rest : List RdmaOp} (hops : (s.session n).qp.ops = o :: rest) :
    execRemoteAccessError n s =
      .next (((s.setOps n (rest.filter (fun q => !refusedToo o q))).xfault n o.win o.off 5 o.who).opRefused n o rest) := by
  simp only [execRemoteAccessError, hops]

theorem execRdmaReadResponse_delivers {b : List Byte} {o : RdmaOp} {ops : List RdmaOp} {why : ReadFor} {t : State}
    (hop : takeOp (fun o => o.read.isSome && !o.fetches) (s.session n).qp.ops = some (o, ops))
    (hwhy : o.read = some why) (hlen : b.length = o.len) (hcame : (s.setOps n ops).readCame n why b = .ok t) :
    execRdmaReadResponse n b s = .next t := by
  simp only [execRdmaReadResponse, hop, hwhy, hlen, hcame, ne_eq, not_true, if_false, outcomeOf, id]

end Traffic

/-- Settles O26, a clause per command and two for the time out; a single fence and a single WRITE are the only entries
of their lists. -/
theorem ringTraffic : Obligations.RingTraffic := by
  refine ⟨fun n w d s hfences hdone => ?fence, fun _ _ _ _ _ _ _ => execDescriptorFetch_accepts,
    fun _ _ _ _ _ _ _ => execDescriptorRefetch_accepts, fun n psn o s hops hwrite hpsn => ?acknowledgement,
    fun _ _ => execAckTimeout_loses, fun _ _ => execAckTimeout_resends, fun _ _ => rfl,
    fun _ _ _ => execSessionNoLink_loses, fun _ _ _ _ => execRemoteAccessError_oldest,
    fun _ _ _ _ _ _ _ => execRdmaReadResponse_delivers⟩
  case fence =>
    have hmine : [(w, d)] = (s.session n).fences.filter (fun f => decide (f.1 = w)) := by simp [hfences]
    have hothers : (s.session n).fences.filter (fun f => decide (f.1 ≠ w)) = [] := by simp [hfences]
    exact (execFenceDone_completes hmine (List.cons_ne_nil _ _) hdone).trans (by rw [hothers]; rfl)
  case acknowledgement =>
    subst hpsn
    have hretired : ackRetires o.psn o = true := ackRetires_self hwrite
    have hany : (s.session n).qp.ops.any (ackRetires o.psn) = true := by simp [hops, hretired]
    have hleft : (s.session n).qp.ops.filter (fun q => !ackRetires o.psn q) = [] := by simp [hops, hretired]
    exact (execRdmaAcknowledgement_retires hany).trans (by rw [hleft])

/-! ### Descriptors on windows (R466 to R470, R555) -/

/-- A WINDOW_DEFINE descriptor that the state `s` admits: a window number that the host may define, a base and a length
of whole pages, a window that is free, and room in the page table. -/
structure WindowFits (s : State) (n : Nat) (d : OutDesc) : Prop where
  known : 1 ≤ d.par 0x10 1 ∧ d.par 0x10 1 ≤ 31
  aligned : d.par 0x18 8 % 65536 = 0
  whole : d.par 0x20 8 % 65536 = 0
  nonempty : d.par 0x20 8 ≠ 0
  bounded : d.par 0x20 8 ≤ 2 ^ 40
  free : s.window n (d.par 0x10 1) = none
  room : s.pagesUsed + d.par 0x20 8 / 65536 ≤ 2 ^ 24

/-- The window that a WINDOW_DEFINE descriptor makes: no page mapped, no fence (R466). -/
def definedWindow (d : OutDesc) : Window :=
  { base := d.par 0x18 8, len := d.par 0x20 8, key := d.par 0x14 4, linear := bitAt (d.par 0x11 1) 2,
    flags := d.par 0x11 1 % 4, pages := [], fenced := false }

theorem windowEffect_defines {n : Nat} {d : OutDesc} {t : State} (hfits : WindowFits t n d) :
    windowEffect n d t = (t.setWindow n (d.par 0x10 1) (definedWindow d)).doneDesc n d [] := by
  obtain ⟨⟨hfirst, hlast⟩, haligned, hwhole, hnonempty, hbounded, hfree, hroom⟩ := hfits
  have hnumber : ¬ (d.par 0x10 1 = 0 ∨ 31 < d.par 0x10 1) := by omega
  have hlen : ¬ (d.par 0x20 8 % 65536 ≠ 0 ∨ d.par 0x20 8 = 0 ∨ 2 ^ 40 < d.par 0x20 8) := by omega
  simp only [windowEffect, definedWindow, hnumber, haligned, hlen, hfree, Nat.not_lt.mpr hroom, Option.isSome_none, ne_eq,
    not_true, Bool.false_eq_true, or_self, if_false]

section ReadyWindow

variable {n : SessId} {idx : Nat} {d : OutDesc} {s t : State}

theorem execNop_ready (h : Ready s n idx 0x01 modesAll d) :
    execNop n idx s = .next ((s.startDesc n idx).doneDesc n d []) := by
  rw [execNop, runDesc_ready _ h]

theorem execWindowDefine_ready (h : Ready s n idx 0x02 modesMNAX d) :
    execWindowDefine n idx s = .next (windowEffect n d (s.startDesc n idx)) := by
  rw [execWindowDefine, runDesc_ready _ h]

/-- An opcode that the manual does not use is refused in whatever mode its descriptor may start (R555, R558). -/
theorem execUnusedOpcode_refuses (hstart : s.startable n idx = some d) (hunused : d.opcode ∉ usedOpcodes) :
    execUnusedOpcode n idx s = .next ((s.startDesc n idx).finishDesc n idx 3 []) := by
  simp only [execUnusedOpcode, hstart, List.contains_iff_mem, hunused, if_false]

section MapInline

variable {es : List Nat} (h : Ready s n idx 0x03 modesMNAX d)
  (hes : es = pageEntries (d.par 0x11 1) (slice d.bytes 0x18 88))

include h hes

/-- Revocation is judged in the state in which the descriptor starts, its effect in the state `t` in which it has. -/
theorem execMapInline_maps (ht : t = s.startDesc n idx)
    (hcheck : t.mapCheck n (d.par 0x10 1) (d.par 0x14 4) (d.par 0x11 1) 0x11 11 = none)
    (hkeeps : s.revokes n (d.par 0x10 1) (d.par 0x14 4) es = false) :
    execMapInline n idx s = .next ((t.mapPages n (d.par 0x10 1) (d.par 0x14 4) es).doneDesc n d []) := by
  subst ht hes
  have ⟨hstart, _, _⟩ := h
  simp only [execMapInline, hstart, hkeeps, Bool.and_false, Bool.false_eq_true, if_false, runDesc_ready _ h, hcheck]

theorem execMapInline_revokes
    (hcheck : s.mapCheck n (d.par 0x10 1) (d.par 0x14 4) (d.par 0x11 1) 0x11 11 = none)
    (hrevokes : s.revokes n (d.par 0x10 1) (d.par 0x14 4) es = true) :
    execMapInline n idx s = .fault (.undefinedBehaviour .revokeUnfenced) := by
  subst hes
  obtain ⟨hstart, hopcode, hmode⟩ := h
  simp only [execMapInline, hstart, hopcode, hmode, hcheck, hrevokes, decide_true, Option.isNone_none, Bool.and_self,
    if_true]

end MapInline

section Started

variable (ht : t = s.startDesc n idx)

include ht

theorem execMapTable_reads (h : Ready s n idx 0x04 modesMNAX d)
    (hcheck : t.mapCheck n (d.par 0x10 1) (d.par 0x14 4) (d.par 0x18 4) 0x18 (2 ^ 24) = none) :
    execMapTable n idx s = .next (t.loadRead n d 0x20 (8 * d.par 0x18 4) (.pages d.idx)) := by
  subst ht
  rw [execMapTable, runDesc_ready _ h]
  simp only [hcheck]

section NamedWindow

variable {v : Window} (hfirst : 1 ≤ d.par 0x10 1) (hlast : d.par 0x10 1 ≤ 31)
  (hwin : t.window n (d.par 0x10 1) = some v)

include hfirst hlast hwin

theorem execFence_waits {u : State} (h : Ready s n idx 0x05 modesAll d)
    (hu : u = t.setWindow n (d.par 0x10 1) { v with fenced := true }) :
    execFence n idx s = .next
      (u.setSession n { u.session n with fences := (u.session n).fences ++ [(d.par 0x10 1, d.idx)] }) := by
  subst ht hu
  have hnumber : ¬ (d.par 0x10 1 = 0 ∨ 31 < d.par 0x10 1) := by omega
  rw [execFence, runDesc_ready _ h]
  simp only [hnumber, hwin, if_false]

theorem execRelease_frees (h : Ready s n idx 0x06 modesAll d) (hfenced : v.fenced = true) :
    execRelease n idx s = .next ((t.setWindow n (d.par 0x10 1) initWindow).doneDesc n d []) := by
  subst ht
  have hnumber : ¬ (d.par 0x10 1 = 0 ∨ 31 < d.par 0x10 1) := by omega
  rw [execRelease, runDesc_ready _ h]
  simp only [hnumber, hwin, hfenced, if_false, if_true]

end NamedWindow

end Started

end ReadyWindow

/-- Settles O31, a clause per descriptor and two for MAP_INLINE, by what its entries revoke. -/
theorem windowDescriptors : Obligations.WindowDescriptors := by
  refine ⟨fun _ _ _ _ => execNop_ready,
    fun n idx d s t w base len f h ht hw hbase hlen hf hfirst hlast haligned hwhole hnonempty hbounded hfree hroom => ?define,
    fun _ _ _ _ _ _ h ht hes _ => execMapInline_maps h hes ht,
    fun _ _ _ _ h => execMapInline_revokes h rfl,
    fun _ _ _ _ _ h ht => execMapTable_reads ht h,
    fun _ _ _ _ _ _ _ h ht hfirst hlast hwin => execFence_waits ht hfirst hlast hwin h,
    fun _ _ _ _ _ _ h ht hfirst hlast hwin => execRelease_frees ht hfirst hlast hwin h,
    fun _ _ _ _ => execUnusedOpcode_refuses⟩
  case define =>
    subst ht hw hbase hlen hf
    have hfits : WindowFits (s.startDesc n idx) n d :=
      ⟨⟨hfirst, hlast⟩, haligned, hwhole, hnonempty, hbounded, hfree, hroom⟩
    exact (execWindowDefine_ready h).trans (by rw [windowEffect_defines hfits, definedWindow])

end Sys2Proof.HostMemory

/-! The step (00_scope.md, 01_module_at_a_glance.md): what runs next, what a command may change, and the canonical form of
the setup registers. `exec_keeps` gathers the lemmas of Laws/KeepsOps, one per command, under the scopes of Safety; the
statements on frames, on the queue and on the registers each read one part of it. -/

namespace Sys2Proof.Steps

open Sys2Proof.Machine Sys2Proof.Safety

/-! ### What a command may change -/

/-- Every command keeps to its scope. -/
theorem exec_keeps : ∀ (c : Instr) (s : State), Answers (scope c) s (exec c s)
  | .qsfpModuleInserted cage powerMw media, s => execQsfpModuleInserted_keeps cage powerMw media s
  | .signalDetect p, s => execSignalDetect_keeps p s
  | .dscInterval p, s => execDscInterval_keeps p s
  | .dsc p role seq, s => execDsc_keeps p role seq s
  | .capabilityRecord p ty seq bytes, s => execCapabilityRecord_keeps p ty seq bytes s
  | .ack p ty seq, s => execAck_keeps p ty seq s
  | .nak p ty seq, s => execNak_keeps p ty seq s
  | .recordTimeout p, s => execRecordTimeout_keeps p s
  | .stepAck p rate lane, s => execStepAck_keeps p rate lane s
  | .laneRateSwitch p lane, s => execLaneRateSwitch_keeps p lane s
  | .adaptationDone p lane eye, s => execAdaptationDone_keeps p lane eye s
  | .result p fom lane, s => execResult_keeps p fom lane s
  | .resultTimeout p lane, s => execResultTimeout_keeps p lane s
  | .switch p rate lanes, s => execSwitch_keeps p rate lanes s
  | .lineCodeSwitch p, s => execLineCodeSwitch_keeps p s
  | .lockTimeout p, s => execLockTimeout_keeps p s
  | .blockLock p lane headers, s => execBlockLock_keeps p lane headers s
  | .blockLockLost p lane headers, s => execBlockLockLost_keeps p lane headers s
  | .align p lane block arrivalPs, s => execAlign_keeps p lane block arrivalPs s
  | .status p lane block, s => execStatus_keeps p lane block s
  | .bringupTimeout p, s => execBringupTimeout_keeps p s
  | .discoverRetry p, s => execDiscoverRetry_keeps p s
  | .line p pkt, s => execLine_keeps p pkt s
  | .ctrlAcknowledgement p pkt, s => execCtrlAcknowledgement_keeps p pkt s
  | .cevt p pkt, s => execCevt_keeps p pkt s
  | .applyTimeout p, s => execApplyTimeout_keeps p s
  | .ctrlTimeout p, s => execCtrlTimeout_keeps p s
  | .phyIdleTimeout p, s => execPhyIdleTimeout_keeps p s
  | .phyWake p, s => execPhyWake_keeps p s
  | .phyWakeTimeout p, s => execPhyWakeTimeout_keeps p s
  | .warmResumeAdaptDone p eyes, s => execWarmResumeAdaptDone_keeps p eyes s
  | .warmStatusTimeout p, s => execWarmStatusTimeout_keeps p s
  | .fomLow p, s => execFomLow_keeps p s
  | .rediscover p, s => execRediscover_keeps p s
  | .adapt p, s => execAdapt_keeps p s
  | .flushTimer c, s => execFlushTimer_keeps c s
  | .granuleBoundary sl, s => execGranuleBoundary_keeps sl s
  | .bankCopyDone c, s => execBankCopyDone_keeps c s
  | .sliceIdleTimeout sl, s => execSliceIdleTimeout_keeps sl s
  | .sliceWake sl, s => execSliceWake_keeps sl s
  | .frontEndLine c, s => execFrontEndLine_keeps c s
  | .outputLine c, s => execOutputLine_keeps c s
  | .bandDeadline c partner, s => execBandDeadline_keeps c partner s
  | .overviewLine, s => execOverviewLine_keeps s
  | .ovwRateLimit, s => execOvwRateLimit_keeps s
  | .labelLine c, s => execLabelLine_keeps c s
  | .buntingRecord, s => execBuntingRecord_keeps s
  | .pennantWrite, s => execPennantWrite_keeps s
  | .gatherTimeout, s => execGatherTimeout_keeps s
  | .lineCompress c carried, s => execLineCompress_keeps c carried s
  | .tableDelivery c strip lens, s => execTableDelivery_keeps c strip lens s
  | .depthUpdate, s => execDepthUpdate_keeps s
  | .ratioUpdate, s => execRatioUpdate_keeps s
  | .jobUnit job, s => execJobUnit_keeps job s
  | .jobPreempt job, s => execJobPreempt_keeps job s
  | .compileDone res, s => execCompileDone_keeps res s
  | .planGoLive, s => execPlanGoLive_keeps s
  | .fallbackCompiled n plan tenMs, s => execFallbackCompiled_keeps n plan tenMs s
  | .fallbackLoadDone, s => execFallbackLoadDone_keeps s
  | .fallbackSwitch, s => execFallbackSwitch_keeps s
  | .refresh m, s => execRefresh_keeps m s
  | .retrain m corrections errors, s => execRetrain_keeps m corrections errors s
  | .refreshVariantSwitch, s => execRefreshVariantSwitch_keeps s
  | .codewordRead m rank burst word use, s => execCodewordRead_keeps m rank burst word use s
  | .commandAddressParity m rank, s => execCommandAddressParity_keeps m rank s
  | .dramTemperatureRead dies, s => execDramTemperatureRead_keeps dies s
  | .hotExitTimer, s => execHotExitTimer_keeps s
  | .migrationBurst m word, s => execMigrationBurst_keeps m word s
  | .dramTrainingDone m width height vref, s => execDramTrainingDone_keeps m width height vref s
  | .retiredClear m v, s => execRetiredClear_keeps m v s
  | .journalDurable n, s => execJournalDurable_keeps n s
  | .journalRebuildDone, s => execJournalRebuildDone_keeps s
  | .replayDone, s => execReplayDone_keeps s
  | .catchupReturn c, s => execCatchupReturn_keeps c s
  | .fenceDone ss win, s => execFenceDone_keeps ss win s
  | .descriptorFetch ss descs, s => execDescriptorFetch_keeps ss descs s
  | .descriptorRefetch ss desc, s => execDescriptorRefetch_keeps ss desc s
  | .rdmaAcknowledgement ss psn, s => execRdmaAcknowledgement_keeps ss psn s
  | .ackTimeout ss, s => execAckTimeout_keeps ss s
  | .invalidRequestNak ss, s => execInvalidRequestNak_keeps ss s
  | .sessionNoLink ss, s => execSessionNoLink_keeps ss s
  | .linkUp e, s => execLinkUp_keeps e s
  | .linkDown e, s => execLinkDown_keeps e s
  | .ceMarkedPacket ss, s => execCeMarkedPacket_keeps ss s
  | .cnp ss, s => execCnp_keeps ss s
  | .rateRecovery ss, s => execRateRecovery_keeps ss s
  | .pfcPause e paused, s => execPfcPause_keeps e paused s
  | .neighbourSolicitation e target, s => execNeighbourSolicitation_keeps e target s
  | .arpRequest e target, s => execArpRequest_keeps e target s
  | .hello f, s => execHello_keeps f s
  | .read f, s => execRead_keeps f s
  | .write f, s => execWrite_keeps f s
  | .openSession f, s => execOpenSession_keeps f s
  | .closeSession f, s => execCloseSession_keeps f s
  | .doorbell f, s => execDoorbell_keeps f s
  | .restartRings f, s => execRestartRings_keeps f s
  | .provision f, s => execProvision_keeps f s
  | .keySet f, s => execKeySet_keeps f s
  | .keyClear f, s => execKeyClear_keeps f s
  | .mgmtUnusedType f, s => execMgmtUnusedType_keeps f s
  | .authLockoutEnd ss, s => execAuthLockoutEnd_keeps ss s
  | .rdmaDoorbell ss key addr bytes, s => execRdmaDoorbell_keeps ss key addr bytes s
  | .nop ss idx, s => execNop_keeps ss idx s
  | .windowDefine ss idx, s => execWindowDefine_keeps ss idx s
  | .mapInline ss idx, s => execMapInline_keeps ss idx s
  | .mapTable ss idx, s => execMapTable_keeps ss idx s
  | .fence ss idx, s => execFence_keeps ss idx s
  | .release ss idx, s => execRelease_keeps ss idx s
  | .compile ss idx, s => execCompile_keeps ss idx s
  | .commit ss idx, s => execCommit_keeps ss idx s
  | .bankUpdate ss idx set, s => execBankUpdate_keeps ss idx set s
  | .slotLoad ss idx set, s => execSlotLoad_keeps ss idx set s
  | .start ss idx, s => execStart_keeps ss idx s
  | .inspectionStart, s => execInspectionStart_keeps s
  | .stop ss idx, s => execStop_keeps ss idx s
  | .stopEffect, s => execStopEffect_keeps s
  | .setZero ss idx, s => execSetZero_keeps ss idx s
  | .zeroLatch, s => execZeroLatch_keeps s
  | .settings ss idx, s => execSettings_keeps ss idx s
  | .cameraCtrl ss idx, s => execCameraCtrl_keeps ss idx s
  | .exportJob ss idx, s => execExportJob_keeps ss idx s
  | .reprocess ss idx, s => execReprocess_keeps ss idx s
  | .resume ss idx, s => execResume_keeps ss idx s
  | .cancel ss idx, s => execCancel_keeps ss idx s
  | .axisMove ss idx, s => execAxisMove_keeps ss idx s
  | .axisLimits ss idx, s => execAxisLimits_keeps ss idx s
  | .axisTable ss idx, s => execAxisTable_keeps ss idx s
  | .axisStop ss idx, s => execAxisStop_keeps ss idx s
  | .compareArm ss idx, s => execCompareArm_keeps ss idx s
  | .sineLoad ss idx, s => execSineLoad_keeps ss idx s
  | .toutArm ss idx, s => execToutArm_keeps ss idx s
  | .frameLaunch ss idx, s => execFrameLaunch_keeps ss idx s
  | .checkRun ss idx, s => execCheckRun_keeps ss idx s
  | .encoderClear ss idx, s => execEncoderClear_keeps ss idx s
  | .snapshot ss idx, s => execSnapshot_keeps ss idx s
  | .snapshotLatch, s => execSnapshotLatch_keeps s
  | .mode ss idx, s => execMode_keeps ss idx s
  | .calibrate ss idx, s => execCalibrate_keeps ss idx s
  | .fabric ss idx, s => execFabric_keeps ss idx s
  | .unusedOpcode ss idx, s => execUnusedOpcode_keeps ss idx s
  | .sync e m, s => execSync_keeps e m s
  | .followUp e m, s => execFollowUp_keeps e m s
  | .delayResp e m, s => execDelayResp_keeps e m s
  | .pdelay e kind m, s => execPdelay_keeps e kind m s
  | .announce e m, s => execAnnounce_keeps e m s
  | .announceTimeout, s => execAnnounceTimeout_keeps s
  | .syncTimeout, s => execSyncTimeout_keeps s
  | .syncInterval e, s => execSyncInterval_keeps e s
  | .ptpTransit e m kind dwell, s => execPtpTransit_keeps e m kind dwell s
  | .toutEdge t, s => execToutEdge_keeps t s
  | .toutPulseEnd t, s => execToutPulseEnd_keeps t s
  | .frameLaunchTime e q, s => execFrameLaunchTime_keeps e q s
  | .aoTrimMeasure trim, s => execAoTrimMeasure_keeps trim s
  | .taiSecond, s => execTaiSecond_keeps s
  | .ensignInterval, s => execEnsignInterval_keeps s
  | .ensign e bytes, s => execEnsign_keeps e bytes s
  | .coordinatorSettle, s => execCoordinatorSettle_keeps s
  | .addressAssignment, s => execAddressAssignment_keeps s
  | .assign e h body, s => execAssign_keeps e h body s
  | .assignAck e bytes, s => execAssignAck_keeps e bytes s
  | .order e bytes, s => execOrder_keeps e bytes s
  | .orderAck e bytes, s => execOrderAck_keeps e bytes s
  | .globalOperation, s => execGlobalOperation_keeps s
  | .orderAckDeadline, s => execOrderAckDeadline_keeps s
  | .bunting e bytes, s => execBunting_keeps e bytes s
  | .buntingAck e bytes, s => execBuntingAck_keeps e bytes s
  | .seamStrip e bytes, s => execSeamStrip_keeps e bytes s
  | .planReady e bytes, s => execPlanReady_keeps e bytes s
  | .snapshotData e bytes, s => execSnapshotData_keeps e bytes s
  | .heartbeat e bytes, s => execHeartbeat_keeps e bytes s
  | .fabricMessageForward e bytes, s => execFabricMessageForward_keeps e bytes s
  | .fabricRetransmit dest type seq, s => execFabricRetransmit_keeps dest type seq s
  | .heartbeatInterval dest, s => execHeartbeatInterval_keeps dest s
  | .neighbourLost addr, s => execNeighbourLost_keeps addr s
  | .ensignAbsence serial, s => execEnsignAbsence_keeps serial s
  | .ringClear, s => execRingClear_keeps s
  | .encoderEdge k a b z, s => execEncoderEdge_keeps k a b z s
  | .indexPulse k, s => execIndexPulse_keeps k s
  | .extensionRead k, s => execExtensionRead_keeps k s
  | .speedWindow k, s => execSpeedWindow_keeps k s
  | .requalificationEnd k, s => execRequalificationEnd_keeps k s
  | .handoverCompare k, s => execHandoverCompare_keeps k s
  | .motionTick x, s => execMotionTick_keeps x s
  | .stepEvaluation x, s => execStepEvaluation_keeps x s
  | .holdCurrentTimer x, s => execHoldCurrentTimer_keeps x s
  | .chopperOffsetUpdate x phaseB mean, s => execChopperOffsetUpdate_keeps x phaseB mean s
  | .limitSwitch x high, s => execLimitSwitch_keeps x high s
  | .axisFault x cause, s => execAxisFault_keeps x cause s
  | .markerOverload x, s => execMarkerOverload_keeps x s
  | .eventDelivery v, s => execEventDelivery_keeps v s
  | .pendingEvent v, s => execPendingEvent_keeps v s
  | .einEdge p level, s => execEinEdge_keeps p level s
  | .logicCellFire l, s => execLogicCellFire_keeps l s
  | .crcLoad u v, s => execCrcLoad_keeps u v s
  | .seamEstimate c fabricSeam peak shift, s => execSeamEstimate_keeps c fabricSeam peak shift s
  | .flatFieldDone c, s => execFlatFieldDone_keeps c s
  | .wakeInput, s => execWakeInput_keeps s
  | .wakeTimer, s => execWakeTimer_keeps s
  | .nightSignalDetect, s => execNightSignalDetect_keeps s
  | .domainWake d ns, s => execDomainWake_keeps d ns s
  | .temperatureRead die dram stage bridge, s => execTemperatureRead_keeps die dram stage bridge s
  | .criticalCooldown, s => execCriticalCooldown_keeps s
  | .currentLimit current, s => execCurrentLimit_keeps current s
  | .currentReduction current, s => execCurrentReduction_keeps current s
  | .deratingEvaluation mv, s => execDeratingEvaluation_keeps mv s
  | .presentAsserted, s => execPresentAsserted_keeps s
  | .inputQualified mv, s => execInputQualified_keeps mv s
  | .dawnStep r, s => execDawnStep_keeps r s
  | .sunriseStep n r, s => execSunriseStep_keeps n r s
  | .warmFailRetry, s => execWarmFailRetry_keeps s
  | .holdUp undervoltage, s => execHoldUp_keeps undervoltage s
  | .overvoltage, s => execOvervoltage_keeps s
  | .inputReturn, s => execInputReturn_keeps s
  | .holdupExhausted, s => execHoldupExhausted_keeps s
  | .pllLockLoss pll, s => execPllLockLoss_keeps pll s
  | .watchdogService core, s => execWatchdogService_keeps core s
  | .watchdogExpiry core, s => execWatchdogExpiry_keeps core s
  | .duskDrainEnd, s => execDuskDrainEnd_keeps s
  | .drainTimeout, s => execDrainTimeout_keeps s
  | .sliceLoss sl, s => execSliceLoss_keeps sl s
  | .engineLoss g, s => execEngineLoss_keeps g s
  | .fresetHold ms, s => execFresetHold_keeps ms s
  | .pwrRestart v, s => execPwrRestart_keeps v s
  | .hstNetCommit e v, s => execHstNetCommit_keeps e v s
  | .startFailClear v, s => execStartFailClear_keeps v s
  | .latchingLoRead reader addr, s => execLatchingLoRead_keeps reader addr s
  | .fifoPeakClear c v, s => execFifoPeakClear_keeps c v s
  | .partsPeakClear v, s => execPartsPeakClear_keeps v s
  | .queuePeakClear v, s => execQueuePeakClear_keeps v s
  | .timeTrigger p, s => execTimeTrigger_keeps p s
  | .qsfpModuleRemoved cage, s => execQsfpModuleRemoved_keeps cage s
  | .bridgedFrame e pcp bytes, s => execBridgedFrame_keeps e pcp bytes s
  | .imageARestored, s => execImageARestored_keeps s
  | .seamCorrectionSave, s => execSeamCorrectionSave_keeps s
  | .delayReq e m, s => execDelayReq_keeps e m s
  | .delayReqInterval e, s => execDelayReqInterval_keeps e s
  | .announceInterval e, s => execAnnounceInterval_keeps e s
  | .pfcLong e, s => execPfcLong_keeps e s
  | .remoteAccessError ss, s => execRemoteAccessError_keeps ss s
  | .rdmaReadResponse ss bytes, s => execRdmaReadResponse_keeps ss bytes s
  | .limitSwitchRelease x high, s => execLimitSwitchRelease_keeps x high s

/-- No scope holds the queue or the clock. -/
theorem mem_allParts_of_mem_scope {c : Instr} {p : Safety.Part} (h : p ∈ scope c) : p ∈ allParts := by
  have hall : (scope c).all allParts.contains = true := by cases c <;> rfl
  exact List.contains_iff_mem.mp (List.all_eq_true.mp hall p h)

section Answered

variable {c : Instr} {s t : State} (h : exec c s = .next t)

include h

theorem keeps_of_exec : Keeps (scope c) s t := exec_keeps c s t h

/-- A command changes nothing outside its scope. -/
theorem same_of_exec {p : Safety.Part} (hp : p ∉ scope c) : p.same s t := (keeps_of_exec h).same_of_not_mem hp

end Answered

/-- Settles O6: neither the queue nor the clock is one of the parts that a scope may hold. -/
theorem queueAndOutputs : Obligations.QueueAndOutputs := by
  intro c s t h
  have hqueue : .pending ∉ scope c := fun hp => absurd (mem_allParts_of_mem_scope hp) (by decide)
  have hclock : .clock ∉ scope c := fun hp => absurd (mem_allParts_of_mem_scope hp) (by decide)
  exact ⟨same_of_exec h hqueue, same_of_exec h hclock, (keeps_of_exec h).out, (keeps_of_exec h).free⟩

/-- Settles O7, by the scope of every command. -/
theorem frameOfCameraCommands : Obligations.FrameOfCameraCommands :=
  fun _ _ _ _ h _ => same_of_exec h

/-- Settles O8, by the scope of every command. -/
theorem frameOfHostCommands : Obligations.FrameOfHostCommands :=
  fun _ _ _ _ h _ => same_of_exec h

/-- Settles O9, by the scope of every command. -/
theorem frameOfDeviceCommands : Obligations.FrameOfDeviceCommands :=
  fun _ _ _ _ h _ => same_of_exec h

/-! ### The front of the queue -/

theorem step_of_pending_nil {s : State} (h : s.pending = []) : step s = .next (tick s) := by
  rw [step, h]

theorem step_of_pending_cons {s : State} {c : Instr} {rest : List Instr} (h : s.pending = c :: rest) :
    step s = exec c { s with pending := rest } := by
  rw [step, h]

/-- Settles O1: no word decodes to a command, so `withFetchWord` puts none in front. -/
theorem stepRunsTheFrontCommand : Obligations.StepRunsTheFrontCommand :=
  ⟨fun _ _ _ => step_of_pending_cons, fun _ _ => step_of_pending_cons rfl, fun _ _ _ => rfl⟩

/-- Settles O4, by the two things that a step may be: the clock's tick, which keeps the canonical form, or a command on
the queue's rest, which keeps it too. -/
theorem stepKeepsRegistersCanonical : Obligations.StepKeepsRegistersCanonical := by
  intro s t hs h
  cases hq : s.pending with
  | nil =>
    rw [step_of_pending_nil hq] at h
    cases h
    exact (tick_keeps s).regs hs
  | cons c rest =>
    rw [step_of_pending_cons hq] at h
    exact (keeps_of_exec h).regs hs

/-! ### The tick of the clock (R567) -/

/-- What follows the clock in a cycle outside NIGHT: schedule frames, logic cells and the gaps of lost modules. -/
theorem afterClock_keeps (s : State) (before : Nat) :
    Keeps [.frameTick, .regs, .pen, .jnl, .fab, .evt, .pwr] s ((s.frameStep before).cellsTick).lostGapsStep :=
  (State.lostGapsStep_keeps _).then rfl ((State.cellsTick_keeps _).then rfl ((State.frameStep_keeps s before).mono rfl))

theorem clockTick_noStep {s : State} (h : s.tim.step = none) :
    s.clockTick = { s with tim := { s.tim with tai := s.tim.tai + (8 * (2 ^ 48 + s.tim.r)).toNat } } := by
  simp only [State.clockTick, h]

/-- A cycle outside NIGHT with no clock step pending is the advance of the clock and of TAI time, then what changes
neither. -/
theorem tick_day_keeps {s : State} (hday : s.mode ≠ 0) (hstep : s.tim.step = none) :
    Keeps [.frameTick, .regs, .pen, .jnl, .fab, .evt, .pwr]
      { s with clock := s.clock + 1, tim := { s.tim with tai := s.tim.tai + (8 * (2 ^ 48 + s.tim.r)).toNat } } (tick s) := by
  have hclock := clockTick_noStep (s := { s with clock := s.clock + 1 }) hstep
  simp only [tick, if_neg hday, State.dayTick, hclock]
  exact afterClock_keeps _ _

/-- Settles O2: with the rate correction within its clamp TAI time never goes back, so its advance is a natural number. -/
theorem emptyQueueTicks : Obligations.EmptyQueueTicks := by
  refine ⟨fun s => step_of_pending_nil, fun s hday hstep hlow hhigh => ?_⟩
  have k := tick_day_keeps hday hstep
  have htim : (tick s).tim = _ := k.same_of_not_mem (p := .tim) (by decide)
  refine ⟨k.same_of_not_mem (p := .clock) (by decide), k.same_of_not_mem (p := .pending) (by decide), ?_⟩
  rw [htim]
  have hadvances : 0 ≤ 8 * (2 ^ 48 + s.tim.r) := by omega
  simp only [Nat.cast_add, Int.toNat_of_nonneg hadvances]

end Sys2Proof.Steps

/-! Marker axes (16_marker_axes.md): the descriptors on axes, their motion ticks and step evaluations, currents, limit
switches and faults. One equation per command and case, from which the statements are put together. -/

namespace Sys2Proof.MarkerAxes

open Sys2Proof.Machine Sys2Proof.Safety

/-! ### Descriptors on axes (R555, R666, R667, R673, R677, R681 to R684, R689 to R691, R713) -/

/-- An AXIS_MOVE descriptor that the state `s` admits: a known axis with plan `pl` that is on, has no raw table, no stop and
no fault, which no mark service owns, and a target within its limits and not beyond a closed switch. -/
structure MoveFits (s : State) (d : OutDesc) (x : Nat) (pl : AxisPlan) : Prop where
  axis : d.par 0x10 1 = x
  known : x < 2
  target : d.parInt 0x18 = toSigned 40 (ofSigned 40 (d.parInt 0x18))
  speed : d.par 0x20 4 ≤ 4000000
  free : s.markOwned x = false
  plan : s.axPlan x = some pl
  isOn : s.axIs x 0 = false
  notRaw : s.axIs x 3 = false
  notStopping : s.axIs x 4 = false
  noFault : s.axIs x 5 = false
  inside : s.outside x (d.parInt 0x18) = false
  clear : s.towardSwitch x (s.ax x).p (d.parInt 0x18) = false

/-- A rate of a move: the descriptor's, or the plan's where that is 0. -/
def rateOr (d : OutDesc) (off planned : Nat) : Nat := if d.par off 4 = 0 then planned else d.par off 4

/-- The move that an AXIS_MOVE descriptor asks for. -/
def orderedMove (n : Nat) (d : OutDesc) (pl : AxisPlan) : AxisMove :=
  ⟨d.parInt 0x18, rateOr d 0x20 pl.vel, rateOr d 0x24 pl.acc, rateOr d 0x28 pl.dec, n, d.idx, false⟩

/-- With no move under way none is replaced. -/
theorem axisMoveEffect_takes {n : Nat} {d : OutDesc} {s : State} {x : Nat} {pl : AxisPlan} (h : MoveFits s d x pl)
    (hnew : (s.ax x).newMove = none) (hmove : (s.ax x).move = none) :
    axisMoveEffect n d s = s.setAx x { s.ax x with newMove := some (orderedMove n d pl), move := none } := by
  obtain ⟨rfl, hknown, htarget, hspeed, hfree, hplan, hon, hraw, hstop, hfault, hinside, hclear⟩ := h
  simp only [axisMoveEffect, Nat.not_le.mpr hknown, ← htarget, Nat.not_lt.mpr hspeed, hfree, hplan, hon, hraw, hstop, hfault,
    hinside, hclear, hnew, hmove, ne_eq, not_true, Bool.or_self, Bool.false_eq_true, if_false, List.append_nil,
    List.foldl_nil, orderedMove, rateOr]

theorem axisLimitsEffect_takes {n : Nat} {d : OutDesc} {s : State} {x v a c : Nat} (hx : x = d.par 0x10 1)
    (hv : v = d.par 0x14 4) (ha : a = d.par 0x18 4) (hc : c = d.par 0x1C 4) (hknown : x < 2) (hv0 : v ≠ 0)
    (hspeed : v ≤ 4000000) (ha0 : a ≠ 0) (hc0 : c ≠ 0) (hfree : s.markOwned x = false) :
    axisLimitsEffect n d s = (s.setAx x { s.ax x with newLims := some (v, a, c) }).doneDesc n d [] := by
  subst hx hv ha hc
  simp only [axisLimitsEffect, Nat.not_le.mpr hknown, hv0, Nat.not_lt.mpr hspeed, ha0, hc0, hfree, or_self,
    Bool.false_eq_true, if_false]

/-- An AXIS_TABLE descriptor that the state `s` admits: an axis with a plan that is on, in no stop and no fault, with no
other table waiting. -/
structure TableFits (s : State) (d : OutDesc) (x : Nat) (pl : AxisPlan) : Prop where
  axis : d.par 0x10 1 = x
  known : x < 2
  form : d.par 0x11 1 < 2
  nonempty : d.par 0x12 2 ≠ 0
  bounded : d.par 0x12 2 ≤ 1024
  free : s.markOwned x = false
  plan : s.axPlan x = some pl
  isOn : s.axIs x 0 = false
  notStopping : s.axIs x 4 = false
  noFault : s.axIs x 5 = false
  room : (s.ax x).nextRaw = none

theorem axisTableEffect_reads {n : Nat} {d : OutDesc} {s : State} {x : Nat} {pl : AxisPlan} (h : TableFits s d x pl) :
    axisTableEffect n d s = s.loadRead n d 0x20 (16 * d.par 0x12 2 + 16) (.segments d.idx) := by
  obtain ⟨rfl, hknown, hform, hnonempty, hbounded, hfree, hplan, hon, hstop, hfault, hroom⟩ := h
  simp only [axisTableEffect, Nat.not_le.mpr hknown, Nat.not_le.mpr hform, hnonempty, Nat.not_lt.mpr hbounded, hfree, hplan,
    hon, hstop, hfault, hroom, or_self, Option.isNone_some, Option.isSome_none, Bool.or_self, Bool.false_eq_true, if_false]

theorem axisStopEffect_stops {n : Nat} {d : OutDesc} {s : State} (hknown : d.par 0x10 1 < 2) (hform : d.par 0x11 1 < 2)
    (hfault : s.axIs (d.par 0x10 1) 5 = false) :
    axisStopEffect n d s = s.axStop (d.par 0x10 1) (decide (d.par 0x11 1 = 1)) [(n, d.idx, 0)] := by
  simp only [axisStopEffect, Nat.not_le.mpr hknown, Nat.not_le.mpr hform, hfault, Bool.false_eq_true, if_false]

/-- The compare that a COMPARE_ARM descriptor arms in unit `u`, its pennant's context `ctx` a free value. -/
def armedCompare (n : Nat) (d : OutDesc) (u ctx : Nat) : Compare :=
  ⟨u, decide (d.par 0x11 1 = 0), d.parInt 0x18, decide (d.par 0x12 1 = 1), decide (d.par 0x13 1 = 1), n, d.idx, 0, 0, ctx, 0⟩

theorem compareArmEffect_arms {n : Nat} {d : OutDesc} {s : State} {u : Nat} {pl : AxisPlan} (hknown : d.par 0x10 1 < 2)
    (hdir : d.par 0x11 1 < 2) (hrep : d.par 0x12 1 < 2) (hpen : d.par 0x13 1 < 2)
    (hunit : s.freeUnit (d.par 0x10 1) = some u) (hplan : s.axPlan (d.par 0x10 1) = some pl) :
    compareArmEffect n d s = ((s.takeFree 12).2.setClaim 1 (8 * d.par 0x10 1 + u) (some (ownerOf n))).armCompare (d.par 0x10 1)
      (armedCompare n d u (s.takeFree 12).1) := by
  simp only [compareArmEffect, Nat.not_le.mpr hknown, Nat.not_le.mpr hdir, Nat.not_le.mpr hrep, Nat.not_le.mpr hpen, hunit,
    hplan, if_false, armedCompare]

section ReadyAxis

variable {n : SessId} {idx : Nat} {d : OutDesc} {s : State}

theorem execAxisMove_ready (h : Ready s n idx 0x40 modesMNAX d) :
    execAxisMove n idx s = .next (axisMoveEffect n d (s.startDesc n idx)) := by
  rw [execAxisMove, runDesc_ready _ h]

theorem execAxisLimits_ready (h : Ready s n idx 0x41 modesMNAX d) :
    execAxisLimits n idx s = .next (axisLimitsEffect n d (s.startDesc n idx)) := by
  rw [execAxisLimits, runDesc_ready _ h]

theorem execAxisTable_ready (h : Ready s n idx 0x42 modesMNAX d) :
    execAxisTable n idx s = .next (axisTableEffect n d (s.startDesc n idx)) := by
  rw [execAxisTable, runDesc_ready _ h]

theorem execAxisStop_ready (h : Ready s n idx 0x43 modesAll d) :
    execAxisStop n idx s = .next (axisStopEffect n d (s.startDesc n idx)) := by
  rw [execAxisStop, runDesc_ready _ h]

theorem execCompareArm_ready (h : Ready s n idx 0x44 modesMNA d) :
    execCompareArm n idx s = .next (compareArmEffect n d (s.startDesc n idx)) := by
  rw [execCompareArm, runDesc_ready _ h]

theorem execSineLoad_still (h : Ready s n idx 0x45 modesMX d) (hknown : d.par 0x10 1 < 2)
    (hstill : s.axMoving (d.par 0x10 1) = false) :
    execSineLoad n idx s = .next ((s.startDesc n idx).loadRead n d 0x18 2056 (.sine d.idx)) := by
  have ⟨hstart, _, _⟩ := h
  simp only [execSineLoad, hstart, hstill, Bool.false_eq_true, and_false, if_false, runDesc_ready _ h, sineLoadEffect,
    Nat.not_le.mpr hknown]

theorem execSineLoad_moving (h : Ready s n idx 0x45 modesMX d) (hknown : d.par 0x10 1 < 2)
    (hmoves : s.axMoving (d.par 0x10 1) = true) :
    execSineLoad n idx s = .fault (.undefinedBehaviour .sineWhileMoving) := by
  obtain ⟨hstart, hopcode, hmode⟩ := h
  simp only [execSineLoad, hstart, hopcode, hmode, hknown, hmoves, and_self, if_true]

end ReadyAxis

/-- Settles O36: a ready descriptor has its effect in the state in which it has started. -/
theorem axisDescriptors : Obligations.AxisDescriptors := by
  refine ⟨fun n idx d pl s t x h ht hx hknown htarget hspeed hfree hplan _ hoff hraw hstop hfault hinside hclear hnew
      hmove => ?move,
    fun n idx d s t x v a c h ht hx hv ha hc hknown hv0 hspeed ha0 hc0 hfree => ?limits,
    fun n idx d pl s t x h ht hx hknown hform hnonempty hbounded hfree hplan hoff hstop hfault hroom => ?table,
    fun n idx d s t x h ht hx hknown hform hfault => ?stop,
    fun n idx d pl s t x u h ht hx hknown hdir hrep hpen hunit hplan => ?compare,
    fun n idx d s t h ht hknown hstill => ?sine⟩
  all_goals subst ht
  case move =>
    have hfits : MoveFits (s.startDesc n idx) d x pl :=
      ⟨hx.symm, hknown, htarget, hspeed, hfree, hplan, hoff, hraw, hstop, hfault, hinside, hclear⟩
    exact (execAxisMove_ready h).trans (by rw [axisMoveEffect_takes hfits hnew hmove]; rfl)
  case limits =>
    exact (execAxisLimits_ready h).trans
      (by rw [axisLimitsEffect_takes hx hv ha hc hknown hv0 hspeed ha0 hc0 hfree])
  case table =>
    have hfits : TableFits (s.startDesc n idx) d x pl :=
      ⟨hx.symm, hknown, hform, hnonempty, hbounded, hfree, hplan, hoff, hstop, hfault, hroom⟩
    exact (execAxisTable_ready h).trans (by rw [axisTableEffect_reads hfits])
  case stop =>
    subst hx
    exact (execAxisStop_ready h).trans (by rw [axisStopEffect_stops hknown hform hfault])
  case compare =>
    subst hx
    exact (execCompareArm_ready h).trans (by rw [compareArmEffect_arms hknown hdir hrep hpen hunit hplan]; rfl)
  case sine => exact execSineLoad_still h hknown hstill

/-- Settles O58: the check of R667 comes before the descriptor starts. -/
theorem sineLoadWhileMoving : Obligations.SineLoadWhileMoving :=
  fun _ _ _ _ => execSineLoad_moving

/-! ### Motion ticks, step evaluations and currents (R664, R665, R669, R675, R678 to R681, R684) -/

section MotionTick

variable {x : AxisId} {s t : State} (hsine : (s.ax x).newSine = none) (hlimit : (s.ax x).limitDue = none)
  (hlims : (s.ax x).newLims = none)

include hsine hlimit hlims

theorem execMotionTick_takesMove {m : AxisMove} (hmove : (s.ax x).newMove = some m)
    (ht : t = (s.setAx x { s.ax x with newMove := none }).replan x m false) (hraw : (t.ax x).nextRaw = none) :
    execMotionTick x s = .next (t.serveMarks x 257) := by
  subst ht
  simp only [hsine, hlimit, hlims] at hraw
  simp only [execMotionTick, hsine, hlimit, hmove, hlims, hraw]

theorem execMotionTick_marksOnly (hmove : (s.ax x).newMove = none) (hraw : (s.ax x).nextRaw = none) :
    execMotionTick x s = .next (s.serveMarks x 257) := by
  simp only [execMotionTick, hsine, hlimit, hmove, hlims, hraw]

end MotionTick

section Axis

variable {x : AxisId} {s : State}

theorem execStepEvaluation_moves (hsegs : (s.ax x).segs ≠ []) :
    execStepEvaluation x s = .next ((s.stepAxis x ((s.ax x).segs.length + 1)).axCoils x) := by
  simp only [execStepEvaluation, List.isEmpty_iff, hsegs, if_false]

theorem execHoldCurrentTimer_holds (hstill : s.axIs x 1 = true) (hrun : s.flag (axStatusHold x) = false)
    (hlong : (s.ax x).endedAt + 100000000 ≤ s.taiNs) :
    execHoldCurrentTimer x s = .next ((s.setFld (axStatusHold x) 1).axCoils x) := by
  simp only [execHoldCurrentTimer, hstill, hrun, hlong, decide_true, Bool.not_false, Bool.and_self, if_true]

/-- The offset of phase A moves by a quarter of the error of its current while it stays within 50 (R669). -/
theorem execChopperOffsetUpdate_phaseA {mean e o : Int} (he : e = s.phaseRef x false - mean)
    (ho : o = s.fldInt (axChopOffsetOffsetA x) + rdiv e 4) (hbound : o.natAbs ≤ 50) :
    execChopperOffsetUpdate x false mean s = .next (((s.setAx x { s.ax x with residA := e.natAbs }).setFld
      (axChopOffsetResidual x) (satU 8 e.natAbs)).setFldInt (axChopOffsetOffsetA x) o) := by
  subst he ho
  simp only [execChopperOffsetUpdate, Bool.false_eq_true, if_false, hbound, if_true]

/-! ### Limit switches, faults and overloads (R685 to R687, R794) -/

/-- What a high limit switch that closes shows and fires. -/
def highClosed (x : Nat) (s : State) : State := (s.setFld (axStatusHighActive x) 1).fire (320 + 10 * x + 6)

theorem ax_highClosed (x y : Nat) (s : State) : (highClosed x s).ax y = s.ax y := by
  have haxes : (highClosed x s).axes = s.axes :=
    (State.fire_keeps (s.setFld (axStatusHighActive x) 1) _).same_of_not_mem (p := .axes) (by decide)
  rw [State.ax, haxes, State.ax]

theorem execLimitSwitch_highAway (hv : (s.ax x).v ≤ 0) : execLimitSwitch x true s = .next (highClosed x s) := by
  have haway : ¬ 0 < ((highClosed x s).ax x).v := by rw [ax_highClosed]; omega
  exact if_pos (by simpa [highClosed] using haway)

theorem execLimitSwitch_highToward (hv : 0 < (s.ax x).v) :
    execLimitSwitch x true s = .next ((highClosed x s).axStop x ((highClosed x s).flag (axCtrlHighRamped x)) []) := by
  have htoward : 0 < ((highClosed x s).ax x).v := by rw [ax_highClosed]; exact hv
  exact if_neg (by simpa [highClosed] using htoward)

theorem execAxisFault_stops {c : Fin 8} (hlow : c.val ≠ 0) (hhigh : c.val ≤ 5) (hon : s.axIs x 0 = false)
    (hnone : s.axIs x 5 = false) : execAxisFault x c s = .next (s.axFault x c) := by
  simp only [execAxisFault, hlow, Nat.not_lt.mpr hhigh, hon, hnone, Bool.false_eq_true, or_self, if_false]

theorem execMarkerOverload_drops {e : Nat} (hon : s.flag (axCtrlEnable x) = true)
    (hhigh : (s.tout (s.fld (axCtrlMarkTout x))).high = some e)
    (hfirst : (s.tout (s.fld (axCtrlMarkTout x))).overload = false) :
    execMarkerOverload x s = .next ((s.setTout (s.fld (axCtrlMarkTout x))
      { s.tout (s.fld (axCtrlMarkTout x)) with overload := true }).emit (.marker x false)) := by
  simp only [execMarkerOverload, hon, hhigh, hfirst, Option.isSome_some, Bool.not_false, Bool.and_self, if_true]

end Axis

/-- Settles O45, a clause per command and case. -/
theorem axisCommands : Obligations.AxisCommands :=
  ⟨fun _ _ _ _ hsine hlimit hmove hlims => execMotionTick_takesMove hsine hlimit hlims hmove,
    fun _ _ hsine hlimit hmove hlims => execMotionTick_marksOnly hsine hlimit hlims hmove,
    fun _ _ => execStepEvaluation_moves, fun _ _ => execHoldCurrentTimer_holds,
    fun _ _ _ _ _ ho hbound ht => ht ▸ execChopperOffsetUpdate_phaseA rfl ho hbound,
    fun _ _ => execLimitSwitch_highAway, fun _ _ _ hv ht => ht ▸ execLimitSwitch_highToward hv,
    fun _ _ _ => execAxisFault_stops, fun _ _ _ => execMarkerOverload_drops, fun _ _ => ⟨rfl, rfl⟩⟩

end Sys2Proof.MarkerAxes

/-! Host rings (12_host_rings.md): the management requests and the descriptors that no chapter of its own describes. One
equation per command and case, from which the statements are put together. -/

namespace Sys2Proof.HostRings

open Sys2Proof.Machine Sys2Proof.Safety

/-! ### The setup window by request (R516 to R524) -/

/-- A verified request of a type that only sessions use. -/
theorem mgmtType_authentic {s : State} {f : MgmtFrame} {m : Mgmt} {k : List Byte} {ty : Nat} {g : MgmtFn}
    (h : Authentic s f m k ty) {st : Nat} {body : List Byte} {t : State}
    (hg : g m.sess m f (s.seqAccept m.sess m.seq) = .ok (st, body, t)) :
    s.mgmtType f ty g = .next (answered t f m k st body) :=
  mgmtRun_authentic _ _ _ _ h (decide_eq_true rfl) rfl hg

/-- The session of a verified request is one of the four, so it is not the byte that stands for none. -/
theorem sess_ne_none_of_authentic {s : State} {f : MgmtFrame} {m : Mgmt} {k : List Byte} {ty : Nat}
    (h : Authentic s f m k ty) : m.sess ≠ 0xFF := by
  obtain ⟨-, -, -, -, hsess, -⟩ := h
  omega

/-- Accepting the sequence leaves the key alone under which a request was verified. -/
theorem key_seqAccept_of_authentic {s : State} {f : MgmtFrame} {m : Mgmt} {k : List Byte} {ty : Nat}
    (h : Authentic s f m k ty) : ((s.seqAccept m.sess m.seq).session m.sess).key = some k := by
  obtain ⟨-, -, -, -, -, -, -, -, -, -, hkey, -⟩ := h
  exact hkey

section Requests

variable {s : State} {f : MgmtFrame} {m : Mgmt} {k : List Byte}

theorem execHello_anonymous (h : Anonymous s f m 1) (hlen : m.len = 0) :
    execHello f s = .next (s.mgmtSend f (replyBytes m 0 (s.helloBody false) none)) :=
  mgmtRun_anonymous _ _ _ _ h (decide_eq_true rfl) rfl (by simp only [hlen, ne_eq, not_true, if_false, decide_false])

theorem execHello_authentic (h : Authentic s f m k 1) (hlen : m.len = 0) :
    execHello f s =
      .next (answered (s.seqAccept m.sess m.seq) f m k 0 ((s.seqAccept m.sess m.seq).helloBody true)) :=
  mgmtRun_authentic _ _ _ _ h (decide_eq_true rfl) rfl
    (by simp only [hlen, ne_eq, sess_ne_none_of_authentic h, not_true, not_false_eq_true, if_false, decide_true])

theorem execMgmtUnusedType_refuses (h : Anonymous s f m 11) :
    execMgmtUnusedType f s = .next (s.mgmtSend f (replyBytes m 3 [] none)) :=
  mgmtRun_anonymous _ _ _ _ h rfl rfl rfl

theorem execRead_answers {u : State} {r : List Byte × State} (h : Authentic s f m k 2) (hlen : m.len = 8)
    (hrange : regRangeOk m.body = true) (hu : u = s.seqAccept m.sess m.seq)
    (hr : r = u.regReads m.sess (beAt m.body 4 2) (beAt m.body 0 4)) :
    execRead f s = .next (answered r.2 f m k 0 r.1) := by
  subst hu hr
  exact mgmtType_authentic h (by simp only [hlen, hrange, ne_eq, not_true, Bool.not_true, Bool.false_eq_true, if_false])

theorem execWrite_stores {ws : List Word} {t : State} (h : Authentic s f m k 3) (hlen : m.len = 8 + 4 * beAt m.body 4 2)
    (hrange : regRangeOk m.body = true) (hmay : writeAllowed m.sess (beAt m.body 0 4) (beAt m.body 4 2) = true)
    (hws : ws = (List.range (beAt m.body 4 2)).map (fun i => BitVec.ofNat 32 (beAt m.body (8 + 4 * i) 4)))
    (ht : (s.seqAccept m.sess m.seq).regWrites m.sess (beAt m.body 0 4) ws = .ok t) :
    execWrite f s = .next (answered (t.writeEnds (beAt m.body 0 4) ws) f m k 0 []) := by
  subst hws
  have hlong : ¬ 8 + 4 * beAt m.body 4 2 < 8 := by omega
  exact mgmtType_authentic h (by
    simp only [hlen, hlong, hrange, hmay, ht, ne_eq, not_true, Bool.not_true, Bool.false_eq_true, if_false])

/-! ### Sessions and doorbells by request (R518, R530, R535, R544, R545, R549) -/

theorem execOpenSession_authentic {r : Nat × List Byte × State} (h : Authentic s f m k 4)
    (hr : (s.seqAccept m.sess m.seq).sessOpen m.sess m.body = r) :
    execOpenSession f s = .next (answered r.2.2 f m k r.1 r.2.1) :=
  mgmtType_authentic h (congrArg _ hr)

theorem execCloseSession_authentic {r : Nat × List Byte × State} (h : Authentic s f m k 5)
    (hr : (s.seqAccept m.sess m.seq).sessClose m.sess m.body = r) :
    execCloseSession f s = .next (answered r.2.2 f m k r.1 r.2.1) :=
  mgmtType_authentic h (congrArg _ hr)

theorem execRestartRings_authentic {r : Nat × List Byte × State} (h : Authentic s f m k 7)
    (hr : (s.seqAccept m.sess m.seq).sessRestart m.sess m.body = r) :
    execRestartRings f s = .next (answered r.2.2 f m k r.1 r.2.1) :=
  mgmtType_authentic h (congrArg _ hr)

theorem execDoorbell_takes (h : Authentic s f m k 6) (hlen : m.len = 16) :
    execDoorbell f s =
      .next (answered ((s.seqAccept m.sess m.seq).doorbell m.sess none m.body) f m k 0 []) :=
  mgmtType_authentic h (by simp only [hlen, ne_eq, not_true, if_false])

/-- A request of a session with the key `k`, not locked out, whose code is wrong (R518). -/
theorem execDoorbell_unverified (hm : m = mgmtOf f.bytes) (hlong : 16 ≤ f.bytes.length) (hup : s.mgmtUp = true)
    (hrequest : bitAt (beAt f.bytes 3 1) 0 = false) (hsess : m.sess ≤ 3) (hty : m.type = 6)
    (hlocked : s.lockedOut m.sess = false) (hkey : (s.session m.sess).key = some k) (hwrong : hmac k m.head ≠ m.mac) :
    execDoorbell f s = .next (s.authFail m.sess) := by
  subst hm
  have hnamed : (mgmtOf f.bytes).sess ≠ 0xFF := by omega
  simp only [execDoorbell, State.mgmtType, State.mgmtRun, Nat.not_lt.mpr hlong, hup, hty, hrequest, hnamed,
    Nat.not_lt.mpr hsess, hlocked, hkey, hwrong, decide_true, not_true, Bool.false_eq_true, or_self, if_false, ne_eq,
    not_false_eq_true, if_true]

theorem execAuthLockoutEnd_due {n : SessId} {a : Nat} (hlock : (s.session n).lockUntil = some a) (hdue : a ≤ s.clock) :
    execAuthLockoutEnd n s =
      .next ((s.setSession n { s.session n with lockUntil := none }).setFld ⟨hstKeys, 4 + n, 1⟩ 0) := by
  simp only [execAuthLockoutEnd, hlock, Nat.not_lt.mpr hdue, if_false]

section OpenPage

variable {n : SessId} {b : List Byte} (hopen : s.isOpen n = true)

include hopen

/-- The page has 64 slots of 16 bytes, the last at 1008 (R545). -/
theorem execRdmaDoorbell_takes {off : Nat} (haligned : off % 16 = 0) (hlast : off ≤ 1008) (hlen : b.length = 16) :
    execRdmaDoorbell n (s.fld (hrbDbKeyF n)) (s.get64 (hrbDbAddrLo n) + off) b s =
      .next ((s.emit (.rdmaAck n true)).doorbell n (some (off / 16)) b) := by
  have hinside : ¬ (s.get64 (hrbDbAddrLo n) + off < s.get64 (hrbDbAddrLo n) ∨ 1024 < off + 16) := by omega
  simp only [execRdmaDoorbell, hopen, hlen, Nat.add_sub_cancel_left, hinside, haligned, ne_eq, not_true, or_self, if_false]

theorem execRdmaDoorbell_wrongKey {key addr : Nat} (hkey : key ≠ s.fld (hrbDbKeyF n)) :
    execRdmaDoorbell n key addr b s = .next ((s.emit (.rdmaAck n false)).sessLost n) := by
  simp only [execRdmaDoorbell, hopen, hkey, ne_eq, not_true, not_false_eq_true, true_or, if_false, if_true]

end OpenPage

/-! ### Keys (R525 to R528) -/

theorem execProvision_sets (h : Anonymous s f m 8) (hlen : m.len = 32) (hfree : (s.session 0).key = none) (hmode : s.mode = 3)
    (hport : f.port = 0) (hdirect : f.hop = 255) (hlocal : isLinkLocal f.src) :
    execProvision f s = .next ((s.setKey 0 m.body).mgmtSend f (replyBytes m 0 [] none)) :=
  mgmtRun_anonymous _ _ _ _ h (decide_eq_true rfl) rfl (by
    simp only [hlen, hfree, hmode, hport, hdirect, hlocal, ne_eq, not_true, Option.isSome_none, Bool.false_eq_true, false_and,
      or_self, if_false])

section Session0

variable (hsess : m.sess = 0)

include hsess

section Wrapped

variable (h : Authentic s f m k 9) (hlen : m.len = 48) (hfor : beAt m.body 0 1 ≤ 3)

include h hlen hfor

theorem execKeySet_sets {q : List Byte} (hw : keyUnwrap (wrapKey k m.seq) (m.body.drop 8) = some q) :
    execKeySet f s = .next (answered ((s.seqAccept 0 m.seq).setKey (beAt m.body 0 1) q) f m k 0 []) := by
  have hkey := key_seqAccept_of_authentic h
  rw [hsess] at hkey
  have hshape : ¬ (m.len ≠ 48 ∨ 3 < beAt m.body 0 1) := by omega
  exact mgmtType_authentic h (by simp only [hsess, hkey, hshape, hw, ne_eq, not_true, if_false, Option.getD_some])

theorem execKeySet_refuses (hw : keyUnwrap (wrapKey k m.seq) (m.body.drop 8) = none) :
    execKeySet f s = .next (answered (s.seqAccept 0 m.seq) f m k 8 []) := by
  have hkey := key_seqAccept_of_authentic h
  rw [hsess] at hkey
  have hshape : ¬ (m.len ≠ 48 ∨ 3 < beAt m.body 0 1) := by omega
  exact mgmtType_authentic h (by simp only [hsess, hkey, hshape, hw, ne_eq, not_true, if_false, Option.getD_some])

end Wrapped

/-- The keys of a mask are cleared, in rising order of their sessions. -/
def clearKeys (mask : Nat) (s : State) : State :=
  (List.range 4).foldl (fun (s : State) (n : Nat) => if bitAt mask n then s.clearKey n else s) s

/-- Session 0 in the mask stands for every session (R528). -/
theorem execKeyClear_midnight (h : Authentic s f m k 10) (hlen : m.len = 8) (hmode : s.mode = 7) :
    execKeyClear f s = .next (answered
      (clearKeys (if beAt m.body 0 1 % 2 = 1 then 15 else beAt m.body 0 1) (s.seqAccept 0 m.seq)) f m k 0 []) := by
  have hstays : (s.seqAccept 0 m.seq).mode = 7 := (mode_seqAccept s 0 m.seq (by decide)).trans hmode
  exact mgmtType_authentic h (by simp only [hsess, hstays, hlen, ne_eq, not_true, if_false, clearKeys])

end Session0

end Requests

theorem clearKeys_session2 (s : State) : clearKeys 4 s = s.clearKey 2 := rfl

theorem clearKeys_all (s : State) : clearKeys 15 s = (((s.clearKey 0).clearKey 1).clearKey 2).clearKey 3 := rfl

/-- Settles O28, a clause per request. -/
theorem managementSetup : Obligations.ManagementSetup :=
  ⟨fun _ _ _ => execHello_anonymous, fun _ _ _ _ => execHello_authentic, fun _ _ _ => execMgmtUnusedType_refuses,
    fun _ _ _ _ _ _ => execRead_answers, fun _ _ _ _ _ _ => execWrite_stores⟩

/-- Settles O29, a clause per request and two for an RDMA write, under its key or another. -/
theorem managementSessions : Obligations.ManagementSessions :=
  ⟨fun _ _ _ _ _ => execOpenSession_authentic, fun _ _ _ _ _ => execCloseSession_authentic,
    fun _ _ _ _ _ => execRestartRings_authentic, fun _ _ _ _ => execDoorbell_takes,
    fun _ _ _ _ hopen => execRdmaDoorbell_takes hopen, fun _ _ _ _ _ hopen => execRdmaDoorbell_wrongKey hopen,
    fun _ _ _ => execAuthLockoutEnd_due, fun _ _ _ _ => execDoorbell_unverified⟩

/-- Settles O30: the two masks of KEY_CLEAR are cases of `execKeyClear_midnight`. -/
theorem managementKeys : Obligations.ManagementKeys := by
  refine ⟨fun _ _ _ => execProvision_sets, fun f m k s h hsess hlen hfor => ?set,
    fun f m k s h hsess hlen hmode hmask => ?clearOne, fun f m k s h hsess hlen hmode hmask => ?clearAll⟩
  case set =>
    cases hw : keyUnwrap (wrapKey k m.seq) (m.body.drop 8) with
    | none => exact execKeySet_refuses hsess h hlen hfor hw
    | some q => exact execKeySet_sets hsess h hlen hfor hw
  case clearOne => exact (execKeyClear_midnight hsess h hlen hmode).trans (by rw [hmask]; rfl)
  case clearAll => exact (execKeyClear_midnight hsess h hlen hmode).trans (by rw [hmask]; rfl)

/-! ### Descriptors outside their modes (R553, R555, R748) -/

section Descriptors

variable {n : SessId} {idx : Nat} {d : OutDesc} {s : State}

theorem contains_false_of_ne {modes : ModeSet} (h : ∀ k ∈ modes, s.mode ≠ k) : modes.contains s.mode = false :=
  Bool.eq_false_iff.mpr fun hmem => h _ (List.contains_iff_mem.mp hmem) rfl

section WrongMode

variable (hstart : s.startable n idx = some d)

include hstart

theorem execStart_wrongMode (hop : d.opcode = 0x20) (hmode : s.mode ≠ 3) :
    execStart n idx s = .next ((s.startDesc n idx).finishDesc n idx 5 []) := by
  rw [execStart, runDesc_wrongMode _ hstart hop (contains_false_of_ne (by simpa [modesM] using hmode))]

theorem execStop_wrongMode (hop : d.opcode = 0x21) (hnoon : s.mode ≠ 4) (hafternoon : s.mode ≠ 5) :
    execStop n idx s = .next ((s.startDesc n idx).finishDesc n idx 5 []) := by
  rw [execStop, runDesc_wrongMode _ hstart hop (contains_false_of_ne (by simp [modesNA, hnoon, hafternoon]))]

theorem execAxisMove_dusk (hop : d.opcode = 0x40) (hdusk : s.mode = 6) :
    execAxisMove n idx s = .next ((s.startDesc n idx).finishDesc n idx 5 []) := by
  rw [execAxisMove, runDesc_wrongMode _ hstart hop (by rw [hdusk]; rfl)]

theorem execMode_dusk (hop : d.opcode = 0x58) (hdusk : s.mode = 6) :
    execMode n idx s = .next ((s.startDesc n idx).finishDesc n idx 5 []) := by
  rw [execMode, runDesc_wrongMode _ hstart hop (by rw [hdusk]; rfl)]

end WrongMode

/-- Settles O57: DUSK is not one of the modes of MODE. -/
theorem modeDescriptorInDusk : Obligations.ModeDescriptorInDusk :=
  fun _ _ _ _ => execMode_dusk

/-- Settles O59: a descriptor that may not start yet waits, whatever its opcode. -/
theorem descriptorModes : Obligations.DescriptorModes := by
  refine ⟨fun _ _ _ _ => execStart_wrongMode, fun _ _ _ _ => execStop_wrongMode, fun _ _ _ _ => execAxisMove_dusk,
    fun n idx s hwaits => ?_⟩
  simp only [exec, execNop, execAxisMove, execCompile, execMode, runDesc_waits _ hwaits, and_self]

/-! ### Timed outputs, frames, encoders, modes, calibrations and the fabric by descriptor (R586, R590, R607, R608, R655,
R713, R727, R748) -/

section Started

variable {t : State} (ht : t = s.startDesc n idx)

include ht

/-- TOUT_ARM of form 0 places one edge of at least 10 ns. -/
theorem execToutArm_places {u : State} {o e : Nat} (h : Ready s n idx 0x48 modesMNAX d) (ho : o = d.par 0x10 1)
    (hknown : o < 16) (hform : d.par 0x11 1 = 0) (hwidth : 10 ≤ d.par 0x24 4) (hclaim : t.tryClaim 0 o (ownerOf n) = some u)
    (he : e = firstEdge false (d.par 0x18 8) (d.par 0x20 4) u.taiNs) :
    execToutArm n idx s = .next (((u.setTout o
      { u.tout o with arm := some ⟨false, d.par 0x20 4, d.par 0x24 4, n⟩, next := some e, dues := [] }).toutActive o).doneDesc
        n d (leBytes 8 e)) := by
  subst ht ho he
  rw [execToutArm, runDesc_ready _ h]
  simp [toutArmEffect, Nat.not_le.mpr hknown, hform, Nat.not_lt.mpr hwidth, hclaim]

theorem execFrameLaunch_reads {u : State} (h : Ready s n idx 0x49 modesMNAX d) (hport : d.par 0x10 1 < 2)
    (hqueue : d.par 0x11 1 < 8) (hshort : 64 ≤ d.par 0x12 2) (hlong : d.par 0x12 2 ≤ 1518)
    (hclaim : t.tryClaim 3 (8 * d.par 0x10 1 + d.par 0x11 1) (ownerOf n) = some u) (hfits : u.launchFits d = none) :
    execFrameLaunch n idx s = .next (u.loadRead n d 0x20 (d.par 0x12 2) (.frame d.idx)) := by
  subst ht
  rw [execFrameLaunch, runDesc_ready _ h]
  simp only [frameLaunchEffect, Nat.not_le.mpr hport, Nat.not_le.mpr hqueue, Nat.not_lt.mpr hshort, Nat.not_lt.mpr hlong,
    or_self, if_false, hclaim, hfits]

theorem execEncoderClear_clears {k : Nat} (h : Ready s n idx 0x4B modesMNA d) (hk : k = d.par 0x10 1) (hknown : k < 4) :
    execEncoderClear n idx s =
      .next (((t.setEnc k { t.enc k with run := 0 }).setFld (encStatusEncoderSuspect k) 0).doneDesc n d []) := by
  subst ht hk
  rw [execEncoderClear, runDesc_ready _ h]
  simp only [encoderClearEffect, Nat.not_le.mpr hknown, if_false]

theorem execMode_asks (h : Ready s n idx 0x58 modesMNAX d) (hknown : d.par 0x10 1 < 7) (hfree : t.pwr.afterStop = none)
    (hown : t.coordinates = false) :
    execMode n idx s = .next (t.modeOrder (d.par 0x10 1) (some (n.val, d.idx))) := by
  subst ht
  rw [execMode, runDesc_ready _ h]
  simp only [modeEffect, Nat.not_le.mpr hknown, hfree, hown, Option.isSome_none, Bool.false_eq_true, false_and, and_false,
    if_false]

/-- A coordinator with members orders DUSK and NIGHT for the whole fabric. -/
theorem execMode_orders (h : Ready s n idx 0x58 modesMNAX d) (htarget : d.par 0x10 1 = 5 ∨ d.par 0x10 1 = 6)
    (hfree : t.pwr.afterStop = none) (hcoordinates : t.coordinates = true) (hmember : t.fabricMember = true) :
    execMode n idx s = .next (t.issueOrder (d.par 0x10 1 + 1) 0 0 0 [] n d.idx) := by
  subst ht
  have hknown : ¬ 7 ≤ d.par 0x10 1 := by omega
  rw [execMode, runDesc_ready _ h]
  simp only [modeEffect, hknown, hfree, htarget, hcoordinates, hmember, Option.isSome_none, Bool.false_eq_true, and_self,
    if_false, if_true]

theorem execCalibrate_seam {c : Nat} (h : Ready s n idx 0x59 modesMNAX d) (hkind : d.par 0x10 1 = 3) (hc : c = d.par 0x11 1)
    (hmode : (calModes 3).contains t.mode = true) (htarget : t.calTarget 3 c = true) (hseam : t.calRun 3 c = none)
    (hflat : t.calRun 4 c = none) : execCalibrate n idx s = .next (t.calSeamReport n d c) := by
  subst ht hc
  rw [execCalibrate, runDesc_ready _ h]
  simp only [calEffect, hkind, hmode, htarget, hseam, hflat, Option.isSome_none, Bool.not_true, Bool.and_false, Bool.or_self,
    Bool.false_eq_true, if_false]
  rfl

theorem execFabric_names {u : State} (h : Ready s n idx 0x60 modesMX d) (hform : d.par 0x10 1 = 0)
    (hstands : s.orderStands = false) (hu : u = { t with fab := { t.fab with named := some (d.par 0x18 8) } })
    (hother : u.coordinates = false) : execFabric n idx s = .next (u.doneDesc n d u.fabResult) := by
  subst ht hu
  have ⟨hstart, _, _⟩ := h
  simp only [execFabric, hstart, hstands, Bool.and_false, Bool.false_and, Bool.false_eq_true, if_false, runDesc_ready _ h,
    fabricEffect, hform, hother, false_and]

theorem execFabric_discovers {u : State} (h : Ready s n idx 0x60 modesMX d) (hform : d.par 0x10 1 = 1)
    (hon : t.flag fabCtrlEnable = true) (hu : u = t.fabDiscover) :
    execFabric n idx s = .next (u.doneDesc n d u.fabResult) := by
  subst ht hu
  have ⟨hstart, _, _⟩ := h
  simp only [execFabric, hstart, hform, Nat.one_ne_zero, and_false, decide_false, Bool.false_and, Bool.false_eq_true, if_false,
    runDesc_ready _ h, fabricEffect, hon, if_true]

end Started

end Descriptors

/-- Settles O37, a clause per descriptor and two for MODE and for FABRIC. -/
theorem otherDescriptors : Obligations.OtherDescriptors :=
  ⟨fun _ _ _ _ _ _ _ _ h ht => execToutArm_places ht h, fun _ _ _ _ _ _ h ht => execFrameLaunch_reads ht h,
    fun _ _ _ _ _ _ h ht => execEncoderClear_clears ht h, fun _ _ _ _ _ h ht => execMode_asks ht h,
    fun _ _ _ _ _ h ht => execMode_orders ht h, fun _ _ _ _ _ _ h ht => execCalibrate_seam ht h,
    fun _ _ _ _ _ _ h ht => execFabric_names ht h, fun _ _ _ _ _ _ h ht => execFabric_discovers ht h⟩

end Sys2Proof.HostRings

/-! Time (13_time.md): PTP messages of the master, those that the module sends or forwards, and what happens at its time.
One equation per command and case, from which the statements are put together. -/

namespace Sys2Proof.Timing

open Sys2Proof.Machine Sys2Proof.Safety

/-! ### PTP messages that a slave hears (R570, R574, R575, R577, R579) -/

section FromMaster

variable {e : EthId} {m : PtpMsg} {s : State} (hfrom : s.fromMaster e m.src = true)

include hfrom

theorem execSync_held (htwo : m.twoStep = true) :
    execSync e m s =
      .next (s.setPtp e { s.ptp e with sync := some ⟨m.src, m.seq, s.taiFine m.sub.val, m.corr + s.asym e⟩ }) := by
  simp only [execSync, hfrom, htwo, not_true, if_false, if_true]

theorem execSync_oneStep (hone : m.twoStep = false) :
    execSync e m s = .next (s.syncDone e m.origin (s.taiFine m.sub.val) (m.corr + s.asym e)) := by
  simp only [execSync, hfrom, hone, not_true, Bool.false_eq_true, if_false]

theorem execFollowUp_matches {r : SyncRx} (hheld : (s.ptp e).sync = some r) (hsrc : r.src = m.src) (hseq : r.seq = m.seq) :
    execFollowUp e m s = .next (s.syncDone e m.origin r.arrival (r.corr + m.corr)) := by
  simp only [execFollowUp, hfrom, hheld, hsrc, hseq, not_true, and_self, if_false, if_true]

/-- The answer to the module's own request gives the mean of the two ways (R575). -/
theorem execDelayResp_measures {t3 t1 t2 : Int} (hendToEnd : s.flag timCtrlP2p = false) (hseq : m.seq = (s.ptp e).reqSeq)
    (hreq : m.req = s.portIdentity e) (hsent : (s.ptp e).reqTime = some t3) (hlast : (s.ptp e).lastSync = some (t1, t2)) :
    execDelayResp e m s = .next (s.setPtp e
      { s.ptp e with delay := rnd ((t2 - t1) + (m.origin - t3 - m.corr)) 1, reqTime := none }) := by
  simp only [execDelayResp, hfrom, hendToEnd, hseq, hreq, hsent, hlast, ne_eq, not_true, Bool.false_eq_true, or_self, if_false]

end FromMaster

section PeerDelay

variable {e : EthId} {m : PtpMsg} {s : State} (hon : s.ptpOn = true) (hpeer : s.flag timCtrlP2p = true)

include hon hpeer

theorem execPdelay_answers :
    execPdelay e .req m s =
      .next (s.emits [.ptp e 3 [m.seq, m.src, s.taiFine m.sub.val, m.corr], .ptp e 10 [m.seq, m.src, s.taiFine 0, 0]]) := by
  simp only [execPdelay, hon, hpeer, not_true, or_self, if_false]

section Outstanding

variable {t1 : Int} (hseq : m.seq = (s.ptp e).reqSeq) (hreq : m.req = s.portIdentity e) (hsent : (s.ptp e).reqTime = some t1)

include hseq hreq hsent

theorem execPdelay_oneStepMeasures (hone : m.twoStep = false) :
    execPdelay e .resp m s = .next (s.setPtp e
      { s.ptp e with delay := rnd (s.taiFine m.sub.val - t1 - (m.corr + s.asym e)) 1, reqTime := none }) := by
  simp only [execPdelay, hon, hpeer, hseq, hreq, hsent, hone, and_self, decide_true, not_true, Bool.false_eq_true, or_self,
    if_false]

theorem execPdelay_followUpMeasures {t2 t4 c : Int} (hresp : (s.ptp e).respTime = some (t4, t2, c)) :
    execPdelay e .respFollowUp m s = .next (s.setPtp e { s.ptp e with
      delay := rnd ((t4 - t1) - (m.origin - t2) - c - m.corr) 1, reqTime := none, respTime := none }) := by
  simp only [execPdelay, hon, hpeer, hseq, hreq, hsent, hresp, and_self, decide_true, not_true, or_self, if_false]

end Outstanding

end PeerDelay

/-- The entries of the other sources, in their order. -/
def otherMasters (src : Nat) (foreign : List (Nat × AnnMsg)) : List (Nat × AnnMsg) :=
  foreign.filter (fun x => decide (x.2.src ≠ src))

theorem execAnnounce_replaces {e : EthId} {m : AnnMsg} {s : State} (hon : s.ptpOn = true) :
    execAnnounce e m s =
      .next (({ s with tim := { s.tim with foreign := otherMasters m.src s.tim.foreign ++ [(e.val, m)] } }).selectMaster) := by
  simp only [execAnnounce, hon, not_true, if_false, otherMasters]

theorem execAnnounceTimeout_drops {a : AnnMsg} {s : State} (hmaster : s.tim.master = some a) :
    execAnnounceTimeout s =
      .next (({ s with tim := { s.tim with foreign := otherMasters a.src s.tim.foreign, master := none } }).selectMaster) := by
  simp only [execAnnounceTimeout, hmaster, otherMasters]

/-- Settles O38, a clause per message and case; SYNC_TIMEOUT is the servo's own. -/
theorem ptpSlave : Obligations.PtpSlave :=
  ⟨fun _ _ _ hfrom => execSync_held hfrom, fun _ _ _ hfrom => execSync_oneStep hfrom,
    fun _ _ _ _ hfrom => execFollowUp_matches hfrom, fun _ _ _ _ _ _ hfrom => execDelayResp_measures hfrom,
    fun _ _ _ => execPdelay_answers,
    fun _ _ _ _ hon hpeer hseq hreq hsent => execPdelay_oneStepMeasures hon hpeer hseq hreq hsent,
    fun _ _ _ _ _ _ _ hon hpeer hseq hreq hsent => execPdelay_followUpMeasures hon hpeer hseq hreq hsent,
    fun _ _ _ => execAnnounce_replaces, fun _ _ => execAnnounceTimeout_drops, fun _ => rfl⟩

/-! ### PTP messages that the module sends or forwards (R570, R571, R573, R580 to R582, R780) -/

/-- The next sequence number of a kind of message. -/
def nextSeq (q : Nat) : Nat := (q + 1) % 65536

@[simp] theorem flag_setPtp (s : State) (e : Nat) (v : PtpPort) (f : Fld) : (s.setPtp e v).flag f = s.flag f := rfl

section Master

variable {e : EthId} {s : State}

theorem execSyncInterval_oneStep (hone : s.flag (timPortOneStep e) = true) (hclock : s.flag (timPortTcEn e) = false)
    (hmaster : s.isMaster = true) :
    execSyncInterval e s = .next ((s.setPtp e { s.ptp e with syncSeq := nextSeq (s.ptp e).syncSeq }).emit
      (.ptp e 0 [nextSeq (s.ptp e).syncSeq, s.taiFine 0 / 65536, s.taiFine 0 % 65536])) := by
  simp only [execSyncInterval, flag_setPtp, hone, hclock, hmaster, not_true, Bool.false_eq_true, false_and, if_false, if_true,
    nextSeq]

theorem execSyncInterval_twoStep (htwo : s.flag (timPortOneStep e) = false) (hmaster : s.isMaster = true) :
    execSyncInterval e s = .next ((s.setPtp e { s.ptp e with syncSeq := nextSeq (s.ptp e).syncSeq }).emits
      [.ptp e 0 [nextSeq (s.ptp e).syncSeq, 0, 0],
       .ptp e 8 [nextSeq (s.ptp e).syncSeq, s.taiFine 0 / 65536, s.taiFine 0 % 65536]]) := by
  simp only [execSyncInterval, flag_setPtp, htwo, hmaster, not_true, Bool.false_eq_true, and_false, if_false, nextSeq]

theorem execSyncInterval_clockAndOneStep (hone : s.flag (timPortOneStep e) = true) (hclock : s.flag (timPortTcEn e) = true) :
    execSyncInterval e s = .fault (.undefinedBehaviour .tcOneStep) :=
  if_pos ⟨hclock, hone⟩

theorem execDelayReq_answers {m : PtpMsg} (hmaster : s.isMaster = true) (hendToEnd : s.flag timCtrlP2p = false) :
    execDelayReq e m s = .next (s.emit (.ptp e 9 [m.seq, m.src, s.taiFine m.sub.val, m.corr])) := by
  simp only [execDelayReq, hmaster, hendToEnd, not_true, Bool.false_eq_true, or_self, if_false]

/-- Every port asks for its peer's delay, master or not. -/
theorem execDelayReqInterval_peer (hon : s.ptpOn = true) (hpeer : s.flag timCtrlP2p = true) :
    execDelayReqInterval e s = .next ((s.setPtp e { s.ptp e with
      reqSeq := nextSeq (s.ptp e).reqSeq, reqTime := some (s.taiFine 0), respTime := none }).emit
        (.ptp e 2 [nextSeq (s.ptp e).reqSeq, s.portIdentity e, -s.asym e])) := by
  simp only [execDelayReqInterval, hon, hpeer, not_true, false_and, or_self, if_false, if_true, nextSeq]

theorem execAnnounceInterval_sends (hmaster : s.isMaster = true) :
    execAnnounceInterval e s = .next ((s.setPtp e { s.ptp e with annSeq := nextSeq (s.ptp e).annSeq }).emit
      (.ptp e 11 ((nextSeq (s.ptp e).annSeq : Int) :: (annRank s.ownAnn).map (fun (v : Nat) => (v : Int))))) := by
  simp only [execAnnounceInterval, hmaster, not_true, if_false, nextSeq]

end Master

section Transit

variable {e : EthId} {m : PtpMsg} {dwell : Nat} {s : State} (htwo0 : s.flag (timPortOneStep 0) = false)
  (htwo1 : s.flag (timPortOneStep 1) = false) (hon : s.ptpOn = true) (htransit : s.transitOn = true)
  (hendToEnd : s.flag timCtrlP2p = false)

include htwo0 htwo1 hon htransit hendToEnd

theorem execPtpTransit_delayReq :
    execPtpTransit e m .delayReq dwell s =
      .next (s.emit (.ptp (1 - e.val) 1 [m.seq, m.src, m.origin, m.corr + dwell])) := by
  simp only [execPtpTransit, htwo0, htwo1, hon, htransit, hendToEnd, Bool.false_eq_true, and_false, not_true, or_self,
    if_false, List.cons_append, List.nil_append]

/-- Without peer delays a message that ends its measurement gets the residence time alone (R580). -/
theorem execPtpTransit_sync (hone : m.twoStep = false) :
    execPtpTransit e m .sync dwell s =
      .next (s.emit (.ptp (1 - e.val) 0 [m.seq, m.src, m.origin, m.corr + dwell])) := by
  simp only [execPtpTransit, htwo0, htwo1, hon, htransit, hendToEnd, hone, Bool.false_eq_true, and_false, not_true, or_self,
    if_false, List.cons_append, List.nil_append, Int.add_zero]

end Transit

/-- Settles O39, a clause per message and one for the case of R780. -/
theorem ptpMaster : Obligations.PtpMaster :=
  ⟨fun _ _ => execSyncInterval_oneStep, fun _ _ => execSyncInterval_twoStep, fun _ _ => execSyncInterval_clockAndOneStep,
    fun _ _ _ _ => execPtpTransit_delayReq, fun _ _ _ _ => execPtpTransit_sync, fun _ _ _ => execDelayReq_answers,
    fun _ _ => execDelayReqInterval_peer, fun _ _ => execAnnounceInterval_sends⟩

/-! ### Timed outputs, timed frames and the second (R585, R588, R591, R594, R598) -/

section DueEdge

variable {t : ToutId} {n : Nat} {a : ToutArm} {s : State} (hnext : (s.tout t).next = some n) (hdue : n ≤ s.taiNs)
  (harm : (s.tout t).arm = some a)

include hnext hdue harm

theorem execToutEdge_periodic (hper : a.periodic = true) (hperiod : a.period ≠ 0) :
    execToutEdge t s = .next ((s.setTout t { s.tout t with next := some (n + a.period) }).toutRise t n) := by
  simp only [execToutEdge, hnext, hdue, harm, hper, hperiod, decide_true, ne_eq, not_false_eq_true, and_self, if_true,
    Option.getD_some]

theorem execToutEdge_single (hsingle : a.periodic = false) :
    execToutEdge t s = .next ((s.setTout t { s.tout t with next := none }).toutRise t n) := by
  simp only [execToutEdge, hnext, hdue, harm, hsingle, decide_true, Bool.false_eq_true, false_and, if_false, if_true,
    Option.getD_some]

end DueEdge

/-- An overload has dropped the marker outputs before the pulse ends (R794). -/
theorem execToutPulseEnd_overload {t : ToutId} {e : Nat} {s : State} (hhigh : (s.tout t).high = some e) (hdue : e ≤ s.taiNs)
    (harm : (s.tout t).arm = none) (hover : (s.tout t).overload = true) :
    execToutPulseEnd t s = .next (((s.setTout t { s.tout t with high := none, arm := none, overload := false }).emit
      (.tout t (s.toutLevel t false) e)).toutActive t) := by
  simp only [execToutPulseEnd, hhigh, Nat.not_lt.mpr hdue, harm, hover, if_false, if_true]

/-- A frame of the module's own, which no descriptor waits for, leaves within 4 ns of its time. -/
theorem execFrameLaunchTime_own {e : EthId} {q : Fin 8} {l : Launch} {rest : List Launch} {leave : Nat} {s t u : State}
    (hqueue : s.queue e q = l :: rest) (hdue : l.time ≤ s.taiNs)
    (hfirst : (List.range q.val).any (fun k => s.queueDueAt e k) = false) (hleave : leave = max s.taiNs (s.eth e).wireUntil)
    (htime : leave ≤ l.time + 4) (hown : 4 ≤ l.sess)
    (ht : t = (s.setQueue e q rest).setEth e { s.eth e with wireUntil := leave + wireNs l.bytes.length })
    (hu : u = t.launchOut e l false) : execFrameLaunchTime e q s = .next (u.fire 286) := by
  subst hleave ht hu
  simp only [execFrameLaunchTime, hqueue, Nat.not_lt.mpr hdue, hfirst, Nat.not_lt.mpr htime, Nat.not_lt.mpr hown,
    decide_false, Bool.false_eq_true, or_self, if_false]

theorem execAoTrimMeasure_locked {trim : Int} {s : State} (hlocked : s.fld timStatusServo = 2) :
    execAoTrimMeasure trim s = .next (({ s with
      tim := { s.tim with aoTrim := trim },
      pwr := { s.pwr with flash := { s.pwr.flash with aoTrim := trim } } }).setFldInt timAoTrimF trim) :=
  if_pos hlocked

theorem execTaiSecond_new {s : State} (hnew : s.tim.second < s.taiNs / 1000000000) :
    execTaiSecond s = .next (({ s with tim := { s.tim with second := s.taiNs / 1000000000 } }).fire 285) :=
  if_pos hnew

/-- Settles O40, a clause per command and two for an edge, periodic or single. -/
theorem timedActions : Obligations.TimedActions :=
  ⟨fun _ _ _ _ hnext hdue harm => execToutEdge_periodic hnext hdue harm,
    fun _ _ _ _ hnext hdue harm => execToutEdge_single hnext hdue harm, fun _ _ _ => execToutPulseEnd_overload,
    fun _ _ _ _ _ _ _ hqueue hdue hfirst => execFrameLaunchTime_own hqueue hdue hfirst rfl,
    fun _ _ => execAoTrimMeasure_locked, fun _ => execTaiSecond_new⟩

end Sys2Proof.Timing

/-! The fabric (14_fabric.md): discovery, the coordinator and addresses, and the messages between modules. One equation per
command and case, from which the statements are put together. -/

namespace Sys2Proof.FabricModules

open Sys2Proof.Machine Sys2Proof.Safety

@[simp] theorem flag_emit (s : State) (o : Out) (f : Fld) : (s.emit o).flag f = s.flag f := rfl

/-! ### Discovery and the coordinator (R602 to R607) -/

section Running

variable {s : State} (hon : s.fabOn = true)

include hon

/-- An ensign leaves by each port with a link. -/
theorem execEnsignInterval_portA {t : State}
    (ht : t = ({ s with fab := { s.fab with ensignSeq := (s.fab.ensignSeq + 1) % 2 ^ 32 } }).countModules)
    (hlink0 : t.flag (hspPortLink 0) = true) (hlink1 : t.flag (hspPortLink 1) = false) :
    execEnsignInterval s = .next (t.emit (.ensign 0 t.ensignBytes)) := by
  simp only [execEnsignInterval, hon, ← ht, List.foldl_cons, List.foldl_nil, flag_emit, hlink0, hlink1, Bool.not_true,
    Bool.false_eq_true, if_false, if_true]

section Ensign

variable {e : EthId} {b : List Byte} (hok : ensignOk b = true)

include hok

theorem execEnsign_own (hown : beAt b 8 8 = s.serial) : execEnsign e b s = .next s.ringFound := by
  simp only [execEnsign, hon, hok, hown, Bool.not_true, Bool.or_self, Bool.false_eq_true, if_false, if_true]

theorem execEnsign_other (hother : beAt b 8 8 ≠ s.serial) (hnew : s.fab.seen.contains (beAt b 8 8, beAt b 4 4) = false) :
    execEnsign e b s = .next ((s.ensignHeard e b).ensignForward e b) := by
  simp only [execEnsign, hon, hok, hother, hnew, Bool.not_true, Bool.or_self, Bool.false_eq_true, if_false]

end Ensign

theorem execCoordinatorSettle_takes (hcandidate : s.candidate = s.serial) (hnot : s.coordinates = false) :
    execCoordinatorSettle s = .next s.takeRole := by
  simp only [execCoordinatorSettle, hon, hcandidate, hnot, decide_true, Bool.not_false, Bool.and_self, if_true]

/-! ### Addresses (R608, R612 to R614, R618) -/

section Assignment

variable (hcoordinates : s.coordinates = true) (hstate : s.fld fabStatusState = 1)
  (hall : s.fabSpans.length = s.livePeers.length + 1)

include hcoordinates hstate hall

theorem execAddressAssignment_assigns {f : Rec} (hsound : fabDefect s.fabRecs s.fabSpans s.fabChans.1 = none)
    (hrec : s.fabRec = some f) :
    execAddressAssignment s = .next (s.fabChans.2.assignAll s.fabRecs s.fabSpans
      (seamWidth s.fabChans.1 (lineRateOf s.fabRecs).1 (lineRateOf s.fabRecs).2 (f.nat 0x28))) := by
  simp only [execAddressAssignment, hon, hcoordinates, hstate, hall, hsound, State.fabChans_fabRec, hrec, ne_eq, not_true,
    decide_false, Bool.not_true, Bool.or_self, Bool.false_eq_true, if_false]

theorem execAddressAssignment_refuses {st : PlanStatus} (hdefect : fabDefect s.fabRecs s.fabSpans s.fabChans.1 = some st) :
    execAddressAssignment s = .next (s.fabChans.2.fabRefused st) := by
  simp only [execAddressAssignment, hon, hcoordinates, hstate, hall, hdefect, ne_eq, not_true, decide_false, Bool.not_true,
    Bool.or_self, Bool.false_eq_true, if_false]

end Assignment

/-- The members that a module knows once an ASSIGN of the coordinator at address `src` has given it the address `addr`, with
the coordinator's address among its peers. -/
def assignedMembers (src addr : Nat) (t : State) : State :=
  { t with fab := { t.fab with
      members := [⟨src, t.get64 fabCoordLo, 0, true⟩, ⟨addr, t.serial, 0, true⟩],
      peers := t.fab.peers.map (fun (p : Peer) => if p.serial = t.get64 fabCoordLo then { p with addr := src } else p) } }

/-- A module that has no hash of a plan takes the address and acknowledges it. -/
theorem execAssign_takes (e : EthId) {h : FabHead} {b : AssignBody} {t u v : State} (hcrc : h.crcOk = true)
    (hnot : s.coordinates = false) (haddr : b.addr < 32) (hstate : s.fld fabStatusState = 1)
    (hfirst : s.fld fabStatusAddress = 63) (ht : t = (s.fabDiscover.takeAddress b).setFld fabStatusState 2)
    (hu : u = assignedMembers h.src b.addr t) (hv : v = (u.fabTook h.src 0x01 h.seq).mismatchCheck) (hhash : v.fab.hash = []) :
    execAssign e h b s = .next (v.fabReply h.src 0x02 h.seq []) := by
  have hother : ¬ 63 = b.addr := by omega
  subst hv hu ht
  simp only [assignedMembers] at hhash ⊢
  simp only [execAssign, hon, hcrc, hnot, Nat.not_le.mpr haddr, hstate, hfirst, hother, hhash, ne_eq, not_true, decide_false,
    Bool.not_true, Bool.or_self, Bool.false_eq_true, false_and, or_self, if_false]

/-! ### Silence (R607, R611, R629, R630) -/

theorem execNeighbourLost_member {a : Fin 32} (hmember : s.fld fabStatusAddress < 32) :
    execNeighbourLost a s = .next (s.neighbourGone a) := by
  simp only [execNeighbourLost, hon, hmember, decide_true, Bool.and_self, if_true]

/-- Only the silence of the coordinator makes another module take its role. -/
theorem execEnsignAbsence_other {serial : Nat} {t : State}
    (hlive : s.livePeers.any (fun p => decide (p.serial = serial)) = true) (ht : t = s.peerGone serial)
    (hother : t.get64 fabCoordLo ≠ serial) : execEnsignAbsence serial s = .next t := by
  subst ht
  simp only [execEnsignAbsence, hon, hlive, hother, Bool.not_true, Bool.or_self, Bool.false_eq_true, false_and, if_false]

end Running

theorem execAssignAck_notes (e : EthId) {b : List Byte} {m : FabMsg} {o : FabOut} {s t u : State}
    (hfor : s.fabFor b 0x02 = some (m, t)) (hout : t.fabOutOf m.head.src 0x01 m.head.ref = some o) (hu : u = t.fabDone o) :
    execAssignAck e b s = .next ({ u with fab := { u.fab with
      members := u.fab.members.map (fun (x : Member) =>
        if x.addr = m.head.src then { x with acked := true } else x) } }).assignedCheck := by
  subst hu
  simp only [execAssignAck, hfor, hout]

/-- Settles O41, a clause per command and case; RING_CLEAR has one case. -/
theorem fabricDiscovery : Obligations.FabricDiscovery :=
  ⟨fun _ _ hon => execEnsignInterval_portA hon, fun _ _ _ hon hok => execEnsign_own hon hok,
    fun _ _ _ hon hok => execEnsign_other hon hok, fun _ hon => execCoordinatorSettle_takes hon,
    fun _ _ hon hcoordinates hstate hall => execAddressAssignment_assigns hon hcoordinates hstate hall,
    fun _ _ hon hcoordinates hstate hall => execAddressAssignment_refuses hon hcoordinates hstate hall,
    fun e _ _ _ _ _ _ hon => execAssign_takes hon e, fun e _ _ _ _ _ _ => execAssignAck_notes e,
    fun _ _ hon => execNeighbourLost_member hon, fun _ _ _ hon => execEnsignAbsence_other hon, fun _ => rfl⟩

/-! ### Messages to this module (R617 to R619, R621, R623, R624, R627, R629) -/

section Message

variable (e : EthId) {b : List Byte} {m : FabMsg} {s t : State}

/-- Bunting in sequence is taken, an answer sent, and its bunts queued behind those that wait. -/
theorem execBunting_inSequence {u : State} (hfor : s.fabFor b 0x20 = some (m, t)) (hnear : t.seamAway m.head.src = false)
    (hseq : m.head.seq = fabNext (tblGet t.fab.got 0 (fabKey m.head.src 0x20)))
    (hu : u = (t.fabPassed m.head.src 0x20 m.head.seq).fabReply m.head.src 0x21 m.head.seq []) :
    execBunting e b s = .next { u with seam := { u.seam with inq := u.seam.inq ++ buntsOf 127 m.body } } := by
  subst hu
  simp only [execBunting, hfor, hnear, if_pos hseq, Bool.false_eq_true, if_false]

/-- The bunting sent to `src` that an acknowledgement of `ref` covers. -/
def buntingCovered (src ref : Nat) (o : FabOut) : Bool := decide (o.dest = src ∧ o.type = 0x20) && !seqAfter o.seq ref

theorem execBuntingAck_retires (hfor : s.fabFor b 0x21 = some (m, t))
    (hout : (t.fabOutOf m.head.src 0x20 m.head.ref).isSome = true) :
    execBuntingAck e b s = .next
      { t with fab := { t.fab with outs := t.fab.outs.filter (fun o => !buntingCovered m.head.src m.head.ref o) } } := by
  have hknown : (t.fabOutOf m.head.src 0x20 m.head.ref).isNone = false := by rw [← Option.not_isSome, hout]; rfl
  simp only [execBuntingAck, hfor, hknown, Bool.false_eq_true, if_false, buntingCovered]

/-- The strips lost before one with the sequence number `seq`, when `got` was the last. -/
def stripsLost (got seq : Nat) : Nat := (seq + (2 ^ 32 - 1) - fabNext got) % (2 ^ 32 - 1)

/-- The seam strip of a message, on the side of its sender. -/
def seamDataOf (m : FabMsg) (self : Nat) : SeamData :=
  { side := if m.head.src + 1 = self then 0 else 1, first := toSigned 64 (beAt m.body 0 8), lines := beAt m.body 0x12 1,
    bytes := m.body }

/-- With no strip held, none has to be given up for the new one. -/
theorem execSeamStrip_first {u : State} (hfor : s.fabFor b 0x22 = some (m, t)) (hnear : t.seamAway m.head.src = false)
    (hnew : t.fabSeen m.head.src 0x22 m.head.seq = false)
    (hu : u = (t.bump fabCntStripLostF (stripsLost (tblGet t.fab.got 0 (fabKey m.head.src 0x22)) m.head.seq)).fabPassed
      m.head.src 0x22 m.head.seq) (hnone : u.fab.strips = []) :
    execSeamStrip e b s = .next { u with fab := { u.fab with strips := [seamDataOf m u.selfAddr] } } := by
  subst hu
  simp only [stripsLost] at hnone ⊢
  simp only [execSeamStrip, hfor, hnear, hnew, hnone, Bool.false_eq_true, or_self, if_false, List.filter_nil, List.nil_append,
    seamDataOf]

theorem execPlanReady_noted {u : State} (hfor : s.fabFor b 0x30 = some (m, t))
    (hnew : t.fabSeen m.head.src 0x30 m.head.seq = false) (hcoordinates : t.coordinates = true)
    (hu : u = t.fabPassed m.head.src 0x30 m.head.seq) :
    execPlanReady e b s = .next ({ u with fab := { u.fab with
      ready := (m.head.src, m.body) :: u.fab.ready.filter (fun e => decide (e.1 ≠ m.head.src)) } }).readyCheck := by
  subst hu
  simp only [execPlanReady, hfor, hnew, hcoordinates, Bool.false_eq_true, Bool.true_eq_false, or_self, if_false]

/-- Only the coordinator gathers the parts of a snapshot. -/
theorem execSnapshotData_member {u : State} (hfor : s.fabFor b 0x40 = some (m, t)) (hpart : m.body ≠ [])
    (hnew : t.fabSeen m.head.src 0x40 m.head.seq = false)
    (hu : u = (t.fabTook m.head.src 0x40 m.head.seq).fabReply m.head.src 0x40 m.head.seq [])
    (hnot : u.coordinates = false) : execSnapshotData e b s = .next u := by
  subst hu
  simp only [execSnapshotData, hfor, hpart, hnew, hnot, Bool.false_eq_true, if_false]

theorem execHeartbeat_new (hfor : s.fabFor b 0x41 = some (m, t)) (hnew : t.fabSeen m.head.src 0x41 m.head.seq = false) :
    execHeartbeat e b s = .next (t.fabPassed m.head.src 0x41 m.head.seq) := by
  simp only [execHeartbeat, hfor, hnew, Bool.false_eq_true, if_false]

/-! ### Messages to others (R616, R619, R629) -/

theorem execFabricMessageForward_passes (hm : m = fabOf b) (hbridge : s.bridging = true) (hcrc : m.head.crcOk = true)
    (hother : m.head.dest ≠ s.selfAddr) (hhops : m.head.hops ≠ 0) :
    execFabricMessageForward e b s = .next ((s.emit (.fabric (1 - e) (fabBytes m.type m.head.src m.head.dest
      (m.head.hops - 1) m.head.flags m.head.seq m.head.ref m.body))).bump fabCntForwardedF 1) := by
  subst hm
  simp only [execFabricMessageForward, hbridge, hcrc, hother, hhops, Bool.not_true, Bool.or_self, false_and, decide_false,
    Bool.false_eq_true, if_false]

theorem execFabricRetransmit_sends {dest : Fin 32} {ty seq : Nat} {o : FabOut} (hout : s.fabOutOf dest ty seq = some o)
    (hon : s.fabOn = true) (hnoOrder : ty ≠ 0x10) :
    execFabricRetransmit dest ty seq s = .next ((s.fabEmit dest ty 1 seq 0 o.body).bump fabCntRetransmitF 1) := by
  simp only [execFabricRetransmit, hout, hon, hnoOrder, decide_false, Bool.false_and, Bool.not_true, Bool.or_self,
    Bool.false_eq_true, if_false]

theorem execHeartbeatInterval_sends {dest : Fin 32} (hon : s.fabOn = true) (hmember : s.fld fabStatusAddress < 32)
    (hnext : s.isNeighbour dest = true) : execHeartbeatInterval dest s = .next (s.fabSend dest 0x41 0 []) := by
  simp only [execHeartbeatInterval, hon, hmember, hnext, decide_true, Bool.and_self, if_true]

end Message

/-- Settles O42, a clause per message and command. -/
theorem fabricMessages : Obligations.FabricMessages :=
  ⟨fun e _ _ _ _ _ => execBunting_inSequence e, fun e _ _ _ _ => execBuntingAck_retires e,
    fun e _ _ _ _ _ _ hfor hnear hnew hu hnone hd => hd ▸ execSeamStrip_first e hfor hnear hnew hu hnone,
    fun e _ _ _ _ _ => execPlanReady_noted e, fun e _ _ _ _ _ => execSnapshotData_member e,
    fun e _ _ _ _ => execHeartbeat_new e, fun e _ _ _ => execFabricMessageForward_passes e,
    fun _ _ _ _ _ => execFabricRetransmit_sends, fun _ _ => execHeartbeatInterval_sends⟩

end Sys2Proof.FabricModules

/-! Web encoders (15_web_encoders.md): edges, index pulses, extension and speed of a feedback channel, and what ends
requalification and handover. One equation per command and case, from which the statement is put together. -/

namespace Sys2Proof.WebEncoders

open Sys2Proof.Machine

/-! ### Edges (R635 to R638, R649) -/

section Edge

variable {k : EncId} {a b z : Bool} {s : State}

/-- A valid step counts in the main counter alone, which runs in this mode, by the channel's sign. -/
theorem execEncoderEdge_step {d : Int} {t : State} (hstep : encDecode (s.fld (encCtrlMode k)) (s.enc k) a b z = .step d)
    (ht : t = s.setEnc k ((s.enc k).take a b z)) (hmain : t.mainCounts = true) (hao : t.aoCounts k = false) :
    execEncoderEdge k a b z s = .next ((t.encDirection k (d * t.encSign k)).encCount k (d * t.encSign k)) := by
  subst ht
  simp only [execEncoderEdge, hstep, hmain, hao, Bool.false_eq_true, if_false, if_true]

theorem execEncoderEdge_none (hnone : encDecode (s.fld (encCtrlMode k)) (s.enc k) a b z = .none) :
    execEncoderEdge k a b z s = .next (s.setEnc k ((s.enc k).take a b z)) := by
  simp only [execEncoderEdge, hnone]

theorem execEncoderEdge_invalid (hinvalid : encDecode (s.fld (encCtrlMode k)) (s.enc k) a b z = .invalid) :
    execEncoderEdge k a b z s = .next ((s.setEnc k ((s.enc k).take a b z)).encInvalid k) := by
  simp only [execEncoderEdge, hinvalid]

end Edge

/-! ### Index, extension and speed (R641, R643, R645, R649) -/

section Channel

variable {k : EncId} {s : State}

/-- With no index held there is none to check the new one against. -/
theorem execIndexPulse_first {t : State} (hquad : s.fld (encCtrlMode k) = 1) (hmain : s.mainCounts = true)
    (ht : t = s.fire (296 + 6 * k)) (hfirst : (t.enc k).index = none) :
    execIndexPulse k s = .next ((((t.setEnc k { t.enc k with index := some (t.fld (encCountF k)) }).setFld (encIndexPosF k)
      (t.fld (encCountF k))).setFld (encStatusRequalifying k) 0).redConfirm k) := by
  subst ht
  simp only [execIndexPulse, hquad, hmain, hfirst, ne_eq, not_true, Bool.true_eq_false, or_self, if_false]

theorem execExtensionRead_rebases (hon : s.fld (encCtrlMode k) ≠ 0) :
    execExtensionRead k s = .next ((s.setEnc k { s.enc k with base := s.encPos k, rawBase := s.fld (encCountF k) }).setInt64
      (encPosLo k) (s.encPos k)) :=
  if_neg hon

theorem execSpeedWindow_stores (hwindow : s.fld (encWindowF k) ≠ 0) :
    execSpeedWindow k s = .next ((s.setFldInt (encSpeedF k)
      (satS 32 (Int.tdiv ((s.enc k).window * 1000000) (s.fld (encWindowF k))))).setEnc k { s.enc k with window := 0 }) :=
  if_neg hwindow

/-! ### Requalification and handover (R643, R659) -/

theorem execRequalificationEnd_hall (hhall : s.fld (encCtrlMode k) = 2) :
    execRequalificationEnd k s = .next (s.setFld (encStatusRequalifying k) 0) :=
  if_pos (.inl hhall)

section Handover

variable (hhandover : (s.enc k).handover = true)

include hhandover

theorem execHandoverCompare_agrees (hsame : s.encPos k = (s.enc k).ao) :
    execHandoverCompare k s =
      .next ((s.setEnc k { s.enc k with handover := false, index := none }).setFld (encStatusRequalifying k) 1) := by
  simp only [execHandoverCompare, hhandover, hsame, if_true]

theorem execHandoverCompare_differs {t : State} (hother : s.encPos k ≠ (s.enc k).ao) (ht : t = s.encSuspect k) :
    execHandoverCompare k s =
      .next ((t.setEnc k { t.enc k with handover := false, index := none }).setFld (encStatusRequalifying k) 1) := by
  subst ht
  simp only [execHandoverCompare, hhandover, hother, if_false, if_true]

end Handover

end Channel

/-- Settles O44, a clause per command, three for an edge and two for the handover. -/
theorem encoderCommands : Obligations.EncoderCommands :=
  ⟨fun _ _ _ _ _ _ _ => execEncoderEdge_step, fun _ _ _ _ _ => execEncoderEdge_none,
    fun _ _ _ _ _ => execEncoderEdge_invalid, fun _ _ _ => execIndexPulse_first, fun _ _ => execExtensionRead_rebases,
    fun _ _ => execSpeedWindow_stores, fun _ _ => execRequalificationEnd_hall,
    fun _ _ hhandover => execHandoverCompare_agrees hhandover, fun _ _ _ hhandover => execHandoverCompare_differs hhandover⟩

end Sys2Proof.WebEncoders

/-! Events and checks (17_events_and_checks.md): flights and pending events, inputs, logic cells and check units. One
equation per command and case, from which the statement is put together. -/

namespace Sys2Proof.EventNetwork

open Sys2Proof.Machine

/-! ### Delivery (R701, R702, R705, R706) -/

section SingleFlight

variable {v : EvcId} {f : Flight} {s t : State}

/-- The flight `f`, alone on its way for two cycles or more, reaches the input of channel `v`, which is enabled and takes
its source, in the state `t` that it has left. -/
structure Arrives (v : EvcId) (f : Flight) (s t : State) : Prop where
  alone : s.evt.flights = [f]
  chan : f.chan = v.val
  due : f.cycle + 2 ≤ s.clock
  input : s.sameInput f.chan v = true
  left : t = { s with evt := { s.evt with flights := [] } }
  enabled : t.flag (evcChanCfgEnable f.chan) = true
  secure : t.secureOk f.chan = true

theorem execEventDelivery_arrives (h : Arrives v f s t) :
    execEventDelivery v s = .next (if f.hop < 15 then t.deliver f [f] else t.loopDrop f.chan) := by
  obtain ⟨halone, hchan, hdue, hinput, rfl, henabled, hsecure⟩ := h
  have hfind : [f].find? (fun f => decide (f.chan = v.val ∧ f.cycle + 2 ≤ s.clock)) = some f := by simp [hchan, hdue]
  simp only [execEventDelivery, halone, hfind, hinput, henabled, hsecure, List.filter_cons, List.filter_nil, decide_true,
    Bool.and_self, Bool.not_true, Bool.false_eq_true, if_true, if_false]
  by_cases hhop : f.hop < 15
  · simp only [hhop, Nat.not_le.mpr hhop, decide_true, decide_false, Bool.false_eq_true, if_true, if_false, List.foldl_nil]
  · simp only [hhop, Nat.le_of_not_lt hhop, decide_true, decide_false, Bool.false_eq_true, if_true, if_false,
      List.foldl_cons, List.foldl_nil]

end SingleFlight

theorem execPendingEvent_acts {v : EvcId} {f : Flight} {s t : State} (hwaits : s.waitingAt v = some f)
    (hfree : s.consumerBusy v = false) (ht : t = { s with evt := { s.evt with waiting := s.evt.waiting.erase f } }) :
    execPendingEvent v s = .next ((t.setFld (evcChanStatusPending f.chan) 0).consume f) := by
  subst ht
  simp only [execPendingEvent, State.pendingRun, hwaits, hfree, Bool.false_eq_true, if_false]

/-! ### Inputs and logic cells (R708 to R710) -/

/-- Only EIN3 carries the reference pulse of the asymmetry calibration. -/
theorem execEinEdge_plain {p : Fin 4} {level : Bool} {s : State} (hp : p.val ≠ 3) :
    execEinEdge p level s = .next { s with evt := { s.evt with pins := setPin s.evt.pins p level } } := by
  simp only [execEinEdge, hp, decide_false, Bool.and_false, Bool.false_eq_true, if_false]

theorem execLogicCellFire_rises {l : CellId} {s t : State} (hon : s.flag (lcCfgEnable l) = true)
    (hlevel : (s.cell l).level = true) (hheld : s.fld (lcCfgFilter l) ≤ (s.cell l).held)
    (hlow : s.flag (lcStatusOut l) = false)
    (ht : t = ((s.setFld (lcStatusOut l) 1).setFld (lcStatusHop l) (s.cell l).hop).setCell l { s.cell l with hop := 0 }) :
    execLogicCellFire l s = .next (t.fireAt (340 + l) (s.cell l).hop t.taiNs) := by
  subst ht
  simp only [execLogicCellFire, hon, hlevel, hheld, hlow, Bool.false_eq_true, not_false_eq_true, and_self, if_true]

/-! ### Check units (R719, R720) -/

section Load

variable {u : UnitId} {v : Word} {s : State}

theorem execCrcLoad_noLoad (hload : v.getLsbD 4 = false) : execCrcLoad u v s = .next s := by
  simp only [execCrcLoad, State.loadWrite, hload, Bool.false_eq_true, not_false_eq_true, if_true]

section IsLoad

variable (hload : v.getLsbD 4 = true)

include hload

theorem execCrcLoad_repeat (hlater : (s.crc u).loads ≠ 0) (hsame : s.fld (crcStatusLastAlive u) = v.toNat % 16) :
    execCrcLoad u v s = .next (((s.setFld (crcStatusRepeat u) 1).bump (crcCntRepeatF u) 1).crcFire u 2) := by
  simp only [execCrcLoad, State.loadWrite, hload, hlater, hsame, ne_eq, not_true, not_false_eq_true, and_self, if_false,
    if_true]

/-- The first load is never a repeat. -/
theorem execCrcLoad_first (hfirst : (s.crc u).loads = 0) (hfree : (s.crc u).job = none) :
    execCrcLoad u v s = .next (((s.setCrc u { s.crc u with loads := 1 }).crcShow u
      ((s.crc u).staged % 2 ^ s.fld (crcCfgWidth u))).setFld (crcStatusLastAlive u) (v.toNat % 16)) := by
  simp only [execCrcLoad, State.loadWrite, hload, hfirst, hfree, Nat.zero_add, ne_eq, not_true, false_and,
    Option.isSome_none, Bool.false_eq_true, if_false]

end IsLoad

end Load

/-- Settles O46: the two clauses of EVENT_DELIVERY are the two ends of `execEventDelivery_arrives`. -/
theorem eventRouting : Obligations.EventRouting := by
  refine ⟨fun v f s t halone hchan hdue hinput hhop ht henabled hsecure => ?deliver,
    fun v f s t halone hchan hdue hinput hhop ht henabled hsecure => ?drop, fun _ _ _ _ => execPendingEvent_acts,
    fun _ _ _ => execEinEdge_plain, fun _ _ _ => execLogicCellFire_rises, fun _ _ _ => execCrcLoad_noLoad,
    fun _ _ _ hload => execCrcLoad_repeat hload, fun _ _ _ hload => execCrcLoad_first hload⟩
  all_goals have harrives : Arrives v f s t := ⟨halone, hchan, hdue, hinput, ht, henabled, hsecure⟩
  case deliver => exact (execEventDelivery_arrives harrives).trans (by rw [if_pos hhop])
  case drop => exact (execEventDelivery_arrives harrives).trans (by rw [if_neg (Nat.not_lt.mpr hhop)])

end Sys2Proof.EventNetwork

/-! The day cycle (19_day_cycle.md, with 20_faults_and_limits.md and 21_electrical_mechanical.md): wake sources and starts,
what watches over a running module, and what ends its day. One equation per command and case, from which the statements are
put together. -/

namespace Sys2Proof.DayCycle

open Sys2Proof.Machine

/-! ### Wake sources (R751) -/

section Wake

variable {s : State}

theorem wakeSource_night {b : Nat} (hnight : s.mode = 0) (hdusk : s.duskToNight = false) (hheeded : s.wakeHeeded b = true) :
    s.wakeSource b = s.leaveNight := by
  simp only [State.wakeSource, hdusk, hnight, hheeded, Bool.false_eq_true, and_self, if_false, if_true]

theorem wakeSource_duskFirst {b : Nat} (hdusk : s.duskToNight = true) (hfirst : s.pwr.latched = []) :
    s.wakeSource b = { s with pwr := { s.pwr with latched := [b] } } := by
  simp only [State.wakeSource, hdusk, hfirst, List.contains_nil, Bool.false_eq_true, if_false, if_true, List.nil_append]

theorem execWakeTimer_ends (hnight : s.mode = 0) (hruns : s.fld pwrWakeTimerF ≠ 0) :
    execWakeTimer s = .next ((s.setFld pwrWakeTimerF 0).wakeSource 2) := by
  rw [execWakeTimer, if_pos ⟨hnight, hruns⟩]

/-- Media 3 of port A wakes without a held DRAM. -/
theorem execNightSignalDetect_media3 (hmedia : s.fld (hspPortMedia 0) = 3) :
    execNightSignalDetect s = .next (s.wakeSource 3) := by
  rw [execNightSignalDetect, if_pos (.inl hmedia)]

/-! ### Starts (R746, R757, R758, R760, R763, R764) -/

theorem execPresentAsserted_supplies (hheld : s.pwr.holding = false) (hoff : s.pwr.supply = false) :
    execPresentAsserted s =
      .next (({ s with pwr := { s.pwr with present := true, supply := true, inserted := true } }).emit (.power 1 true)) := by
  simp only [execPresentAsserted, hheld, hoff, Bool.false_eq_true, if_false]

theorem execInputQualified_dawn {mv : Nat} {t u : State} (hnight : s.mode = 0) (hpresent : s.pwr.present = true)
    (hinserted : s.pwr.inserted = true) (hlow : 8800 ≤ mv) (hhigh : mv ≤ 62000) (hsupply : s.pwr.supply = true)
    (ht : t = (s.setFld pwrInputVin mv).setFld pwrStatusHoldupCharged 1)
    (hu : u = ({ t with pwr := { t.pwr with supply := true } }).startDawn) :
    execInputQualified mv s = .next { u with pwr := { u.pwr with inserted := false } } := by
  subst ht hu
  have hfits : min mv 65535 = mv := Nat.min_eq_left (by omega)
  simp only [execInputQualified, hnight, hpresent, hinserted, hlow, hhigh, hfits, hsupply, pwr_setFld, and_self, if_true]

section Dawn

variable {r : StepResult} {n : Nat} (hdawn : s.mode = 1) (hn : n = s.pwr.step + 1) (hnotTraining : n ≠ 6)
  (hnotCompile : n ≠ 11)

include hdawn hn hnotTraining hnotCompile

theorem execDawnStep_sound (hsound : s.dawnBad n r = false) :
    execDawnStep r s = .next (({ s with pwr := { s.pwr with step := n } }).dawnEffect n r) := by
  simp only [execDawnStep, ← hn, hdawn, hnotTraining, hnotCompile, hsound, ne_eq, not_true, false_and, or_self,
    Bool.false_eq_true, if_false]

theorem execDawnStep_fails (hbad : s.dawnBad n r = true) : execDawnStep r s = .next (s.dawnFails n (dawnCause n)) := by
  simp only [execDawnStep, ← hn, hdawn, hnotTraining, hnotCompile, hbad, ne_eq, not_true, false_and, or_self, if_false,
    if_true]

end Dawn

section Sunrise

variable (hsunrise : s.mode = 2)

include hsunrise

theorem execSunriseStep_sound {n : Fin 16} {r : StepResult} (hnoRetry : s.pwr.retry = false)
    (hruns : sunriseRuns s.pwr.done n.val = true) (hnotTraining : n.val ≠ 7) (hok : r.ok = true) :
    execSunriseStep n r s =
      .next (({ s with pwr := { s.pwr with done := s.pwr.done ++ [n.val], step := n.val } }).sunriseEffect n.val r) := by
  simp only [execSunriseStep, hsunrise, hnoRetry, hruns, hnotTraining, hok, ne_eq, not_true, Bool.false_eq_true,
    Bool.true_eq_false, false_and, and_false, or_self, if_false]

section Retry

variable (hretry : s.pwr.retry = true)

include hretry

theorem execWarmFailRetry_again
    (hfew : (s.pwr.warmFails.filter (fun t => decide (s.clock < t + 375000000000))).length < 3) :
    execWarmFailRetry s = .next { s with pwr := { s.pwr with retry := false, step := 0, done := [] } } := by
  simp only [execWarmFailRetry, hsunrise, hretry, Nat.not_le.mpr hfew, ne_eq, not_true, Bool.true_eq_false, or_self, if_false]

/-- The third warm start that fails within 10 minutes, 375 000 000 000 periods of 1.6 ns, is the last. -/
theorem execWarmFailRetry_cold
    (hmany : 3 ≤ (s.pwr.warmFails.filter (fun t => decide (s.clock < t + 375000000000))).length) :
    execWarmFailRetry s = .next ((s.setFld pwrStartFailCause 7).startDawn) := by
  simp only [execWarmFailRetry, hsunrise, hretry, hmany, ne_eq, not_true, Bool.true_eq_false, or_self, if_false, if_true]

end Retry

end Sunrise

/-- A factory reset of session `n`: its key, its kept reply, its accepted sequence and its key's generation. -/
def sessionForgotten (s : State) (n : Nat) : State :=
  ((s.setSession n { s.session n with key := none, reply := [] }).set64 (hssSeqLo n) 0).setFld (hstKeyGenF n) 0

theorem execFresetHold_clears {ms : Nat} {t : State} (hdawn : s.mode = 1) (hstep : s.pwr.step = 1)
    (hfirst : s.pwr.freset = false) (hlong : 5000 ≤ ms)
    (ht : t = ({ s with pwr := { s.pwr with
      freset := true, flash := { s.pwr.flash with seqMarks := [0, 0, 0, 0] } } }).setFld hstKeysProvisioned 0) :
    execFresetHold ms s = .next ([0, 1, 2, 3].foldl sessionForgotten t) := by
  subst ht
  exact if_pos ⟨hdawn, hstep, hfirst, hlong⟩

end Wake

/-- Settles O48: WAKE_INPUT is wake source 1, in NIGHT or in a DUSK that leads there; a clause per case of each start. -/
theorem powerWake : Obligations.PowerWake := by
  refine ⟨fun s hnight hdusk hheeded => ?night, fun s hdusk hfirst => ?dusk, fun _ => execWakeTimer_ends,
    fun _ => execNightSignalDetect_media3, fun _ => execPresentAsserted_supplies, fun _ _ _ _ => execInputQualified_dawn,
    fun _ _ _ => execDawnStep_sound, fun _ _ _ => execDawnStep_fails,
    fun _ _ _ hsunrise => execSunriseStep_sound hsunrise, fun _ => execWarmFailRetry_again, fun _ => execWarmFailRetry_cold,
    fun _ _ _ => execFresetHold_clears⟩
  case night => exact congrArg Host.Outcome.next (wakeSource_night hnight hdusk hheeded)
  case dusk => exact congrArg Host.Outcome.next (wakeSource_duskFirst hdusk hfirst)

/-! ### Domains, temperatures, currents and watchdogs (R665, R744, R754 to R756, R778, R787) -/

section Domain

variable {d : Fin 48} {ns b : Nat} {s : State} (hnoon : s.mode = 4) (hdue : s.domainDue d = true)
  (hbound : wakeBound d = some b)

include hnoon hdue hbound

theorem execDomainWake_inTime (htime : ns ≤ b) : execDomainWake d ns s = .next (s.setDomain d true) := by
  have hrunning : ¬ (s.mode < 3 ∨ 5 < s.mode) := by omega
  simp only [execDomainWake, hrunning, hdue, hbound, Nat.not_lt.mpr htime, if_false, if_true]

theorem execDomainWake_late (hlate : b < ns) :
    execDomainWake d ns s = .next (((s.setDomain d true).bump pwrCntWakeLateF 1).fire 390) := by
  have hrunning : ¬ (s.mode < 3 ∨ 5 < s.mode) := by omega
  simp only [execDomainWake, hrunning, hdue, hbound, hlate, if_false, if_true]

end Domain

section Running

variable {s t : State}

/-- The four temperatures in their registers. -/
def temperaturesShown (die dram stage bridge : Int) (s : State) : State :=
  (((s.setFldInt pwrTempDie (satS 8 die)).setFldInt pwrTempDram (satS 8 dram)).setFldInt pwrTempStage
    (satS 8 stage)).setFldInt pwrTempBridge (satS 8 bridge)

/-- The four temperatures against their warning and critical limits (R756). -/
def temperaturesChecked (die dram stage bridge : Int) (s : State) : State :=
  (((s.tempCheck 0 die 110 125).tempCheck 1 dram 95 105).tempCheck 2 stage 120 135).tempCheck 3 bridge 140 150

/-- Entries of `warned` from 4 on are those of critical limits. -/
theorem execTemperatureRead_noneCritical {die : List Int} {dram stage bridge : Int} {u : State} (hmode : s.mode ≠ 0)
    (ht : t = temperaturesShown (hottest die) dram stage bridge s)
    (hu : u = temperaturesChecked (hottest die) dram stage bridge t)
    (hnone : u.pwr.warned.filter (fun j => decide (4 ≤ j)) = []) (hday : u.mode ≠ 6) :
    execTemperatureRead die dram stage bridge s = .next u := by
  subst hu ht
  simp only [temperaturesChecked, temperaturesShown] at hnone hday ⊢
  simp only [execTemperatureRead, hmode, hnone, hday, false_and, if_false]

/-- Currents are in units of 10 mA. -/
theorem execCurrentLimit_begins {i : Nat} (hmode : s.mode ≠ 0) (hhigh : 4000 ≤ i) (hnot : s.pwr.limiting = false)
    (ht : t = (s.setFld pwrInputIin (min i 65535)).setFld pwrStatusCurrentLimit 1) :
    execCurrentLimit i s = .next (({ t with pwr := { t.pwr with limiting := true } }).fire 391) := by
  subst ht
  simp only [execCurrentLimit, hmode, Nat.not_lt.mpr hhigh, hnot, Bool.false_eq_true, or_self, if_false]

theorem execCurrentReduction_ends {i : Nat} (hlimiting : s.pwr.limiting = true)
    (ht : t = s.setFld pwrInputIin (min i 65535)) (hlow : i < 3800) :
    execCurrentReduction i s = .next { t with pwr := { t.pwr with limiting := false } } := by
  subst ht
  simp only [execCurrentReduction, hlimiting, hlow, Bool.true_eq_false, if_false, if_true]

theorem execCurrentReduction_cuts {i : Nat} (hlimiting : s.pwr.limiting = true) (hhigh : 3800 ≤ i) :
    execCurrentReduction i s = .next (s.setFld pwrInputIin (min i 65535)).cutCurrents := by
  simp only [execCurrentReduction, hlimiting, Nat.not_lt.mpr hhigh, Bool.true_eq_false, if_false]

section Derating

variable {mv : Nat} (hmode : s.mode ≠ 0)

include hmode

theorem execDeratingEvaluation_begins (hnot : s.flag pwrStatusDerated = false) (hlow : mv < 24000) :
    execDeratingEvaluation mv s = .next ((((s.setFld pwrInputVin mv).setFld pwrStatusDerated 1).fire 384).limitAxes
      (some (3000 * mv / 24000))) := by
  have hfits : min mv 65535 = mv := Nat.min_eq_left (by omega)
  simp only [execDeratingEvaluation, hmode, hnot, hlow, hfits, true_or, Bool.not_false, State.fireIf, if_false, if_true]

/-- Derating ends half a volt above the threshold at which it begins. -/
theorem execDeratingEvaluation_ends (hderated : s.flag pwrStatusDerated = true) (hhigh : 24500 ≤ mv) :
    execDeratingEvaluation mv s =
      .next (((s.setFld pwrInputVin (min mv 65535)).setFld pwrStatusDerated 0).limitAxes none) := by
  have hnotLow : ¬ (mv < 24000 ∨ mv < 24500) := by omega
  simp only [execDeratingEvaluation, hmode, hderated, true_and, hnotLow, if_false, if_true]

end Derating

/-- 100 ms are 62 500 000 periods of 1.6 ns. -/
theorem execWatchdogExpiry_late {c : Fin 4} (hmode : 3 ≤ s.mode) (hlate : natAt s.pwr.watchdog c + 62500000 ≤ s.clock) :
    execWatchdogExpiry c s = .next (s.catalogue 9 c none).warmFault := by
  simp only [execWatchdogExpiry, Nat.not_lt.mpr hmode, Nat.not_lt.mpr hlate, or_self, if_false]

end Running

/-- Settles O49, a clause per command and case; CRITICAL_COOLDOWN and WATCHDOG_SERVICE have one case each. -/
theorem powerRunning : Obligations.PowerRunning :=
  ⟨fun _ _ _ _ => execDomainWake_inTime, fun _ _ _ _ => execDomainWake_late,
    fun _ _ _ _ _ _ _ => execTemperatureRead_noneCritical, fun _ => rfl,
    fun _ _ _ => execCurrentLimit_begins, fun _ _ _ => execCurrentReduction_ends, fun _ _ => execCurrentReduction_cuts,
    fun _ _ hmode => execDeratingEvaluation_begins hmode, fun _ _ hmode => execDeratingEvaluation_ends hmode,
    fun _ _ => rfl, fun _ _ => execWatchdogExpiry_late⟩

/-! ### Hold-up, overvoltage and losses (R742, R746, R764 to R767, R776, R777) -/

section Loss

variable {s t : State}

theorem execHoldUp_running {u : Bool} (hsupply : s.pwr.supply = true) (hnot : s.pwr.holding = false)
    (ht : t = ((s.setFld pwrStartFailLastLoss (if u then 2 else 1)).setFld pwrStartFailHoldupDone 0).fire
      (if u then 385 else 386))
    (hmode : 3 ≤ t.mode) :
    execHoldUp u s = .next (({ t with pwr := { t.pwr with
      present := u && t.pwr.present, holding := true } }).holdUp (if u then 1 else 0)) := by
  obtain ⟨m, hm⟩ := Nat.exists_eq_add_of_le' hmode
  have hstays : ({ t with pwr := { t.pwr with present := u && t.pwr.present, holding := true } } : State).mode = m + 3 := hm
  subst ht
  simp only [execHoldUp, hsupply, hnot, hstays, Bool.true_eq_false, Bool.false_eq_true, or_self, if_false]

theorem execOvervoltage_night {u : State} (hsupply : s.pwr.supply = true)
    (ht : t = ((s.fire 387).setFld pwrStartFailLastLoss 3).setFld pwrStartFailHoldupDone 0) (hnight : t.mode = 0)
    (hu : u = ({ t with pwr := { t.pwr with holding := true } }).alwaysOnLost) :
    execOvervoltage s = .next (({ u with pwr := { u.pwr with inserted := true } }).emit (.power 1 false)) := by
  have hstays : ({ t with pwr := { t.pwr with holding := true } } : State).mode = 0 := hnight
  subst ht hu
  simp only [execOvervoltage, hsupply, hstays, Bool.true_eq_false, if_false, if_true]

section Return

variable (hheld : s.pwr.holding = true) (hnight : s.mode = 0)

include hheld hnight

theorem execInputReturn_warm (hdram : s.pwr.dramKept = true) (hrecord : s.pwr.recordValid = true) :
    execInputReturn s =
      .next (({ s with pwr := { s.pwr with present := true, holding := false } }).startSunrise s.pwr.faultMode) := by
  simp only [execInputReturn, hheld, hnight, hdram, hrecord, ne_eq, not_true, Bool.true_eq_false, or_self, and_self, if_false,
    if_true]

theorem execInputReturn_cold (hdram : s.pwr.dramKept = false) (hfree : s.pwr.blocked = false) :
    execInputReturn s = .next ({ s with pwr := { s.pwr with present := true, holding := false } }).startDawn := by
  simp only [execInputReturn, hheld, hnight, hdram, hfree, ne_eq, not_true, Bool.true_eq_false, Bool.false_eq_true, or_self,
    false_and, if_false]

end Return

theorem execHoldupExhausted_holding (hheld : s.pwr.holding = true) :
    execHoldupExhausted s = .next (s.alwaysOnLost.emit (.power 1 false)) := by
  rw [execHoldupExhausted, if_pos hheld]

theorem execPllLockLoss_running {p : Fin 4} (hmode : 3 ≤ s.mode) : execPllLockLoss p s = .next (s.pllLost p) := by
  obtain ⟨m, hm⟩ := Nat.exists_eq_add_of_le' hmode
  simp only [execPllLockLoss, hm]

theorem execSliceLoss_first {k : SliceId} (hmode : 3 ≤ s.mode) (hfirst : (s.slice k).lost = false)
    (ht : t = ((s.setSlice k { s.slice k with lost := true, asleep := false }).setDomain (13 + k) false).setDomain (17 + k)
      false) :
    execSliceLoss k s =
      .next ((((t.sliceCtxs k).map Prod.fst).foldl State.ctxLost t).catalogue 3 k (some (76 + k))) := by
  subst ht
  simp only [execSliceLoss, Nat.not_lt.mpr hmode, hfirst, Bool.false_eq_true, or_self, if_false]

@[simp] theorem pln_setDomain (s : State) (d : Nat) (on : Bool) : (s.setDomain d on).pln = s.pln :=
  (State.setDomain_keeps s d on).same_of_not_mem (p := .pln) (by decide)

/-- Without a plan no context has its lines skipped. -/
theorem execEngineLoss_noPlan {g : EngineId} (hmode : 3 ≤ s.mode) (hfirst : s.pwr.engineLost.contains g.val = false)
    (hplan : s.pln.plan = none)
    (ht : t = ({ s with pwr := { s.pwr with engineLost := s.pwr.engineLost ++ [g.val] } }).setDomain (23 + g) false) :
    execEngineLoss g s = .next ((t.catalogue 7 g none).cmpFire g 7) := by
  subst ht
  simp only [execEngineLoss, Nat.not_lt.mpr hmode, hfirst, Bool.false_eq_true, or_self, if_false, pln_setDomain, hplan,
    List.foldl_nil]

/-! ### The end of DUSK (R761) -/

section Dusk

variable (hdusk : s.mode = 6)

include hdusk

theorem execDuskDrainEnd_drainOver (hstep : s.pwr.duskStep = 4) : execDuskDrainEnd s = .next s.duskEnd := by
  simp only [execDuskDrainEnd, hdusk, hstep, ne_eq, not_true, if_false, if_true]

theorem execDuskDrainEnd_drained (hstep : s.pwr.duskStep = 2) (hdrained : s.drained = true)
    (ht : t = ({ s.gateAll with pwr := { s.gateAll.pwr with duskStep := 3 } }).drainPennants) (hqueue : t.pen.queue = [])
    (hstaging : t.pen.staging = []) : execDuskDrainEnd s = .next t.duskEnd := by
  subst ht
  simp only [execDuskDrainEnd, hdusk, hstep, hdrained, hqueue, hstaging, ne_eq, not_true, Nat.reduceEqDiff,
    Bool.true_eq_false, and_false, List.isEmpty_nil, and_self, if_false, if_true]

theorem execDrainTimeout_draining (hstep : s.pwr.duskStep = 3) :
    execDrainTimeout s = .next { s with pwr := { s.pwr with duskStep := 4 } } := by
  simp only [execDrainTimeout, hdusk, hstep, ne_eq, not_true, Nat.reduceEqDiff, or_self, if_false]

end Dusk

end Loss

/-- Settles O50, a clause per command and case. -/
theorem powerLoss : Obligations.PowerLoss :=
  ⟨fun _ _ _ => execHoldUp_running, fun _ _ _ => execOvervoltage_night, fun _ => execInputReturn_warm,
    fun _ => execInputReturn_cold, fun _ => execHoldupExhausted_holding, fun _ _ => execPllLockLoss_running,
    fun _ => execDuskDrainEnd_drainOver, fun _ _ => execDuskDrainEnd_drained, fun _ => execDrainTimeout_draining,
    fun _ _ _ => execSliceLoss_first, fun _ _ _ => execEngineLoss_noPlan⟩

end Sys2Proof.DayCycle
